-- ==== Sys2Proof/Word.lean ====
section
/-! DEFINITION. The word types of the machine and the names of its units. -/

namespace Sys2Proof

/-- A dword (R5). -/
abbrev W := BitVec 64

/-- A byte (R5). -/
abbrev Byte := BitVec 8

/-- A vector register (R13). -/
abbrev V := BitVec 1024

/-- A g register number, as an instruction field holds it (R68). -/
abbrev Reg := BitVec 5

/-- The location of a core, die : floe : core, most significant first (R4); the layout of a TARGET
field. -/
abbrev CoreId := BitVec 11

/-- The location of a floe or of its router, die : floe (R4). -/
abbrev FloeId := BitVec 8

/-- The number of a context in its core (R4). -/
abbrev CtxId := BitVec 4

/-- The number of an endpoint (R188). -/
abbrev EpId := BitVec 6

end Sys2Proof
end

