-- ==== Sys2Proof/Syntax.lean ====
section
/-! DEFINITION. The instructions and events of the module: one constructor of `Instr` per row of
spec/opcode_table.json, and the data that travels in its packets, frames and commands. -/

namespace Sys2Proof

/-! ### What packets carry -/

/-- Who waits for a reply: the issuing core and context, and the number of the transaction. -/
structure Issuer where
  core : CoreId
  ctx  : CtxId
  txn  : Nat
  deriving DecidableEq, Repr

/-- Who sent a request that a class counter counts, and what its fault record reports (R151, R153). -/
structure Origin where
  core : CoreId
  ctx  : CtxId
  op   : Nat
  fpc  : W
  insn : BitVec 32
  deriving DecidableEq, Repr

/-- A protocol as one end of a connection names it: a built-in number and role, or an image (R199, R222). -/
inductive Proto where
  | builtin (n : Nat) (role : Nat)
  | image (bytes : List Byte)
  deriving DecidableEq, Repr

/-- A connection request (R200, R233). `src` is the requester's own location, laid out as endpoint
word w1 with its generation after OPEN in PGEN. -/
structure ConnReq where
  src   : W
  ep    : EpId
  pgen  : BitVec 16
  proto : Proto
  dom   : BitVec 32
  depth : Nat
  recov : W
  deriving DecidableEq, Repr

/-- A request to a memory controller (R385): who sent it, the number of the transaction that a blocked
`gld` waits for (0 for none), the endpoint that carries it, the controller the endpoint names, the memory key where the
reply of a `gvld` goes, and, of a load, the bytes of stores before it in the core's queue that have not been performed: index,
byte and store (R340). -/
structure MemReq where
  org    : Origin
  txn    : Nat
  ep     : EpId
  gen    : BitVec 16
  peer   : Nat
  write  : Bool
  pa     : Nat
  va     : W
  size   : Nat
  key    : Nat
  data   : List Byte
  dst    : Nat
  fwd    : List (Nat × Byte × Origin) := []
  deriving DecidableEq, Repr

/-- The kind of a window access (R176, R247, R248). -/
inductive WinKind where
  | read
  | write
  | amo (op : Nat) (cmp : W)
  deriving DecidableEq, Repr

/-- A window access (R247); `txn` numbers the transaction that its blocked issuer waits for (0 for none). -/
structure WinReq where
  org    : Origin
  txn    : Nat
  ep     : EpId
  gen    : BitVec 16
  src    : CoreId
  kind   : WinKind
  off    : Nat
  size   : Nat
  data   : List Byte
  deriving DecidableEq, Repr

/-- A present-marked write (R249). -/
structure WpmReq where
  org  : Origin
  ep   : EpId
  gen  : BitVec 16
  src  : CoreId
  off  : Nat
  data : List Byte
  slot : Nat
  rcd  : Nat
  nb   : Nat
  deriving DecidableEq, Repr

/-- How an access at a target ended (R177, R387). -/
inductive Verdict where
  | ok
  | nack
  | dataErr (addr : W)
  deriving DecidableEq, Repr

/-- A copy's snapshot of the shadow set, and who owns it (R253). -/
structure CopyDesc where
  owner  : CoreId
  ctx    : CtxId
  op     : Nat
  xid    : BitVec 16
  tag    : BitVec 6
  fpc    : W
  insn   : BitVec 32
  rm     : Nat
  shadow : List W
  deriving DecidableEq, Repr

/-- The failure of a copy or of an engine's access (R264): the cause, the failing address, and what DETAIL
shows besides the tag. -/
structure CopyFail where
  cause  : Nat
  addr   : W
  detail : Nat
  deriving DecidableEq, Repr

/-- A tile drain on its way, or a packet of it (R275). Rows hold converted bytes, `first` being the number of the first of
`total`. -/
structure DrainPkt where
  org    : Origin
  src    : CoreId
  ep     : Option (EpId × BitVec 16)
  tile   : BitVec 6
  target : CoreId
  off    : Nat
  ldd    : Nat
  rows   : List (List Byte)
  flags  : BitVec 5
  wake   : Option (List W)
  task   : Option Nat
  first  : Nat := 0
  total  : Nat := 0
  deriving DecidableEq, Repr

/-- A Gaussian message on its way to a mailbox (R298); `slot` is the pool offset of the slot that has accepted it (R297). -/
structure GbpPkt where
  org   : Origin
  ep    : EpId
  gen   : BitVec 16
  mslot : Nat
  bytes : List Byte
  slot  : Option Nat
  deriving DecidableEq, Repr

/-- The value of a reduction packet (R366). -/
inductive RedVal where
  | scalar (w : W)
  | exact (v : Int) (nz snan nan ninf pinf : Bool)
  | top (l : List W)
  deriving DecidableEq, Repr

/-- A reduction packet (R365, R366). `ptype`, `epoch`, `idx` and so on are the fields of Table 16.3;
`bits` is the bitmap, bit j for contributor LO + j. -/
structure RedPkt where
  stream : BitVec 12
  ptype  : Nat
  epoch  : BitVec 16
  idx    : Nat
  exc    : BitVec 5
  rsh    : Bool
  set    : Nat
  fmt    : Nat
  op     : Nat
  km1    : Nat
  seq    : Nat
  nbf    : Nat
  bits   : Nat
  val    : RedVal
  deriving DecidableEq, Repr

/-- What a packet carries. Every constructor names the endpoint or unit it reaches at its
destination; `gen` is the generation the sender holds for it (R190); to a hardware unit, which names its end of a channel by
the core endpoint, that is the endpoint's own. `reply` is what a unit answers on a channel: a message with its sequence number,
or a credit, which has none (R198, R207, R208). -/
inductive Body where
  | msg (ep : EpId) (gen : BitVec 16) (cls typ : Nat) (seq : BitVec 16) (credits : Nat) (payload : List Byte)
  | credit (ep : EpId) (gen : BitVec 16) (n : Nat)
  | noteCredit (note ep : EpId) (gen : BitVec 16)
  | close (ep : EpId) (gen : BitVec 16)
  | loss (ep : EpId) (gen : BitVec 16) (reason : Nat)
  | notice (ep : EpId) (gen : BitVec 16) (record : List W)
  | bound (ep : EpId) (gen : BitVec 16) (z : W)
  | redirect (ep : EpId) (gen : BitVec 16) (z : W) (src : W)
  | redirectAck (ep : EpId) (gen : BitVec 16) (first : BitVec 16)
  | connReq (r : ConnReq)
  | connRes (ep : EpId) (ok : Bool) (peer : W) (depth : Nat)
  | withdraw (ep : EpId) (gen : BitVec 16) (src : W)
  | withdrawn (ep : EpId)
  | reply (ep : EpId) (gen : BitVec 16) (seq : Option (BitVec 16)) (answer : Body)
  | mem (r : MemReq)
  | memReply (r : MemReq) (v : Verdict) (data : List Byte)
  | win (r : WinReq)
  | winReply (r : WinReq) (v : Verdict) (old : W) (flags : BitVec 5)
  | wpm (r : WpmReq)
  | wpmReply (r : WpmReq) (v : Verdict)
  | copyReq (ep : EpId) (gen : BitVec 16) (d : CopyDesc)
  | copyAns (d : CopyDesc) (fail : Option CopyFail) (flags : BitVec 5)
  | chunk (d : CopyDesc) (chunk : BitVec 6) (engine : CoreId) (op : Nat) (adds : List (Nat × W))
  | chunkAns (d : CopyDesc) (chunk : BitVec 6) (fail : Option CopyFail) (flags : BitVec 5)
  | keyRetire (org : Origin) (key : BitVec 32)
  | keyRetired (org : Origin)
  | rows (d : DrainPkt)
  | rowsAck (d : DrainPkt) (v : Verdict)
  | gbp (g : GbpPkt)
  | gbpCredit (g : GbpPkt) (v : Verdict)
  | enqueue (org : Option Origin) (record : List W) (handle : Option W)
  | task (ep : EpId) (gen : BitVec 16) (host : Bool) (record : List W) (handle : W)
  | enqueueAck (org : Origin) (ok : Bool) (handle : W)
  | handleReq (i : Issuer) (idx : Nat)
  | handleReply (i : Issuer) (h : W)
  | stealReq (i : Issuer)
  | stealReply (i : Issuer) (v : W)
  | marker (stream : BitVec 12)
  | red (r : RedPkt)
  | redResult (r : RedPkt)
  | buddy (ep : EpId) (gen : BitVec 16) (r : RedPkt)
  deriving DecidableEq, Repr

/-- The unit that a packet is for (Table 10.2, Table 21.1): a core, the pool port or copy engine of a core,
a memory controller, a floe's dispenser, the host endpoint. -/
inductive Dest where
  | core (c : CoreId)
  | port (c : CoreId)
  | ctrl (m : BitVec 5)
  | floe (f : FloeId)
  | host
  deriving DecidableEq, Repr

/-- The lane a packet stands in: the shared one, an escape lane, or that of a class at a fabric input (R355, R439). -/
inductive Lane where
  | shared
  | escape (cls : Bool)
  | fabric (cls : Nat)
  deriving DecidableEq, Repr

/-- Where the head of a packet in flight is: at its destination unit; at its source, in the crossbar of its floe before the
lanes of port L, or at the controller or host endpoint before those of port A (R353, R415); formed by a router, before the ports it leaves by (R364, R369); in an input lane of a router; or on its way out of
the network by an output of a router, from a lane of that kind. -/
inductive Place where
  | arrived
  | queued (router : FloeId) (port : Nat)
  | formed (router : FloeId)
  | standing (router : FloeId) (port : Nat) (lane : Lane)
  | leaving (router : FloeId) (out : Nat) (lane : Lane)
  deriving DecidableEq, Repr

/-- Flits of a packet in an input lane that its head has left (R355, R356). -/
structure Held where
  router : FloeId
  port   : Nat
  lane   : Lane
  flits  : Nat
  deriving DecidableEq, Repr

/-- A packet in flight: the core that sent it, its network header (Table 16.1, with the fabric fields of
Table 23.4) and what it carries. `fcls` is its class in the fabric dimension it travels, `fin` the fabric
port it entered this module by, `via` the one it leaves by (R444). `flow` numbers the ordered flow it belongs
to, if any (R360). `here` counts the flits where its head is, `behind` those in the lanes that the head has left, nearest
first, `rest` those not yet in a lane (R356); `awaits` says that these are still to come by the fabric, on which rail and in
which lane (R439). `mask` holds the output ports that a stream packet must still go to, once its
router has taken it, and `ent` the stream entry it found there when a load has replaced that since (R363, R424). `parked`
says that its unit has taken it up and that it waits there, for its slot or for an engine: what arrived later need not wait
for it (R207, R267); `placed` that a reply stands in its slot. -/
structure Packet where
  src    : CoreId
  kind   : Nat
  adapt  : Bool
  esc    : Bool
  vc     : Bool
  len    : Nat
  dmod   : BitVec 19
  dst    : Dest
  rev    : BitVec 5
  fcls   : Nat
  fin    : Option (BitVec 5)
  via    : Option (BitVec 5)
  place  : Place
  flow   : Option Nat
  body   : Body
  here   : Nat := 0
  behind : List Held := []
  rest   : Nat := 0
  mask   : Nat := 0
  ent    : Option (W × W) := none
  awaits : Option (Bool × Nat) := none
  parked : Bool := false
  placed : Bool := false
  deriving DecidableEq, Repr

/-- A frame of the fabric (R439, Table 23.3). Each slot in use holds one flit, named by the packet it belongs
to and whether it is that packet's last. `lanes` are the counts of a control frame; `lost` the address and
TTL of a lost-module frame (R447). -/
structure Frame where
  ftype : Nat
  rail  : Bool
  seq   : BitVec 12
  ack   : BitVec 12
  cls   : List Nat
  crcOk : Bool
  slots : List (Packet × Bool)
  lanes : List Nat
  lost  : Option (BitVec 19 × BitVec 6)
  deriving DecidableEq, Repr

/-! ### What the host and the loader hand over -/

/-- The body of a configuration image (Table 21.6). -/
inductive ImageBody where
  | firmware (code : List Byte)
  | protocols (images : List (List Byte))
  | streams (entries : List (FloeId × BitVec 12 × W × W))
  | routing (entries : List (BitVec 16 × BitVec 16 × FloeId))
  | launchWords (part xroot gmbox dqbase dqlim jdom pc : W)
  | policy (apol : W)
  deriving DecidableEq, Repr

/-- A configuration image (R423): its header dwords, the LEN bytes of its body, and the signature. -/
structure Image where
  header : List W
  bytes  : List Byte
  sig    : List Byte
  deriving DecidableEq, Repr

/-- A security command (Table 21.3). -/
inductive SecCmd where
  | image (i : Image)
  | loadKey (slot : BitVec 7) (wrapped : List Byte)
  | dropKey (slot : BitVec 7)
  | attest (nonce : List Byte) (addr : W)
  | launch
  | reset
  | unknown (code : Nat)
  deriving DecidableEq, Repr

/-- An entry of a host channel's send ring (R422). -/
structure HostEntry where
  cls     : Nat
  typ     : Nat
  payload : List Byte
  deriving DecidableEq, Repr

/-- An input port of a floe's router (R353). -/
structure RouterPort where
  floe : FloeId
  port : BitVec 3
  deriving DecidableEq, Repr

/-- A controller's copy of a key slot (R419). -/
structure SlotCopy where
  ctrl : BitVec 5
  slot : BitVec 7
  deriving DecidableEq, Repr

/-- A management register as an access names it (R430): by its number, over BAR0 or at an I3C address. -/
structure RegAccess where
  via : Option (BitVec 7)
  num : BitVec 12
  deriving DecidableEq, Repr

/-! ### Instructions and events -/

/-- The events of the opcode table, which have no encoding, with the unit or packet each concerns; then
the instructions of the table with their operand fields. -/
inductive Instr where
  | illegalInstruction
  | forfeitedTurn
  | dispenserDelivery (f : FloeId) (bad : Bool)
  | timerExpiry (c : CoreId)
  | watchdogExpiry (c : CoreId) (k : CtxId)
  | spillWriteComplete (c : CoreId) (ok : Bool)
  | spillReloadComplete (c : CoreId) (err : Option W)
  | frameDataError (c : CoreId) (k : CtxId) (off : W)
  | fetchFillComplete (c : CoreId) (k : CtxId)
  | translationWalkStart (die : BitVec 2)
  | walkTableReadReply (die : BitVec 2) (n : Nat)
  | xrootWrite (v : W)
  | tlbinvWrite (v : W)
  | tlbinvDropComplete (c : CoreId)
  | dqbaseWrite (v : W)
  | dqlimWrite (v : W)
  | gmboxWrite (v : W)
  | epownWrite (n : BitVec 2) (v : W)
  | jdomWrite (v : W)
  | windowRegisterWrite (n : BitVec 3) (v : W)
  | fstWrite (v : W)
  | frec0Write (v : W)
  | qringWrite (n : BitVec 2) (v : W)
  | driftWrite (v : W)
  | tscWrite (v : W)
  | protocolImageLoad (c : CoreId) (k : CtxId)
  | connectionRequestArrival (p : Nat)
  | connectionResultArrival (p : Nat)
  | connectWithdrawal (p : Nat)
  | messageArrival (p : Nat)
  | creditPacketArrival (p : Nat)
  | closePacketArrival (p : Nat)
  | lossPacketArrival (p : Nat)
  | boundArrival (p : Nat)
  | redirectArrival (p : Nat)
  | redirectAckArrival (p : Nat)
  | memrdRequest (p : Nat)
  | memwrRequest (p : Nat)
  | requestForward (p : Nat)
  | memrdReplyArrival (p : Nat)
  | memwrAckArrival (p : Nat)
  | windowAccessArrival (p : Nat)
  | wpmArrival (p : Nat)
  | windowReplyArrival (p : Nat)
  | negativeAcknowledgement (p : Nat)
  | copyChunkDone (c : CoreId) (tag : BitVec 6) (chunk : BitVec 6)
  | copyComplete (c : CoreId) (tag : BitVec 6)
  | copyFailure (c : CoreId) (tag : BitVec 6)
  | copyRequestArrival (p : Nat)
  | copyAnswerArrival (p : Nat)
  | reduceChunkArrival (p : Nat)
  | keyRetirementArrival (p : Nat)
  | tileOperationStart (c : CoreId)
  | tzeroComplete (c : CoreId)
  | tmmaOperandsRead (c : CoreId)
  | tmmaStepComplete (c : CoreId)
  | tmmaOperandFailure (c : CoreId)
  | tdrainTileRead (c : CoreId)
  | drainRowsArrival (p : Nat)
  | drainAckArrival (p : Nat)
  | gaussEngineTake (c : CoreId)
  | gaussEngineFinish (c : CoreId)
  | gbpArrival (p : Nat)
  | gbpCreditArrival (p : Nat)
  | enqueueWithHandle (p : Nat)
  | enqueueWithoutHandle (p : Nat)
  | taskRequest (p : Nat)
  | queueMoveComplete (f : FloeId) (i : BitVec 2) (ok : Bool)
  | enqueueAckArrival (p : Nat)
  | qhandleReplyArrival (p : Nat)
  | stealRequestArrival (p : Nat)
  | stealReplyArrival (p : Nat)
  | driftInterval (f : FloeId)
  | tileTaskIssue (f : FloeId)
  | tileTaskFinish (f : FloeId) (n : Nat)
  | groupWalkTileIssue (f : FloeId) (n : Nat)
  | packetHeadGrant (p : Nat)
  | linkUncorrectableError (at_ : RouterPort)
  | laneBlockedTimeout (f : FloeId)
  | streamMarkerArrival (p : Nat)
  | reductionPacketArrival (p : Nat)
  | reductionDeadline (f : FloeId) (stream : BitVec 12)
  | reductionResultArrival (p : Nat)
  | interfaceTrainingLoss (m : BitVec 5)
  | forwardingLaneTimeout (m : BitVec 5)
  | walkerStateError (die : BitVec 2)
  | keySlotUpdateArrival (at_ : SlotCopy)
  | loadConfigurationImage (i : Image)
  | loadKeySlot (slot : BitVec 7) (wrapped : List Byte)
  | invalidateKeySlot (slot : BitVec 7)
  | attestationReport (nonce : List Byte) (addr : W)
  | launch
  | moduleReset
  | hostChannelDoorbell (ch : BitVec 10) (l : List HostEntry)
  | launchRingDoorbell (l : List (W × List W))
  | securityRingDoorbell (cmd : SecCmd)
  | tamperDetector
  | voltageDetector
  | clockDetector
  | faultInjectionDetector
  | powerThermalTrip
  | bringUp
  | managementRegisterWrite (reg : RegAccess) (v : W)
  | fidWrite (v : W)
  | flostWrite (v : W)
  | dataFrameArrival (port : BitVec 5) (fr : Frame)
  | nakArrival (port : BitVec 5) (fr : Frame)
  | controlFrameArrival (port : BitVec 5) (fr : Frame)
  | retryTimeout (port : BitVec 5) (rail : Bool)
  | controlFrameInterval (port : BitVec 5)
  | portSilenceTimeout (port : BitVec 5)
  | resyncArrival (port : BitVec 5) (fr : Frame)
  | resyncAnswerArrival (port : BitVec 5) (fr : Frame)
  | resyncTimeout (port : BitVec 5)
  | lostModuleFrameArrival (port : BitVec 5) (addr : BitVec 19) (ttl : BitVec 6)
  | hostChannelMessage (p : Nat)
  | keyRetirementAcknowledgement (p : Nat)
  | i3cDynamicAddressAssignment (a : BitVec 7)
  | add (d : BitVec 5) (a : BitVec 5) (b : BitVec 5)
  | sub (d : BitVec 5) (a : BitVec 5) (b : BitVec 5)
  | addw (d : BitVec 5) (a : BitVec 5) (b : BitVec 5)
  | subw (d : BitVec 5) (a : BitVec 5) (b : BitVec 5)
  | and (d : BitVec 5) (a : BitVec 5) (b : BitVec 5)
  | or (d : BitVec 5) (a : BitVec 5) (b : BitVec 5)
  | xor (d : BitVec 5) (a : BitVec 5) (b : BitVec 5)
  | andn (d : BitVec 5) (a : BitVec 5) (b : BitVec 5)
  | orn (d : BitVec 5) (a : BitVec 5) (b : BitVec 5)
  | xnor (d : BitVec 5) (a : BitVec 5) (b : BitVec 5)
  | seq (d : BitVec 5) (a : BitVec 5) (b : BitVec 5)
  | sne (d : BitVec 5) (a : BitVec 5) (b : BitVec 5)
  | slt (d : BitVec 5) (a : BitVec 5) (b : BitVec 5)
  | sltu (d : BitVec 5) (a : BitVec 5) (b : BitVec 5)
  | min (d : BitVec 5) (a : BitVec 5) (b : BitVec 5)
  | max (d : BitVec 5) (a : BitVec 5) (b : BitVec 5)
  | minu (d : BitVec 5) (a : BitVec 5) (b : BitVec 5)
  | maxu (d : BitVec 5) (a : BitVec 5) (b : BitVec 5)
  | addss (d : BitVec 5) (a : BitVec 5) (b : BitVec 5)
  | subss (d : BitVec 5) (a : BitVec 5) (b : BitVec 5)
  | addus (d : BitVec 5) (a : BitVec 5) (b : BitVec 5)
  | subus (d : BitVec 5) (a : BitVec 5) (b : BitVec 5)
  | sel (d : BitVec 5) (a : BitVec 5) (b : BitVec 5) (n : BitVec 3)
  | addsl (d : BitVec 5) (a : BitVec 5) (b : BitVec 5) (s : BitVec 2)
  | addi (d : BitVec 5) (a : BitVec 5) (i : BitVec 12)
  | andi (d : BitVec 5) (a : BitVec 5) (i : BitVec 12)
  | ori (d : BitVec 5) (a : BitVec 5) (i : BitVec 12)
  | xori (d : BitVec 5) (a : BitVec 5) (i : BitVec 12)
  | slti (d : BitVec 5) (a : BitVec 5) (i : BitVec 12)
  | sltiu (d : BitVec 5) (a : BitVec 5) (i : BitVec 12)
  | addhi (d : BitVec 5) (a : BitVec 5) (i : BitVec 12)
  | sll (d : BitVec 5) (a : BitVec 5) (b : BitVec 5)
  | srl (d : BitVec 5) (a : BitVec 5) (b : BitVec 5)
  | sra (d : BitVec 5) (a : BitVec 5) (b : BitVec 5)
  | rol (d : BitVec 5) (a : BitVec 5) (b : BitVec 5)
  | ror (d : BitVec 5) (a : BitVec 5) (b : BitVec 5)
  | extur (d : BitVec 5) (a : BitVec 5) (b : BitVec 5)
  | extsr (d : BitVec 5) (a : BitVec 5) (b : BitVec 5)
  | insr (d : BitVec 5) (a : BitVec 5) (b : BitVec 5)
  | slli (d : BitVec 5) (a : BitVec 5) (n : BitVec 6)
  | srli (d : BitVec 5) (a : BitVec 5) (n : BitVec 6)
  | srai (d : BitVec 5) (a : BitVec 5) (n : BitVec 6)
  | rori (d : BitVec 5) (a : BitVec 5) (n : BitVec 6)
  | extu (d : BitVec 5) (a : BitVec 5) (w : BitVec 6) (o : BitVec 6)
  | exts (d : BitVec 5) (a : BitVec 5) (w : BitVec 6) (o : BitVec 6)
  | ins (d : BitVec 5) (a : BitVec 5) (w : BitVec 6) (o : BitVec 6)
  | clz (d : BitVec 5) (a : BitVec 5)
  | ctz (d : BitVec 5) (a : BitVec 5)
  | popc (d : BitVec 5) (a : BitVec 5)
  | rev8 (d : BitVec 5) (a : BitVec 5)
  | brev (d : BitVec 5) (a : BitVec 5)
  | msghPack (d : BitVec 5) (a : BitVec 5) (lay : BitVec 4)
  | msghUnpk (d : BitVec 5) (a : BitVec 5) (lay : BitVec 4)
  | msghLoad (a : BitVec 5) (lay : BitVec 4)
  | msghRead (d : BitVec 5) (lay : BitVec 4)
  | mul (d : BitVec 5) (a : BitVec 5) (b : BitVec 5)
  | mulw (d : BitVec 5) (a : BitVec 5) (b : BitVec 5)
  | mulh (d : BitVec 5) (a : BitVec 5) (b : BitVec 5)
  | mulhu (d : BitVec 5) (a : BitVec 5) (b : BitVec 5)
  | mulhsu (d : BitVec 5) (a : BitVec 5) (b : BitVec 5)
  | div (d : BitVec 5) (a : BitVec 5) (b : BitVec 5)
  | divu (d : BitVec 5) (a : BitVec 5) (b : BitVec 5)
  | rem (d : BitVec 5) (a : BitVec 5) (b : BitVec 5)
  | remu (d : BitVec 5) (a : BitVec 5) (b : BitVec 5)
  | beq (a : BitVec 5) (b : BitVec 5) (o : BitVec 12)
  | bne (a : BitVec 5) (b : BitVec 5) (o : BitVec 12)
  | blt (a : BitVec 5) (b : BitVec 5) (o : BitVec 12)
  | bge (a : BitVec 5) (b : BitVec 5) (o : BitVec 12)
  | bltu (a : BitVec 5) (b : BitVec 5) (o : BitVec 12)
  | bgeu (a : BitVec 5) (b : BitVec 5) (o : BitVec 12)
  | bpt (p : BitVec 3) (o : BitVec 12)
  | bpf (p : BitVec 3) (o : BitVec 12)
  | jal (d : BitVec 5) (o : BitVec 17)
  | jalr (d : BitVec 5) (a : BitVec 5) (i : BitVec 12)
  | loop (a : BitVec 5) (n : BitVec 2) (o : BitVec 15)
  | loopi (n : BitVec 2) (o : BitVec 10) (c : BitVec 10)
  | pand (d : BitVec 3) (a : BitVec 3) (b : BitVec 3)
  | por (d : BitVec 3) (a : BitVec 3) (b : BitVec 3)
  | pxor (d : BitVec 3) (a : BitVec 3) (b : BitVec 3)
  | pandn (d : BitVec 3) (a : BitVec 3) (b : BitVec 3)
  | porn (d : BitVec 3) (a : BitVec 3) (b : BitVec 3)
  | pnot (d : BitVec 3) (a : BitVec 3)
  | pmov (d : BitVec 3) (a : BitVec 3)
  | peq (d : BitVec 3) (a : BitVec 5) (b : BitVec 5)
  | pne (d : BitVec 3) (a : BitVec 5) (b : BitVec 5)
  | plt (d : BitVec 3) (a : BitVec 5) (b : BitVec 5)
  | pge (d : BitVec 3) (a : BitVec 5) (b : BitVec 5)
  | pltu (d : BitVec 3) (a : BitVec 5) (b : BitVec 5)
  | pgeu (d : BitVec 3) (a : BitVec 5) (b : BitVec 5)
  | pget (d : BitVec 5)
  | pput (a : BitVec 5)
  | ldB (d : BitVec 5) (a : BitVec 5) (o : BitVec 12)
  | ldH (d : BitVec 5) (a : BitVec 5) (o : BitVec 12)
  | ldW (d : BitVec 5) (a : BitVec 5) (o : BitVec 12)
  | ldD (d : BitVec 5) (a : BitVec 5) (o : BitVec 12)
  | ldBu (d : BitVec 5) (a : BitVec 5) (o : BitVec 12)
  | ldHu (d : BitVec 5) (a : BitVec 5) (o : BitVec 12)
  | ldWu (d : BitVec 5) (a : BitVec 5) (o : BitVec 12)
  | stB (d : BitVec 5) (a : BitVec 5) (o : BitVec 12)
  | stH (d : BitVec 5) (a : BitVec 5) (o : BitVec 12)
  | stW (d : BitVec 5) (a : BitVec 5) (o : BitVec 12)
  | stD (d : BitVec 5) (a : BitVec 5) (o : BitVec 12)
  | enter (d : BitVec 5) (n : BitVec 12)
  | leave (d : BitVec 5) (n : BitVec 12)
  | gld (d : BitVec 5) (a : BitVec 5) (u : BitVec 1) (e : BitVec 6) (s : BitVec 2)
  | gst (d : BitVec 5) (a : BitVec 5) (e : BitVec 6) (s : BitVec 2)
  | gvld (d : BitVec 5) (a : BitVec 5) (e : BitVec 6)
  | gvst (d : BitVec 5) (a : BitVec 5) (e : BitVec 6)
  | wrd (d : BitVec 5) (a : BitVec 5) (u : BitVec 1) (e : BitVec 6) (s : BitVec 2)
  | wwr (d : BitVec 5) (a : BitVec 5) (e : BitVec 6) (s : BitVec 2)
  | wamo (d : BitVec 5) (a : BitVec 5) (e : BitVec 6) (o : BitVec 5)
  | wpm (d : BitVec 5) (a : BitVec 5) (b : BitVec 5) (e : BitVec 6)
  | amoadd (d : BitVec 5) (a : BitVec 5) (b : BitVec 5) (s : BitVec 3) (o : BitVec 2)
  | amofaddD (d : BitVec 5) (a : BitVec 5) (b : BitVec 5) (s : BitVec 3) (o : BitVec 2)
  | amofaddS (d : BitVec 5) (a : BitVec 5) (b : BitVec 5) (s : BitVec 3) (o : BitVec 2)
  | amomin (d : BitVec 5) (a : BitVec 5) (b : BitVec 5) (s : BitVec 3) (o : BitVec 2)
  | amomax (d : BitVec 5) (a : BitVec 5) (b : BitVec 5) (s : BitVec 3) (o : BitVec 2)
  | amominu (d : BitVec 5) (a : BitVec 5) (b : BitVec 5) (s : BitVec 3) (o : BitVec 2)
  | amomaxu (d : BitVec 5) (a : BitVec 5) (b : BitVec 5) (s : BitVec 3) (o : BitVec 2)
  | amoswap (d : BitVec 5) (a : BitVec 5) (b : BitVec 5) (s : BitVec 3) (o : BitVec 2)
  | amocas (d : BitVec 5) (a : BitVec 5) (b : BitVec 5) (s : BitVec 3) (o : BitVec 2)
  | amoand (d : BitVec 5) (a : BitVec 5) (b : BitVec 5) (s : BitVec 3) (o : BitVec 2)
  | amoor (d : BitVec 5) (a : BitVec 5) (b : BitVec 5) (s : BitVec 3) (o : BitVec 2)
  | amoxor (d : BitVec 5) (a : BitVec 5) (b : BitVec 5) (s : BitVec 3) (o : BitVec 2)
  | nwait (d : BitVec 5) (a : BitVec 5) (b : BitVec 5) (s : BitVec 3) (o : BitVec 1) (t : BitVec 1)
  | fence (s : BitVec 3)
  | lda (d : BitVec 5) (a : BitVec 5) (u : BitVec 1) (z : BitVec 2) (s : BitVec 3)
  | stl (a : BitVec 5) (b : BitVec 5) (z : BitVec 2) (s : BitVec 3)
  | ifence
  | waitc (t : BitVec 5) (c : BitVec 5) (s : BitVec 5) (l : BitVec 5)
  | waitany (d : BitVec 5) (a : BitVec 5)
  | waitall (a : BitVec 5)
  | ffr (d : BitVec 5) (a : BitVec 5)
  | ffrClr (d : BitVec 5) (a : BitVec 5)
  | waitchAny (d : BitVec 5) (a : BitVec 5) (b : BitVec 5)
  | waitchAll (d : BitVec 5) (a : BitVec 5) (b : BitVec 5)
  | fadd (d : BitVec 5) (a : BitVec 5) (b : BitVec 5) (r : BitVec 3) (f : BitVec 2)
  | fsub (d : BitVec 5) (a : BitVec 5) (b : BitVec 5) (r : BitVec 3) (f : BitVec 2)
  | fmul (d : BitVec 5) (a : BitVec 5) (b : BitVec 5) (r : BitVec 3) (f : BitVec 2)
  | fdiv (d : BitVec 5) (a : BitVec 5) (b : BitVec 5) (r : BitVec 3) (f : BitVec 2)
  | fsqrt (d : BitVec 5) (a : BitVec 5) (r : BitVec 3) (f : BitVec 2)
  | fmin (d : BitVec 5) (a : BitVec 5) (b : BitVec 5) (f : BitVec 2)
  | fmax (d : BitVec 5) (a : BitVec 5) (b : BitVec 5) (f : BitVec 2)
  | fminp (d : BitVec 5) (a : BitVec 5) (b : BitVec 5) (f : BitVec 2)
  | fmaxp (d : BitVec 5) (a : BitVec 5) (b : BitVec 5) (f : BitVec 2)
  | feq (p : BitVec 3) (a : BitVec 5) (b : BitVec 5) (f : BitVec 2)
  | flt (p : BitVec 3) (a : BitVec 5) (b : BitVec 5) (f : BitVec 2)
  | fle (p : BitVec 3) (a : BitVec 5) (b : BitVec 5) (f : BitVec 2)
  | funord (p : BitVec 3) (a : BitVec 5) (b : BitVec 5) (f : BitVec 2)
  | fclass (d : BitVec 5) (a : BitVec 5) (f : BitVec 2)
  | fsgnj (d : BitVec 5) (a : BitVec 5) (b : BitVec 5) (f : BitVec 2)
  | fsgnjn (d : BitVec 5) (a : BitVec 5) (b : BitVec 5) (f : BitVec 2)
  | fsgnjx (d : BitVec 5) (a : BitVec 5) (b : BitVec 5) (f : BitVec 2)
  | fmadd (d : BitVec 5) (a : BitVec 5) (b : BitVec 5) (r : BitVec 3) (f : BitVec 2)
  | fmsub (d : BitVec 5) (a : BitVec 5) (b : BitVec 5) (r : BitVec 3) (f : BitVec 2)
  | fnmadd (d : BitVec 5) (a : BitVec 5) (b : BitVec 5) (r : BitVec 3) (f : BitVec 2)
  | fnmsub (d : BitVec 5) (a : BitVec 5) (b : BitVec 5) (r : BitVec 3) (f : BitVec 2)
  | fcvt (d : BitVec 5) (a : BitVec 5) (t : BitVec 4) (s : BitVec 4) (x : BitVec 1) (r : BitVec 3)
  | fround (d : BitVec 5) (a : BitVec 5) (t : BitVec 4) (s : BitVec 4) (r : BitVec 3)
  | vaddFp (d : BitVec 5) (a : BitVec 5) (b : BitVec 5) (m : BitVec 2) (l : BitVec 2)
  | vsubFp (d : BitVec 5) (a : BitVec 5) (b : BitVec 5) (m : BitVec 2) (l : BitVec 2)
  | vmulFp (d : BitVec 5) (a : BitVec 5) (b : BitVec 5) (m : BitVec 2) (l : BitVec 2)
  | vdiv (d : BitVec 5) (a : BitVec 5) (b : BitVec 5) (m : BitVec 2) (l : BitVec 2)
  | vsqrt (d : BitVec 5) (a : BitVec 5) (m : BitVec 2) (l : BitVec 2)
  | vminFp (d : BitVec 5) (a : BitVec 5) (b : BitVec 5) (m : BitVec 2) (l : BitVec 2)
  | vmaxFp (d : BitVec 5) (a : BitVec 5) (b : BitVec 5) (m : BitVec 2) (l : BitVec 2)
  | vfmadd (d : BitVec 5) (a : BitVec 5) (b : BitVec 5) (m : BitVec 2) (l : BitVec 2)
  | vfmsub (d : BitVec 5) (a : BitVec 5) (b : BitVec 5) (m : BitVec 2) (l : BitVec 2)
  | vfnmadd (d : BitVec 5) (a : BitVec 5) (b : BitVec 5) (m : BitVec 2) (l : BitVec 2)
  | vsgnj (d : BitVec 5) (a : BitVec 5) (b : BitVec 5) (m : BitVec 2) (l : BitVec 2)
  | vsgnjn (d : BitVec 5) (a : BitVec 5) (b : BitVec 5) (m : BitVec 2) (l : BitVec 2)
  | vsgnjx (d : BitVec 5) (a : BitVec 5) (b : BitVec 5) (m : BitVec 2) (l : BitVec 2)
  | vcmpeqFp (q : BitVec 2) (a : BitVec 5) (b : BitVec 5) (m : BitVec 2) (l : BitVec 2)
  | vcmpltFp (q : BitVec 2) (a : BitVec 5) (b : BitVec 5) (m : BitVec 2) (l : BitVec 2)
  | vcmple (q : BitVec 2) (a : BitVec 5) (b : BitVec 5) (m : BitVec 2) (l : BitVec 2)
  | vcmpun (q : BitVec 2) (a : BitVec 5) (b : BitVec 5) (m : BitVec 2) (l : BitVec 2)
  | vcvti (d : BitVec 5) (a : BitVec 5) (m : BitVec 2) (l : BitVec 2)
  | vredsumFp (d : BitVec 5) (a : BitVec 5) (m : BitVec 2) (l : BitVec 2)
  | vredminFp (d : BitVec 5) (a : BitVec 5) (m : BitVec 2) (l : BitVec 2)
  | vredmaxFp (d : BitVec 5) (a : BitVec 5) (m : BitVec 2) (l : BitVec 2)
  | vdot (d : BitVec 5) (a : BitVec 5) (b : BitVec 5) (m : BitVec 2) (l : BitVec 2)
  | vselFp (d : BitVec 5) (a : BitVec 5) (b : BitVec 5) (m : BitVec 2) (l : BitVec 2)
  | vaddInt (d : BitVec 5) (a : BitVec 5) (b : BitVec 5) (m : BitVec 2) (l : BitVec 2)
  | vsubInt (d : BitVec 5) (a : BitVec 5) (b : BitVec 5) (m : BitVec 2) (l : BitVec 2)
  | vmulInt (d : BitVec 5) (a : BitVec 5) (b : BitVec 5) (m : BitVec 2) (l : BitVec 2)
  | vmulh (d : BitVec 5) (a : BitVec 5) (b : BitVec 5) (m : BitVec 2) (l : BitVec 2)
  | vminInt (d : BitVec 5) (a : BitVec 5) (b : BitVec 5) (m : BitVec 2) (l : BitVec 2)
  | vmaxInt (d : BitVec 5) (a : BitVec 5) (b : BitVec 5) (m : BitVec 2) (l : BitVec 2)
  | vminu (d : BitVec 5) (a : BitVec 5) (b : BitVec 5) (m : BitVec 2) (l : BitVec 2)
  | vmaxu (d : BitVec 5) (a : BitVec 5) (b : BitVec 5) (m : BitVec 2) (l : BitVec 2)
  | vaddss (d : BitVec 5) (a : BitVec 5) (b : BitVec 5) (m : BitVec 2) (l : BitVec 2)
  | vsubss (d : BitVec 5) (a : BitVec 5) (b : BitVec 5) (m : BitVec 2) (l : BitVec 2)
  | vaddus (d : BitVec 5) (a : BitVec 5) (b : BitVec 5) (m : BitVec 2) (l : BitVec 2)
  | vsubus (d : BitVec 5) (a : BitVec 5) (b : BitVec 5) (m : BitVec 2) (l : BitVec 2)
  | vand (d : BitVec 5) (a : BitVec 5) (b : BitVec 5) (m : BitVec 2) (l : BitVec 2)
  | vor (d : BitVec 5) (a : BitVec 5) (b : BitVec 5) (m : BitVec 2) (l : BitVec 2)
  | vxor (d : BitVec 5) (a : BitVec 5) (b : BitVec 5) (m : BitVec 2) (l : BitVec 2)
  | vandn (d : BitVec 5) (a : BitVec 5) (b : BitVec 5) (m : BitVec 2) (l : BitVec 2)
  | vsll (d : BitVec 5) (a : BitVec 5) (b : BitVec 5) (m : BitVec 2) (l : BitVec 2)
  | vsrl (d : BitVec 5) (a : BitVec 5) (b : BitVec 5) (m : BitVec 2) (l : BitVec 2)
  | vsra (d : BitVec 5) (a : BitVec 5) (b : BitVec 5) (m : BitVec 2) (l : BitVec 2)
  | vcmpeqInt (q : BitVec 2) (a : BitVec 5) (b : BitVec 5) (m : BitVec 2) (l : BitVec 2)
  | vcmpltInt (q : BitVec 2) (a : BitVec 5) (b : BitVec 5) (m : BitVec 2) (l : BitVec 2)
  | vcmpltu (q : BitVec 2) (a : BitVec 5) (b : BitVec 5) (m : BitVec 2) (l : BitVec 2)
  | vcvtf (d : BitVec 5) (a : BitVec 5) (m : BitVec 2) (l : BitVec 2)
  | vredsumInt (d : BitVec 5) (a : BitVec 5) (m : BitVec 2) (l : BitVec 2)
  | vredminInt (d : BitVec 5) (a : BitVec 5) (m : BitVec 2) (l : BitVec 2)
  | vredmaxInt (d : BitVec 5) (a : BitVec 5) (m : BitVec 2) (l : BitVec 2)
  | vmla (d : BitVec 5) (a : BitVec 5) (b : BitVec 5) (m : BitVec 2) (l : BitVec 2)
  | vselInt (d : BitVec 5) (a : BitVec 5) (b : BitVec 5) (m : BitVec 2) (l : BitVec 2)
  | qand (d : BitVec 2) (a : BitVec 2) (b : BitVec 2)
  | qor (d : BitVec 2) (a : BitVec 2) (b : BitVec 2)
  | qxor (d : BitVec 2) (a : BitVec 2) (b : BitVec 2)
  | qandn (d : BitVec 2) (a : BitVec 2) (b : BitVec 2)
  | qget (d : BitVec 5) (a : BitVec 2)
  | qput (d : BitVec 2) (a : BitVec 5)
  | vld (d : BitVec 5) (a : BitVec 5) (o : BitVec 12)
  | vst (d : BitVec 5) (a : BitVec 5) (o : BitVec 12)
  | vlds (d : BitVec 5) (a : BitVec 5) (b : BitVec 5) (m : BitVec 2) (w : BitVec 2)
  | vsts (d : BitVec 5) (a : BitVec 5) (b : BitVec 5) (m : BitVec 2) (w : BitVec 2)
  | vgather (d : BitVec 5) (a : BitVec 5) (b : BitVec 5) (m : BitVec 2) (w : BitVec 2)
  | vscatter (d : BitVec 5) (a : BitVec 5) (b : BitVec 5) (m : BitVec 2) (w : BitVec 2)
  | vldb (d : BitVec 5) (a : BitVec 5) (m : BitVec 2) (w : BitVec 2)
  | vperm (d : BitVec 5) (a : BitVec 5) (b : BitVec 5) (m : BitVec 2) (w : BitVec 2)
  | vzip (d : BitVec 5) (a : BitVec 5) (b : BitVec 5) (m : BitVec 2) (w : BitVec 2)
  | vziph (d : BitVec 5) (a : BitVec 5) (b : BitVec 5) (m : BitVec 2) (w : BitVec 2)
  | vslideup (d : BitVec 5) (a : BitVec 5) (b : BitVec 5) (m : BitVec 2) (w : BitVec 2)
  | vslidedn (d : BitVec 5) (a : BitVec 5) (b : BitVec 5) (m : BitVec 2) (w : BitVec 2)
  | vins (d : BitVec 5) (a : BitVec 5) (b : BitVec 5) (w : BitVec 2)
  | vext (d : BitVec 5) (a : BitVec 5) (b : BitVec 5) (w : BitVec 2)
  | vbcast (d : BitVec 5) (a : BitVec 5) (m : BitVec 2) (w : BitVec 2)
  | vcompress (d : BitVec 5) (a : BitVec 5) (m : BitVec 2) (w : BitVec 2)
  | send (d : BitVec 5) (c : BitVec 3) (l : BitVec 8) (e : BitVec 6)
  | recv (d : BitVec 5) (c : BitVec 3) (l : BitVec 8) (e : BitVec 6)
  | offer (d : BitVec 5) (e : BitVec 6)
  | select (l : BitVec 8) (e : BitVec 6)
  | connect (d : BitVec 5) (e : BitVec 6)
  | accept (e : BitVec 6)
  | delegate (d : BitVec 5) (l : BitVec 8) (e : BitVec 6)
  | delegateRx (d : BitVec 5) (l : BitVec 8) (e : BitVec 6)
  | close (e : BitVec 6)
  | probe (d : BitVec 5) (l : BitVec 8) (e : BitVec 6)
  | sbindG30 (e : BitVec 6)
  | sbindG31 (e : BitVec 6)
  | sbindOff (e : BitVec 6)
  | waite (d : BitVec 5)
  | cpwr (a : BitVec 5) (n : BitVec 5)
  | cprd (d : BitVec 5) (n : BitVec 5)
  | cpgo (d : BitVec 5)
  | cpgoRemote (d : BitVec 5) (e : BitVec 6)
  | cpret (a : BitVec 5) (b : BitVec 5)
  | tzero (f : BitVec 2) (t : BitVec 6)
  | tstat (d : BitVec 5) (t : BitVec 6)
  | tmma (a : BitVec 5) (b : BitVec 5) (s : BitVec 1) (t : BitVec 6)
  | tdrain (a : BitVec 5) (b : BitVec 5) (t : BitVec 6) (e : BitVec 6)
  | gzero (t : BitVec 6) (n : BitVec 5)
  | gstat (d : BitVec 5) (t : BitVec 6)
  | gwait (d : BitVec 5) (a : BitVec 5)
  | gmab (d : BitVec 5) (a : BitVec 5)
  | gloadf (a : BitVec 5) (t : BitVec 6)
  | gadd (a : BitVec 5) (b : BitVec 5) (r : BitVec 3) (c : BitVec 1) (t : BitVec 6)
  | gsub (a : BitVec 5) (b : BitVec 5) (r : BitVec 3) (c : BitVec 1) (t : BitVec 6)
  | gschur (a : BitVec 5) (r : BitVec 3) (t : BitVec 6)
  | gsolve (a : BitVec 5) (r : BitVec 3) (t : BitVec 6)
  | gdamp (d : BitVec 5) (a : BitVec 5) (r : BitVec 3) (t : BitVec 6)
  | gstorm (a : BitVec 5) (t : BitVec 6)
  | gstormSend (a : BitVec 5) (e : BitVec 6)
  | smark (a : BitVec 5)
  | rjoin (a : BitVec 5) (e : BitVec 6)
  | rput (a : BitVec 5) (e : BitVec 6)
  | rget (d : BitVec 5) (a : BitVec 5) (e : BitVec 6)
  | rcorr (a : BitVec 5) (b : BitVec 5) (e : BitVec 6)
  | rtopk (a : BitVec 5) (b : BitVec 5) (e : BitVec 6)
  | waitw
  | suspend (a : BitVec 5)
  | retire
  | spawn (a : BitVec 5) (b : BitVec 5)
  | qhandle (d : BitVec 5) (a : BitVec 5)
  | qreset (a : BitVec 5)
  | qstat (d : BitVec 5) (a : BitVec 5)
  | dqpush (d : BitVec 5) (a : BitVec 5)
  | dqpop (d : BitVec 5)
  | dqsteal (d : BitVec 5) (a : BitVec 5)
  | dqcount (d : BitVec 5)
  | ttask (a : BitVec 5)
  | tgroup (a : BitVec 5) (b : BitVec 5)
  | gang (d : BitVec 5) (n : BitVec 2)
  | disband
  | start (d : BitVec 5) (a : BitVec 5)
  | startPc (d : BitVec 5) (a : BitVec 5) (b : BitVec 5)
  | stop (d : BitVec 5) (a : BitVec 5)
  | reap (d : BitVec 5) (a : BitVec 5)
  | rdctx (d : BitVec 5) (a : BitVec 5)
  | wrctx (a : BitVec 5) (b : BitVec 5)
  | rdcore (d : BitVec 5) (a : BitVec 5)
  | wrcore (a : BitVec 5) (b : BitVec 5)
  | yield (n : BitVec 7)
  | semwait (s : BitVec 5)
  | sempost (b : BitVec 5) (s : BitVec 5)
  | semget (d : BitVec 5) (s : BitVec 5)
  | semset (b : BitVec 5) (s : BitVec 5)
  | fswait (s : BitVec 6)
  | fspost (b : BitVec 5) (s : BitVec 6)
  | fsget (d : BitVec 5) (s : BitVec 6)
  | fsset (b : BitVec 5) (s : BitVec 6)
  | fbar (b : BitVec 5) (s : BitVec 6)
  | funion (d : BitVec 5)
  | rdfloe (d : BitVec 5) (a : BitVec 5)
  | wrfloe (a : BitVec 5) (b : BitVec 5)
  | xset (x : BitVec 3) (a : BitVec 5)
  | xld (x : BitVec 3) (a : BitVec 5) (o : BitVec 12)
  | xget (d : BitVec 5) (x : BitVec 3)
  | mfs (d : BitVec 5) (n : BitVec 12)
  | mts (a : BitVec 5) (n : BitVec 12)
  | eret
  | trap (c : BitVec 12)
  | brk
  | evwait (d : BitVec 5)
  | evget (d : BitVec 5)
  | evpost (a : BitVec 5)
  | evstat (d : BitVec 5)
  | tmset (a : BitVec 5)
  | tmget (d : BitVec 5)
  | cAddi (d : BitVec 5) (i : BitVec 6)
  | cLi (d : BitVec 5) (i : BitVec 6)
  | cMv (d : BitVec 5) (b : BitVec 5)
  | cAdd (d : BitVec 5) (b : BitVec 5)
  | cSub (d : BitVec 5) (b : BitVec 5)
  | cLdD (d : BitVec 5) (u : BitVec 6)
  | cStD (d : BitVec 5) (u : BitVec 6)
  | cSlli (d : BitVec 5) (n : BitVec 6)
  | cBeqz (d : BitVec 5) (o : BitVec 6)
  | cBnez (d : BitVec 5) (o : BitVec 6)
  | cJ (o : BitVec 11)
  | cJal (o : BitVec 11)
  | cJr (d : BitVec 5)
  | cAnd (d : BitVec 5) (b : BitVec 5)
  | cOr (d : BitVec 5) (b : BitVec 5)
  | cXor (d : BitVec 5) (b : BitVec 5)
  | cLdW (d : BitVec 5) (u : BitVec 6)
  | cStW (d : BitVec 5) (u : BitVec 6)
  | cSrai (d : BitVec 5) (n : BitVec 6)
  | cSrli (d : BitVec 5) (n : BitVec 6)
  | cAndi (d : BitVec 5) (i : BitVec 6)
  | cNop
  deriving DecidableEq, Repr

end Sys2Proof
end

