-- ==== Sys2Proof/WellFormed.lean ====
section
/-! DEFINITION. Which instructions are well formed: the checks of R73, R40, R68 and of each entry that
an instruction's fields must pass to be an instruction at all. -/

namespace Sys2Proof

/-- Length in bytes (R65); 0 for an event, which has no encoding. -/
def Instr.len : Instr → Nat
  | .illegalInstruction => 0
  | .forfeitedTurn => 0
  | .dispenserDelivery _ _ => 0
  | .timerExpiry _ => 0
  | .watchdogExpiry _ _ => 0
  | .spillWriteComplete _ _ => 0
  | .spillReloadComplete _ _ => 0
  | .frameDataError _ _ _ => 0
  | .fetchFillComplete _ _ => 0
  | .translationWalkStart _ => 0
  | .walkTableReadReply _ _ => 0
  | .xrootWrite _ => 0
  | .tlbinvWrite _ => 0
  | .tlbinvDropComplete _ => 0
  | .dqbaseWrite _ => 0
  | .dqlimWrite _ => 0
  | .gmboxWrite _ => 0
  | .epownWrite _ _ => 0
  | .jdomWrite _ => 0
  | .windowRegisterWrite _ _ => 0
  | .fstWrite _ => 0
  | .frec0Write _ => 0
  | .qringWrite _ _ => 0
  | .driftWrite _ => 0
  | .tscWrite _ => 0
  | .protocolImageLoad _ _ => 0
  | .connectionRequestArrival _ => 0
  | .connectionResultArrival _ => 0
  | .connectWithdrawal _ => 0
  | .messageArrival _ => 0
  | .creditPacketArrival _ => 0
  | .closePacketArrival _ => 0
  | .lossPacketArrival _ => 0
  | .boundArrival _ => 0
  | .redirectArrival _ => 0
  | .redirectAckArrival _ => 0
  | .memrdRequest _ => 0
  | .memwrRequest _ => 0
  | .requestForward _ => 0
  | .memrdReplyArrival _ => 0
  | .memwrAckArrival _ => 0
  | .windowAccessArrival _ => 0
  | .wpmArrival _ => 0
  | .windowReplyArrival _ => 0
  | .negativeAcknowledgement _ => 0
  | .copyChunkDone _ _ _ => 0
  | .copyComplete _ _ => 0
  | .copyFailure _ _ => 0
  | .copyRequestArrival _ => 0
  | .copyAnswerArrival _ => 0
  | .reduceChunkArrival _ => 0
  | .keyRetirementArrival _ => 0
  | .tileOperationStart _ => 0
  | .tzeroComplete _ => 0
  | .tmmaOperandsRead _ => 0
  | .tmmaStepComplete _ => 0
  | .tmmaOperandFailure _ => 0
  | .tdrainTileRead _ => 0
  | .drainRowsArrival _ => 0
  | .drainAckArrival _ => 0
  | .gaussEngineTake _ => 0
  | .gaussEngineFinish _ => 0
  | .gbpArrival _ => 0
  | .gbpCreditArrival _ => 0
  | .enqueueWithHandle _ => 0
  | .enqueueWithoutHandle _ => 0
  | .taskRequest _ => 0
  | .queueMoveComplete _ _ _ => 0
  | .enqueueAckArrival _ => 0
  | .qhandleReplyArrival _ => 0
  | .stealRequestArrival _ => 0
  | .stealReplyArrival _ => 0
  | .driftInterval _ => 0
  | .tileTaskIssue _ => 0
  | .tileTaskFinish _ _ => 0
  | .groupWalkTileIssue _ _ => 0
  | .packetHeadGrant _ => 0
  | .linkUncorrectableError _ => 0
  | .laneBlockedTimeout _ => 0
  | .streamMarkerArrival _ => 0
  | .reductionPacketArrival _ => 0
  | .reductionDeadline _ _ => 0
  | .reductionResultArrival _ => 0
  | .interfaceTrainingLoss _ => 0
  | .forwardingLaneTimeout _ => 0
  | .walkerStateError _ => 0
  | .keySlotUpdateArrival _ => 0
  | .loadConfigurationImage _ => 0
  | .loadKeySlot _ _ => 0
  | .invalidateKeySlot _ => 0
  | .attestationReport _ _ => 0
  | .launch => 0
  | .moduleReset => 0
  | .hostChannelDoorbell _ _ => 0
  | .launchRingDoorbell _ => 0
  | .securityRingDoorbell _ => 0
  | .tamperDetector => 0
  | .voltageDetector => 0
  | .clockDetector => 0
  | .faultInjectionDetector => 0
  | .powerThermalTrip => 0
  | .bringUp => 0
  | .managementRegisterWrite _ _ => 0
  | .fidWrite _ => 0
  | .flostWrite _ => 0
  | .dataFrameArrival _ _ => 0
  | .nakArrival _ _ => 0
  | .controlFrameArrival _ _ => 0
  | .retryTimeout _ _ => 0
  | .controlFrameInterval _ => 0
  | .portSilenceTimeout _ => 0
  | .resyncArrival _ _ => 0
  | .resyncAnswerArrival _ _ => 0
  | .resyncTimeout _ => 0
  | .lostModuleFrameArrival _ _ _ => 0
  | .hostChannelMessage _ => 0
  | .keyRetirementAcknowledgement _ => 0
  | .i3cDynamicAddressAssignment _ => 0
  | .cAddi _ _ => 2
  | .cLi _ _ => 2
  | .cMv _ _ => 2
  | .cAdd _ _ => 2
  | .cSub _ _ => 2
  | .cLdD _ _ => 2
  | .cStD _ _ => 2
  | .cSlli _ _ => 2
  | .cBeqz _ _ => 2
  | .cBnez _ _ => 2
  | .cJ _ => 2
  | .cJal _ => 2
  | .cJr _ => 2
  | .cAnd _ _ => 2
  | .cOr _ _ => 2
  | .cXor _ _ => 2
  | .cLdW _ _ => 2
  | .cStW _ _ => 2
  | .cSrai _ _ => 2
  | .cSrli _ _ => 2
  | .cAndi _ _ => 2
  | .cNop => 2
  | _ => 4

/-- An event: a row of the table without an encoding. -/
def Instr.isEvent (i : Instr) : Bool := i.len == 0

/-- Rounding operand: 5 and 6 are reserved (R40). -/
def rmOk (r : BitVec 3) : Bool := r != 5 && r != 6

/-- Scope codes 0 to 4 (Table 3.4a). -/
def scopeOk (s : BitVec 3) : Bool := s.toNat < 5

/-- A scope is written only with an order (R174). -/
def orderOk (s : BitVec 3) (o : Bool) : Bool := scopeOk s && (o || s == 0)

/-- Floating-point element-format codes (Table 2.3). -/
def isFloatCode (c : BitVec 4) : Bool := 1 ≤ c.toNat && c.toNat ≤ 6

/-- Integer element-format codes (Table 2.3). -/
def isIntCode (c : BitVec 4) : Bool := 7 ≤ c.toNat && c.toNat ≤ 14

/-- The legal combinations of a conversion (Table 5.4): destination t, source s, saturation x. -/
def fcvtOk (t s : BitVec 4) (x : BitVec 1) (r : BitVec 3) : Bool :=
  t != s && rmOk r &&
  if isFloatCode t then (isFloatCode s || isIntCode s) && (x == 0 || t == 5 || t == 6)
  else isIntCode t && (if isFloatCode s then x == 0 else isIntCode s && r == 7)

/-- The system registers that exist (Table 6.5). -/
def sysRegOk (n : BitVec 12) : Bool :=
  [0x000, 0x001, 0x008, 0x010, 0x011, 0x012, 0x014, 0x015, 0x016, 0x018, 0x019, 0x01A, 0x020, 0x021,
   0x022, 0x028, 0x029, 0x02A, 0x02B, 0x100, 0x101].contains n.toNat

/-- The payload classes of a channel operation, and that class 0 names no register (Table 10.4). -/
def classOk (c : BitVec 3) (d : Reg) : Bool := c.toNat ≤ 4 && (c != 0 || d == 0)

/-- An encoded instruction whose fields make it one (R73). -/
def Instr.wf : Instr → Bool
  | .fadd _ _ _ r _ => rmOk r
  | .fsub _ _ _ r _ => rmOk r
  | .fmul _ _ _ r _ => rmOk r
  | .fdiv _ _ _ r _ => rmOk r
  | .fsqrt _ _ r _ => rmOk r
  | .fmadd _ _ _ r _ => rmOk r
  | .fmsub _ _ _ r _ => rmOk r
  | .fnmadd _ _ _ r _ => rmOk r
  | .fnmsub _ _ _ r _ => rmOk r
  | .gadd _ _ r _ _ => rmOk r
  | .gsub _ _ r _ _ => rmOk r
  | .gschur _ r _ => rmOk r
  | .gsolve _ r _ => rmOk r
  | .gdamp _ _ r _ => rmOk r
  | .amoadd _ _ _ s o => orderOk s (o != 0)
  | .amofaddD _ _ _ s o => orderOk s (o != 0)
  | .amofaddS _ _ _ s o => orderOk s (o != 0)
  | .amomin _ _ _ s o => orderOk s (o != 0)
  | .amomax _ _ _ s o => orderOk s (o != 0)
  | .amominu _ _ _ s o => orderOk s (o != 0)
  | .amomaxu _ _ _ s o => orderOk s (o != 0)
  | .amoswap _ _ _ s o => orderOk s (o != 0)
  | .amocas _ _ _ s o => orderOk s (o != 0)
  | .amoand _ _ _ s o => orderOk s (o != 0)
  | .amoor _ _ _ s o => orderOk s (o != 0)
  | .amoxor _ _ _ s o => orderOk s (o != 0)
  | .nwait _ _ _ s o _ => orderOk s (o != 0)
  | .fence s => scopeOk s
  | .lda _ _ u z s => scopeOk s && (u == 0 || z != 3)
  | .stl _ _ _ s => scopeOk s
  | .gld _ _ u _ s => u == 0 || s != 3
  | .wrd _ _ u _ s => u == 0 || s != 3
  | .wamo _ _ _ o => o.toNat < 12
  | .fcvt _ _ t s x r => fcvtOk t s x r
  | .fround _ _ t s r => t == s && isFloatCode s && rmOk r
  | .loop _ n o => n != 3 && 2 ≤ o.toNat
  | .loopi n o _ => n != 3 && 2 ≤ o.toNat
  | .vcmpeqInt _ _ _ _ l => l != 3
  | .vcmpltInt _ _ _ _ l => l != 3
  | .vcmpltu _ _ _ _ l => l != 3
  | .vcvtf _ _ _ l => l != 3
  | .send d c _ _ => classOk c d
  | .recv d c _ _ => classOk c d
  | .probe _ l _ => l.toNat < 6
  | .tzero f _ => f != 3
  | .gzero _ n => 1 ≤ n.toNat && n.toNat ≤ 16
  | .yield n => 1 ≤ n.toNat && n.toNat ≤ 15
  | .gang _ n => n != 0
  | .mfs _ n => sysRegOk n
  | .mts _ n => sysRegOk n
  | .cAddi d _ => d != 0
  | .cLi d _ => d != 0
  | .cJr d => d != 0
  | i => !i.isEvent

end Sys2Proof
end

