-- ==== Sys2Proof/Decode.lean ====
section
/-! DEFINITION. The decoder and the encoder (03 Tables 3.1 to 3.8, and the encoding table of each
group): total on any word, refusing whatever is no instruction by R73. -/

namespace Sys2Proof

/-- Bits <lo+n-1:lo> of an instruction word, as a number. -/
def bits (w lo n : Nat) : Nat := w / 2 ^ lo % 2 ^ n

/-- A field of n bits at bit lo (R66). -/
def fld (w lo n : Nat) : BitVec n := BitVec.ofNat n (w / 2 ^ lo)

/-- A field in two parts: n1 high bits at l1, n2 low bits at l2 (the B, C and E formats, R66). -/
def fld2 (w l1 n1 l2 n2 : Nat) : BitVec (n1 + n2) :=
  BitVec.ofNat (n1 + n2) (bits w l1 n1 * 2 ^ n2 + bits w l2 n2)

/-- Major 0x00 (Tables 3.4, 3.6). -/
noncomputable def decodeOp (w : Nat) : Option Instr :=
  match bits w 7 3 with
  | 0 =>
    if bits w 25 7 = 0 then some (.add (fld w 10 5) (fld w 15 5) (fld w 20 5)) else
    if bits w 25 7 = 1 then some (.sub (fld w 10 5) (fld w 15 5) (fld w 20 5)) else
    if bits w 25 7 = 2 then some (.addw (fld w 10 5) (fld w 15 5) (fld w 20 5)) else
    if bits w 25 7 = 3 then some (.subw (fld w 10 5) (fld w 15 5) (fld w 20 5)) else
    none
  | 1 =>
    if bits w 25 7 = 0 then some (.and (fld w 10 5) (fld w 15 5) (fld w 20 5)) else
    if bits w 25 7 = 1 then some (.or (fld w 10 5) (fld w 15 5) (fld w 20 5)) else
    if bits w 25 7 = 2 then some (.xor (fld w 10 5) (fld w 15 5) (fld w 20 5)) else
    if bits w 25 7 = 3 then some (.andn (fld w 10 5) (fld w 15 5) (fld w 20 5)) else
    if bits w 25 7 = 4 then some (.orn (fld w 10 5) (fld w 15 5) (fld w 20 5)) else
    if bits w 25 7 = 5 then some (.xnor (fld w 10 5) (fld w 15 5) (fld w 20 5)) else
    none
  | 2 =>
    if bits w 25 7 = 0 then some (.seq (fld w 10 5) (fld w 15 5) (fld w 20 5)) else
    if bits w 25 7 = 1 then some (.sne (fld w 10 5) (fld w 15 5) (fld w 20 5)) else
    if bits w 25 7 = 2 then some (.slt (fld w 10 5) (fld w 15 5) (fld w 20 5)) else
    if bits w 25 7 = 3 then some (.sltu (fld w 10 5) (fld w 15 5) (fld w 20 5)) else
    none
  | 3 =>
    if bits w 25 7 = 0 then some (.min (fld w 10 5) (fld w 15 5) (fld w 20 5)) else
    if bits w 25 7 = 1 then some (.max (fld w 10 5) (fld w 15 5) (fld w 20 5)) else
    if bits w 25 7 = 2 then some (.minu (fld w 10 5) (fld w 15 5) (fld w 20 5)) else
    if bits w 25 7 = 3 then some (.maxu (fld w 10 5) (fld w 15 5) (fld w 20 5)) else
    none
  | 4 =>
    if bits w 25 7 = 0 then some (.addss (fld w 10 5) (fld w 15 5) (fld w 20 5)) else
    if bits w 25 7 = 1 then some (.subss (fld w 10 5) (fld w 15 5) (fld w 20 5)) else
    if bits w 25 7 = 2 then some (.addus (fld w 10 5) (fld w 15 5) (fld w 20 5)) else
    if bits w 25 7 = 3 then some (.subus (fld w 10 5) (fld w 15 5) (fld w 20 5)) else
    none
  | 5 =>
    if bits w 28 4 = 0 then some (.sel (fld w 10 5) (fld w 15 5) (fld w 20 5) (fld w 25 3)) else
    none
  | 6 =>
    if bits w 27 5 = 0 then some (.addsl (fld w 10 5) (fld w 15 5) (fld w 20 5) (fld w 25 2)) else
    none
  | _ => none

/-- Major 0x01 (Tables 3.4, 3.6). -/
noncomputable def decodeOpi (w : Nat) : Option Instr :=
  match bits w 7 3 with
  | 0 =>
    some (.addi (fld w 10 5) (fld w 15 5) (fld w 20 12))
  | 1 =>
    some (.andi (fld w 10 5) (fld w 15 5) (fld w 20 12))
  | 2 =>
    some (.ori (fld w 10 5) (fld w 15 5) (fld w 20 12))
  | 3 =>
    some (.xori (fld w 10 5) (fld w 15 5) (fld w 20 12))
  | 4 =>
    some (.slti (fld w 10 5) (fld w 15 5) (fld w 20 12))
  | 5 =>
    some (.sltiu (fld w 10 5) (fld w 15 5) (fld w 20 12))
  | 6 =>
    some (.addhi (fld w 10 5) (fld w 15 5) (fld w 20 12))
  | _ => none

/-- Major 0x02 (Tables 3.4, 3.6). -/
noncomputable def decodeBit (w : Nat) : Option Instr :=
  match bits w 7 3 with
  | 0 =>
    if bits w 25 7 = 0 then some (.sll (fld w 10 5) (fld w 15 5) (fld w 20 5)) else
    if bits w 25 7 = 1 then some (.srl (fld w 10 5) (fld w 15 5) (fld w 20 5)) else
    if bits w 25 7 = 2 then some (.sra (fld w 10 5) (fld w 15 5) (fld w 20 5)) else
    if bits w 25 7 = 3 then some (.rol (fld w 10 5) (fld w 15 5) (fld w 20 5)) else
    if bits w 25 7 = 4 then some (.ror (fld w 10 5) (fld w 15 5) (fld w 20 5)) else
    if bits w 25 7 = 5 then some (.extur (fld w 10 5) (fld w 15 5) (fld w 20 5)) else
    if bits w 25 7 = 6 then some (.extsr (fld w 10 5) (fld w 15 5) (fld w 20 5)) else
    if bits w 25 7 = 7 then some (.insr (fld w 10 5) (fld w 15 5) (fld w 20 5)) else
    none
  | 1 =>
    if bits w 26 6 = 0 then some (.slli (fld w 10 5) (fld w 15 5) (fld w 20 6)) else
    if bits w 26 6 = 1 then some (.srli (fld w 10 5) (fld w 15 5) (fld w 20 6)) else
    if bits w 26 6 = 2 then some (.srai (fld w 10 5) (fld w 15 5) (fld w 20 6)) else
    if bits w 26 6 = 3 then some (.rori (fld w 10 5) (fld w 15 5) (fld w 20 6)) else
    none
  | 2 =>
    some (.extu (fld w 10 5) (fld w 15 5) (fld w 26 6) (fld w 20 6))
  | 3 =>
    some (.exts (fld w 10 5) (fld w 15 5) (fld w 26 6) (fld w 20 6))
  | 4 =>
    some (.ins (fld w 10 5) (fld w 15 5) (fld w 26 6) (fld w 20 6))
  | 5 =>
    if bits w 20 12 = 0 then some (.clz (fld w 10 5) (fld w 15 5)) else
    if bits w 20 12 = 32 then some (.ctz (fld w 10 5) (fld w 15 5)) else
    if bits w 20 12 = 64 then some (.popc (fld w 10 5) (fld w 15 5)) else
    if bits w 20 12 = 96 then some (.rev8 (fld w 10 5) (fld w 15 5)) else
    if bits w 20 12 = 128 then some (.brev (fld w 10 5) (fld w 15 5)) else
    none
  | 6 =>
    if bits w 20 5 = 0 ∧ bits w 29 3 = 0 then some (.msghPack (fld w 10 5) (fld w 15 5) (fld w 25 4)) else
    if bits w 20 5 = 0 ∧ bits w 29 3 = 1 then some (.msghUnpk (fld w 10 5) (fld w 15 5) (fld w 25 4)) else
    if bits w 10 5 = 0 ∧ bits w 20 5 = 0 ∧ bits w 29 3 = 2 then some (.msghLoad (fld w 15 5) (fld w 25 4)) else
    if bits w 15 10 = 0 ∧ bits w 29 3 = 3 then some (.msghRead (fld w 10 5) (fld w 25 4)) else
    none
  | _ => none

/-- Major 0x03 (Tables 3.4, 3.6). -/
noncomputable def decodeMul (w : Nat) : Option Instr :=
  match bits w 7 3 with
  | 0 =>
    if bits w 25 7 = 0 then some (.mul (fld w 10 5) (fld w 15 5) (fld w 20 5)) else
    if bits w 25 7 = 1 then some (.mulw (fld w 10 5) (fld w 15 5) (fld w 20 5)) else
    none
  | 1 =>
    if bits w 25 7 = 0 then some (.mulh (fld w 10 5) (fld w 15 5) (fld w 20 5)) else
    if bits w 25 7 = 1 then some (.mulhu (fld w 10 5) (fld w 15 5) (fld w 20 5)) else
    if bits w 25 7 = 2 then some (.mulhsu (fld w 10 5) (fld w 15 5) (fld w 20 5)) else
    none
  | 2 =>
    if bits w 25 7 = 0 then some (.div (fld w 10 5) (fld w 15 5) (fld w 20 5)) else
    if bits w 25 7 = 1 then some (.divu (fld w 10 5) (fld w 15 5) (fld w 20 5)) else
    none
  | 3 =>
    if bits w 25 7 = 0 then some (.rem (fld w 10 5) (fld w 15 5) (fld w 20 5)) else
    if bits w 25 7 = 1 then some (.remu (fld w 10 5) (fld w 15 5) (fld w 20 5)) else
    none
  | _ => none

/-- Major 0x04 (Tables 3.4, 3.6). -/
noncomputable def decodeBr (w : Nat) : Option Instr :=
  match bits w 7 3 with
  | 0 =>
    some (.beq (fld w 15 5) (fld w 20 5) (fld2 w 25 7 10 5))
  | 1 =>
    some (.bne (fld w 15 5) (fld w 20 5) (fld2 w 25 7 10 5))
  | 2 =>
    some (.blt (fld w 15 5) (fld w 20 5) (fld2 w 25 7 10 5))
  | 3 =>
    some (.bge (fld w 15 5) (fld w 20 5) (fld2 w 25 7 10 5))
  | 4 =>
    some (.bltu (fld w 15 5) (fld w 20 5) (fld2 w 25 7 10 5))
  | 5 =>
    some (.bgeu (fld w 15 5) (fld w 20 5) (fld2 w 25 7 10 5))
  | 6 =>
    if bits w 18 7 = 0 then some (.bpt (fld w 15 3) (fld2 w 25 7 10 5)) else
    none
  | 7 =>
    if bits w 18 7 = 0 then some (.bpf (fld w 15 3) (fld2 w 25 7 10 5)) else
    none
  | _ => none

/-- Major 0x05 (Tables 3.4, 3.6). -/
noncomputable def decodeJmp (w : Nat) : Option Instr :=
  match bits w 7 3 with
  | 0 =>
    some (.jal (fld w 10 5) (fld w 15 17))
  | 1 =>
    some (.jalr (fld w 10 5) (fld w 15 5) (fld w 20 12))
  | _ => none

/-- Major 0x06 (Tables 3.4, 3.6). -/
noncomputable def decodeLoop (w : Nat) : Option Instr :=
  match bits w 7 3 with
  | 0 =>
    some (.loop (fld w 15 5) (fld w 30 2) (fld2 w 20 10 10 5))
  | 1 =>
    some (.loopi (fld w 30 2) (fld2 w 25 5 10 5) (fld w 15 10))
  | 2 =>
    if bits w 13 2 = 0 ∧ bits w 18 2 = 0 ∧ bits w 23 9 = 0 then some (.pand (fld w 10 3) (fld w 15 3) (fld w 20 3)) else
    if bits w 13 2 = 0 ∧ bits w 18 2 = 0 ∧ bits w 23 9 = 4 then some (.por (fld w 10 3) (fld w 15 3) (fld w 20 3)) else
    if bits w 13 2 = 0 ∧ bits w 18 2 = 0 ∧ bits w 23 9 = 8 then some (.pxor (fld w 10 3) (fld w 15 3) (fld w 20 3)) else
    if bits w 13 2 = 0 ∧ bits w 18 2 = 0 ∧ bits w 23 9 = 12 then some (.pandn (fld w 10 3) (fld w 15 3) (fld w 20 3)) else
    if bits w 13 2 = 0 ∧ bits w 18 2 = 0 ∧ bits w 23 9 = 16 then some (.porn (fld w 10 3) (fld w 15 3) (fld w 20 3)) else
    if bits w 13 2 = 0 ∧ bits w 18 14 = 640 then some (.pnot (fld w 10 3) (fld w 15 3)) else
    if bits w 13 2 = 0 ∧ bits w 18 14 = 768 then some (.pmov (fld w 10 3) (fld w 15 3)) else
    none
  | 3 =>
    if bits w 13 2 = 0 ∧ bits w 25 7 = 0 then some (.peq (fld w 10 3) (fld w 15 5) (fld w 20 5)) else
    if bits w 13 2 = 0 ∧ bits w 25 7 = 1 then some (.pne (fld w 10 3) (fld w 15 5) (fld w 20 5)) else
    if bits w 13 2 = 0 ∧ bits w 25 7 = 2 then some (.plt (fld w 10 3) (fld w 15 5) (fld w 20 5)) else
    if bits w 13 2 = 0 ∧ bits w 25 7 = 3 then some (.pge (fld w 10 3) (fld w 15 5) (fld w 20 5)) else
    if bits w 13 2 = 0 ∧ bits w 25 7 = 4 then some (.pltu (fld w 10 3) (fld w 15 5) (fld w 20 5)) else
    if bits w 13 2 = 0 ∧ bits w 25 7 = 5 then some (.pgeu (fld w 10 3) (fld w 15 5) (fld w 20 5)) else
    none
  | 4 =>
    if bits w 15 17 = 0 then some (.pget (fld w 10 5)) else
    none
  | 5 =>
    if bits w 10 5 = 0 ∧ bits w 20 12 = 0 then some (.pput (fld w 15 5)) else
    none
  | _ => none

/-- Major 0x07 (Tables 3.4, 3.6). -/
noncomputable def decodeLd (w : Nat) : Option Instr :=
  match bits w 7 3 with
  | 0 =>
    some (.ldB (fld w 10 5) (fld w 15 5) (fld w 20 12))
  | 1 =>
    some (.ldH (fld w 10 5) (fld w 15 5) (fld w 20 12))
  | 2 =>
    some (.ldW (fld w 10 5) (fld w 15 5) (fld w 20 12))
  | 3 =>
    some (.ldD (fld w 10 5) (fld w 15 5) (fld w 20 12))
  | 4 =>
    some (.ldBu (fld w 10 5) (fld w 15 5) (fld w 20 12))
  | 5 =>
    some (.ldHu (fld w 10 5) (fld w 15 5) (fld w 20 12))
  | 6 =>
    some (.ldWu (fld w 10 5) (fld w 15 5) (fld w 20 12))
  | _ => none

/-- Major 0x08 (Tables 3.4, 3.6). -/
noncomputable def decodeSt (w : Nat) : Option Instr :=
  match bits w 7 3 with
  | 0 =>
    some (.stB (fld w 10 5) (fld w 15 5) (fld w 20 12))
  | 1 =>
    some (.stH (fld w 10 5) (fld w 15 5) (fld w 20 12))
  | 2 =>
    some (.stW (fld w 10 5) (fld w 15 5) (fld w 20 12))
  | 3 =>
    some (.stD (fld w 10 5) (fld w 15 5) (fld w 20 12))
  | 4 =>
    if bits w 15 5 = 0 then some (.enter (fld w 10 5) (fld w 20 12)) else
    none
  | 5 =>
    if bits w 15 5 = 0 then some (.leave (fld w 10 5) (fld w 20 12)) else
    none
  | _ => none

/-- Major 0x09 (Tables 3.4, 3.6). -/
noncomputable def decodeGmem (w : Nat) : Option Instr :=
  match bits w 7 3 with
  | 0 =>
    if bits w 22 3 = 0 then some (.gld (fld w 10 5) (fld w 15 5) (fld w 31 1) (fld w 25 6) (fld w 20 2)) else
    none
  | 1 =>
    if bits w 22 3 = 0 ∧ bits w 31 1 = 0 then some (.gst (fld w 10 5) (fld w 15 5) (fld w 25 6) (fld w 20 2)) else
    none
  | 2 =>
    if bits w 20 5 = 0 ∧ bits w 31 1 = 0 then some (.gvld (fld w 10 5) (fld w 15 5) (fld w 25 6)) else
    none
  | 3 =>
    if bits w 20 5 = 0 ∧ bits w 31 1 = 0 then some (.gvst (fld w 10 5) (fld w 15 5) (fld w 25 6)) else
    none
  | 4 =>
    if bits w 22 3 = 0 then some (.wrd (fld w 10 5) (fld w 15 5) (fld w 31 1) (fld w 25 6) (fld w 20 2)) else
    none
  | 5 =>
    if bits w 22 3 = 0 ∧ bits w 31 1 = 0 then some (.wwr (fld w 10 5) (fld w 15 5) (fld w 25 6) (fld w 20 2)) else
    none
  | 6 =>
    if bits w 31 1 = 0 then some (.wamo (fld w 10 5) (fld w 15 5) (fld w 25 6) (fld w 20 5)) else
    none
  | 7 =>
    if bits w 31 1 = 0 then some (.wpm (fld w 10 5) (fld w 15 5) (fld w 20 5) (fld w 25 6)) else
    none
  | _ => none

/-- Major 0x0A (Tables 3.4, 3.6). -/
noncomputable def decodeAmo (w : Nat) : Option Instr :=
  match bits w 7 3 with
  | 0 =>
    if bits w 25 2 = 0 then some (.amoadd (fld w 10 5) (fld w 15 5) (fld w 20 5) (fld w 29 3) (fld w 27 2)) else
    none
  | 1 =>
    if bits w 25 2 = 0 then some (.amofaddD (fld w 10 5) (fld w 15 5) (fld w 20 5) (fld w 29 3) (fld w 27 2)) else
    if bits w 25 2 = 1 then some (.amofaddS (fld w 10 5) (fld w 15 5) (fld w 20 5) (fld w 29 3) (fld w 27 2)) else
    none
  | 2 =>
    if bits w 25 2 = 0 then some (.amomin (fld w 10 5) (fld w 15 5) (fld w 20 5) (fld w 29 3) (fld w 27 2)) else
    if bits w 25 2 = 1 then some (.amomax (fld w 10 5) (fld w 15 5) (fld w 20 5) (fld w 29 3) (fld w 27 2)) else
    if bits w 25 2 = 2 then some (.amominu (fld w 10 5) (fld w 15 5) (fld w 20 5) (fld w 29 3) (fld w 27 2)) else
    if bits w 25 2 = 3 then some (.amomaxu (fld w 10 5) (fld w 15 5) (fld w 20 5) (fld w 29 3) (fld w 27 2)) else
    none
  | 3 =>
    if bits w 25 2 = 0 then some (.amoswap (fld w 10 5) (fld w 15 5) (fld w 20 5) (fld w 29 3) (fld w 27 2)) else
    none
  | 4 =>
    if bits w 25 2 = 0 then some (.amocas (fld w 10 5) (fld w 15 5) (fld w 20 5) (fld w 29 3) (fld w 27 2)) else
    none
  | 5 =>
    if bits w 25 2 = 0 then some (.amoand (fld w 10 5) (fld w 15 5) (fld w 20 5) (fld w 29 3) (fld w 27 2)) else
    if bits w 25 2 = 1 then some (.amoor (fld w 10 5) (fld w 15 5) (fld w 20 5) (fld w 29 3) (fld w 27 2)) else
    if bits w 25 2 = 2 then some (.amoxor (fld w 10 5) (fld w 15 5) (fld w 20 5) (fld w 29 3) (fld w 27 2)) else
    none
  | 6 =>
    if bits w 26 1 = 0 ∧ bits w 28 1 = 0 then some (.nwait (fld w 10 5) (fld w 15 5) (fld w 20 5) (fld w 29 3) (fld w 27 1) (fld w 25 1)) else
    none
  | _ => none

/-- Major 0x0B (Tables 3.4, 3.6). -/
noncomputable def decodeFence (w : Nat) : Option Instr :=
  match bits w 7 3 with
  | 0 =>
    if bits w 10 15 = 0 ∧ bits w 28 4 = 0 then some (.fence (fld w 25 3)) else
    none
  | 1 =>
    if bits w 20 5 = 0 ∧ bits w 31 1 = 0 then some (.lda (fld w 10 5) (fld w 15 5) (fld w 30 1) (fld w 28 2) (fld w 25 3)) else
    none
  | 2 =>
    if bits w 10 5 = 0 ∧ bits w 30 2 = 0 then some (.stl (fld w 15 5) (fld w 20 5) (fld w 28 2) (fld w 25 3)) else
    none
  | 3 =>
    if bits w 10 22 = 0 then some (.ifence) else
    none
  | 4 =>
    if bits w 30 2 = 0 then some (.waitc (fld w 25 5) (fld w 20 5) (fld w 15 5) (fld w 10 5)) else
    none
  | 5 =>
    if bits w 20 12 = 0 then some (.waitany (fld w 10 5) (fld w 15 5)) else
    if bits w 10 5 = 0 ∧ bits w 20 12 = 32 then some (.waitall (fld w 15 5)) else
    none
  | 6 =>
    if bits w 20 12 = 0 then some (.ffr (fld w 10 5) (fld w 15 5)) else
    if bits w 20 12 = 32 then some (.ffrClr (fld w 10 5) (fld w 15 5)) else
    none
  | 7 =>
    if bits w 25 7 = 0 then some (.waitchAny (fld w 10 5) (fld w 15 5) (fld w 20 5)) else
    if bits w 25 7 = 1 then some (.waitchAll (fld w 10 5) (fld w 15 5) (fld w 20 5)) else
    none
  | _ => none

/-- Major 0x0C (Tables 3.4, 3.6). -/
noncomputable def decodeFp (w : Nat) : Option Instr :=
  match bits w 7 3 with
  | 0 =>
    if bits w 27 2 = 0 then some (.fadd (fld w 10 5) (fld w 15 5) (fld w 20 5) (fld w 29 3) (fld w 25 2)) else
    if bits w 27 2 = 1 then some (.fsub (fld w 10 5) (fld w 15 5) (fld w 20 5) (fld w 29 3) (fld w 25 2)) else
    none
  | 1 =>
    if bits w 27 2 = 0 then some (.fmul (fld w 10 5) (fld w 15 5) (fld w 20 5) (fld w 29 3) (fld w 25 2)) else
    none
  | 2 =>
    if bits w 27 2 = 0 then some (.fdiv (fld w 10 5) (fld w 15 5) (fld w 20 5) (fld w 29 3) (fld w 25 2)) else
    none
  | 3 =>
    if bits w 20 5 = 0 ∧ bits w 27 2 = 0 then some (.fsqrt (fld w 10 5) (fld w 15 5) (fld w 29 3) (fld w 25 2)) else
    none
  | 4 =>
    if bits w 27 5 = 0 then some (.fmin (fld w 10 5) (fld w 15 5) (fld w 20 5) (fld w 25 2)) else
    if bits w 27 5 = 1 then some (.fmax (fld w 10 5) (fld w 15 5) (fld w 20 5) (fld w 25 2)) else
    if bits w 27 5 = 2 then some (.fminp (fld w 10 5) (fld w 15 5) (fld w 20 5) (fld w 25 2)) else
    if bits w 27 5 = 3 then some (.fmaxp (fld w 10 5) (fld w 15 5) (fld w 20 5) (fld w 25 2)) else
    none
  | 5 =>
    if bits w 13 2 = 0 ∧ bits w 27 5 = 0 then some (.feq (fld w 10 3) (fld w 15 5) (fld w 20 5) (fld w 25 2)) else
    if bits w 13 2 = 0 ∧ bits w 27 5 = 1 then some (.flt (fld w 10 3) (fld w 15 5) (fld w 20 5) (fld w 25 2)) else
    if bits w 13 2 = 0 ∧ bits w 27 5 = 2 then some (.fle (fld w 10 3) (fld w 15 5) (fld w 20 5) (fld w 25 2)) else
    if bits w 13 2 = 0 ∧ bits w 27 5 = 3 then some (.funord (fld w 10 3) (fld w 15 5) (fld w 20 5) (fld w 25 2)) else
    none
  | 6 =>
    if bits w 20 5 = 0 ∧ bits w 27 5 = 0 then some (.fclass (fld w 10 5) (fld w 15 5) (fld w 25 2)) else
    none
  | 7 =>
    if bits w 27 5 = 0 then some (.fsgnj (fld w 10 5) (fld w 15 5) (fld w 20 5) (fld w 25 2)) else
    if bits w 27 5 = 1 then some (.fsgnjn (fld w 10 5) (fld w 15 5) (fld w 20 5) (fld w 25 2)) else
    if bits w 27 5 = 2 then some (.fsgnjx (fld w 10 5) (fld w 15 5) (fld w 20 5) (fld w 25 2)) else
    none
  | _ => none

/-- Major 0x0D (Tables 3.4, 3.6). -/
noncomputable def decodeFma (w : Nat) : Option Instr :=
  match bits w 7 3 with
  | 0 =>
    if bits w 27 2 = 0 then some (.fmadd (fld w 10 5) (fld w 15 5) (fld w 20 5) (fld w 29 3) (fld w 25 2)) else
    none
  | 1 =>
    if bits w 27 2 = 0 then some (.fmsub (fld w 10 5) (fld w 15 5) (fld w 20 5) (fld w 29 3) (fld w 25 2)) else
    none
  | 2 =>
    if bits w 27 2 = 0 then some (.fnmadd (fld w 10 5) (fld w 15 5) (fld w 20 5) (fld w 29 3) (fld w 25 2)) else
    none
  | 3 =>
    if bits w 27 2 = 0 then some (.fnmsub (fld w 10 5) (fld w 15 5) (fld w 20 5) (fld w 29 3) (fld w 25 2)) else
    none
  | _ => none

/-- Major 0x0E (Tables 3.4, 3.6). -/
noncomputable def decodeFcvt (w : Nat) : Option Instr :=
  if bits w 25 3 = 0 then some (.fcvt (fld w 10 5) (fld w 15 5) (fld w 28 4) (fld w 20 4) (fld w 24 1) (fld w 7 3)) else
  if bits w 24 4 = 2 then some (.fround (fld w 10 5) (fld w 15 5) (fld w 28 4) (fld w 20 4) (fld w 7 3)) else
  none

/-- Major 0x0F (Tables 3.4, 3.6). -/
noncomputable def decodeVop (w : Nat) : Option Instr :=
  if bits w 9 1 = 0 ∧ bits w 25 5 = 0 then some (.vaddFp (fld w 10 5) (fld w 15 5) (fld w 20 5) (fld w 30 2) (fld w 7 2)) else
  if bits w 9 1 = 0 ∧ bits w 25 5 = 1 then some (.vsubFp (fld w 10 5) (fld w 15 5) (fld w 20 5) (fld w 30 2) (fld w 7 2)) else
  if bits w 9 1 = 0 ∧ bits w 25 5 = 2 then some (.vmulFp (fld w 10 5) (fld w 15 5) (fld w 20 5) (fld w 30 2) (fld w 7 2)) else
  if bits w 9 1 = 0 ∧ bits w 25 5 = 3 then some (.vdiv (fld w 10 5) (fld w 15 5) (fld w 20 5) (fld w 30 2) (fld w 7 2)) else
  if bits w 9 1 = 0 ∧ bits w 20 10 = 128 then some (.vsqrt (fld w 10 5) (fld w 15 5) (fld w 30 2) (fld w 7 2)) else
  if bits w 9 1 = 0 ∧ bits w 25 5 = 5 then some (.vminFp (fld w 10 5) (fld w 15 5) (fld w 20 5) (fld w 30 2) (fld w 7 2)) else
  if bits w 9 1 = 0 ∧ bits w 25 5 = 6 then some (.vmaxFp (fld w 10 5) (fld w 15 5) (fld w 20 5) (fld w 30 2) (fld w 7 2)) else
  if bits w 9 1 = 0 ∧ bits w 25 5 = 7 then some (.vfmadd (fld w 10 5) (fld w 15 5) (fld w 20 5) (fld w 30 2) (fld w 7 2)) else
  if bits w 9 1 = 0 ∧ bits w 25 5 = 8 then some (.vfmsub (fld w 10 5) (fld w 15 5) (fld w 20 5) (fld w 30 2) (fld w 7 2)) else
  if bits w 9 1 = 0 ∧ bits w 25 5 = 9 then some (.vfnmadd (fld w 10 5) (fld w 15 5) (fld w 20 5) (fld w 30 2) (fld w 7 2)) else
  if bits w 9 1 = 0 ∧ bits w 25 5 = 10 then some (.vsgnj (fld w 10 5) (fld w 15 5) (fld w 20 5) (fld w 30 2) (fld w 7 2)) else
  if bits w 9 1 = 0 ∧ bits w 25 5 = 11 then some (.vsgnjn (fld w 10 5) (fld w 15 5) (fld w 20 5) (fld w 30 2) (fld w 7 2)) else
  if bits w 9 1 = 0 ∧ bits w 25 5 = 12 then some (.vsgnjx (fld w 10 5) (fld w 15 5) (fld w 20 5) (fld w 30 2) (fld w 7 2)) else
  if bits w 9 1 = 0 ∧ bits w 12 3 = 0 ∧ bits w 25 5 = 13 then some (.vcmpeqFp (fld w 10 2) (fld w 15 5) (fld w 20 5) (fld w 30 2) (fld w 7 2)) else
  if bits w 9 1 = 0 ∧ bits w 12 3 = 0 ∧ bits w 25 5 = 14 then some (.vcmpltFp (fld w 10 2) (fld w 15 5) (fld w 20 5) (fld w 30 2) (fld w 7 2)) else
  if bits w 9 1 = 0 ∧ bits w 12 3 = 0 ∧ bits w 25 5 = 15 then some (.vcmple (fld w 10 2) (fld w 15 5) (fld w 20 5) (fld w 30 2) (fld w 7 2)) else
  if bits w 9 1 = 0 ∧ bits w 12 3 = 0 ∧ bits w 25 5 = 16 then some (.vcmpun (fld w 10 2) (fld w 15 5) (fld w 20 5) (fld w 30 2) (fld w 7 2)) else
  if bits w 9 1 = 0 ∧ bits w 20 10 = 544 then some (.vcvti (fld w 10 5) (fld w 15 5) (fld w 30 2) (fld w 7 2)) else
  if bits w 9 1 = 0 ∧ bits w 20 10 = 576 then some (.vredsumFp (fld w 10 5) (fld w 15 5) (fld w 30 2) (fld w 7 2)) else
  if bits w 9 1 = 0 ∧ bits w 20 10 = 608 then some (.vredminFp (fld w 10 5) (fld w 15 5) (fld w 30 2) (fld w 7 2)) else
  if bits w 9 1 = 0 ∧ bits w 20 10 = 640 then some (.vredmaxFp (fld w 10 5) (fld w 15 5) (fld w 30 2) (fld w 7 2)) else
  if bits w 9 1 = 0 ∧ bits w 25 5 = 21 then some (.vdot (fld w 10 5) (fld w 15 5) (fld w 20 5) (fld w 30 2) (fld w 7 2)) else
  if bits w 9 1 = 0 ∧ bits w 25 5 = 31 then some (.vselFp (fld w 10 5) (fld w 15 5) (fld w 20 5) (fld w 30 2) (fld w 7 2)) else
  if bits w 9 1 = 1 ∧ bits w 25 5 = 0 then some (.vaddInt (fld w 10 5) (fld w 15 5) (fld w 20 5) (fld w 30 2) (fld w 7 2)) else
  if bits w 9 1 = 1 ∧ bits w 25 5 = 1 then some (.vsubInt (fld w 10 5) (fld w 15 5) (fld w 20 5) (fld w 30 2) (fld w 7 2)) else
  if bits w 9 1 = 1 ∧ bits w 25 5 = 2 then some (.vmulInt (fld w 10 5) (fld w 15 5) (fld w 20 5) (fld w 30 2) (fld w 7 2)) else
  if bits w 9 1 = 1 ∧ bits w 25 5 = 3 then some (.vmulh (fld w 10 5) (fld w 15 5) (fld w 20 5) (fld w 30 2) (fld w 7 2)) else
  if bits w 9 1 = 1 ∧ bits w 25 5 = 4 then some (.vminInt (fld w 10 5) (fld w 15 5) (fld w 20 5) (fld w 30 2) (fld w 7 2)) else
  if bits w 9 1 = 1 ∧ bits w 25 5 = 5 then some (.vmaxInt (fld w 10 5) (fld w 15 5) (fld w 20 5) (fld w 30 2) (fld w 7 2)) else
  if bits w 9 1 = 1 ∧ bits w 25 5 = 6 then some (.vminu (fld w 10 5) (fld w 15 5) (fld w 20 5) (fld w 30 2) (fld w 7 2)) else
  if bits w 9 1 = 1 ∧ bits w 25 5 = 7 then some (.vmaxu (fld w 10 5) (fld w 15 5) (fld w 20 5) (fld w 30 2) (fld w 7 2)) else
  if bits w 9 1 = 1 ∧ bits w 25 5 = 8 then some (.vaddss (fld w 10 5) (fld w 15 5) (fld w 20 5) (fld w 30 2) (fld w 7 2)) else
  if bits w 9 1 = 1 ∧ bits w 25 5 = 9 then some (.vsubss (fld w 10 5) (fld w 15 5) (fld w 20 5) (fld w 30 2) (fld w 7 2)) else
  if bits w 9 1 = 1 ∧ bits w 25 5 = 10 then some (.vaddus (fld w 10 5) (fld w 15 5) (fld w 20 5) (fld w 30 2) (fld w 7 2)) else
  if bits w 9 1 = 1 ∧ bits w 25 5 = 11 then some (.vsubus (fld w 10 5) (fld w 15 5) (fld w 20 5) (fld w 30 2) (fld w 7 2)) else
  if bits w 9 1 = 1 ∧ bits w 25 5 = 12 then some (.vand (fld w 10 5) (fld w 15 5) (fld w 20 5) (fld w 30 2) (fld w 7 2)) else
  if bits w 9 1 = 1 ∧ bits w 25 5 = 13 then some (.vor (fld w 10 5) (fld w 15 5) (fld w 20 5) (fld w 30 2) (fld w 7 2)) else
  if bits w 9 1 = 1 ∧ bits w 25 5 = 14 then some (.vxor (fld w 10 5) (fld w 15 5) (fld w 20 5) (fld w 30 2) (fld w 7 2)) else
  if bits w 9 1 = 1 ∧ bits w 25 5 = 15 then some (.vandn (fld w 10 5) (fld w 15 5) (fld w 20 5) (fld w 30 2) (fld w 7 2)) else
  if bits w 9 1 = 1 ∧ bits w 25 5 = 16 then some (.vsll (fld w 10 5) (fld w 15 5) (fld w 20 5) (fld w 30 2) (fld w 7 2)) else
  if bits w 9 1 = 1 ∧ bits w 25 5 = 17 then some (.vsrl (fld w 10 5) (fld w 15 5) (fld w 20 5) (fld w 30 2) (fld w 7 2)) else
  if bits w 9 1 = 1 ∧ bits w 25 5 = 18 then some (.vsra (fld w 10 5) (fld w 15 5) (fld w 20 5) (fld w 30 2) (fld w 7 2)) else
  if bits w 9 1 = 1 ∧ bits w 12 3 = 0 ∧ bits w 25 5 = 19 then some (.vcmpeqInt (fld w 10 2) (fld w 15 5) (fld w 20 5) (fld w 30 2) (fld w 7 2)) else
  if bits w 9 1 = 1 ∧ bits w 12 3 = 0 ∧ bits w 25 5 = 20 then some (.vcmpltInt (fld w 10 2) (fld w 15 5) (fld w 20 5) (fld w 30 2) (fld w 7 2)) else
  if bits w 9 1 = 1 ∧ bits w 12 3 = 0 ∧ bits w 25 5 = 21 then some (.vcmpltu (fld w 10 2) (fld w 15 5) (fld w 20 5) (fld w 30 2) (fld w 7 2)) else
  if bits w 9 1 = 1 ∧ bits w 20 10 = 704 then some (.vcvtf (fld w 10 5) (fld w 15 5) (fld w 30 2) (fld w 7 2)) else
  if bits w 9 1 = 1 ∧ bits w 20 10 = 736 then some (.vredsumInt (fld w 10 5) (fld w 15 5) (fld w 30 2) (fld w 7 2)) else
  if bits w 9 1 = 1 ∧ bits w 20 10 = 768 then some (.vredminInt (fld w 10 5) (fld w 15 5) (fld w 30 2) (fld w 7 2)) else
  if bits w 9 1 = 1 ∧ bits w 20 10 = 800 then some (.vredmaxInt (fld w 10 5) (fld w 15 5) (fld w 30 2) (fld w 7 2)) else
  if bits w 9 1 = 1 ∧ bits w 25 5 = 26 then some (.vmla (fld w 10 5) (fld w 15 5) (fld w 20 5) (fld w 30 2) (fld w 7 2)) else
  if bits w 9 1 = 1 ∧ bits w 25 5 = 31 then some (.vselInt (fld w 10 5) (fld w 15 5) (fld w 20 5) (fld w 30 2) (fld w 7 2)) else
  if bits w 7 3 = 4 ∧ bits w 12 3 = 0 ∧ bits w 17 3 = 0 ∧ bits w 22 10 = 224 then some (.qand (fld w 10 2) (fld w 15 2) (fld w 20 2)) else
  if bits w 7 3 = 4 ∧ bits w 12 3 = 0 ∧ bits w 17 3 = 0 ∧ bits w 22 10 = 232 then some (.qor (fld w 10 2) (fld w 15 2) (fld w 20 2)) else
  if bits w 7 3 = 4 ∧ bits w 12 3 = 0 ∧ bits w 17 3 = 0 ∧ bits w 22 10 = 240 then some (.qxor (fld w 10 2) (fld w 15 2) (fld w 20 2)) else
  if bits w 7 3 = 5 ∧ bits w 12 3 = 0 ∧ bits w 17 3 = 0 ∧ bits w 22 10 = 224 then some (.qandn (fld w 10 2) (fld w 15 2) (fld w 20 2)) else
  if bits w 7 3 = 5 ∧ bits w 17 15 = 7424 then some (.qget (fld w 10 5) (fld w 15 2)) else
  if bits w 7 3 = 5 ∧ bits w 12 3 = 0 ∧ bits w 20 12 = 960 then some (.qput (fld w 10 2) (fld w 15 5)) else
  none

/-- Major 0x10 (Tables 3.4, 3.6). -/
noncomputable def decodeVmem (w : Nat) : Option Instr :=
  match bits w 7 3 with
  | 0 =>
    some (.vld (fld w 10 5) (fld w 15 5) (fld w 20 12))
  | 1 =>
    some (.vst (fld w 10 5) (fld w 15 5) (fld w 20 12))
  | 2 =>
    if bits w 25 3 = 0 then some (.vlds (fld w 10 5) (fld w 15 5) (fld w 20 5) (fld w 30 2) (fld w 28 2)) else
    none
  | 3 =>
    if bits w 25 3 = 0 then some (.vsts (fld w 10 5) (fld w 15 5) (fld w 20 5) (fld w 30 2) (fld w 28 2)) else
    none
  | 4 =>
    if bits w 25 3 = 0 then some (.vgather (fld w 10 5) (fld w 15 5) (fld w 20 5) (fld w 30 2) (fld w 28 2)) else
    none
  | 5 =>
    if bits w 25 3 = 0 then some (.vscatter (fld w 10 5) (fld w 15 5) (fld w 20 5) (fld w 30 2) (fld w 28 2)) else
    none
  | 6 =>
    if bits w 20 8 = 0 then some (.vldb (fld w 10 5) (fld w 15 5) (fld w 30 2) (fld w 28 2)) else
    none
  | _ => none

/-- Major 0x11 (Tables 3.4, 3.6). `vcompress` has no b operand, so a field b that is not 0 is no instruction (DEDUCED, log 66). -/
noncomputable def decodeVperm (w : Nat) : Option Instr :=
  match bits w 7 3 with
  | 0 =>
    if bits w 25 3 = 0 then some (.vperm (fld w 10 5) (fld w 15 5) (fld w 20 5) (fld w 30 2) (fld w 28 2)) else
    none
  | 1 =>
    if bits w 25 3 = 0 then some (.vzip (fld w 10 5) (fld w 15 5) (fld w 20 5) (fld w 30 2) (fld w 28 2)) else
    if bits w 25 3 = 4 then some (.vziph (fld w 10 5) (fld w 15 5) (fld w 20 5) (fld w 30 2) (fld w 28 2)) else
    none
  | 2 =>
    if bits w 25 3 = 0 then some (.vslideup (fld w 10 5) (fld w 15 5) (fld w 20 5) (fld w 30 2) (fld w 28 2)) else
    if bits w 25 3 = 4 then some (.vslidedn (fld w 10 5) (fld w 15 5) (fld w 20 5) (fld w 30 2) (fld w 28 2)) else
    none
  | 3 =>
    if bits w 25 3 = 0 ∧ bits w 30 2 = 0 then some (.vins (fld w 10 5) (fld w 15 5) (fld w 20 5) (fld w 28 2)) else
    none
  | 4 =>
    if bits w 25 3 = 0 ∧ bits w 30 2 = 0 then some (.vext (fld w 10 5) (fld w 15 5) (fld w 20 5) (fld w 28 2)) else
    none
  | 5 =>
    if bits w 20 8 = 0 then some (.vbcast (fld w 10 5) (fld w 15 5) (fld w 30 2) (fld w 28 2)) else
    none
  | 6 =>
    if bits w 20 8 = 0 then some (.vcompress (fld w 10 5) (fld w 15 5) (fld w 30 2) (fld w 28 2)) else
    none
  | _ => none

/-- Major 0x12 (Tables 3.4, 3.6). -/
noncomputable def decodeChan (w : Nat) : Option Instr :=
  match bits w 7 3 with
  | 0 =>
    some (.send (fld w 10 5) (fld w 29 3) (fld w 21 8) (fld w 15 6))
  | 1 =>
    some (.recv (fld w 10 5) (fld w 29 3) (fld w 21 8) (fld w 15 6))
  | 2 =>
    if bits w 21 11 = 0 then some (.offer (fld w 10 5) (fld w 15 6)) else
    none
  | 3 =>
    if bits w 10 5 = 0 ∧ bits w 29 3 = 0 then some (.select (fld w 21 8) (fld w 15 6)) else
    none
  | _ => none

/-- Major 0x13 (Tables 3.4, 3.6). `waite` names no endpoint, so a field e that is not 0 is no instruction (DEDUCED, log 66). -/
noncomputable def decodeSess (w : Nat) : Option Instr :=
  match bits w 7 3 with
  | 0 =>
    if bits w 21 11 = 0 then some (.connect (fld w 10 5) (fld w 15 6)) else
    none
  | 1 =>
    if bits w 10 5 = 0 ∧ bits w 21 11 = 0 then some (.accept (fld w 15 6)) else
    none
  | 2 =>
    if bits w 29 3 = 0 then some (.delegate (fld w 10 5) (fld w 21 8) (fld w 15 6)) else
    if bits w 29 3 = 1 then some (.delegateRx (fld w 10 5) (fld w 21 8) (fld w 15 6)) else
    none
  | 3 =>
    if bits w 10 5 = 0 ∧ bits w 21 11 = 0 then some (.close (fld w 15 6)) else
    none
  | 4 =>
    if bits w 29 3 = 0 then some (.probe (fld w 10 5) (fld w 21 8) (fld w 15 6)) else
    none
  | 5 =>
    if bits w 10 5 = 0 ∧ bits w 21 11 = 1 then some (.sbindG30 (fld w 15 6)) else
    if bits w 10 5 = 0 ∧ bits w 21 11 = 2 then some (.sbindG31 (fld w 15 6)) else
    if bits w 10 5 = 0 ∧ bits w 21 11 = 0 then some (.sbindOff (fld w 15 6)) else
    none
  | 6 =>
    if bits w 15 17 = 0 then some (.waite (fld w 10 5)) else
    none
  | _ => none

/-- Major 0x14 (Tables 3.4, 3.6). -/
noncomputable def decodeCopy (w : Nat) : Option Instr :=
  match bits w 7 3 with
  | 0 =>
    if bits w 10 5 = 0 ∧ bits w 20 5 = 0 ∧ bits w 30 2 = 0 then some (.cpwr (fld w 15 5) (fld w 25 5)) else
    none
  | 1 =>
    if bits w 15 17 = 0 then some (.cpgo (fld w 10 5)) else
    if bits w 15 10 = 0 ∧ bits w 31 1 = 1 then some (.cpgoRemote (fld w 10 5) (fld w 25 6)) else
    none
  | 2 =>
    if bits w 15 10 = 0 ∧ bits w 30 2 = 0 then some (.cprd (fld w 10 5) (fld w 25 5)) else
    none
  | 3 =>
    if bits w 10 5 = 0 ∧ bits w 25 7 = 0 then some (.cpret (fld w 15 5) (fld w 20 5)) else
    none
  | _ => none

/-- Major 0x15 (Tables 3.4, 3.6). -/
noncomputable def decodeTile (w : Nat) : Option Instr :=
  match bits w 7 3 with
  | 0 =>
    if bits w 15 10 = 0 ∧ bits w 28 4 = 0 then some (.tzero (fld w 26 2) (fld2 w 25 1 10 5)) else
    if bits w 20 5 = 0 ∧ bits w 26 6 = 4 then some (.tstat (fld w 10 5) (fld2 w 25 1 15 5)) else
    none
  | 1 =>
    if bits w 27 5 = 0 then some (.tmma (fld w 15 5) (fld w 20 5) (fld w 26 1) (fld2 w 25 1 10 5)) else
    none
  | 2 =>
    some (.tdrain (fld w 15 5) (fld w 20 5) (fld2 w 31 1 10 5) (fld w 25 6))
  | _ => none

/-- Major 0x16 (Tables 3.4, 3.6). -/
noncomputable def decodeGauss (w : Nat) : Option Instr :=
  match bits w 7 3 with
  | 0 =>
    if bits w 20 5 = 0 ∧ bits w 26 6 = 0 then some (.gzero (fld2 w 25 1 10 5) (fld w 15 5)) else
    if bits w 20 5 = 0 ∧ bits w 26 6 = 16 then some (.gstat (fld w 10 5) (fld2 w 25 1 15 5)) else
    if bits w 20 12 = 2048 then some (.gwait (fld w 10 5) (fld w 15 5)) else
    if bits w 20 12 = 3072 then some (.gmab (fld w 10 5) (fld w 15 5)) else
    none
  | 1 =>
    if bits w 20 5 = 0 ∧ bits w 26 6 = 0 then some (.gloadf (fld w 15 5) (fld2 w 25 1 10 5)) else
    none
  | 2 =>
    if bits w 26 1 = 0 ∧ bits w 28 1 = 0 then some (.gadd (fld w 15 5) (fld w 20 5) (fld w 29 3) (fld w 27 1) (fld2 w 25 1 10 5)) else
    if bits w 26 1 = 1 ∧ bits w 28 1 = 0 then some (.gsub (fld w 15 5) (fld w 20 5) (fld w 29 3) (fld w 27 1) (fld2 w 25 1 10 5)) else
    none
  | 3 =>
    if bits w 20 5 = 0 ∧ bits w 26 3 = 0 then some (.gschur (fld w 15 5) (fld w 29 3) (fld2 w 25 1 10 5)) else
    none
  | 4 =>
    if bits w 20 5 = 0 ∧ bits w 26 3 = 0 then some (.gsolve (fld w 15 5) (fld w 29 3) (fld2 w 25 1 10 5)) else
    none
  | 5 =>
    if bits w 26 3 = 0 then some (.gdamp (fld w 10 5) (fld w 15 5) (fld w 29 3) (fld w 20 6)) else
    none
  | 6 =>
    if bits w 20 5 = 0 ∧ bits w 26 6 = 0 then some (.gstorm (fld w 15 5) (fld2 w 25 1 10 5)) else
    if bits w 10 5 = 0 ∧ bits w 20 5 = 0 ∧ bits w 31 1 = 1 then some (.gstormSend (fld w 15 5) (fld w 25 6)) else
    none
  | _ => none

/-- Major 0x17 (Tables 3.4, 3.6). -/
noncomputable def decodeRed (w : Nat) : Option Instr :=
  match bits w 7 3 with
  | 0 =>
    if bits w 10 5 = 0 ∧ bits w 20 12 = 0 then some (.smark (fld w 15 5)) else
    none
  | 1 =>
    if bits w 10 5 = 0 ∧ bits w 20 5 = 0 ∧ bits w 31 1 = 0 then some (.rjoin (fld w 15 5) (fld w 25 6)) else
    none
  | 2 =>
    if bits w 10 5 = 0 ∧ bits w 20 5 = 0 ∧ bits w 31 1 = 0 then some (.rput (fld w 15 5) (fld w 25 6)) else
    none
  | 3 =>
    if bits w 20 5 = 0 ∧ bits w 31 1 = 0 then some (.rget (fld w 10 5) (fld w 15 5) (fld w 25 6)) else
    none
  | 4 =>
    if bits w 10 5 = 0 ∧ bits w 31 1 = 0 then some (.rcorr (fld w 15 5) (fld w 20 5) (fld w 25 6)) else
    none
  | 5 =>
    if bits w 10 5 = 0 ∧ bits w 31 1 = 0 then some (.rtopk (fld w 15 5) (fld w 20 5) (fld w 25 6)) else
    none
  | _ => none

/-- Major 0x18 (Tables 3.4, 3.6). -/
noncomputable def decodeTask (w : Nat) : Option Instr :=
  match bits w 7 3 with
  | 0 =>
    if bits w 10 22 = 0 then some (.waitw) else
    none
  | 1 =>
    if bits w 10 5 = 0 ∧ bits w 20 12 = 0 then some (.suspend (fld w 15 5)) else
    none
  | 2 =>
    if bits w 10 22 = 0 then some (.retire) else
    none
  | 3 =>
    if bits w 10 5 = 0 ∧ bits w 25 7 = 0 then some (.spawn (fld w 15 5) (fld w 20 5)) else
    none
  | 4 =>
    if bits w 20 12 = 0 then some (.qhandle (fld w 10 5) (fld w 15 5)) else
    if bits w 10 5 = 0 ∧ bits w 20 12 = 32 then some (.qreset (fld w 15 5)) else
    if bits w 20 12 = 64 then some (.qstat (fld w 10 5) (fld w 15 5)) else
    none
  | 5 =>
    if bits w 20 12 = 0 then some (.dqpush (fld w 10 5) (fld w 15 5)) else
    if bits w 15 17 = 1024 then some (.dqpop (fld w 10 5)) else
    if bits w 20 12 = 64 then some (.dqsteal (fld w 10 5) (fld w 15 5)) else
    if bits w 15 17 = 3072 then some (.dqcount (fld w 10 5)) else
    none
  | 6 =>
    if bits w 10 5 = 0 ∧ bits w 20 12 = 0 then some (.ttask (fld w 15 5)) else
    if bits w 10 5 = 0 ∧ bits w 25 7 = 1 then some (.tgroup (fld w 15 5) (fld w 20 5)) else
    none
  | 7 =>
    if bits w 15 10 = 0 ∧ bits w 27 5 = 0 then some (.gang (fld w 10 5) (fld w 25 2)) else
    if bits w 10 22 = 262144 then some (.disband) else
    none
  | _ => none

/-- Major 0x19 (Tables 3.4, 3.6). -/
noncomputable def decodeCtx (w : Nat) : Option Instr :=
  match bits w 7 3 with
  | 0 =>
    if bits w 20 12 = 0 then some (.start (fld w 10 5) (fld w 15 5)) else
    if bits w 25 7 = 1 then some (.startPc (fld w 10 5) (fld w 15 5) (fld w 20 5)) else
    none
  | 1 =>
    if bits w 20 12 = 0 then some (.stop (fld w 10 5) (fld w 15 5)) else
    none
  | 2 =>
    if bits w 20 12 = 0 then some (.reap (fld w 10 5) (fld w 15 5)) else
    none
  | 3 =>
    if bits w 20 12 = 0 then some (.rdctx (fld w 10 5) (fld w 15 5)) else
    if bits w 10 5 = 0 ∧ bits w 25 7 = 1 then some (.wrctx (fld w 15 5) (fld w 20 5)) else
    if bits w 20 12 = 64 then some (.rdcore (fld w 10 5) (fld w 15 5)) else
    if bits w 10 5 = 0 ∧ bits w 25 7 = 3 then some (.wrcore (fld w 15 5) (fld w 20 5)) else
    none
  | 4 =>
    if bits w 10 15 = 0 then some (.yield (fld w 25 7)) else
    none
  | 5 =>
    if bits w 10 5 = 0 ∧ bits w 20 12 = 0 then some (.semwait (fld w 15 5)) else
    if bits w 10 5 = 0 ∧ bits w 25 7 = 1 then some (.sempost (fld w 20 5) (fld w 15 5)) else
    if bits w 20 12 = 64 then some (.semget (fld w 10 5) (fld w 15 5)) else
    if bits w 10 5 = 0 ∧ bits w 25 7 = 3 then some (.semset (fld w 20 5) (fld w 15 5)) else
    none
  | 6 =>
    if bits w 10 5 = 0 ∧ bits w 20 11 = 0 then some (.fswait (fld2 w 31 1 15 5)) else
    if bits w 10 5 = 0 ∧ bits w 25 6 = 1 then some (.fspost (fld w 20 5) (fld2 w 31 1 15 5)) else
    if bits w 20 11 = 64 then some (.fsget (fld w 10 5) (fld2 w 31 1 15 5)) else
    if bits w 10 5 = 0 ∧ bits w 25 6 = 3 then some (.fsset (fld w 20 5) (fld2 w 31 1 15 5)) else
    if bits w 10 5 = 0 ∧ bits w 25 6 = 4 then some (.fbar (fld w 20 5) (fld2 w 31 1 15 5)) else
    none
  | 7 =>
    if bits w 15 17 = 0 then some (.funion (fld w 10 5)) else
    if bits w 20 12 = 64 then some (.rdfloe (fld w 10 5) (fld w 15 5)) else
    if bits w 10 5 = 0 ∧ bits w 25 7 = 3 then some (.wrfloe (fld w 15 5) (fld w 20 5)) else
    none
  | _ => none

/-- Major 0x1A (Tables 3.4, 3.6). -/
noncomputable def decodeXreg (w : Nat) : Option Instr :=
  match bits w 7 3 with
  | 0 =>
    if bits w 13 2 = 0 ∧ bits w 20 12 = 0 then some (.xset (fld w 10 3) (fld w 15 5)) else
    none
  | 1 =>
    if bits w 13 2 = 0 then some (.xld (fld w 10 3) (fld w 15 5) (fld w 20 12)) else
    none
  | 2 =>
    if bits w 18 14 = 0 then some (.xget (fld w 10 5) (fld w 15 3)) else
    none
  | _ => none

/-- Major 0x1B (Tables 3.4, 3.6). -/
noncomputable def decodeSys (w : Nat) : Option Instr :=
  match bits w 7 3 with
  | 0 =>
    if bits w 15 5 = 0 then some (.mfs (fld w 10 5) (fld w 20 12)) else
    none
  | 1 =>
    if bits w 10 5 = 0 then some (.mts (fld w 15 5) (fld w 20 12)) else
    none
  | 2 =>
    if bits w 10 22 = 0 then some (.eret) else
    none
  | 3 =>
    if bits w 10 10 = 0 then some (.trap (fld w 20 12)) else
    none
  | 4 =>
    if bits w 15 17 = 0 then some (.evwait (fld w 10 5)) else
    if bits w 15 17 = 1024 then some (.evget (fld w 10 5)) else
    if bits w 10 5 = 0 ∧ bits w 20 12 = 64 then some (.evpost (fld w 15 5)) else
    if bits w 15 17 = 3072 then some (.evstat (fld w 10 5)) else
    none
  | 5 =>
    if bits w 10 5 = 0 ∧ bits w 20 12 = 0 then some (.tmset (fld w 15 5)) else
    if bits w 15 17 = 1024 then some (.tmget (fld w 10 5)) else
    none
  | 6 =>
    if bits w 10 22 = 0 then some (.brk) else
    none
  | _ => none

/-- The 32-bit instruction a word holds, before the checks of `Instr.wf`. -/
noncomputable def decode32 (w : Nat) : Option Instr :=
  match bits w 2 5 with
  | 0 => decodeOp w
  | 1 => decodeOpi w
  | 2 => decodeBit w
  | 3 => decodeMul w
  | 4 => decodeBr w
  | 5 => decodeJmp w
  | 6 => decodeLoop w
  | 7 => decodeLd w
  | 8 => decodeSt w
  | 9 => decodeGmem w
  | 10 => decodeAmo w
  | 11 => decodeFence w
  | 12 => decodeFp w
  | 13 => decodeFma w
  | 14 => decodeFcvt w
  | 15 => decodeVop w
  | 16 => decodeVmem w
  | 17 => decodeVperm w
  | 18 => decodeChan w
  | 19 => decodeSess w
  | 20 => decodeCopy w
  | 21 => decodeTile w
  | 22 => decodeGauss w
  | 23 => decodeRed w
  | 24 => decodeTask w
  | 25 => decodeCtx w
  | 26 => decodeXreg w
  | 27 => decodeSys w
  | _ => none

/-- The compact instruction a halfword holds (Table 3.7), before the checks of `Instr.wf`. -/
noncomputable def decode16 (w : Nat) : Option Instr :=
  match bits w 0 5 with
  | 0 =>
    some (.cAddi (fld w 5 5) (fld w 10 6))
  | 1 =>
    some (.cBeqz (fld w 5 5) (fld w 10 6))
  | 2 =>
    some (.cLdW (fld w 5 5) (fld w 10 6))
  | 4 =>
    some (.cLi (fld w 5 5) (fld w 10 6))
  | 5 =>
    some (.cBnez (fld w 5 5) (fld w 10 6))
  | 6 =>
    some (.cStW (fld w 5 5) (fld w 10 6))
  | 8 =>
    if bits w 15 1 = 0 then some (.cMv (fld w 5 5) (fld w 10 5)) else
    none
  | 9 =>
    some (.cJ (fld w 5 11))
  | 10 =>
    some (.cSrai (fld w 5 5) (fld w 10 6))
  | 12 =>
    if bits w 15 1 = 0 then some (.cAdd (fld w 5 5) (fld w 10 5)) else
    none
  | 13 =>
    some (.cJal (fld w 5 11))
  | 14 =>
    some (.cSrli (fld w 5 5) (fld w 10 6))
  | 16 =>
    if bits w 15 1 = 0 then some (.cSub (fld w 5 5) (fld w 10 5)) else
    none
  | 17 =>
    if bits w 10 6 = 0 then some (.cJr (fld w 5 5)) else
    none
  | 18 =>
    some (.cAndi (fld w 5 5) (fld w 10 6))
  | 20 =>
    some (.cLdD (fld w 5 5) (fld w 10 6))
  | 21 =>
    if bits w 15 1 = 0 then some (.cAnd (fld w 5 5) (fld w 10 5)) else
    none
  | 22 =>
    if bits w 5 11 = 0 then some (.cNop) else
    none
  | 24 =>
    some (.cStD (fld w 5 5) (fld w 10 6))
  | 25 =>
    if bits w 15 1 = 0 then some (.cOr (fld w 5 5) (fld w 10 5)) else
    none
  | 28 =>
    some (.cSlli (fld w 5 5) (fld w 10 6))
  | 29 =>
    if bits w 15 1 = 0 then some (.cXor (fld w 5 5) (fld w 10 5)) else
    none
  | _ => none

/-- The instruction a word is, or none where R73 says the encoding is not an instruction. Bits <1:0>
tell a 32-bit from a 16-bit instruction (R65). -/
noncomputable def decodeWord (w : Nat) : Option Instr :=
  (if w % 4 = 3 then decode32 (w % 2 ^ 32) else decode16 (w % 2 ^ 16)).filter Instr.wf

/-- A little-endian number (R5). -/
def leNat : List Byte → Nat
  | [] => 0
  | b :: l => b.toNat + 256 * leNat l

/-- The n low bytes of a number, little-endian (R5). -/
def leBytes : Nat → Nat → List Byte
  | 0, _ => []
  | n + 1, w => BitVec.ofNat 8 w :: leBytes n (w / 256)

/-- Decoding a byte stream: the first instruction and the bytes after it. -/
noncomputable def decode : List Byte → Option (Instr × List Byte)
  | b0 :: b1 :: rest =>
    if b0.toNat % 4 = 3 then
      match rest with
      | b2 :: b3 :: rest' => (decodeWord (leNat [b0, b1, b2, b3])).map fun i => (i, rest')
      | _ => none
    else (decodeWord (leNat [b0, b1])).map fun i => (i, rest)
  | _ => none

/-- The instruction the decoder reads from the `nbits` bits of `w`, numbered as
spec/opcode_table.json numbers them, every bit above them 0. -/
noncomputable def decodeTableWord (nbits w : Nat) : Option Instr :=
  (decode (leBytes 4 (w % 2 ^ nbits))).map Prod.fst

/-- The sum of values placed at bit positions. -/
def place : List (Nat × Nat) → Nat
  | [] => 0
  | (v, lo) :: l => v * 2 ^ lo + place l

/-- The word of an instruction, from the encoding table of its group; 0 for an event, which has no
encoding. -/
def Instr.word : Instr → Nat
  | .add d a b => 0x3 + place [(d.toNat, 10), (a.toNat, 15), (b.toNat, 20)]
  | .sub d a b => 0x2000003 + place [(d.toNat, 10), (a.toNat, 15), (b.toNat, 20)]
  | .addw d a b => 0x4000003 + place [(d.toNat, 10), (a.toNat, 15), (b.toNat, 20)]
  | .subw d a b => 0x6000003 + place [(d.toNat, 10), (a.toNat, 15), (b.toNat, 20)]
  | .and d a b => 0x83 + place [(d.toNat, 10), (a.toNat, 15), (b.toNat, 20)]
  | .or d a b => 0x2000083 + place [(d.toNat, 10), (a.toNat, 15), (b.toNat, 20)]
  | .xor d a b => 0x4000083 + place [(d.toNat, 10), (a.toNat, 15), (b.toNat, 20)]
  | .andn d a b => 0x6000083 + place [(d.toNat, 10), (a.toNat, 15), (b.toNat, 20)]
  | .orn d a b => 0x8000083 + place [(d.toNat, 10), (a.toNat, 15), (b.toNat, 20)]
  | .xnor d a b => 0xa000083 + place [(d.toNat, 10), (a.toNat, 15), (b.toNat, 20)]
  | .seq d a b => 0x103 + place [(d.toNat, 10), (a.toNat, 15), (b.toNat, 20)]
  | .sne d a b => 0x2000103 + place [(d.toNat, 10), (a.toNat, 15), (b.toNat, 20)]
  | .slt d a b => 0x4000103 + place [(d.toNat, 10), (a.toNat, 15), (b.toNat, 20)]
  | .sltu d a b => 0x6000103 + place [(d.toNat, 10), (a.toNat, 15), (b.toNat, 20)]
  | .min d a b => 0x183 + place [(d.toNat, 10), (a.toNat, 15), (b.toNat, 20)]
  | .max d a b => 0x2000183 + place [(d.toNat, 10), (a.toNat, 15), (b.toNat, 20)]
  | .minu d a b => 0x4000183 + place [(d.toNat, 10), (a.toNat, 15), (b.toNat, 20)]
  | .maxu d a b => 0x6000183 + place [(d.toNat, 10), (a.toNat, 15), (b.toNat, 20)]
  | .addss d a b => 0x203 + place [(d.toNat, 10), (a.toNat, 15), (b.toNat, 20)]
  | .subss d a b => 0x2000203 + place [(d.toNat, 10), (a.toNat, 15), (b.toNat, 20)]
  | .addus d a b => 0x4000203 + place [(d.toNat, 10), (a.toNat, 15), (b.toNat, 20)]
  | .subus d a b => 0x6000203 + place [(d.toNat, 10), (a.toNat, 15), (b.toNat, 20)]
  | .sel d a b n => 0x283 + place [(d.toNat, 10), (a.toNat, 15), (b.toNat, 20), (n.toNat, 25)]
  | .addsl d a b s => 0x303 + place [(d.toNat, 10), (a.toNat, 15), (b.toNat, 20), (s.toNat, 25)]
  | .addi d a i => 0x7 + place [(d.toNat, 10), (a.toNat, 15), (i.toNat, 20)]
  | .andi d a i => 0x87 + place [(d.toNat, 10), (a.toNat, 15), (i.toNat, 20)]
  | .ori d a i => 0x107 + place [(d.toNat, 10), (a.toNat, 15), (i.toNat, 20)]
  | .xori d a i => 0x187 + place [(d.toNat, 10), (a.toNat, 15), (i.toNat, 20)]
  | .slti d a i => 0x207 + place [(d.toNat, 10), (a.toNat, 15), (i.toNat, 20)]
  | .sltiu d a i => 0x287 + place [(d.toNat, 10), (a.toNat, 15), (i.toNat, 20)]
  | .addhi d a i => 0x307 + place [(d.toNat, 10), (a.toNat, 15), (i.toNat, 20)]
  | .sll d a b => 0xb + place [(d.toNat, 10), (a.toNat, 15), (b.toNat, 20)]
  | .srl d a b => 0x200000b + place [(d.toNat, 10), (a.toNat, 15), (b.toNat, 20)]
  | .sra d a b => 0x400000b + place [(d.toNat, 10), (a.toNat, 15), (b.toNat, 20)]
  | .rol d a b => 0x600000b + place [(d.toNat, 10), (a.toNat, 15), (b.toNat, 20)]
  | .ror d a b => 0x800000b + place [(d.toNat, 10), (a.toNat, 15), (b.toNat, 20)]
  | .extur d a b => 0xa00000b + place [(d.toNat, 10), (a.toNat, 15), (b.toNat, 20)]
  | .extsr d a b => 0xc00000b + place [(d.toNat, 10), (a.toNat, 15), (b.toNat, 20)]
  | .insr d a b => 0xe00000b + place [(d.toNat, 10), (a.toNat, 15), (b.toNat, 20)]
  | .slli d a n => 0x8b + place [(d.toNat, 10), (a.toNat, 15), (n.toNat, 20)]
  | .srli d a n => 0x400008b + place [(d.toNat, 10), (a.toNat, 15), (n.toNat, 20)]
  | .srai d a n => 0x800008b + place [(d.toNat, 10), (a.toNat, 15), (n.toNat, 20)]
  | .rori d a n => 0xc00008b + place [(d.toNat, 10), (a.toNat, 15), (n.toNat, 20)]
  | .extu d a w o => 0x10b + place [(d.toNat, 10), (a.toNat, 15), (w.toNat, 26), (o.toNat, 20)]
  | .exts d a w o => 0x18b + place [(d.toNat, 10), (a.toNat, 15), (w.toNat, 26), (o.toNat, 20)]
  | .ins d a w o => 0x20b + place [(d.toNat, 10), (a.toNat, 15), (w.toNat, 26), (o.toNat, 20)]
  | .clz d a => 0x28b + place [(d.toNat, 10), (a.toNat, 15)]
  | .ctz d a => 0x200028b + place [(d.toNat, 10), (a.toNat, 15)]
  | .popc d a => 0x400028b + place [(d.toNat, 10), (a.toNat, 15)]
  | .rev8 d a => 0x600028b + place [(d.toNat, 10), (a.toNat, 15)]
  | .brev d a => 0x800028b + place [(d.toNat, 10), (a.toNat, 15)]
  | .msghPack d a lay => 0x30b + place [(d.toNat, 10), (a.toNat, 15), (lay.toNat, 25)]
  | .msghUnpk d a lay => 0x2000030b + place [(d.toNat, 10), (a.toNat, 15), (lay.toNat, 25)]
  | .msghLoad a lay => 0x4000030b + place [(a.toNat, 15), (lay.toNat, 25)]
  | .msghRead d lay => 0x6000030b + place [(d.toNat, 10), (lay.toNat, 25)]
  | .mul d a b => 0xf + place [(d.toNat, 10), (a.toNat, 15), (b.toNat, 20)]
  | .mulw d a b => 0x200000f + place [(d.toNat, 10), (a.toNat, 15), (b.toNat, 20)]
  | .mulh d a b => 0x8f + place [(d.toNat, 10), (a.toNat, 15), (b.toNat, 20)]
  | .mulhu d a b => 0x200008f + place [(d.toNat, 10), (a.toNat, 15), (b.toNat, 20)]
  | .mulhsu d a b => 0x400008f + place [(d.toNat, 10), (a.toNat, 15), (b.toNat, 20)]
  | .div d a b => 0x10f + place [(d.toNat, 10), (a.toNat, 15), (b.toNat, 20)]
  | .divu d a b => 0x200010f + place [(d.toNat, 10), (a.toNat, 15), (b.toNat, 20)]
  | .rem d a b => 0x18f + place [(d.toNat, 10), (a.toNat, 15), (b.toNat, 20)]
  | .remu d a b => 0x200018f + place [(d.toNat, 10), (a.toNat, 15), (b.toNat, 20)]
  | .beq a b o => 0x13 + place [(a.toNat, 15), (b.toNat, 20), (o.toNat / 2 ^ 5, 25), (o.toNat % 2 ^ 5, 10)]
  | .bne a b o => 0x93 + place [(a.toNat, 15), (b.toNat, 20), (o.toNat / 2 ^ 5, 25), (o.toNat % 2 ^ 5, 10)]
  | .blt a b o => 0x113 + place [(a.toNat, 15), (b.toNat, 20), (o.toNat / 2 ^ 5, 25), (o.toNat % 2 ^ 5, 10)]
  | .bge a b o => 0x193 + place [(a.toNat, 15), (b.toNat, 20), (o.toNat / 2 ^ 5, 25), (o.toNat % 2 ^ 5, 10)]
  | .bltu a b o => 0x213 + place [(a.toNat, 15), (b.toNat, 20), (o.toNat / 2 ^ 5, 25), (o.toNat % 2 ^ 5, 10)]
  | .bgeu a b o => 0x293 + place [(a.toNat, 15), (b.toNat, 20), (o.toNat / 2 ^ 5, 25), (o.toNat % 2 ^ 5, 10)]
  | .bpt p o => 0x313 + place [(p.toNat, 15), (o.toNat / 2 ^ 5, 25), (o.toNat % 2 ^ 5, 10)]
  | .bpf p o => 0x393 + place [(p.toNat, 15), (o.toNat / 2 ^ 5, 25), (o.toNat % 2 ^ 5, 10)]
  | .jal d o => 0x17 + place [(d.toNat, 10), (o.toNat, 15)]
  | .jalr d a i => 0x97 + place [(d.toNat, 10), (a.toNat, 15), (i.toNat, 20)]
  | .loop a n o => 0x1b + place [(a.toNat, 15), (n.toNat, 30), (o.toNat / 2 ^ 5, 20), (o.toNat % 2 ^ 5, 10)]
  | .loopi n o c => 0x9b + place [(n.toNat, 30), (o.toNat / 2 ^ 5, 25), (o.toNat % 2 ^ 5, 10), (c.toNat, 15)]
  | .pand d a b => 0x11b + place [(d.toNat, 10), (a.toNat, 15), (b.toNat, 20)]
  | .por d a b => 0x200011b + place [(d.toNat, 10), (a.toNat, 15), (b.toNat, 20)]
  | .pxor d a b => 0x400011b + place [(d.toNat, 10), (a.toNat, 15), (b.toNat, 20)]
  | .pandn d a b => 0x600011b + place [(d.toNat, 10), (a.toNat, 15), (b.toNat, 20)]
  | .porn d a b => 0x800011b + place [(d.toNat, 10), (a.toNat, 15), (b.toNat, 20)]
  | .pnot d a => 0xa00011b + place [(d.toNat, 10), (a.toNat, 15)]
  | .pmov d a => 0xc00011b + place [(d.toNat, 10), (a.toNat, 15)]
  | .peq d a b => 0x19b + place [(d.toNat, 10), (a.toNat, 15), (b.toNat, 20)]
  | .pne d a b => 0x200019b + place [(d.toNat, 10), (a.toNat, 15), (b.toNat, 20)]
  | .plt d a b => 0x400019b + place [(d.toNat, 10), (a.toNat, 15), (b.toNat, 20)]
  | .pge d a b => 0x600019b + place [(d.toNat, 10), (a.toNat, 15), (b.toNat, 20)]
  | .pltu d a b => 0x800019b + place [(d.toNat, 10), (a.toNat, 15), (b.toNat, 20)]
  | .pgeu d a b => 0xa00019b + place [(d.toNat, 10), (a.toNat, 15), (b.toNat, 20)]
  | .pget d => 0x21b + place [(d.toNat, 10)]
  | .pput a => 0x29b + place [(a.toNat, 15)]
  | .ldB d a o => 0x1f + place [(d.toNat, 10), (a.toNat, 15), (o.toNat, 20)]
  | .ldH d a o => 0x9f + place [(d.toNat, 10), (a.toNat, 15), (o.toNat, 20)]
  | .ldW d a o => 0x11f + place [(d.toNat, 10), (a.toNat, 15), (o.toNat, 20)]
  | .ldD d a o => 0x19f + place [(d.toNat, 10), (a.toNat, 15), (o.toNat, 20)]
  | .ldBu d a o => 0x21f + place [(d.toNat, 10), (a.toNat, 15), (o.toNat, 20)]
  | .ldHu d a o => 0x29f + place [(d.toNat, 10), (a.toNat, 15), (o.toNat, 20)]
  | .ldWu d a o => 0x31f + place [(d.toNat, 10), (a.toNat, 15), (o.toNat, 20)]
  | .stB d a o => 0x23 + place [(d.toNat, 10), (a.toNat, 15), (o.toNat, 20)]
  | .stH d a o => 0xa3 + place [(d.toNat, 10), (a.toNat, 15), (o.toNat, 20)]
  | .stW d a o => 0x123 + place [(d.toNat, 10), (a.toNat, 15), (o.toNat, 20)]
  | .stD d a o => 0x1a3 + place [(d.toNat, 10), (a.toNat, 15), (o.toNat, 20)]
  | .enter d n => 0x223 + place [(d.toNat, 10), (n.toNat, 20)]
  | .leave d n => 0x2a3 + place [(d.toNat, 10), (n.toNat, 20)]
  | .gld d a u e s => 0x27 + place [(d.toNat, 10), (a.toNat, 15), (u.toNat, 31), (e.toNat, 25), (s.toNat, 20)]
  | .gst d a e s => 0xa7 + place [(d.toNat, 10), (a.toNat, 15), (e.toNat, 25), (s.toNat, 20)]
  | .gvld d a e => 0x127 + place [(d.toNat, 10), (a.toNat, 15), (e.toNat, 25)]
  | .gvst d a e => 0x1a7 + place [(d.toNat, 10), (a.toNat, 15), (e.toNat, 25)]
  | .wrd d a u e s => 0x227 + place [(d.toNat, 10), (a.toNat, 15), (u.toNat, 31), (e.toNat, 25), (s.toNat, 20)]
  | .wwr d a e s => 0x2a7 + place [(d.toNat, 10), (a.toNat, 15), (e.toNat, 25), (s.toNat, 20)]
  | .wamo d a e o => 0x327 + place [(d.toNat, 10), (a.toNat, 15), (e.toNat, 25), (o.toNat, 20)]
  | .wpm d a b e => 0x3a7 + place [(d.toNat, 10), (a.toNat, 15), (b.toNat, 20), (e.toNat, 25)]
  | .amoadd d a b s o => 0x2b + place [(d.toNat, 10), (a.toNat, 15), (b.toNat, 20), (s.toNat, 29), (o.toNat, 27)]
  | .amofaddD d a b s o => 0xab + place [(d.toNat, 10), (a.toNat, 15), (b.toNat, 20), (s.toNat, 29), (o.toNat, 27)]
  | .amofaddS d a b s o => 0x20000ab + place [(d.toNat, 10), (a.toNat, 15), (b.toNat, 20), (s.toNat, 29), (o.toNat, 27)]
  | .amomin d a b s o => 0x12b + place [(d.toNat, 10), (a.toNat, 15), (b.toNat, 20), (s.toNat, 29), (o.toNat, 27)]
  | .amomax d a b s o => 0x200012b + place [(d.toNat, 10), (a.toNat, 15), (b.toNat, 20), (s.toNat, 29), (o.toNat, 27)]
  | .amominu d a b s o => 0x400012b + place [(d.toNat, 10), (a.toNat, 15), (b.toNat, 20), (s.toNat, 29), (o.toNat, 27)]
  | .amomaxu d a b s o => 0x600012b + place [(d.toNat, 10), (a.toNat, 15), (b.toNat, 20), (s.toNat, 29), (o.toNat, 27)]
  | .amoswap d a b s o => 0x1ab + place [(d.toNat, 10), (a.toNat, 15), (b.toNat, 20), (s.toNat, 29), (o.toNat, 27)]
  | .amocas d a b s o => 0x22b + place [(d.toNat, 10), (a.toNat, 15), (b.toNat, 20), (s.toNat, 29), (o.toNat, 27)]
  | .amoand d a b s o => 0x2ab + place [(d.toNat, 10), (a.toNat, 15), (b.toNat, 20), (s.toNat, 29), (o.toNat, 27)]
  | .amoor d a b s o => 0x20002ab + place [(d.toNat, 10), (a.toNat, 15), (b.toNat, 20), (s.toNat, 29), (o.toNat, 27)]
  | .amoxor d a b s o => 0x40002ab + place [(d.toNat, 10), (a.toNat, 15), (b.toNat, 20), (s.toNat, 29), (o.toNat, 27)]
  | .nwait d a b s o t => 0x32b + place [(d.toNat, 10), (a.toNat, 15), (b.toNat, 20), (s.toNat, 29), (o.toNat, 27), (t.toNat, 25)]
  | .fence s => 0x2f + place [(s.toNat, 25)]
  | .lda d a u z s => 0xaf + place [(d.toNat, 10), (a.toNat, 15), (u.toNat, 30), (z.toNat, 28), (s.toNat, 25)]
  | .stl a b z s => 0x12f + place [(a.toNat, 15), (b.toNat, 20), (z.toNat, 28), (s.toNat, 25)]
  | .ifence => 0x1af
  | .waitc t c s l => 0x22f + place [(t.toNat, 25), (c.toNat, 20), (s.toNat, 15), (l.toNat, 10)]
  | .waitany d a => 0x2af + place [(d.toNat, 10), (a.toNat, 15)]
  | .waitall a => 0x20002af + place [(a.toNat, 15)]
  | .ffr d a => 0x32f + place [(d.toNat, 10), (a.toNat, 15)]
  | .ffrClr d a => 0x200032f + place [(d.toNat, 10), (a.toNat, 15)]
  | .waitchAny d a b => 0x3af + place [(d.toNat, 10), (a.toNat, 15), (b.toNat, 20)]
  | .waitchAll d a b => 0x20003af + place [(d.toNat, 10), (a.toNat, 15), (b.toNat, 20)]
  | .fadd d a b r f => 0x33 + place [(d.toNat, 10), (a.toNat, 15), (b.toNat, 20), (r.toNat, 29), (f.toNat, 25)]
  | .fsub d a b r f => 0x8000033 + place [(d.toNat, 10), (a.toNat, 15), (b.toNat, 20), (r.toNat, 29), (f.toNat, 25)]
  | .fmul d a b r f => 0xb3 + place [(d.toNat, 10), (a.toNat, 15), (b.toNat, 20), (r.toNat, 29), (f.toNat, 25)]
  | .fdiv d a b r f => 0x133 + place [(d.toNat, 10), (a.toNat, 15), (b.toNat, 20), (r.toNat, 29), (f.toNat, 25)]
  | .fsqrt d a r f => 0x1b3 + place [(d.toNat, 10), (a.toNat, 15), (r.toNat, 29), (f.toNat, 25)]
  | .fmin d a b f => 0x233 + place [(d.toNat, 10), (a.toNat, 15), (b.toNat, 20), (f.toNat, 25)]
  | .fmax d a b f => 0x8000233 + place [(d.toNat, 10), (a.toNat, 15), (b.toNat, 20), (f.toNat, 25)]
  | .fminp d a b f => 0x10000233 + place [(d.toNat, 10), (a.toNat, 15), (b.toNat, 20), (f.toNat, 25)]
  | .fmaxp d a b f => 0x18000233 + place [(d.toNat, 10), (a.toNat, 15), (b.toNat, 20), (f.toNat, 25)]
  | .feq p a b f => 0x2b3 + place [(p.toNat, 10), (a.toNat, 15), (b.toNat, 20), (f.toNat, 25)]
  | .flt p a b f => 0x80002b3 + place [(p.toNat, 10), (a.toNat, 15), (b.toNat, 20), (f.toNat, 25)]
  | .fle p a b f => 0x100002b3 + place [(p.toNat, 10), (a.toNat, 15), (b.toNat, 20), (f.toNat, 25)]
  | .funord p a b f => 0x180002b3 + place [(p.toNat, 10), (a.toNat, 15), (b.toNat, 20), (f.toNat, 25)]
  | .fclass d a f => 0x333 + place [(d.toNat, 10), (a.toNat, 15), (f.toNat, 25)]
  | .fsgnj d a b f => 0x3b3 + place [(d.toNat, 10), (a.toNat, 15), (b.toNat, 20), (f.toNat, 25)]
  | .fsgnjn d a b f => 0x80003b3 + place [(d.toNat, 10), (a.toNat, 15), (b.toNat, 20), (f.toNat, 25)]
  | .fsgnjx d a b f => 0x100003b3 + place [(d.toNat, 10), (a.toNat, 15), (b.toNat, 20), (f.toNat, 25)]
  | .fmadd d a b r f => 0x37 + place [(d.toNat, 10), (a.toNat, 15), (b.toNat, 20), (r.toNat, 29), (f.toNat, 25)]
  | .fmsub d a b r f => 0xb7 + place [(d.toNat, 10), (a.toNat, 15), (b.toNat, 20), (r.toNat, 29), (f.toNat, 25)]
  | .fnmadd d a b r f => 0x137 + place [(d.toNat, 10), (a.toNat, 15), (b.toNat, 20), (r.toNat, 29), (f.toNat, 25)]
  | .fnmsub d a b r f => 0x1b7 + place [(d.toNat, 10), (a.toNat, 15), (b.toNat, 20), (r.toNat, 29), (f.toNat, 25)]
  | .fcvt d a t s x r => 0x3b + place [(d.toNat, 10), (a.toNat, 15), (t.toNat, 28), (s.toNat, 20), (x.toNat, 24), (r.toNat, 7)]
  | .fround d a t s r => 0x200003b + place [(d.toNat, 10), (a.toNat, 15), (t.toNat, 28), (s.toNat, 20), (r.toNat, 7)]
  | .vaddFp d a b m l => 0x3f + place [(d.toNat, 10), (a.toNat, 15), (b.toNat, 20), (m.toNat, 30), (l.toNat, 7)]
  | .vsubFp d a b m l => 0x200003f + place [(d.toNat, 10), (a.toNat, 15), (b.toNat, 20), (m.toNat, 30), (l.toNat, 7)]
  | .vmulFp d a b m l => 0x400003f + place [(d.toNat, 10), (a.toNat, 15), (b.toNat, 20), (m.toNat, 30), (l.toNat, 7)]
  | .vdiv d a b m l => 0x600003f + place [(d.toNat, 10), (a.toNat, 15), (b.toNat, 20), (m.toNat, 30), (l.toNat, 7)]
  | .vsqrt d a m l => 0x800003f + place [(d.toNat, 10), (a.toNat, 15), (m.toNat, 30), (l.toNat, 7)]
  | .vminFp d a b m l => 0xa00003f + place [(d.toNat, 10), (a.toNat, 15), (b.toNat, 20), (m.toNat, 30), (l.toNat, 7)]
  | .vmaxFp d a b m l => 0xc00003f + place [(d.toNat, 10), (a.toNat, 15), (b.toNat, 20), (m.toNat, 30), (l.toNat, 7)]
  | .vfmadd d a b m l => 0xe00003f + place [(d.toNat, 10), (a.toNat, 15), (b.toNat, 20), (m.toNat, 30), (l.toNat, 7)]
  | .vfmsub d a b m l => 0x1000003f + place [(d.toNat, 10), (a.toNat, 15), (b.toNat, 20), (m.toNat, 30), (l.toNat, 7)]
  | .vfnmadd d a b m l => 0x1200003f + place [(d.toNat, 10), (a.toNat, 15), (b.toNat, 20), (m.toNat, 30), (l.toNat, 7)]
  | .vsgnj d a b m l => 0x1400003f + place [(d.toNat, 10), (a.toNat, 15), (b.toNat, 20), (m.toNat, 30), (l.toNat, 7)]
  | .vsgnjn d a b m l => 0x1600003f + place [(d.toNat, 10), (a.toNat, 15), (b.toNat, 20), (m.toNat, 30), (l.toNat, 7)]
  | .vsgnjx d a b m l => 0x1800003f + place [(d.toNat, 10), (a.toNat, 15), (b.toNat, 20), (m.toNat, 30), (l.toNat, 7)]
  | .vcmpeqFp q a b m l => 0x1a00003f + place [(q.toNat, 10), (a.toNat, 15), (b.toNat, 20), (m.toNat, 30), (l.toNat, 7)]
  | .vcmpltFp q a b m l => 0x1c00003f + place [(q.toNat, 10), (a.toNat, 15), (b.toNat, 20), (m.toNat, 30), (l.toNat, 7)]
  | .vcmple q a b m l => 0x1e00003f + place [(q.toNat, 10), (a.toNat, 15), (b.toNat, 20), (m.toNat, 30), (l.toNat, 7)]
  | .vcmpun q a b m l => 0x2000003f + place [(q.toNat, 10), (a.toNat, 15), (b.toNat, 20), (m.toNat, 30), (l.toNat, 7)]
  | .vcvti d a m l => 0x2200003f + place [(d.toNat, 10), (a.toNat, 15), (m.toNat, 30), (l.toNat, 7)]
  | .vredsumFp d a m l => 0x2400003f + place [(d.toNat, 10), (a.toNat, 15), (m.toNat, 30), (l.toNat, 7)]
  | .vredminFp d a m l => 0x2600003f + place [(d.toNat, 10), (a.toNat, 15), (m.toNat, 30), (l.toNat, 7)]
  | .vredmaxFp d a m l => 0x2800003f + place [(d.toNat, 10), (a.toNat, 15), (m.toNat, 30), (l.toNat, 7)]
  | .vdot d a b m l => 0x2a00003f + place [(d.toNat, 10), (a.toNat, 15), (b.toNat, 20), (m.toNat, 30), (l.toNat, 7)]
  | .vselFp d a b m l => 0x3e00003f + place [(d.toNat, 10), (a.toNat, 15), (b.toNat, 20), (m.toNat, 30), (l.toNat, 7)]
  | .vaddInt d a b m l => 0x23f + place [(d.toNat, 10), (a.toNat, 15), (b.toNat, 20), (m.toNat, 30), (l.toNat, 7)]
  | .vsubInt d a b m l => 0x200023f + place [(d.toNat, 10), (a.toNat, 15), (b.toNat, 20), (m.toNat, 30), (l.toNat, 7)]
  | .vmulInt d a b m l => 0x400023f + place [(d.toNat, 10), (a.toNat, 15), (b.toNat, 20), (m.toNat, 30), (l.toNat, 7)]
  | .vmulh d a b m l => 0x600023f + place [(d.toNat, 10), (a.toNat, 15), (b.toNat, 20), (m.toNat, 30), (l.toNat, 7)]
  | .vminInt d a b m l => 0x800023f + place [(d.toNat, 10), (a.toNat, 15), (b.toNat, 20), (m.toNat, 30), (l.toNat, 7)]
  | .vmaxInt d a b m l => 0xa00023f + place [(d.toNat, 10), (a.toNat, 15), (b.toNat, 20), (m.toNat, 30), (l.toNat, 7)]
  | .vminu d a b m l => 0xc00023f + place [(d.toNat, 10), (a.toNat, 15), (b.toNat, 20), (m.toNat, 30), (l.toNat, 7)]
  | .vmaxu d a b m l => 0xe00023f + place [(d.toNat, 10), (a.toNat, 15), (b.toNat, 20), (m.toNat, 30), (l.toNat, 7)]
  | .vaddss d a b m l => 0x1000023f + place [(d.toNat, 10), (a.toNat, 15), (b.toNat, 20), (m.toNat, 30), (l.toNat, 7)]
  | .vsubss d a b m l => 0x1200023f + place [(d.toNat, 10), (a.toNat, 15), (b.toNat, 20), (m.toNat, 30), (l.toNat, 7)]
  | .vaddus d a b m l => 0x1400023f + place [(d.toNat, 10), (a.toNat, 15), (b.toNat, 20), (m.toNat, 30), (l.toNat, 7)]
  | .vsubus d a b m l => 0x1600023f + place [(d.toNat, 10), (a.toNat, 15), (b.toNat, 20), (m.toNat, 30), (l.toNat, 7)]
  | .vand d a b m l => 0x1800023f + place [(d.toNat, 10), (a.toNat, 15), (b.toNat, 20), (m.toNat, 30), (l.toNat, 7)]
  | .vor d a b m l => 0x1a00023f + place [(d.toNat, 10), (a.toNat, 15), (b.toNat, 20), (m.toNat, 30), (l.toNat, 7)]
  | .vxor d a b m l => 0x1c00023f + place [(d.toNat, 10), (a.toNat, 15), (b.toNat, 20), (m.toNat, 30), (l.toNat, 7)]
  | .vandn d a b m l => 0x1e00023f + place [(d.toNat, 10), (a.toNat, 15), (b.toNat, 20), (m.toNat, 30), (l.toNat, 7)]
  | .vsll d a b m l => 0x2000023f + place [(d.toNat, 10), (a.toNat, 15), (b.toNat, 20), (m.toNat, 30), (l.toNat, 7)]
  | .vsrl d a b m l => 0x2200023f + place [(d.toNat, 10), (a.toNat, 15), (b.toNat, 20), (m.toNat, 30), (l.toNat, 7)]
  | .vsra d a b m l => 0x2400023f + place [(d.toNat, 10), (a.toNat, 15), (b.toNat, 20), (m.toNat, 30), (l.toNat, 7)]
  | .vcmpeqInt q a b m l => 0x2600023f + place [(q.toNat, 10), (a.toNat, 15), (b.toNat, 20), (m.toNat, 30), (l.toNat, 7)]
  | .vcmpltInt q a b m l => 0x2800023f + place [(q.toNat, 10), (a.toNat, 15), (b.toNat, 20), (m.toNat, 30), (l.toNat, 7)]
  | .vcmpltu q a b m l => 0x2a00023f + place [(q.toNat, 10), (a.toNat, 15), (b.toNat, 20), (m.toNat, 30), (l.toNat, 7)]
  | .vcvtf d a m l => 0x2c00023f + place [(d.toNat, 10), (a.toNat, 15), (m.toNat, 30), (l.toNat, 7)]
  | .vredsumInt d a m l => 0x2e00023f + place [(d.toNat, 10), (a.toNat, 15), (m.toNat, 30), (l.toNat, 7)]
  | .vredminInt d a m l => 0x3000023f + place [(d.toNat, 10), (a.toNat, 15), (m.toNat, 30), (l.toNat, 7)]
  | .vredmaxInt d a m l => 0x3200023f + place [(d.toNat, 10), (a.toNat, 15), (m.toNat, 30), (l.toNat, 7)]
  | .vmla d a b m l => 0x3400023f + place [(d.toNat, 10), (a.toNat, 15), (b.toNat, 20), (m.toNat, 30), (l.toNat, 7)]
  | .vselInt d a b m l => 0x3e00023f + place [(d.toNat, 10), (a.toNat, 15), (b.toNat, 20), (m.toNat, 30), (l.toNat, 7)]
  | .qand d a b => 0x3800023f + place [(d.toNat, 10), (a.toNat, 15), (b.toNat, 20)]
  | .qor d a b => 0x3a00023f + place [(d.toNat, 10), (a.toNat, 15), (b.toNat, 20)]
  | .qxor d a b => 0x3c00023f + place [(d.toNat, 10), (a.toNat, 15), (b.toNat, 20)]
  | .qandn d a b => 0x380002bf + place [(d.toNat, 10), (a.toNat, 15), (b.toNat, 20)]
  | .qget d a => 0x3a0002bf + place [(d.toNat, 10), (a.toNat, 15)]
  | .qput d a => 0x3c0002bf + place [(d.toNat, 10), (a.toNat, 15)]
  | .vld d a o => 0x43 + place [(d.toNat, 10), (a.toNat, 15), (o.toNat, 20)]
  | .vst d a o => 0xc3 + place [(d.toNat, 10), (a.toNat, 15), (o.toNat, 20)]
  | .vlds d a b m w => 0x143 + place [(d.toNat, 10), (a.toNat, 15), (b.toNat, 20), (m.toNat, 30), (w.toNat, 28)]
  | .vsts d a b m w => 0x1c3 + place [(d.toNat, 10), (a.toNat, 15), (b.toNat, 20), (m.toNat, 30), (w.toNat, 28)]
  | .vgather d a b m w => 0x243 + place [(d.toNat, 10), (a.toNat, 15), (b.toNat, 20), (m.toNat, 30), (w.toNat, 28)]
  | .vscatter d a b m w => 0x2c3 + place [(d.toNat, 10), (a.toNat, 15), (b.toNat, 20), (m.toNat, 30), (w.toNat, 28)]
  | .vldb d a m w => 0x343 + place [(d.toNat, 10), (a.toNat, 15), (m.toNat, 30), (w.toNat, 28)]
  | .vperm d a b m w => 0x47 + place [(d.toNat, 10), (a.toNat, 15), (b.toNat, 20), (m.toNat, 30), (w.toNat, 28)]
  | .vzip d a b m w => 0xc7 + place [(d.toNat, 10), (a.toNat, 15), (b.toNat, 20), (m.toNat, 30), (w.toNat, 28)]
  | .vziph d a b m w => 0x80000c7 + place [(d.toNat, 10), (a.toNat, 15), (b.toNat, 20), (m.toNat, 30), (w.toNat, 28)]
  | .vslideup d a b m w => 0x147 + place [(d.toNat, 10), (a.toNat, 15), (b.toNat, 20), (m.toNat, 30), (w.toNat, 28)]
  | .vslidedn d a b m w => 0x8000147 + place [(d.toNat, 10), (a.toNat, 15), (b.toNat, 20), (m.toNat, 30), (w.toNat, 28)]
  | .vins d a b w => 0x1c7 + place [(d.toNat, 10), (a.toNat, 15), (b.toNat, 20), (w.toNat, 28)]
  | .vext d a b w => 0x247 + place [(d.toNat, 10), (a.toNat, 15), (b.toNat, 20), (w.toNat, 28)]
  | .vbcast d a m w => 0x2c7 + place [(d.toNat, 10), (a.toNat, 15), (m.toNat, 30), (w.toNat, 28)]
  | .vcompress d a m w => 0x347 + place [(d.toNat, 10), (a.toNat, 15), (m.toNat, 30), (w.toNat, 28)]
  | .send d c l e => 0x4b + place [(d.toNat, 10), (c.toNat, 29), (l.toNat, 21), (e.toNat, 15)]
  | .recv d c l e => 0xcb + place [(d.toNat, 10), (c.toNat, 29), (l.toNat, 21), (e.toNat, 15)]
  | .offer d e => 0x14b + place [(d.toNat, 10), (e.toNat, 15)]
  | .select l e => 0x1cb + place [(l.toNat, 21), (e.toNat, 15)]
  | .connect d e => 0x4f + place [(d.toNat, 10), (e.toNat, 15)]
  | .accept e => 0xcf + place [(e.toNat, 15)]
  | .delegate d l e => 0x14f + place [(d.toNat, 10), (l.toNat, 21), (e.toNat, 15)]
  | .delegateRx d l e => 0x2000014f + place [(d.toNat, 10), (l.toNat, 21), (e.toNat, 15)]
  | .close e => 0x1cf + place [(e.toNat, 15)]
  | .probe d l e => 0x24f + place [(d.toNat, 10), (l.toNat, 21), (e.toNat, 15)]
  | .sbindG30 e => 0x2002cf + place [(e.toNat, 15)]
  | .sbindG31 e => 0x4002cf + place [(e.toNat, 15)]
  | .sbindOff e => 0x2cf + place [(e.toNat, 15)]
  | .waite d => 0x34f + place [(d.toNat, 10)]
  | .cpwr a n => 0x53 + place [(a.toNat, 15), (n.toNat, 25)]
  | .cprd d n => 0x153 + place [(d.toNat, 10), (n.toNat, 25)]
  | .cpgo d => 0xd3 + place [(d.toNat, 10)]
  | .cpgoRemote d e => 0x800000d3 + place [(d.toNat, 10), (e.toNat, 25)]
  | .cpret a b => 0x1d3 + place [(a.toNat, 15), (b.toNat, 20)]
  | .tzero f t => 0x57 + place [(f.toNat, 26), (t.toNat / 2 ^ 5, 25), (t.toNat % 2 ^ 5, 10)]
  | .tstat d t => 0x10000057 + place [(d.toNat, 10), (t.toNat / 2 ^ 5, 25), (t.toNat % 2 ^ 5, 15)]
  | .tmma a b s t => 0xd7 + place [(a.toNat, 15), (b.toNat, 20), (s.toNat, 26), (t.toNat / 2 ^ 5, 25), (t.toNat % 2 ^ 5, 10)]
  | .tdrain a b t e => 0x157 + place [(a.toNat, 15), (b.toNat, 20), (t.toNat / 2 ^ 5, 31), (t.toNat % 2 ^ 5, 10), (e.toNat, 25)]
  | .gzero t n => 0x5b + place [(t.toNat / 2 ^ 5, 25), (t.toNat % 2 ^ 5, 10), (n.toNat, 15)]
  | .gstat d t => 0x4000005b + place [(d.toNat, 10), (t.toNat / 2 ^ 5, 25), (t.toNat % 2 ^ 5, 15)]
  | .gwait d a => 0x8000005b + place [(d.toNat, 10), (a.toNat, 15)]
  | .gmab d a => 0xc000005b + place [(d.toNat, 10), (a.toNat, 15)]
  | .gloadf a t => 0xdb + place [(a.toNat, 15), (t.toNat / 2 ^ 5, 25), (t.toNat % 2 ^ 5, 10)]
  | .gadd a b r c t => 0x15b + place [(a.toNat, 15), (b.toNat, 20), (r.toNat, 29), (c.toNat, 27), (t.toNat / 2 ^ 5, 25), (t.toNat % 2 ^ 5, 10)]
  | .gsub a b r c t => 0x400015b + place [(a.toNat, 15), (b.toNat, 20), (r.toNat, 29), (c.toNat, 27), (t.toNat / 2 ^ 5, 25), (t.toNat % 2 ^ 5, 10)]
  | .gschur a r t => 0x1db + place [(a.toNat, 15), (r.toNat, 29), (t.toNat / 2 ^ 5, 25), (t.toNat % 2 ^ 5, 10)]
  | .gsolve a r t => 0x25b + place [(a.toNat, 15), (r.toNat, 29), (t.toNat / 2 ^ 5, 25), (t.toNat % 2 ^ 5, 10)]
  | .gdamp d a r t => 0x2db + place [(d.toNat, 10), (a.toNat, 15), (r.toNat, 29), (t.toNat, 20)]
  | .gstorm a t => 0x35b + place [(a.toNat, 15), (t.toNat / 2 ^ 5, 25), (t.toNat % 2 ^ 5, 10)]
  | .gstormSend a e => 0x8000035b + place [(a.toNat, 15), (e.toNat, 25)]
  | .smark a => 0x5f + place [(a.toNat, 15)]
  | .rjoin a e => 0xdf + place [(a.toNat, 15), (e.toNat, 25)]
  | .rput a e => 0x15f + place [(a.toNat, 15), (e.toNat, 25)]
  | .rget d a e => 0x1df + place [(d.toNat, 10), (a.toNat, 15), (e.toNat, 25)]
  | .rcorr a b e => 0x25f + place [(a.toNat, 15), (b.toNat, 20), (e.toNat, 25)]
  | .rtopk a b e => 0x2df + place [(a.toNat, 15), (b.toNat, 20), (e.toNat, 25)]
  | .waitw => 0x63
  | .suspend a => 0xe3 + place [(a.toNat, 15)]
  | .retire => 0x163
  | .spawn a b => 0x1e3 + place [(a.toNat, 15), (b.toNat, 20)]
  | .qhandle d a => 0x263 + place [(d.toNat, 10), (a.toNat, 15)]
  | .qreset a => 0x2000263 + place [(a.toNat, 15)]
  | .qstat d a => 0x4000263 + place [(d.toNat, 10), (a.toNat, 15)]
  | .dqpush d a => 0x2e3 + place [(d.toNat, 10), (a.toNat, 15)]
  | .dqpop d => 0x20002e3 + place [(d.toNat, 10)]
  | .dqsteal d a => 0x40002e3 + place [(d.toNat, 10), (a.toNat, 15)]
  | .dqcount d => 0x60002e3 + place [(d.toNat, 10)]
  | .ttask a => 0x363 + place [(a.toNat, 15)]
  | .tgroup a b => 0x2000363 + place [(a.toNat, 15), (b.toNat, 20)]
  | .gang d n => 0x3e3 + place [(d.toNat, 10), (n.toNat, 25)]
  | .disband => 0x100003e3
  | .start d a => 0x67 + place [(d.toNat, 10), (a.toNat, 15)]
  | .startPc d a b => 0x2000067 + place [(d.toNat, 10), (a.toNat, 15), (b.toNat, 20)]
  | .stop d a => 0xe7 + place [(d.toNat, 10), (a.toNat, 15)]
  | .reap d a => 0x167 + place [(d.toNat, 10), (a.toNat, 15)]
  | .rdctx d a => 0x1e7 + place [(d.toNat, 10), (a.toNat, 15)]
  | .wrctx a b => 0x20001e7 + place [(a.toNat, 15), (b.toNat, 20)]
  | .rdcore d a => 0x40001e7 + place [(d.toNat, 10), (a.toNat, 15)]
  | .wrcore a b => 0x60001e7 + place [(a.toNat, 15), (b.toNat, 20)]
  | .yield n => 0x267 + place [(n.toNat, 25)]
  | .semwait s => 0x2e7 + place [(s.toNat, 15)]
  | .sempost b s => 0x20002e7 + place [(b.toNat, 20), (s.toNat, 15)]
  | .semget d s => 0x40002e7 + place [(d.toNat, 10), (s.toNat, 15)]
  | .semset b s => 0x60002e7 + place [(b.toNat, 20), (s.toNat, 15)]
  | .fswait s => 0x367 + place [(s.toNat / 2 ^ 5, 31), (s.toNat % 2 ^ 5, 15)]
  | .fspost b s => 0x2000367 + place [(b.toNat, 20), (s.toNat / 2 ^ 5, 31), (s.toNat % 2 ^ 5, 15)]
  | .fsget d s => 0x4000367 + place [(d.toNat, 10), (s.toNat / 2 ^ 5, 31), (s.toNat % 2 ^ 5, 15)]
  | .fsset b s => 0x6000367 + place [(b.toNat, 20), (s.toNat / 2 ^ 5, 31), (s.toNat % 2 ^ 5, 15)]
  | .fbar b s => 0x8000367 + place [(b.toNat, 20), (s.toNat / 2 ^ 5, 31), (s.toNat % 2 ^ 5, 15)]
  | .funion d => 0x3e7 + place [(d.toNat, 10)]
  | .rdfloe d a => 0x40003e7 + place [(d.toNat, 10), (a.toNat, 15)]
  | .wrfloe a b => 0x60003e7 + place [(a.toNat, 15), (b.toNat, 20)]
  | .xset x a => 0x6b + place [(x.toNat, 10), (a.toNat, 15)]
  | .xld x a o => 0xeb + place [(x.toNat, 10), (a.toNat, 15), (o.toNat, 20)]
  | .xget d x => 0x16b + place [(d.toNat, 10), (x.toNat, 15)]
  | .mfs d n => 0x6f + place [(d.toNat, 10), (n.toNat, 20)]
  | .mts a n => 0xef + place [(a.toNat, 15), (n.toNat, 20)]
  | .eret => 0x16f
  | .trap c => 0x1ef + place [(c.toNat, 20)]
  | .brk => 0x36f
  | .evwait d => 0x26f + place [(d.toNat, 10)]
  | .evget d => 0x200026f + place [(d.toNat, 10)]
  | .evpost a => 0x400026f + place [(a.toNat, 15)]
  | .evstat d => 0x600026f + place [(d.toNat, 10)]
  | .tmset a => 0x2ef + place [(a.toNat, 15)]
  | .tmget d => 0x20002ef + place [(d.toNat, 10)]
  | .cAddi d i => 0x0 + place [(d.toNat, 5), (i.toNat, 10)]
  | .cLi d i => 0x4 + place [(d.toNat, 5), (i.toNat, 10)]
  | .cMv d b => 0x8 + place [(d.toNat, 5), (b.toNat, 10)]
  | .cAdd d b => 0xc + place [(d.toNat, 5), (b.toNat, 10)]
  | .cSub d b => 0x10 + place [(d.toNat, 5), (b.toNat, 10)]
  | .cLdD d u => 0x14 + place [(d.toNat, 5), (u.toNat, 10)]
  | .cStD d u => 0x18 + place [(d.toNat, 5), (u.toNat, 10)]
  | .cSlli d n => 0x1c + place [(d.toNat, 5), (n.toNat, 10)]
  | .cBeqz d o => 0x1 + place [(d.toNat, 5), (o.toNat, 10)]
  | .cBnez d o => 0x5 + place [(d.toNat, 5), (o.toNat, 10)]
  | .cJ o => 0x9 + place [(o.toNat, 5)]
  | .cJal o => 0xd + place [(o.toNat, 5)]
  | .cJr d => 0x11 + place [(d.toNat, 5)]
  | .cAnd d b => 0x15 + place [(d.toNat, 5), (b.toNat, 10)]
  | .cOr d b => 0x19 + place [(d.toNat, 5), (b.toNat, 10)]
  | .cXor d b => 0x1d + place [(d.toNat, 5), (b.toNat, 10)]
  | .cLdW d u => 0x2 + place [(d.toNat, 5), (u.toNat, 10)]
  | .cStW d u => 0x6 + place [(d.toNat, 5), (u.toNat, 10)]
  | .cSrai d n => 0xa + place [(d.toNat, 5), (n.toNat, 10)]
  | .cSrli d n => 0xe + place [(d.toNat, 5), (n.toNat, 10)]
  | .cAndi d i => 0x12 + place [(d.toNat, 5), (i.toNat, 10)]
  | .cNop => 0x16
  | _ => 0

/-- The bytes of an instruction as the hardware stores them (R5, R65). -/
def encode (i : Instr) : List Byte := leBytes i.len i.word

end Sys2Proof
end

