-- ==== Sys2Proof/Config.lean ====
section
/-! DEFINITION. What the manual leaves to the implementation or to other documents: opaque constants,
so that no statement can rest on a value of theirs. -/

namespace Sys2Proof.Config

/-- A free dword: the value the manual leaves open at the point that reads it. The argument is the
counter `free` of the state (log 6). -/
opaque freeWord : Nat → W

/-- The fused owner wrapping key (Table 21.3; log 7). -/
opaque wrappingKey : List Byte

/-- What the body of a configuration image of a type holds: the manual gives the content of each type and no layout of
it (Table 21.6; log 47). None for bytes that are no such content. -/
opaque imageBody : Nat → List Byte → Option ImageBody

/-- Falcon-1024 verification of a signature over header and body, under the key that KEYID names,
with the check of the key's digest (R424; log 7). -/
opaque verifyImage : Nat → List W → List Byte → List Byte → Bool

/-- The attestation key's signature over a report (R425; log 7). -/
opaque signReport : List Byte → List Byte

/-- The module serial number held in the fuses (R425; log 7). -/
opaque serial : List Byte

/-- What the spill engine writes at each byte of a slot: the manual gives no layout (R171; log 8).
The arguments are the counter `free` and the byte's offset in the slot. -/
opaque spillByte : Nat → Nat → Byte

/-- The configuration region of a target: whether an image's writes lie in it (R424 check 4; log 7). -/
opaque inRegion : Nat → CoreId → Bool

/-- What the network header's 4-bit LEN field shows for a packet of more than 9 flits, a message of more than 512 bytes, which
R399 gives more flits than LEN can count (log 40). The argument is the number of flits. -/
opaque longLen : Nat → BitVec 4

/-- The sequence number that a notice carries: several surviving ends send to one NOTE endpoint, and the manual gives no count of
theirs (R214, log 9). The argument is the notice's record. -/
opaque noticeSeq : List W → BitVec 16

end Sys2Proof.Config
end

