-- ==== Sys2Proof/Machine/State.lean ====
section
/-! DEFINITION. The state of the module as plain data: contexts, cores, floes, the module and what is in
flight between them; the state after reset; the reasons a step can stop. -/

namespace Sys2Proof.Machine

/-- A table of like things by number. A number that is not listed holds the table's default, the
reset value. -/
abbrev Tab (α : Type) := List (Nat × α)

/-! ### A context -/

/-- Context lifecycle (R28, Table 1.6). -/
inductive Life where
  | free | runnable | blocked | waiting | stopped | spilled
  deriving DecidableEq, Repr

/-- The classes of outstanding operations (R278). -/
inductive Cls where
  | gload | gstore | copy | tile
  deriving DecidableEq, Repr

/-- An operation of a context that has not retired (R278). `num` counts the context's operations of
the class; `fence` says that a fence covers it (R141); `ep` is the endpoint that carries it (R432). -/
structure Op where
  id    : Nat
  cls   : Cls
  num   : Nat
  done  : Bool
  fence : Bool
  ep    : Option EpId
  deriving DecidableEq, Repr

/-- A pending deferred fault (R151), with what decides which instruction covers it (R152): the class
and number of its operation, its copy tag, its endpoint. -/
structure Deferred where
  cause  : Nat
  detail : Nat
  addr   : W
  fpc    : W
  xid    : BitVec 16
  insn   : BitVec 32
  op     : Option (Cls × Nat)
  tag    : Option (BitVec 6)
  ep     : Option EpId
  fence  : Bool
  deriving DecidableEq, Repr

/-- An installed protocol image (R191): its bytes, LAS, LAR, slot size, and whether it is pinned. -/
structure ProtoEnt where
  image  : List Byte
  las    : Nat
  lar    : Nat
  slotu  : Nat
  pinned : Bool
  deriving DecidableEq, Repr

/-- What a blocked instruction asked for and what came back. `loaded` is the protocol loader's answer: the
entry, and what the entry held before when the loader installed an image in it (R195, R196). -/
inductive Answer where
  | value (w : W) (flags : BitVec 5)
  | loaded (n : Nat) (before : Option (Option ProtoEnt))
  | failed (d : Deferred)
  | trapped (cause detail : Nat) (addr : W) (exc : BitVec 5)
  | mismatch
  deriving DecidableEq, Repr

/-- A request of a blocked instruction: its number and its answer, once there. -/
structure Req where
  txn : Nat
  ans : Option Answer
  deriving DecidableEq, Repr

/-- An armed watch of `nwait` (R175): the memory key of the dword, the operand, the test, and the value
latched by the write that satisfied it. -/
structure Watch where
  key : Nat
  b   : W
  eq  : Bool
  got : Option W
  deriving DecidableEq, Repr

/-- Why a context is BLOCKED: the watchdog kind (R169), the endpoint it reports, whether a STOP is
held pending until it ends (R31), whether it waits for the endpoint under a stream alias (R220), and the mailbox slots that
`gwait` waits for (R299, R301). -/
structure Wait where
  kind : Nat
  ep   : Nat := 0
  hold : Bool := false
  alias_ : Bool := false
  slots : W := 0
  deriving DecidableEq, Repr

/-- A failed translation walk, as its waiter finds it (R394, R396). -/
structure WalkFail where
  page   : Nat
  detail : Nat
  deriving DecidableEq, Repr

/-- Membership in a gang (R331): its size, its first core and its leader. -/
structure Gang where
  n      : Nat
  first  : CoreId
  leader : CoreId
  deriving DecidableEq, Repr

/-- A context (Table 1.1, and the state kept for it by R16 to R31, R144 to R153, R157, R169, R180, R251,
R278, R331). `frame` numbers the frame of the register file that it holds, while it
holds one (R170). `gangSlot` is the cycle of its core at which its gang last had its turn, and whether the gang issued
(R332). `leaving` is the gang that its `disband` ends, until it has left, or the followers of a leader
have (R333). -/
structure Ctx where
  pc      : W
  oddPc   : Option W
  g       : Vector W 32
  v       : Vector V 16
  p       : BitVec 8
  q       : Vector W 4
  x       : Vector W 8
  lc      : Vector (BitVec 32) 3
  lb      : Vector W 3
  le      : Vector W 3
  fst     : BitVec 13
  slim    : W
  tvec    : W
  epc     : W
  skip    : Bool
  act     : Bool
  frec0   : W
  frec1   : W
  frec2   : W
  frec3   : W
  life    : Life
  wait    : Option Wait
  req     : Option Req
  watch   : Option Watch
  walkFail : Option WalkFail
  wasWaiting : Bool
  heldStop   : Bool
  forfeit    : Nat
  lastIssue  : Option Nat
  stall      : Nat
  stoppedAt  : Nat
  waitingAt  : Nat
  pend    : List Deferred
  ovf     : Bool
  ops     : List Op
  nextOp  : Nat
  issued  : Vector Nat 4
  shadow  : Vector W 32
  fbuf    : List (Nat × BitVec 16)
  fill    : Option (Nat × Nat × Nat)
  gang    : Option Gang
  gangLate : Option (BitVec 32)
  leaving : Option Gang
  frame   : Nat
  gangSlot : Option (Nat × Bool)
  deriving DecidableEq, Repr

/-! ### A core -/

/-- Endpoint status (R189). -/
inductive EpSt where
  | unbound | connecting | open | peerClosed | delegating | lost
  deriving DecidableEq, Repr

/-- An endpoint (R188, Table 9.1): the fields of w0 to w3, then what its core keeps for it: the role,
the request it holds (R200), whether it is CONNECTING under `accept`, credits owed (R208), arrivals held
and the new holder while DELEGATING (R215, R217), the carrier with its generation, the FIRST of an acknowledged REDIRECT, and
notices that wait for a credit (R214). `paddr` and `raddr` are bits <63:28> of w1 and w3. -/
structure Endpoint where
  st      : EpSt := .unbound
  owner   : CtxId := 0
  proto   : BitVec 5 := 0
  state   : BitVec 6 := 0
  nv      : Bool := false
  named   : BitVec 6 := 0
  lacnt   : BitVec 7 := 0
  gen     : BitVec 16 := 0
  sseq    : BitVec 16 := 0
  paddr   : BitVec 36 := 0
  pgen    : BitVec 16 := 0
  phw     : Bool := false
  base    : BitVec 22 := 0
  slotu   : BitVec 9 := 0
  depth   : BitVec 6 := 0
  pdepth  : BitVec 6 := 0
  rseq    : BitVec 16 := 0
  raddr   : BitVec 36 := 0
  rgen    : BitVec 16 := 0
  rv      : Bool := false
  ini     : Bool := false
  bindAs   : BitVec 2 := 0
  boundrx : Bool := false
  head    : BitVec 6 := 0
  role    : Nat := 0
  request : Option ConnReq := none
  accept  : Bool := false
  asked   : Option ConnReq := none
  withdrawn : Bool := false
  owed    : Nat := 0
  held    : List Body := []
  holder  : W := 0
  carrier : Option (EpId × BitVec 16) := none
  first   : Option (BitVec 16) := none
  forwarded : List (BitVec 16) := []
  inSlots : List (BitVec 16) := []
  deriving DecidableEq, Repr

/-- An entry of a translation unit (R393): tag and leaf; `pages` is the page size in units of 4 KiB. -/
structure TlbEnt where
  asid  : BitVec 8
  page  : Nat
  pages : Nat
  pte   : W
  deriving DecidableEq, Repr

/-- A global access of a core that its controller has not acknowledged (R340, R386): the serving and
the peer controller, the endpoint, who issued it, and a store's bytes until the controller has performed it. -/
structure Queued where
  serving : Nat
  peer    : Nat
  ep      : EpId
  org     : Origin
  pa      : Nat
  data    : List Byte
  deriving DecidableEq, Repr

/-- Where a copy stands in its scatter-gather chain (R256): the next element's address, the elements
passed, and the bytes left of the current one. -/
structure SgPos where
  next  : W
  count : Nat
  addr  : W
  left  : Nat
  deriving DecidableEq, Repr

/-- A copy that this core's engine performs (R253, R265). `ep` is the endpoint at the owner that a
remote launch answers; `done` is the bitmap of chunks written, `sent` that of reducing chunks on their
way (R262). -/
structure CopyRun where
  d      : CopyDesc
  ep     : Option (EpId × BitVec 16)
  done   : BitVec 64
  sent   : BitVec 64
  flags  : BitVec 5
  fail   : Option CopyFail
  sg     : SgPos
  deriving DecidableEq, Repr

/-- A copy that a context of this core launched and that has not completed (R253, R259). -/
structure CopyOwn where
  tag  : BitVec 6
  xid  : BitVec 16
  ctx  : CtxId
  op   : Nat
  key  : Option (BitVec 32)
  ep   : Option EpId
  deriving DecidableEq, Repr

/-- Tile state (R268) and the Gaussian dimension of the tile (R283). -/
structure Tile where
  fmt    : BitVec 2 := 0
  sat    : Bool := false
  poison : Bool := false
  dim    : Nat := 0
  deriving DecidableEq, Repr

/-- Operands of a tile step: operand addresses, x6 (ACQ and SCOPE included), the rounding mode read at issue,
the rows, columns and depth that exist (a group walk's ragged tile has fewer, R330), and the semaphore to post. -/
structure MmaArgs where
  a    : W
  b    : W
  x6   : W
  rm   : Nat
  rows : Nat
  cols : Nat
  deep : Nat
  sig  : Option (BitVec 6)
  deriving DecidableEq, Repr

/-- Operands of a drain (R274): target, endpoint with its generation (none for the scheduler's own path), x3, the rounding
mode, the wake record and how many rows and columns exist. -/
structure DrainArgs where
  target : CoreId
  off    : Nat
  ep     : Option (EpId × BitVec 16)
  x3     : W
  rm     : Nat
  wake   : Option (List W)
  rows   : Nat
  cols   : Nat
  deriving DecidableEq, Repr

/-- The kinds of tile operation (R269). -/
inductive TileKind where
  | zero (fmt : BitVec 2)
  | mma (m : MmaArgs)
  | drain (d : DrainArgs)
  deriving DecidableEq, Repr

/-- A tile operation in the matrix engine (R269). `task` numbers the scheduler's task it belongs to. -/
structure TileOp where
  org  : Origin
  tile : BitVec 6
  kind : TileKind
  task : Option Nat
  deriving DecidableEq, Repr

/-- A tile operation in progress. A step holds its operands once they are read (rows of A, rows of B, and
the scales of their bit-plane blocks), or the failure of a read. -/
structure TileRun where
  op     : TileOp
  opsA   : List (List Nat) := []
  opsB   : List (List Nat) := []
  scaleA : List Nat := []
  scaleB : List Nat := []
  gotten : Bool := false
  fail   : Option CopyFail := none
  deriving DecidableEq, Repr

/-- The GAUSS instructions that use the engine (R281), with their register operands: the offset of a sum and
the mailbox slot that it consumes, the count kept, the pivot floor, the wake threshold. -/
inductive GaussKind where
  | zero (n : Nat)
  | loadf
  | add (sub : Bool) (off : W) (slot : Option Nat)
  | schur (keep : W) (floor : W)
  | solve (floor : W)
  | damp (theta : W)
  | store
  deriving DecidableEq, Repr

/-- An instruction in the Gaussian engine: who waits for it, its request number, its block, the memory operand's
virtual address, the keys of the operand's dwords, the rounding mode, and whether the engine has taken it (R281). -/
structure GaussOp where
  ctx   : CtxId
  txn   : Nat
  tile  : BitVec 6
  kind  : GaussKind
  va    : W
  keys  : List Nat
  mode  : Nat
  taken : Bool
  deriving DecidableEq, Repr

/-- A core: `newEvents` counts the entries of its event queue, the last ones, that entered in the current cycle (R166)
(R157 to R187, R191, R202, R259, R262, R266 to R269, R281, R297, R317, R393). -/
structure Core where
  ctxs    : Tab Ctx
  cycle   : Nat
  launched : Bool
  part    : W
  win     : Vector W 8
  wdlim   : BitVec 32
  spbase  : W
  ecnt    : W
  nackcnt : BitVec 16
  cfault  : W
  gmbox   : W
  gwake   : BitVec 16
  dqbase  : W
  dqlim   : W
  top     : Nat
  bot     : Nat
  xroot   : W
  jdom    : BitVec 32
  cbm     : W
  chunks  : Vector W 64
  xid     : BitVec 16
  sems    : Vector (BitVec 32) 32
  semWait : List (Nat × CtxId)
  events  : List W
  newEvents : Nat
  lost    : BitVec 16
  timer   : W
  layouts : Vector W 16
  eps     : Tab Endpoint
  protos  : Tab ProtoEnt
  tlb     : List TlbEnt
  engFails : List (W × Nat × Nat)
  lbuf    : List (Nat × BitVec 16)
  storeq  : List Queued
  owned   : List CopyOwn
  copies  : List CopyRun
  redKeys : List (CoreId × BitVec 32 × W)
  tiles   : Tab Tile
  mrun    : Option TileRun
  mqueue  : List TileOp
  drains  : List TileOp
  gqueue  : List GaussOp
  mab     : W
  spill   : Option (CtxId × CtxId)
  reload  : Option CtxId
  inval   : Option W
  fhist   : List (BitVec 5)
  launchPc : Option W
  deriving DecidableEq, Repr

/-! ### A floe -/

/-- Where an enqueue came from, and so what its answer is (R312). -/
inductive EnqSrc where
  | quiet
  | spawn (o : Origin)
  | task (ep : EpId) (gen : BitVec 16) (host : Bool)
  deriving DecidableEq, Repr

/-- A record on its way into a queue (R312). -/
structure Enq where
  record : List W
  handle : Option W
  src    : EnqSrc
  deriving DecidableEq, Repr

/-- A continuation queue (R310): bank, overflow ring (the records it holds in order, and the ring
position of the oldest), generation, mode, the move in progress, records waiting at the dispenser's
input, and xroot as it stood when the descriptor was written (R309). -/
structure Queue where
  bank    : List (List W) := []
  ringAt  : Nat := 0
  ringLen : Nat := 0
  gen     : BitVec 12 := 0
  spilled : Bool := false
  move    : Option (Bool × List (List W)) := none
  input   : List Enq := []
  root    : W := 0
  deriving DecidableEq, Repr

/-- A translation walk of a floe (R389, R394): the page, the root it started from, the level and table it
reads next, the contexts and the cores whose engines wait, whether a walker has it, and whether a drop reached it (R395). -/
structure Walk where
  root    : W
  page    : Nat
  level   : Nat
  table   : Nat
  waiters : List (CoreId × CtxId)
  engines : List CoreId
  started : Bool
  dead    : Bool
  deriving DecidableEq, Repr

/-- A pending tile task (R327): issuer, record, and the wake record read at issue. -/
structure Task where
  id   : Nat
  org  : Origin
  record : List W
  wake : Option (List W)
  deriving DecidableEq, Repr

/-- A task that runs on a core (R328): its first step, the advance of A and B per step, steps issued so
far, products along the whole depth, its drain, semaphores, the walk it is a tile of (R330), whether it has
failed, and whether only its end is left. -/
structure TaskRun where
  id     : Nat
  org    : Origin
  core   : CoreId
  tile   : BitVec 6
  fmt    : BitVec 2
  first  : MmaArgs
  stepA  : W
  stepB  : W
  steps  : Nat
  at_    : Nat
  deep   : Nat
  drain  : DrainArgs
  ssem   : Option (BitVec 6)
  dsem   : Option (BitVec 6)
  walk   : Option Nat
  failed : Bool
  ended  : Bool
  deriving DecidableEq, Repr

/-- A group walk (R330): template, group array, groups left, and the tile it stands at in the current
group. -/
structure GroupWalk where
  id     : Nat
  org    : Origin
  tmpl   : List W
  array  : W
  count  : Nat
  at_    : Nat
  tile   : Nat
  stopped : Bool
  deriving DecidableEq, Repr

/-- A stream entry (Table 16.2) and the ports whose marker this round has arrived (R364). -/
structure StreamEnt where
  d0    : W
  d1    : W
  marks : BitVec 6
  deriving DecidableEq, Repr

/-- A term of a reduction node (R367): position, bitmap over contributor indices, value, exceptions, RSH and SET
as they came, whether it is foreign, and whether it is a child's. -/
structure Term where
  pos     : Nat
  bits    : Nat
  val     : RedVal
  exc     : BitVec 5
  rsh     : Bool
  set     : Nat
  foreign : Bool
  child   : Bool
  deriving DecidableEq, Repr

/-- A reduction node (R369): state (none for IDLE, else whether it has forwarded), epoch, terms, the SEQ of its last
result, and the highest port set through which it has forwarded in this epoch (R371). -/
structure Node where
  fwd   : Option Bool := none
  epoch : BitVec 16 := 0
  terms : List Term := []
  seq   : Nat := 0
  used  : Nat := 0
  deriving DecidableEq, Repr

/-- A visit of the drift unit (R321): the core visited, the neighbour, the moves it makes and those still to make. -/
structure Visit where
  core : Nat
  nbr  : Nat
  n    : Nat
  left : Nat
  deriving DecidableEq, Repr

/-- A floe (R308 to R335) with its translation cache (R393) and its router (R353, R362, R382, R423). `granted` is,
for each output port of the router, the input that was granted a head last (R359); `visit` the drift unit's visit in progress. -/
structure Floe where
  qring   : Vector W 4
  drift   : W
  dmoves  : BitVec 32
  tsc     : W
  ffault  : W
  queues  : Vector Queue 4
  fsems   : Vector (BitVec 32) 64
  fsemWait : List (Nat × CoreId × CtxId)
  fbarWait : List (Nat × CoreId × CtxId)
  tasks   : List Task
  runs    : List TaskRun
  groups  : List GroupWalk
  nextTask : Nat
  tcache  : List TlbEnt
  walks   : List Walk
  rdup    : BitVec 32
  rstale  : BitVec 32
  rdrop   : BitVec 32
  rlink   : BitVec 32
  streams : Tab StreamEnt
  nodes   : Tab Node
  routes  : List (BitVec 16 × BitVec 16 × FloeId)
  granted : Tab Nat
  visit   : Option Visit
  deriving DecidableEq, Repr

/-! ### The module -/

/-- A hardware end of a channel (R210, R212, R432): the unit as a peer word names it, the core endpoint
it talks to with the generation of that, its own generation, the protocol, the counts, the recovery endpoint, and the module
of the core endpoint, another one once that has been delegated there (R217). -/
structure HwEnd where
  unit  : BitVec 36
  core  : CoreId
  ep    : EpId
  cgen  : BitVec 16
  gen   : BitVec 16
  proto : Nat
  sseq  : BitVec 16
  rseq  : BitVec 16
  recov : W
  cmod  : BitVec 19
  deriving DecidableEq, Repr

/-- A host channel (R422): its endpoint, the number of the next message to the core, and messages the
host has put on its send ring that have not been sent, the entry of its receive ring that is written next, and the module of
its core endpoint. -/
structure HostChan where
  core : CoreId
  ep   : EpId
  gen  : BitVec 16
  sseq : BitVec 16
  lacnt : Nat
  depth : Nat
  ring : List HostEntry
  rx   : BitVec 5
  cmod : BitVec 19
  deriving DecidableEq, Repr

/-- What the module has written into host memory or signalled to the host (R422, R425, R426, R427): one of the 64
MSI-X vectors (R421); entry n of the host-channel table; an entry of channel n's receive ring, by its number and its
byte offset in the ring; and what a management register read gives (R430). -/
inductive HostOut where
  | msix (v : BitVec 6)
  | chanTable (n : Nat) (core : CoreId) (ep : EpId)
  | message (n : Nat) (entry : BitVec 5) (off : Nat) (cls typ : Nat) (seq : BitVec 16) (payload : List Byte)
  | register (n : BitVec 12) (w : W)
  | launchAnswer (ok : Bool) (handle : W)
  | status (cmd : Nat) (st : Nat)
  | report (addr : W) (bytes : List Byte)
  | fault (w : W)
  deriving DecidableEq, Repr

/-- A fabric port (R438 to R442): status (Table 23.5), and of the rail whose home it is the next SEQ to send,
the frames sent and not acknowledged with their send counts, the frames that wait, the next SEQ expected and
whether a NAK for it was sent. `moved` says that the partner carries this rail; `resync` that a RESYNC sent on
this port waits for its answer; `lanes` are the free flits last reported less those sent since; `sent` is what
the port has put on the line. -/
structure Port where
  st      : BitVec 2 := 0
  nextTx  : BitVec 12 := 0
  unacked : List (Frame × Nat) := []
  outq    : List Frame := []
  nextRx  : BitVec 12 := 0
  naked   : Bool := false
  moved   : Bool := false
  resync  : Bool := false
  lanes   : List Nat := [32, 8, 8, 8]
  sent    : List Frame := []
  deriving DecidableEq, Repr

/-- What happens next, besides the cycle of the core at hand (log 1): an event, or a cycle of another core; and what
the opcode table has no row for: the end of the clock cycle in which the module failed (R427), the end of the loader's
writing (R426), a corrected error in a frame of the register file (R184), the spill engine's service of a register of a
SPILLED context (R162), the next move or visit of a floe's drift unit (R321), the sending of a further flit of a packet (R356), a corrected error of a link at a router (R361, R416), the host's closing of a channel, its write of a ring
base or size (R422), and a read of a management register over BAR0 or at an I3C address (R430). -/
inductive Act where
  | event (e : Instr)
  | cycle (c : CoreId)
  | failureEnd
  | imageWritten
  | frameCorrected (c : CoreId)
  | spillAccess (c : CoreId)
  | drift (f : FloeId)
  | linkCorrected (f : FloeId)
  | flit (p i : Nat)
  | hostClose (ch : BitVec 10)
  | ringWrite (n : Fin 8) (v : W)
  | registerRead (via : Option (BitVec 7)) (n : BitVec 12)
  deriving DecidableEq, Repr

/-- The cycle in progress: the core whose cycle is next, and the context and word it issues (log 1). -/
structure Cursor where
  core : CoreId
  ctx  : CtxId
  insn : BitVec 32
  deriving DecidableEq, Repr

/-- The state of the module. `mem` holds every byte: backing memory at its physical address, the pool
of core n from 2^40 + n * 2^22; a byte not listed is 0 (log 2). `walkTurn` is, for each die, the floe that its walkers
serve first (R394). `keyWrites` holds what the security controller has written into a key slot and a controller has not
received: controller, slot, key pair or none (R419). `failing` says that the clock cycle in which the module failed is not
over, and whether an alarm has failed it in that cycle (R426, R427); `loading` that the loader writes an image (R426);
`rings` are the ring bases and sizes of BAR0 (Table 21.2); `flash` is the firmware image that the module flash holds
(R428), `firmware` what the security controller holds of it (R423). -/
structure State where
  cores   : Tab Core
  floes   : Tab Floe
  mem     : List Host.Cell
  bad     : List Nat
  weak    : List Nat
  unitKeys : Tab (List Byte)
  net     : List Packet
  walkTurn : Tab Nat
  hwEnds  : List HwEnd
  keys    : Tab (List Byte)
  ctrlKeys : Tab (List Byte)
  keyWrites : List (Nat × Nat × Option (List Byte))
  chans   : Tab HostChan
  hostOut : List HostOut
  mfault  : W
  apol    : W
  alog    : BitVec 6
  pcap    : BitVec 16
  tmax    : BitVec 16
  pwr     : BitVec 16
  mecc    : Tab W
  failed  : Bool
  failing : Option Bool
  loading : Bool
  rings   : Vector W 8
  flash   : Option Image
  firmware : Option (List Byte)
  rollback : Tab (BitVec 32)
  measures : Tab (List Byte)
  i3c     : Option (BitVec 7)
  fid     : W
  fretry  : BitVec 32
  fdrop   : BitVec 32
  flost   : W
  lostTab : List (BitVec 19)
  ports   : Tab Port
  agenda  : List Act
  cur     : Cursor
  free    : Nat
  deriving DecidableEq, Repr

/-! ### Reset -/

/-- A context after core reset or REAP (R13, R144, R251). -/
def Ctx.init : Ctx where
  pc := 0
  oddPc := none
  g := Vector.replicate 32 0
  v := Vector.replicate 16 0
  p := 0
  q := Vector.replicate 4 (BitVec.allOnes 64)
  x := Vector.replicate 8 0
  lc := Vector.replicate 3 0
  lb := Vector.replicate 3 0
  le := Vector.replicate 3 0
  fst := 0
  slim := 0
  tvec := 0
  epc := 0
  skip := false
  act := false
  frec0 := 0
  frec1 := 0
  frec2 := 0
  frec3 := 0
  life := .free
  wait := none
  req := none
  watch := none
  walkFail := none
  wasWaiting := false
  heldStop := false
  forfeit := 0
  lastIssue := none
  stall := 0
  stoppedAt := 0
  waitingAt := 0
  pend := []
  ovf := false
  ops := []
  nextOp := 0
  issued := Vector.replicate 4 0
  shadow := Vector.replicate 32 0
  fbuf := []
  fill := none
  gang := none
  gangLate := none
  leaving := none
  frame := 0
  gangSlot := none

/-- Window register n at reset: 0 with IDX = n (Table 8.8). -/
def winReset (n : Nat) : W := BitVec.ofNat 64 (n * 2 ^ 54)

/-- A core after core reset (Tables 8.5, 8.7, 8.8, 9.1, 12.6, 17.3; R178, R253, R259, R262, R268, R317). -/
def Core.init : Core where
  ctxs := []
  cycle := 0
  launched := false
  part := 0x00003A0000000000
  win := Vector.ofFn fun i => winReset i.val
  wdlim := 0
  spbase := 0
  ecnt := 0
  nackcnt := 0
  cfault := 0
  gmbox := 0
  gwake := 0
  dqbase := 0
  dqlim := 0
  top := 0
  bot := 0
  xroot := 0
  jdom := 0
  cbm := 0
  chunks := Vector.replicate 64 0
  xid := 0
  sems := Vector.replicate 32 0
  semWait := []
  events := []
  newEvents := 0
  lost := 0
  timer := 0
  layouts := Vector.replicate 16 0
  eps := []
  protos := []
  tlb := []
  engFails := []
  lbuf := []
  storeq := []
  owned := []
  copies := []
  redKeys := []
  tiles := []
  mrun := none
  mqueue := []
  drains := []
  gqueue := []
  mab := 0
  spill := none
  reload := none
  inval := none
  fhist := []
  launchPc := none

/-- A floe after reset (Table 14.1, R310, R311, R322, R362, R382). -/
def Floe.init : Floe where
  qring := Vector.replicate 4 0
  drift := 0
  dmoves := 0
  tsc := 0
  ffault := 0
  queues := Vector.replicate 4 {}
  fsems := Vector.replicate 64 0
  fsemWait := []
  fbarWait := []
  tasks := []
  runs := []
  groups := []
  nextTask := 0
  tcache := []
  walks := []
  rdup := 0
  rstale := 0
  rdrop := 0
  rlink := 0
  streams := []
  nodes := []
  routes := []
  granted := []
  visit := none

/-- The module after reset (R420, R427, Tables 21.4, 21.7, 23.5): no core launched, no key valid, every
table at its reset values, memory with nothing listed. tmax, pwr, the counters of rollback and the
measurements are log 5; that the flash and the security controller hold no firmware is log 50; `agenda`, `cur` and `free` are the model's own (log 1). -/
def State.reset : State where
  cores := []
  floes := []
  mem := []
  bad := []
  weak := []
  unitKeys := []
  net := []
  walkTurn := []
  hwEnds := []
  keys := []
  ctrlKeys := []
  keyWrites := []
  chans := []
  hostOut := []
  mfault := 0
  apol := 0x96
  alog := 0
  pcap := 2400
  tmax := 0
  pwr := 0
  mecc := []
  failed := false
  failing := none
  loading := false
  rings := Vector.replicate 8 0
  flash := none
  firmware := none
  rollback := []
  measures := []
  i3c := none
  fid := 0
  fretry := 0
  fdrop := 0
  flost := 0
  lostTab := []
  ports := []
  agenda := []
  cur := ⟨0, 0, 0⟩
  free := 0

/-! ### Reasons to stop -/

/-- Faults of the whole machine: there is none. A module that has failed goes on failed (R427), and every instruction
and event has an effect. -/
inductive Fault where
  deriving DecidableEq, Repr

/-- Refusals: the model gives no meaning. -/
inductive Refusal where
  /-- Raised by `exec` for an instruction without a meaning yet. Safe. -/
  | notModelled (mnemonic : String)
  deriving DecidableEq, Repr

end Sys2Proof.Machine
end

