-- ==== Sys2Proof/Machine/Ops.lean ====
section
/-! DEFINITION. The named operations over the state: tables, contexts, cores and floes, memory, events, the
module's failure, taking a trap and completing an instruction. -/

namespace Sys2Proof.Machine

/-- What a meaning answers. -/
abbrev Out := Host.Outcome State Fault Refusal

/-! ### Tables -/

/-- The entry of number k, or the default. -/
def Tab.look {α : Type} (dflt : α) : Tab α → Nat → α
  | [], _ => dflt
  | (j, a) :: t, k => if j = k then a else Tab.look dflt t k

/-- The table with entry k replaced. -/
def Tab.put {α : Type} : Tab α → Nat → α → Tab α
  | [], k, a => [(k, a)]
  | (j, b) :: t, k, a => if j = k then (k, a) :: t else (j, b) :: Tab.put t k a

/-- The entry of number k where the table lists one. -/
def Tab.find {α : Type} : Tab α → Nat → Option α
  | [], _ => none
  | (j, a) :: t, k => if j = k then some a else Tab.find t k

/-- The table without entry k. -/
def Tab.drop {α : Type} (t : Tab α) (k : Nat) : Tab α := t.filter fun e => e.1 != k

/-- Element i of a list, or the default. -/
def nthD {α : Type} (dflt : α) : List α → Nat → α
  | [], _ => dflt
  | a :: _, 0 => a
  | _ :: l, n + 1 => nthD dflt l n

/-! ### Words -/

/-- A word from values placed at bit positions. -/
def mkW (l : List (Nat × Nat)) : W := BitVec.ofNat 64 (place l)

/-- Bits <lo+n-1:lo> of a word, as a number. -/
def wf (w : W) (lo n : Nat) : Nat := bits w.toNat lo n

/-- Bit n of a word. -/
def wb (w : W) (n : Nat) : Bool := w.getLsbD n

/-- A Boolean as a number. -/
def b2n (b : Bool) : Nat := if b then 1 else 0

/-- A Boolean as a word. -/
def b2w (b : Bool) : W := if b then 1 else 0

/-- Bits <lo+n-1:lo> of w replaced by v. -/
def setField (w : W) (lo n v : Nat) : W :=
  BitVec.ofNat 64 (w.toNat % 2 ^ lo + v % 2 ^ n * 2 ^ lo + w.toNat / 2 ^ (lo + n) * 2 ^ (lo + n))

/-- A word with bit 0 cleared. -/
def even (w : W) : W := w &&& ~~~1#64

/-- A saturating unsigned sum at n bits (SatU, R36). -/
def satAdd (a b n : Nat) : Nat := Nat.min (a + b) (2 ^ n - 1)

/-- The index of the lowest set bit below n, or n. -/
def lowestBit (w : W) (n : Nat) : Nat :=
  ((List.range n).find? fun i => w.getLsbD i).getD n

/-! ### Contexts, cores, floes -/

/-- The floe of a core. -/
def floeOf (c : CoreId) : FloeId := c.extractLsb' 3 8

/-- The die of a floe. -/
def dieOf (f : FloeId) : BitVec 2 := f.extractLsb' 6 2

/-- Core i of a floe. -/
def coreAt (f : FloeId) (i : Nat) : CoreId := f ++ BitVec.ofNat 3 i

def State.core (s : State) (c : CoreId) : Core := s.cores.look Core.init c.toNat

def State.setCore (s : State) (c : CoreId) (x : Core) : State := { s with cores := s.cores.put c.toNat x }

def State.mapCore (s : State) (c : CoreId) (f : Core → Core) : State := s.setCore c (f (s.core c))

def Core.ctx (x : Core) (k : CtxId) : Ctx := x.ctxs.look Ctx.init k.toNat

def Core.mapCtx (x : Core) (k : CtxId) (f : Ctx → Ctx) : Core :=
  { x with ctxs := x.ctxs.put k.toNat (f (x.ctx k)) }

def State.ctxAt (s : State) (c : CoreId) (k : CtxId) : Ctx := (s.core c).ctx k

def State.mapCtxAt (s : State) (c : CoreId) (k : CtxId) (f : Ctx → Ctx) : State :=
  s.mapCore c fun x => x.mapCtx k f

/-- The core whose cycle it is. -/
def State.me (s : State) : Core := s.core s.cur.core

def State.mapMe (s : State) (f : Core → Core) : State := s.mapCore s.cur.core f

/-- The context that issues. -/
def State.ctx (s : State) : Ctx := s.ctxAt s.cur.core s.cur.ctx

def State.mapCtx (s : State) (f : Ctx → Ctx) : State := s.mapCtxAt s.cur.core s.cur.ctx f

def State.floe (s : State) (f : FloeId) : Floe := s.floes.look Floe.init f.toNat

def State.setFloe (s : State) (f : FloeId) (x : Floe) : State := { s with floes := s.floes.put f.toNat x }

def State.mapFloe (s : State) (f : FloeId) (g : Floe → Floe) : State := s.setFloe f (g (s.floe f))

/-- The floe of the issuing core. -/
def State.myFloe (s : State) : FloeId := floeOf s.cur.core

def Core.ep (x : Core) (e : EpId) : Endpoint := x.eps.look {} e.toNat

def Core.mapEp (x : Core) (e : EpId) (f : Endpoint → Endpoint) : Core :=
  { x with eps := x.eps.put e.toNat (f (x.ep e)) }

def State.epAt (s : State) (c : CoreId) (e : EpId) : Endpoint := (s.core c).ep e

def State.mapEpAt (s : State) (c : CoreId) (e : EpId) (f : Endpoint → Endpoint) : State :=
  s.mapCore c fun x => x.mapEp e f

def State.ep (s : State) (e : EpId) : Endpoint := s.me.ep e

def State.mapEp (s : State) (e : EpId) (f : Endpoint → Endpoint) : State := s.mapEpAt s.cur.core e f

/-- Every context number. -/
def allCtx : List CtxId := (List.range 16).map (BitVec.ofNat 4)

/-- Every endpoint number. -/
def allEps : List EpId := (List.range 64).map (BitVec.ofNat 6)

/-- The eight cores of a floe. -/
def coresOf (f : FloeId) : List CoreId := (List.range 8).map (coreAt f)

/-- Whether core c lies within the scope of core o: 0 core, 1 floe, 2 die, 3 module, 4 fabric (R10,
Table 3.4a). -/
def inScope (sc : Nat) (o c : CoreId) : Bool :=
  match sc with
  | 0 => o == c
  | 1 => floeOf o == floeOf c
  | 2 => dieOf (floeOf o) == dieOf (floeOf c)
  | _ => true

/-- The next free value, and the state with the counter advanced (log 6). -/
def State.fresh (s : State) : W × State := (Config.freeWord s.free, { s with free := s.free + 1 })

/-! ### Memory -/

/-- The byte at a key. A byte that is not listed is 0 (log 2). -/
def memRead : List Host.Cell → Nat → Byte
  | [], _ => 0
  | (a, b) :: m, k => if a = k then b else memRead m k

/-- Memory with one byte written, kept in canonical form. -/
def memWrite : List Host.Cell → Nat → Byte → List Host.Cell
  | [], k, v => if v = 0 then [] else [(k, v)]
  | (a, b) :: m, k, v =>
    if k < a then (if v = 0 then (a, b) :: m else (k, v) :: (a, b) :: m)
    else if k = a then (if v = 0 then m else (k, v) :: m)
    else (a, b) :: memWrite m k v

/-- The canonical form: keys strictly rising, no byte equal to what an unlisted one reads as. -/
def Memory.wf : List Host.Cell → Bool
  | [] => true
  | (a, b) :: m => b != 0 && (match m with | [] => true | (a', _) :: _ => decide (a < a')) && Memory.wf m

def memReads (m : List Host.Cell) (k : Nat) : Nat → List Byte
  | 0 => []
  | n + 1 => memRead m k :: memReads m (k + 1) n

def memWrites (m : List Host.Cell) (k : Nat) : List Byte → List Host.Cell
  | [] => m
  | b :: l => memWrites (memWrite m k b) (k + 1) l

/-- The key of offset o in the pool of core c. -/
def poolKey (c : CoreId) (o : Nat) : Nat := 2 ^ 40 + c.toNat * 2 ^ 22 + o

/-- The core whose pool holds a key, if one does. -/
def poolOwner (k : Nat) : Option CoreId :=
  if k < 2 ^ 40 then none else some (BitVec.ofNat 11 ((k - 2 ^ 40) / 2 ^ 22))

/-- n bytes at a key, as a number (R5). -/
def State.rd (s : State) (k n : Nat) : Nat := leNat (memReads s.mem k n)

/-- The dword at a key. -/
def State.rd8 (s : State) (k : Nat) : W := BitVec.ofNat 64 (s.rd k 8)

/-- The dwords at a key. -/
def State.rdWords (s : State) (k n : Nat) : List W := (List.range n).map fun i => s.rd8 (k + 8 * i)

/-- The test of `nwait` (R174, R175). -/
def Watch.test (w : Watch) (v : W) : Bool := if w.eq then v == w.b else decide (w.b.toNat ≤ v.toNat)

/-- A watch after a write of n bytes at k left the dword at its key with value v (R175). -/
def Watch.seen (w : Watch) (k n : Nat) (v : W) : Watch :=
  if w.got.isNone && decide (w.key < k + n ∧ k < w.key + 8) && w.test v then { w with got := some v } else w

/-- The watches of a core after a write. -/
def State.wake (s : State) (k n : Nat) : State :=
  match poolOwner k with
  | none => s
  | some c =>
    { s with cores := s.cores.map fun e =>
        if e.1 = c.toNat then
          (e.1, { e.2 with ctxs := e.2.ctxs.map fun f =>
            (f.1, { f.2 with watch := f.2.watch.map fun w => w.seen k n (s.rd8 w.key) }) })
        else e }

/-- Writes bytes at a key; a dword written whole loses its errors (R137, R387); the watches see the
write (R175). -/
def State.wr (s : State) (k : Nat) (l : List Byte) : State :=
  let whole := fun d => decide (k ≤ d ∧ d + 8 ≤ k + l.length)
  ({ s with
      mem := memWrites s.mem k l
      bad := s.bad.filter fun d => !whole d
      weak := s.weak.filter fun d => !whole d } : State).wake k l.length

/-- Writes the n low bytes of a number. -/
def State.wrN (s : State) (k n v : Nat) : State := s.wr k (leBytes n v)

def State.wr8 (s : State) (k : Nat) (v : W) : State := s.wrN k 8 v.toNat

/-- Writes dwords in order. -/
def State.wrWords (s : State) (k : Nat) (l : List W) : State :=
  s.wr k (l.flatMap fun w => leBytes 8 w.toNat)

/-- The first dword with an uncorrectable error that n bytes at k touch. -/
def State.badIn (s : State) (k n : Nat) : Option Nat :=
  (s.bad.filter fun d => decide (d < k + n ∧ k < d + 8)).min?

/-! ### Events, faults of units, failure of the module -/

/-- An entry of the event queue (Table 8.6). -/
def eventWord (prio typ ctx detail data : Nat) : W :=
  mkW [(1, 63), (prio % 4, 61), (typ % 32, 56), (ctx % 16, 52), (detail % 2 ^ 20, 32), (data % 2 ^ 32, 0)]

/-- Whether an entry coalesces with one in the queue (R166): TIMER and ECC by type, MSG by endpoint,
WATCHDOG by context. -/
def coalesces (e f : W) : Bool :=
  wf e 56 5 == wf f 56 5 &&
  match wf e 56 5 with
  | 1 => true
  | 6 => true
  | 2 => wf e 32 6 == wf f 32 6
  | 4 => wf e 52 4 == wf f 52 4
  | _ => false

/-- An event among those of its cycle: in TYPE order, then by CTX (R166). -/
def insertEvent (e : W) : List W → List W
  | [] => [e]
  | f :: l => if wf e 56 5 * 16 + wf e 52 4 < wf f 56 5 * 16 + wf f 52 4 then e :: f :: l else f :: insertEvent e l

/-- EVENT_POST (R166): an event enters the queue, coalesces, or is lost: with the queue full, the last of its cycle is. -/
def Core.post (x : Core) (e : W) : Core :=
  let old := x.events.length - x.newEvents
  let all := x.events.take old ++ insertEvent e (x.events.drop old)
  if x.events.any (coalesces e) then x
  else if x.events.length < 64 then { x with events := all, newEvents := x.newEvents + 1 }
  else { x with events := all.take 64, lost := BitVec.ofNat 16 (satAdd x.lost.toNat 1 16) }

/-- Which of two failures of one cycle mfault records: the lowest CLASS, then the lowest die, floe and core, then the
lowest UNIT (R427). -/
def failRank (cls unit : Nat) (loc : CoreId) : Nat := (cls * 2048 + loc.toNat) * 32 + unit

/-- MODULE_FAILURE (R427, R454): of the failures of one clock cycle mfault names the first by `failRank`, and it counts
every other. -/
def State.fail (s : State) (cls unit : Nat) (loc : CoreId) : State :=
  let m := mkW [(1, 63), (cls, 56), (unit, 48), (loc.toNat, 37)]
  let old := s.mfault
  let more := satAdd (wf old 0 16) 1 16
  if !s.failed then { s with failed := true, failing := some false, mfault := m }
  else if s.failing.isSome &&
      decide (failRank cls unit loc < failRank (wf old 56 2) (wf old 48 5) (old.extractLsb' 37 11)) then
    { s with mfault := setField m 0 16 more }
  else { s with mfault := setField old 0 16 more }

/-- CORE_FAULT (R185, R186): the core records cfault, and the module fails. Of two faults of one core in the cycle of that failure
cfault keeps the later, R427 ranking mfault only (DESIGN CHOICE, log 51). -/
def State.coreFault (s : State) (c : CoreId) (cause : Nat) : State :=
  (s.mapCore c fun x => { x with cfault := mkW [(1, 63), (cause, 0)] }).fail 1 0 c

/-- FLOE_FAULT (R335). -/
def State.floeFault (s : State) (f : FloeId) (cause : Nat) : State :=
  (s.mapFloe f fun x => { x with ffault := mkW [(1, 63), (cause, 0)] }).fail 1 1 (coreAt f 0)

/-- ROUTER fault (R361): unit 2, or unit 3 where a lane of the die-to-die link behind its port A failed (R454). -/
def State.routerFault (s : State) (f : FloeId) (link : Bool) : State := s.fail 1 (if link then 3 else 2) (coreAt f 0)

/-! ### Traps -/

/-- A trap to take: what the fault record shows besides the PC and the word of the instruction, which
are those of the issuing instruction unless given (R146, R152), and the turns that a floating-point trap
forfeits all the same (R50). -/
structure Trap where
  cause  : Nat
  detail : Nat := 0
  addr   : W := 0
  lane   : Nat := 0
  exc    : BitVec 5 := 0
  fpc    : Option W := none
  insn   : Option (BitVec 32) := none
  xid    : BitVec 16 := 0
  def_   : Bool := false
  pc     : Option W := none
  turns  : Nat := 0
  deriving DecidableEq, Repr

/-- Trap causes (Table 6.8). -/
def cILLINSN : Nat := 0x01
def cILLOPND : Nat := 0x02
def cFETCHALIGN : Nat := 0x03
def cFETCHFAULT : Nat := 0x04
def cEPOWN : Nat := 0x05
def cPROTOCOL : Nat := 0x06
def cFP : Nat := 0x07
def cMISALIGN : Nat := 0x08
def cXLATE : Nat := 0x09
def cPROT : Nat := 0x0A
def cNONLOCAL : Nat := 0x0B
def cSTACKLIM : Nat := 0x0C
def cSWTRAP : Nat := 0x0D
def cBREAK : Nat := 0x0E
def cSINGULAR : Nat := 0x0F
def cCONNMISMATCH : Nat := 0x10
def cDATAERR : Nat := 0x11
def cNACK : Nat := 0x12
def cCOPYERR : Nat := 0x13
def cPEERLOST : Nat := 0x14

/-- The illegal-operand trap. -/
def illOpnd : Trap := { cause := cILLOPND }

/-- A refusal of the automaton or of a binding check (R195, R204): endpoint and code. -/
def refuse (e : EpId) (code : Nat) : Trap := { cause := cPROTOCOL, detail := e.toNat + 64 * code }

/-- What a shared operation answers: a value, a trap (nothing else changes, R11), or BLOCKED with the
state in which the instruction waits. -/
inductive Res (α : Type) where
  | ok (a : α)
  | trap (t : Trap)
  | block (w : Wait) (s : State)

def Res.bind {α β : Type} (r : Res α) (f : α → Res β) : Res β :=
  match r with
  | .ok a => f a
  | .trap t => .trap t
  | .block w s => .block w s

/-- A check: the trap is taken when the condition fails. -/
def Res.check (b : Bool) (t : Trap) : Res Unit := if b then .ok () else .trap t

/-- frec0 (Table 6.6). -/
def frec0Of (t : Trap) (nest ovf : Bool) (pend : Nat) : W :=
  mkW [(1, 63), (b2n t.def_, 62), (b2n nest, 61), (b2n ovf, 60), (pend % 4, 58), (t.lane % 128, 51),
    (t.exc.toNat, 46), (t.detail % 4096, 12), (t.cause % 64, 0)]

/-- The context no longer waits for anything. -/
def Ctx.settle (c : Ctx) : Ctx :=
  { c with wait := none, req := none, watch := none, walkFail := none, fill := none, stall := 0 }

/-- The PC redirected: bit 0 reads 0, an odd target is kept for the fetch-alignment trap (R23, R102), and
the fetch buffer empties (R180). -/
def Ctx.jump (c : Ctx) (t : W) : Ctx :=
  { c with pc := even t, oddPc := if wb t 0 then some t else none, fbuf := [] }

/-- The context enters STOPPED (R29, R171). -/
def Ctx.stop (c : Ctx) (now : Nat) : Ctx :=
  { c.settle with life := .stopped, stoppedAt := now, heldStop := false }

/-- The mailbox slots that a `gwait` under way waits for (R299, R301), also while its word is fetched again. -/
def Ctx.mailMask (c : Ctx) : W := (c.wait.map Wait.slots).getD 0

/-- Whether an instruction of the context is under way elsewhere: a read or an engine's operation, which answers by its number, or
a connection. -/
def Ctx.awaitsAnswer (c : Ctx) : Bool := c.req.any fun r => decide (1000 ≤ r.txn) || r.txn == 2

/-- A BLOCKED context becomes RUNNABLE; a STOP held pending for a walk takes effect at once (R31), unless the walk was that of an
instruction's own word which waits for an answer: it is held until that comes (R235, R281, R351). -/
def Ctx.unblock (c : Ctx) (now : Nat) : Ctx :=
  if c.heldStop && (c.wait.any fun w => w.kind == 6) && !c.awaitsAnswer then c.stop now
  else { c with life := .runnable, stall := 0 }

/-- PEND as a fault record of the context shows it (Table 6.6): what its two bits show of four pending faults is
left open (log 15). -/
def State.pendShown (s : State) (c : Ctx) : Nat × State :=
  if c.pend.length ≤ 3 then (c.pend.length, s)
  else
    let (w, s1) := s.fresh
    (w.toNat % 4, s1)

/-- TRAP_ENTRY (R147) as one context takes it; `faultPc` and `word` are those of the instruction, `pend` is what
PEND shows. Returns the context and whether it stops. -/
def Ctx.enterTrap (c : Ctx) (t : Trap) (word : BitVec 32) (now pend : Nat) : Ctx × Bool :=
  let faultPc := t.pc.getD c.pc
  let into := !c.act && c.tvec != 0
  let c1 : Ctx :=
    { c.settle with
      frec0 := frec0Of t (!into && c.act) c.ovf pend
      frec1 := t.fpc.getD faultPc
      frec2 := t.addr
      frec3 := mkW [(t.xid.toNat, 32), ((t.insn.getD word).toNat, 0)]
      ovf := false
      oddPc := none
      forfeit := c.forfeit + t.turns
      gang := none
      leaving := none }
  if into then
    ({ c1.jump c.tvec with
       epc := even faultPc
       skip := t.cause == cSWTRAP || t.cause == cBREAK
       act := true
       life := .runnable }, false)
  else ({ (c1.jump (even faultPc)).stop now with life := .stopped }, true)

/-- TRAP_ENTRY at a context: a stop posts a TRAP event to c0, and in c0 it is a core fault (R147, R185). A
STOP held pending takes effect after the trap (R31). A trap of c0 that faults its core writes its record and posts its event
before the fault (DESIGN CHOICE, log 67). -/
def State.trapAt (s : State) (co : CoreId) (k : CtxId) (t : Trap) (word : BitVec 32) : State :=
  let x := s.core co
  let c := x.ctx k
  let (pend, s0) := s.pendShown c
  let (c', stopped) := c.enterTrap t word x.cycle pend
  let s1 := s0.mapCtxAt co k fun _ => if c.heldStop && !stopped then c'.stop x.cycle else c'
  if stopped then
    let s2 := s1.mapCore co fun x =>
      x.post (eventWord 0 3 k.toNat (t.cause % 64) ((t.fpc.getD (t.pc.getD c.pc)).toNat))
    if k = 0 then (s2.mapCtxAt co k fun c => { c with life := .runnable }).coreFault co 1 else s2
  else s1

/-- The issuing context takes a trap. -/
def State.trap (s : State) (t : Trap) : State := s.trapAt s.cur.core s.cur.ctx t s.cur.insn

/-- LOOP_END_ACTION (R107) for an instruction of `len` bytes at `a`: the next PC and the loop counts. -/
def Ctx.loopNext (c : Ctx) (a : W) (len : Nat) : Ctx × W :=
  let go := fun (st : Ctx × W × Bool) (n : Fin 3) =>
    let (c, nx, stop) := st
    if stop then st
    else if c.lc[n] != 0 && c.le[n] == a then
      if c.lc[n].toNat > 1 then ({ c with lc := c.lc.set n (c.lc[n] - 1) }, c.lb[n], true)
      else ({ c with lc := c.lc.set n 0 }, nx, false)
    else st
  let (c', nx, _) := [0, 1, 2].foldl go (c, a + BitVec.ofNat 64 len, false)
  (c', nx)

/-- The context completes an instruction of `len` bytes and continues in sequence (R107). -/
def Ctx.advance (c : Ctx) (len : Nat) : Ctx :=
  let (c', nx) := c.loopNext c.pc len
  { c'.settle with pc := even nx, life := .runnable }

/-- The context completes a taken branch or a jump (R103). -/
def Ctx.goto (c : Ctx) (t : W) : Ctx := { c.settle.jump t with life := .runnable }

/-- A STOP held pending takes effect once the instruction has completed (R31, R281, R316, R319). -/
def Ctx.honour (c : Ctx) (now : Nat) : Ctx := if c.heldStop then c.stop now else c

/-- The issuing context completes an instruction of `len` bytes. -/
def State.complete (s : State) (len : Nat) : State :=
  s.mapCtx fun c => (c.advance len).honour s.me.cycle

/-- The issuing context completes a jump. -/
def State.completeTo (s : State) (t : W) : State :=
  s.mapCtx fun c => (c.goto t).honour s.me.cycle

/-- The issuing context is BLOCKED; its PC stays at the instruction (R29). -/
def State.block (s : State) (w : Wait) : State :=
  s.mapCtx fun c => { c with life := .blocked, wait := some { w with slots := w.slots ||| c.mailMask } }

/-- What a meaning answers for the outcome of its operation. -/
def State.finish (s : State) (len : Nat) (r : Res State) : Out :=
  match r with
  | .ok t => .next (t.complete len)
  | .trap t => .next (s.trap t)
  | .block w t => .next (t.block w)

/-- As `finish`, for an operation that has set the PC itself. -/
def State.finishJump (s : State) (r : Res State) : Out :=
  match r with
  | .ok t => .next t
  | .trap t => .next (s.trap t)
  | .block w t => .next (t.block w)

/-! ### Operations, deferred faults -/

/-- The index of a class. -/
def Cls.idx : Cls → Fin 4
  | .gload => 0
  | .gstore => 1
  | .copy => 2
  | .tile => 3

/-- A context launches an operation of a class (R278): it counts until it and all earlier ones of the
class have finished. -/
def Ctx.launch (c : Ctx) (cls : Cls) (fence : Bool) (ep : Option EpId) : Ctx :=
  let n := c.issued[cls.idx] + 1
  { c with
    ops := c.ops ++ [⟨c.nextOp, cls, n, false, fence, ep⟩]
    nextOp := c.nextOp + 1
    issued := c.issued.set cls.idx n }

/-- Operations of a class that have not retired (R278). -/
def Ctx.count (c : Ctx) (cls : Cls) : Nat := (c.ops.filter fun o => o.cls == cls).length

/-- Drops from the front the operations of a class that have finished (R278). -/
def retireCls (cls : Cls) : List Op → List Op
  | [] => []
  | o :: l => if o.cls == cls then (if o.done then retireCls cls l else o :: l) else o :: retireCls cls l

/-- An operation finishes, with success or failure (R153, R278). -/
def Ctx.finishOp (c : Ctx) (id : Nat) : Ctx :=
  let l := c.ops.map fun o => if o.id = id then { o with done := true } else o
  { c with ops := retireCls .gload (retireCls .gstore (retireCls .copy (retireCls .tile l))) }

/-- A deferred fault is queued: at most four, the rest only set OVF (R151). -/
def Ctx.defer (c : Ctx) (d : Deferred) : Ctx :=
  if c.pend.length < 4 then { c with pend := c.pend ++ [d] } else { c with ovf := true }

/-- The class and number of an operation, if it has not retired. -/
def Ctx.opNum (c : Ctx) (id : Nat) : Option (Cls × Nat) :=
  (c.ops.find? fun o => o.id = id).map fun o => (o.cls, o.num)

/-- A fault of an origin's operation is deferred to its context (R151, R153): cause, DETAIL, ADDR. -/
def State.deferFault (s : State) (o : Origin) (f : Nat × Nat × W) (tag : Option (BitVec 6) := none)
    (xid : BitVec 16 := 0) : State :=
  s.mapCtxAt o.core o.ctx fun c =>
    c.defer ⟨f.1, f.2.1, f.2.2, o.fpc, xid, o.insn, c.opNum o.op, tag, none,
      (c.ops.find? fun (p : Op) => p.id = o.op).any (fun (p : Op) => p.fence)⟩

/-- The operation of an origin finishes; a failure is deferred to its context first (R151, R153). -/
def State.finishOp (s : State) (o : Origin) (fault : Option (Nat × Nat × W)) (tag : Option (BitVec 6) := none)
    (xid : BitVec 16 := 0) : State :=
  (match fault with
    | none => s
    | some f => s.deferFault o f tag xid).mapCtxAt o.core o.ctx fun c => c.finishOp o.op

/-- The origin of an operation that the issuing context launches now. -/
def State.origin (s : State) : Origin := ⟨s.cur.core, s.cur.ctx, s.ctx.nextOp, s.ctx.pc, s.cur.insn⟩

/-- Flags are ORed into a context's fst (R48); fst<4:0> holds NV, DZ, OF, UF, NX. -/
def State.orFlags (s : State) (co : CoreId) (k : CtxId) (f : BitVec 5) : State :=
  s.mapCtxAt co k fun c => { c with fst := c.fst ||| f.zeroExtend 13 }

/-- The trap that reports a deferred fault (R152). -/
def Deferred.asTrap (d : Deferred) : Trap :=
  { cause := d.cause, detail := d.detail, addr := d.addr, fpc := some d.fpc, insn := some d.insn, xid := d.xid, def_ := true }

/-- DEFERRED_FAULT_DELIVERY (R152, R153): the first pending fault that the instruction covers, taken off
the list, as the trap that reports it. -/
def Ctx.covered (c : Ctx) (cov : Deferred → Bool) : Option (Trap × List Deferred) :=
  (c.pend.find? cov).map fun d => (d.asTrap, c.pend.erase d)

/-- Runs `k`, unless a pending deferred fault that the instruction covers is taken instead (R152). -/
def State.covering (s : State) (cov : Deferred → Bool) (k : Out) : Out :=
  match s.ctx.covered cov with
  | none => k
  | some (t, rest) => .next ((s.mapCtx fun c => { c with pend := rest }).trap t)

/-- c0 of core 0 of the floe (R308). -/
def State.isSupervisor (s : State) : Bool := s.cur.ctx == 0 && s.cur.core.extractLsb' 0 3 == 0

end Sys2Proof.Machine
end

