-- ==== Sys2Proof/Machine/Net.lean ====
section
/-! DEFINITION. Packets put on their way, and the receive buffers of endpoints: transmitting, credits, slots
(R188 to R190, R206 to R208, R353, R360). -/

namespace Sys2Proof.Machine

/-! ### Packets -/

/-- This module's fabric address (Table 23.2). -/
def State.address (s : State) : BitVec 19 := s.fid.extractLsb' 0 19

/-- Coordinate i of a fabric address (Table 23.1). -/
def coord (a : BitVec 19) : Nat → Nat
  | 0 => bits a.toNat 15 4
  | 1 => bits a.toNat 11 4
  | 2 => bits a.toNat 7 4
  | 3 => bits a.toNat 3 4
  | _ => bits a.toNat 0 3

/-- The address with coordinate i replaced. -/
def setCoord (a : BitVec 19) (i v : Nat) : BitVec 19 :=
  let at_ := fun j => if j = i then v else coord a j
  BitVec.ofNat 19 (place [(at_ 0, 15), (at_ 1, 11), (at_ 2, 7), (at_ 3, 3), (at_ 4, 0)])

/-- The size of dimension i (Table 23.2). -/
def State.dimSize (s : State) : Nat → Nat
  | 0 => wf s.fid 52 4 + 1
  | 1 => wf s.fid 48 4 + 1
  | 2 => wf s.fid 44 4 + 1
  | 3 => wf s.fid 40 4 + 1
  | _ => wf s.fid 37 3 + 1

/-- Whether an address names a module (R437). -/
def State.isModule (s : State) (a : BitVec 19) : Bool := (List.range 5).all fun i => decide (coord a i < s.dimSize i)

/-- The floe of memory controller m: floe 9(m mod 8) of die m / 8 (R384). -/
def ctrlFloe (m : BitVec 5) : FloeId := BitVec.ofNat 8 (m.toNat / 8 * 64 + m.toNat % 8 * 9)

/-- The floe at whose router a packet for this unit leaves the network (Tables 10.2, 21.1). -/
def destFloe : Dest → FloeId
  | .core c => floeOf c
  | .port c => floeOf c
  | .ctrl m => ctrlFloe m
  | .floe f => f
  | .host => 32

/-- The output port at that router: L, or A for a controller and the host (R353, R415). -/
def destPort : Dest → Nat
  | .core _ => 0
  | .port _ => 0
  | .floe _ => 0
  | .ctrl _ => 5
  | .host => 5

/-- A number for each destination, to tell ordered flows apart (R360). -/
def destCode : Dest → Nat
  | .core c => c.toNat
  | .port c => 2048 + c.toNat
  | .floe f => 4096 + f.toNat
  | .ctrl m => 8192 + m.toNat
  | .host => 12288

/-- Flits of a unicast packet (R399): one for the header and one for each 64 bytes of payload. -/
def flitsOf (n : Nat) : Nat := 1 + (n + 63) / 64

/-- Puts a unicast packet of `bytes` of payload on its way: from floe f, or, with `inp` 5, from the unit behind port A of its
router. `order` names the ordered flow of an ADAPT = 0 packet (R360). -/
def State.send (s : State) (f : FloeId) (dst : Dest) (order : Option Nat) (bytes : Nat) (body : Body)
    (dmod : Option (BitVec 19) := none) (src : CoreId := coreAt f 0) (inp : Nat := 0) : State :=
  let pk : Packet :=
    { src := src, kind := 0, adapt := order.isNone, esc := order.isSome, vc := false, len := flitsOf bytes, rest := flitsOf bytes
      dmod := dmod.getD s.address, dst := dst, rev := 0, fcls := 0, fin := none, via := none
      place := .queued f inp
      flow := order.map fun n => n * 16384 + destCode dst
      body := body }
  { s with net := s.net ++ [pk] }

/-- Sends from a core. -/
def State.sendCore (s : State) (c : CoreId) (dst : Dest) (order : Bool) (bytes : Nat) (body : Body)
    (dmod : Option (BitVec 19) := none) : State :=
  s.send (floeOf c) dst (if order then some c.toNat else none) bytes body dmod c

/-- Sends from a memory controller. -/
def State.sendCtrl (s : State) (m : BitVec 5) (dst : Dest) (bytes : Nat) (body : Body) (ordered : Bool) : State :=
  s.send (ctrlFloe m) dst (if ordered then some (2048 + m.toNat) else none) bytes body none (coreAt (ctrlFloe m) 0) 5

/-- The unit whose arrivals are taken in one order: a core with its pool port, or another destination. -/
def destUnit : Dest → Dest
  | .port c => .core c
  | d => d

/-- Element p of the packets in flight, when it has reached its unit and is the next there: units take what reaches them in
the order of arrival (R173, R343), of which what they have parked is no longer part; a packet of an ordered flow waits
even for a parked one of its flow (R360). -/
def State.arrived (s : State) (p : Nat) : Option Packet :=
  match s.net[p]? with
  | none => none
  | some pk =>
    let before := fun (q : Packet) =>
      q.place == .arrived &&
        ((pk.flow.isSome && q.flow == pk.flow) || (!q.parked && !pk.parked && destUnit q.dst == destUnit pk.dst))
    if pk.place == .arrived && !(s.net.take p).any before then some pk else none

/-- The unit of packet p takes it up, to wait there. -/
def State.park (s : State) (p : Nat) : State :=
  match s.net[p]? with
  | some pk => { s with net := s.net.set p { pk with parked := true } }
  | none => s

/-- It waits there with another body: what it has found on arrival. -/
def State.parkAs (s : State) (p : Nat) (b : Body) : State :=
  { s with net := s.net.modify p fun pk => { pk with parked := true, body := b } }

/-- Where that packet has arrived and what it carries. -/
def State.atUnit (s : State) (p : Nat) : Option (Dest × Body) := (s.arrived p).map fun pk => (pk.dst, pk.body)

/-- The packet is taken. -/
def State.takePacket (s : State) (p : Nat) : State := { s with net := s.net.eraseIdx p }

/-! ### Peers -/

/-- Location words: <63:45> module, <44:34> die, floe and core, <33:28> endpoint, as bits <35:0> here
(Tables 9.1, 10.1). -/
def locWord (m : BitVec 19) (c : CoreId) (e : EpId) : BitVec 36 := m ++ c ++ e

def locMod (a : BitVec 36) : BitVec 19 := a.extractLsb' 17 19
def locCore (a : BitVec 36) : CoreId := a.extractLsb' 6 11
def locEp (a : BitVec 36) : EpId := a.extractLsb' 0 6

/-- A location word in the layout of w1, with a generation. -/
def locW (a : BitVec 36) (gen : BitVec 16) : W := mkW [(a.toNat, 28), (gen.toNat, 12)]

/-- The location part of a word laid out as w1. -/
def wLoc (w : W) : BitVec 36 := w.extractLsb' 28 36
def wGen (w : W) : BitVec 16 := w.extractLsb' 12 16

/-- Unit kind, index and die of a hardware peer (Tables 10.1, 10.2). -/
def unitKind (a : BitVec 36) : Nat := (a.extractLsb' 12 3).toNat
def unitIndex (a : BitVec 36) : Nat := (a.extractLsb' 0 12).toNat
def unitDie (a : BitVec 36) : Nat := (a.extractLsb' 15 2).toNat

/-- The destination a peer names. -/
def peerDest (phw : Bool) (a : BitVec 36) : Dest :=
  if phw then
    match unitKind a with
    | 1 => .ctrl (BitVec.ofNat 5 (unitDie a * 8 + unitIndex a))
    | 4 => .floe (BitVec.ofNat 8 (unitDie a * 64 + unitIndex a))
    | 6 => .host
    | _ => .port (BitVec.ofNat 11 (unitDie a * 512 + unitIndex a))
  else .core (locCore a)

/-- Sends to the peer of an endpoint. The stream of a RED endpoint, unit kind 5, takes no such packet (Table 10.2). -/
def State.sendPeer (s : State) (c : CoreId) (ep : Endpoint) (bytes : Nat) (b : Body) : State :=
  if ep.phw && unitKind ep.paddr == 5 then s
  else s.sendCore c (peerDest ep.phw ep.paddr) false bytes b (some (locMod ep.paddr))

/-! ### Receive buffers -/

/-- The key of slot i of an endpoint's buffer (R206). -/
def Endpoint.slotKey (ep : Endpoint) (c : CoreId) (i : Nat) : Nat :=
  poolKey c (ep.base.toNat + i * ep.slotu.toNat * 16)

def Endpoint.slots (ep : Endpoint) : Nat := ep.depth.toNat + 1

/-- The slot of the n-th next message (R207). -/
def Endpoint.slotOf (ep : Endpoint) (n : Nat) : Nat := (ep.head.toNat + n) % ep.slots

/-- The header of the n-th next message's slot. -/
def State.slotHeader (s : State) (c : CoreId) (e : EpId) (n : Nat) : W :=
  let ep := s.epAt c e
  s.rd8 (ep.slotKey c (ep.slotOf n))

/-- The network header of a packet (Table 16.1); DSUB is the core behind port L. -/
def netHeader (pk : Packet) : W :=
  let core := match pk.dst with | .core c => c.toNat % 8 | .port c => c.toNat % 8 | _ => 0
  let stream := match pk.body with | .marker n => some n | .red r => some r.stream | _ => none
  mkW ([(pk.kind % 8, 61), (b2n pk.adapt, 60), (b2n pk.esc, 59), (b2n pk.vc, 58),
      (if pk.len ≤ 9 then pk.len - 1 else (Config.longLen pk.len).toNat, 54)] ++
    match stream with
    | some n => [(n.toNat, 42)]
    | none => [((destFloe pk.dst).toNat, 46), (destPort pk.dst, 43), (core, 40)])

/-! ### Reduction packets (R365, R366) -/

/-- The bytes of a value (R366): a scalar; an accumulator state, as Table 2.7 numbers its bits; a count and its entries. -/
def redValueBytes : RedVal → List Byte
  | .scalar w => leBytes 8 w.toNat
  | .exact v nz snan nan ninf pinf =>
    leBytes 273 ((v % 2 ^ 2176).toNat + place [(b2n pinf, 2176), (b2n ninf, 2177), (b2n nan, 2178), (b2n snan, 2179), (b2n nz, 2180)])
  | .top l => (BitVec.ofNat 64 l.length :: l).flatMap fun w => leBytes 8 w.toNat

/-- Flits of a reduction packet (R366). -/
def redLen (r : RedPkt) : Nat :=
  let n := match r.val with | .scalar _ => 8 | .exact _ _ _ _ _ _ => 273 | .top l => 8 + 8 * l.length
  (16 + n + 63) / 64 + r.nbf

/-- The reduction header (Table 16.3). -/
def redHeader (r : RedPkt) : W :=
  mkW [(r.epoch.toNat, 48), (r.idx % 4096, 36), (r.nbf % 16, 32), (r.ptype % 8, 29), (r.exc.toNat, 24),
    (b2n r.rsh, 23), (r.set % 4, 21), (r.fmt % 4, 19), (r.op % 4, 17), (r.km1 % 32, 12), (r.seq % 4096, 0)]

/-- Bytes padded with zeros to whole flits. -/
def padFlits (l : List Byte) : List Byte := l ++ List.replicate ((64 - l.length % 64) % 64) 0

/-- The bytes of a reduction packet (R366): its header at byte 8, its value from byte 16, its bitmap in whole flits. -/
def redBytes (header : W) (r : RedPkt) : List Byte :=
  padFlits (leBytes 8 header.toNat ++ leBytes 8 (redHeader r).toNat ++ redValueBytes r.val) ++ leBytes (64 * r.nbf) r.bits

/-! ### Slot headers -/

/-- Fields of a slot header (Table 9.8). -/
def hdrF (h : W) : Bool := wb h 63
def hdrCls (h : W) : Nat := wf h 60 3
def hdrTyp (h : W) : Nat := wf h 52 8
def hdrSeq (h : W) : Nat := wf h 32 16
def hdrLen (h : W) : Nat := wf h 0 13

def hdrWord (cls typ seq len : Nat) : W :=
  mkW [(1, 63), (cls % 8, 60), (typ % 256, 52), (seq % 65536, 32), (len % 8192, 0)]

/-- The flits of a packet: of a message or a credit packet flit 0 and its payload, the last flit padded with zeros, d0 of the
slot header travelling with F = 0 (R399), a notice being such a message of type 1 (R214); of a reduction packet its header,
value and bitmap (R366). None for packets of other contents, whose layout is not given. -/
def channelBytes (pk : Packet) : Option (List Byte) :=
  let flit0 := fun (ep : EpId) (gen : BitVec 16) (d0 : W) (credits : Nat) =>
    ([netHeader pk, d0, mkW [(credits % 128, 22), (gen.toNat, 6), (ep.toNat, 0)], 0, 0, 0, 0, 0] : List W).flatMap
      fun w => leBytes 8 w.toNat
  match pk.body with
  | .msg ep gen cls typ seq credits payload =>
    some (flit0 ep gen (setField (hdrWord cls typ seq.toNat payload.length) 63 1 0) credits ++ padFlits payload)
  | .notice ep gen l =>
    some (flit0 ep gen (setField (hdrWord 4 1 (Config.noticeSeq l).toNat 64) 63 1 0) 0 ++ l.flatMap fun w => leBytes 8 w.toNat)
  | .credit ep gen n => some (flit0 ep gen 0 n)
  | .noteCredit _ ep gen => some (flit0 ep gen 0 1)
  | .red r => some (redBytes (netHeader pk) r)
  | .buddy _ _ r => some (redBytes (netHeader pk) r)
  | _ => none

/-- A slot is written, payload first and F last (R207); an arrival overwrites it whole (R209). Bytes beyond the payload stay as they
were, and a payload longer than the slot runs on past it (DESIGN CHOICE, log 75). -/
def State.fillSlot (s : State) (c : CoreId) (e : EpId) (i cls typ : Nat) (seq : BitVec 16)
    (payload : List Byte) : State :=
  let k := (s.epAt c e).slotKey c i
  (s.wr (k + 16) payload).wrWords k [hdrWord cls typ seq.toNat payload.length, 0]

/-- Every slot's header is emptied as the endpoint enters OPEN (R206). -/
def State.clearSlots (s : State) (c : CoreId) (e : EpId) : State :=
  let ep := s.epAt c e
  (List.range ep.slots).foldl (fun s i =>
    let k := ep.slotKey c i
    s.wr8 k (s.rd8 k &&& ~~~(1#64 <<< 63))) s

/-- The endpoint and generation by which the peer of an endpoint e is addressed: a unit names its end by e itself. -/
def Endpoint.toPeer (ep : Endpoint) (e : EpId) : EpId × BitVec 16 :=
  if ep.phw then (e, ep.gen) else (locEp ep.paddr, ep.pgen)

/-- A credit packet (R208): credits owed go to the peer. -/
def State.sendCredits (s : State) (c : CoreId) (e : EpId) : State :=
  let ep := s.epAt c e
  if ep.owed = 0 then s
  else (s.sendPeer c ep 0 (.credit (ep.toPeer e).1 (ep.toPeer e).2 ep.owed)).mapEpAt c e fun ep => { ep with owed := 0 }

/-- Whether an endpoint's protocol returns credits only in packets of their own: STREAM, HOST and NOTE
have no message of the receiver's to carry them (R208, log 9). -/
def Endpoint.creditPackets (ep : Endpoint) : Bool := ep.proto == 8 || ep.proto == 9

/-- A notice that has not left its surviving end yet, for NOTE endpoint e of core c of this module (R214). -/
def State.noticeWaits (s : State) (c : CoreId) (e : EpId) (q : Packet) : Bool :=
  q.dst == .core c && q.dmod == s.address &&
    match q.body, q.place with
    | .notice e' _ _, .queued _ _ => e' == e
    | _, _ => false

/-- A notice from another module that waits for a slot of NOTE endpoint e of core c, at the port it reached (log 9). -/
def noticeStands (c : CoreId) (e : EpId) (q : Packet) : Bool :=
  q.dst == .core c && q.place == .arrived && q.parked && q.fin.isSome &&
    match q.body with
    | .notice e' _ _ => e' == e
    | _ => false

/-- The endpoint, generation and location by which the surviving end of a notice is reached (Table 9.10a): a unit names its end
by the core endpoint that it lost. -/
def noticeFrom (l : List W) : EpId × BitVec 16 × Dest × BitVec 19 :=
  let hw := wb (nthD 0 l 0) 48
  let surv := wLoc (nthD 0 l 1)
  (locEp (if hw then wLoc (nthD 0 l 2) else surv), BitVec.ofNat 16 (wf (nthD 0 l 0) 32 16), peerDest hw surv, locMod surv)

/-- A slot of a NOTE endpoint is free again (R207, R214): the credit goes to the surviving end whose notice waits first, in this
module or another; there is no other end to have it (log 9). -/
def State.noteCredit (s : State) (c : CoreId) (e : EpId) : State :=
  let s1 := s.mapEpAt c e fun ep => { ep with owed := 0 }
  match s1.net.find? fun q => s1.noticeWaits c e q || noticeStands c e q with
  | some q =>
    (match q.body with
    | .notice _ _ l =>
      let (e', g, d, m) := noticeFrom l
      s1.sendCore c d false 0 (.noteCredit e e' g) (some m)
    | _ => s1)
  | none => s1

/-- Whether a notice of this module may leave its surviving end (R214): a bound NOTE endpoint has a free slot for it, beside
those for the notices on their way and for credits that have not reached their end. -/
def State.noticeGoes (s : State) (pk : Packet) : Bool :=
  match pk.dst, pk.body with
  | .core c, .notice e g _ =>
    let ep := s.epAt c e
    if pk.dmod != s.address || ep.st != .open || ep.proto != 10 || ep.gen != g then true
    else
      let full := ((List.range ep.slots).filter fun i => hdrF (s.rd8 (ep.slotKey c i))).length
      let onTheWay := (s.net.filter fun q => match q.body with
        | .notice e' g' _ => q.dst == pk.dst && q.dmod == pk.dmod && e' == e && g' == g && !s.noticeWaits c e q
        | .noteCredit e' _ _ => q.dmod == s.address && q.src == c && e' == e
        | _ => false).length
      decide (full + onTheWay < ep.slots)
  | _, _ => true

/-- Takes the head slot: clears F, advances HEAD and RSEQ, owes one credit (R207). -/
def State.freeSlot (s : State) (c : CoreId) (e : EpId) : State :=
  let ep := s.epAt c e
  let k := ep.slotKey c ep.head.toNat
  let s1 := (s.wr8 k (s.rd8 k &&& ~~~(1#64 <<< 63))).mapEpAt c e fun ep =>
    { ep with head := BitVec.ofNat 6 ((ep.head.toNat + 1) % ep.slots), rseq := ep.rseq + 1, owed := ep.owed + 1 }
  if ep.proto == 10 then s1.noteCredit c e else if ep.creditPackets then s1.sendCredits c e else s1

/-- Transmit (R228): one message (the host endpoint knows a channel by its core endpoint, R422) to the peer, carrying the credits owed. -/
def State.transmit (s : State) (c : CoreId) (e : EpId) (cls typ : Nat) (payload : List Byte) : State :=
  let ep := s.epAt c e
  (s.sendPeer c ep payload.length
    (.msg (ep.toPeer e).1 (ep.toPeer e).2 cls typ ep.sseq ep.owed payload)).mapEpAt c e fun ep =>
      { ep with sseq := ep.sseq + 1, lacnt := ep.lacnt + 1, owed := 0 }

/-- Whether one more message would exceed what the peer holds (R208). -/
def Endpoint.full (ep : Endpoint) : Bool := decide (ep.lacnt.toNat ≥ ep.pdepth.toNat + 1)

/-! ### Endpoint words (Table 9.1) -/

def EpSt.code : EpSt → Nat
  | .unbound => 0
  | .connecting => 1
  | .open => 2
  | .peerClosed => 3
  | .delegating => 4
  | .lost => 5

/-- w0 to w3. -/
def Endpoint.word (ep : Endpoint) : Nat → W
  | 0 => mkW [(ep.st.code, 61), (ep.owner.toNat, 57), (ep.proto.toNat, 52), (ep.state.toNat, 46),
      (b2n ep.nv, 45), (ep.named.toNat, 39), (ep.lacnt.toNat, 32), (ep.gen.toNat, 16), (ep.sseq.toNat, 0)]
  | 1 => mkW [(ep.paddr.toNat, 28), (ep.pgen.toNat, 12), (b2n ep.phw, 0)]
  | 2 => mkW [(ep.base.toNat, 42), (ep.slotu.toNat, 33), (ep.depth.toNat, 27), (ep.pdepth.toNat, 21),
      (ep.rseq.toNat, 5)]
  | _ => mkW [(ep.raddr.toNat, 28), (ep.rgen.toNat, 12), (b2n ep.rv, 11), (b2n ep.ini, 10),
      (ep.bindAs.toNat, 8), (b2n ep.boundrx, 7), (ep.head.toNat, 1)]

/-- The endpoint of the issuing context bound under a stream name: 1 for g30, 2 for g31 (R220). -/
def State.aliasOf (s : State) (n : BitVec 2) : Option EpId :=
  (s.me.eps.find? fun e => e.2.bindAs == n && e.2.owner == s.cur.ctx).map fun e => BitVec.ofNat 6 e.1

/-! ### The pool's storage and the engines that hold it (R135, R172, R266, R267, R284) -/

/-- Banks of a partition (R172). -/
def regBanks (part : W) : Nat := wf part 44 6
def accBanks (part : W) : Nat := wf part 50 6

/-- Whether a pool range lies in scratchpad or accumulator storage (R135, R172). -/
def inPool (part : W) (o n : Nat) : Bool := decide (regBanks part * 65536 ≤ o ∧ o + n ≤ 0x300000)

/-- Whether a pool range lies in scratchpad banks alone. -/
def inScratch (part : W) (o n : Nat) : Bool :=
  decide (regBanks part * 65536 ≤ o ∧ o + n ≤ (48 - accBanks part) * 65536)

/-- The pool offset of tile t (R266). -/
def tileOff (part : W) (t : Nat) : Nat := (48 - accBanks part) * 65536 + 4096 * t

/-- Whether tile t exists (R266). -/
def tileExists (part : W) (t : Nat) : Bool := decide (t < 16 * accBanks part)

def overlaps (a n b m : Nat) : Bool := decide (a < b + m ∧ b < a + n)

/-- Whether an access to n bytes at pool offset o waits for a tile operation (R267) or for the Gaussian
engine (R284). -/
def Core.excluded (x : Core) (o n : Nat) (write : Bool) : Bool :=
  let tileHit := fun (t : TileOp) => overlaps o n (tileOff x.part t.tile.toNat) 4096
  let waits := fun (t : TileOp) => tileHit t && (match t.kind with | .drain _ => write | _ => true)
  (match x.mrun with | some r => waits r.op | none => false) || x.mqueue.any waits ||
  x.gqueue.any fun g => g.taken && overlaps o n (tileOff x.part g.tile.toNat) 2176

/-- Whether n bytes at key k touch the memory operand of an instruction that the Gaussian engine holds (R284). -/
def Core.gaussHolds (x : Core) (k n : Nat) : Bool :=
  x.gqueue.any fun g => g.taken && g.keys.any fun a => overlaps k n a 8

/-- Whether an access to n bytes at pool offset o of core c waits for the matrix or the Gaussian engine (R267, R284): every access
does, of a context, of an engine, of a port, or from outside. -/
def State.held (s : State) (c : CoreId) (o n : Nat) (write : Bool) : Bool :=
  n != 0 && ((s.core c).excluded o n write || (s.core c).gaussHolds (poolKey c o) n)

/-- The same, for the bytes at key k of that core's pool. -/
def State.heldAt (s : State) (c : CoreId) (k n : Nat) (write : Bool) : Bool := s.held c (k - poolKey c 0) n write

/-- An access of the issuing context to n bytes at key k of its own pool, once no engine holds them (R267, R284). -/
def State.unheld {α : Type} (s : State) (k n : Nat) (write : Bool) (r : Res α) : Res α :=
  if s.heldAt s.cur.core k n write then .block { kind := 5 } s else r

/-- Whether an engine holds a byte of an endpoint's slots (R267, R284). -/
def State.slotsHeld (s : State) (c : CoreId) (e : EpId) (write : Bool) : Bool :=
  let ep := s.epAt c e
  s.heldAt c (ep.slotKey c 0) (ep.slots * ep.slotu.toNat * 16) write

end Sys2Proof.Machine
end

