-- ==== Sys2Proof/Machine/Operands.lean ====
section
/-! DEFINITION. Operands: the register file with g0 and q0, the caps (R15), the stream aliases (R220),
immediates and offsets (R67), and the shapes that register instructions share. -/

namespace Sys2Proof.Machine

/-! ### Registers -/

/-- General register r of a context; g0 reads zero (R13). -/
def Ctx.rg (c : Ctx) (r : Reg) : W := if r = 0 then 0 else c.g[r.toNat]

/-- Writes a general register; writes to g0 are discarded (R13). -/
def Ctx.wg (c : Ctx) (r : Reg) (w : W) : Ctx := if r = 0 then c else { c with g := c.g.set r.toNat w }

/-- Vector register r; numbers above 15 exist on no core (R15, R68). -/
def Ctx.rv (c : Ctx) (r : Reg) : V := if h : r.toNat < 16 then c.v[r.toNat] else 0

def Ctx.wv (c : Ctx) (r : Reg) (x : V) : Ctx := if h : r.toNat < 16 then { c with v := c.v.set r.toNat x } else c

/-- Mask register; q0 reads all ones and discards writes (R13). -/
def Ctx.rq (c : Ctx) (r : BitVec 2) : W := if r = 0 then BitVec.allOnes 64 else c.q[r.toNat]

def Ctx.wq (c : Ctx) (r : BitVec 2) (w : W) : Ctx := if r = 0 then c else { c with q := c.q.set r.toNat w }

def Ctx.rp (c : Ctx) (r : BitVec 3) : Bool := c.p.getLsbD r.toNat

def Ctx.wp (c : Ctx) (r : BitVec 3) (b : Bool) : Ctx :=
  { c with p := if b then c.p ||| (1#8 <<< r.toNat) else c.p &&& ~~~(1#8 <<< r.toNat) }

def Ctx.rx (c : Ctx) (r : BitVec 3) : W := c.x[r.toNat]

/-- The general cap of a partition word (R15, Table 8.7). -/
def gcapOf (part : W) : Nat := match wf part 42 2 with | 0 => 16 | 1 => 24 | _ => 32

/-- The vector cap. -/
def vcapOf (part : W) : Nat := match wf part 40 2 with | 0 => 0 | 1 => 8 | _ => 16

def State.setV (s : State) (d : Reg) (x : V) : State := s.mapCtx fun c => c.wv d x

def State.setQ (s : State) (d : BitVec 2) (w : W) : State := s.mapCtx fun c => c.wq d w

def State.setP (s : State) (d : BitVec 3) (b : Bool) : State := s.mapCtx fun c => c.wp d b

/-- Writes the result of an instruction: a word sent where g31 is bound (R220), else register d. -/
def State.setG (s : State) (d : Reg) (w : W) : State :=
  match if d = 31 then s.aliasOf 2 else none with
  | some e => s.transmit s.cur.core e 1 0 (leBytes 8 w.toNat)
  | none => s.mapCtx fun c => c.wg d w

/-- Whether the name of a source is legal: below the cap, or g30 while bound; g31 while bound is no source
(R15, R220). -/
def State.srcOk (s : State) (r : Reg) : Bool :=
  if r = 31 && (s.aliasOf 2).isSome then false
  else decide (r.toNat < gcapOf s.me.part) || (r == 30 && (s.aliasOf 1).isSome)

/-- Whether the name of a destination is legal (R15, R220). -/
def State.dstOk (s : State) (r : Reg) : Bool :=
  if r = 30 && (s.aliasOf 1).isSome then false
  else decide (r.toNat < gcapOf s.me.part) || (r == 31 && (s.aliasOf 2).isSome)

def State.vecOk (s : State) (r : Reg) : Bool := decide (r.toNat < vcapOf s.me.part)

/-- The values of the sources in field order, a name of the bound g30 taking the next word of its
endpoint (R220); `n` words are taken already. -/
def State.sources (s : State) (e : Option EpId) : List Reg → Nat → List W
  | [], _ => []
  | r :: l, n =>
    match if r = 30 then e else none with
    | some e =>
      let ep := s.ep e
      s.rd8 (ep.slotKey s.cur.core (ep.slotOf n) + 16) :: s.sources (some e) l (n + 1)
    | none => s.ctx.rg r :: s.sources e l n

/-- Words of the receiver that an instruction with these sources takes. -/
def popCount (e : Option EpId) (src : List Reg) : Nat :=
  if e.isSome then (src.filter fun r => r == 30).length else 0

/-- Takes n words from a receiver (R207). -/
def State.pops (s : State) (e : EpId) : Nat → State
  | 0 => s
  | n + 1 => (s.freeSlot s.cur.core e).pops e n

/-- The names of an instruction's registers are legal (R15, R68, R220): what R74 checks first of its operands. -/
def State.legalNames (s : State) (src dst vec : List Reg) : Bool := src.all s.srcOk && dst.all s.dstOk && vec.all s.vecOk

/-- The operands of an instruction: the checks of caps and aliases (R15, R74, R220), the wait for the
aliases' words, for an engine that holds them (R267, R284), and for credit, then the values of the sources. Nothing is taken yet. -/
def State.operands (s : State) (src dst vec : List Reg) : Res (List W) :=
  if !s.legalNames src dst vec then .trap illOpnd
  else
    let rx := s.aliasOf 1
    let n := popCount rx src
    let tx := if dst.contains 31 then s.aliasOf 2 else none
    let engine := match rx with
      | some e => (List.range n).any fun i =>
          s.heldAt s.cur.core ((s.ep e).slotKey s.cur.core ((s.ep e).slotOf i)) 24 true
      | none => false
    let short := match rx with
      | some e => n != 0 && !(List.range n).all fun i =>
          let h := s.slotHeader s.cur.core e i
          hdrF h && decide (i < (s.ep e).slots)
      | none => false
    let wrong := match rx with
      | some e => n != 0 && !short && !(List.range n).all fun i =>
          let h := s.slotHeader s.cur.core e i
          hdrCls h == 1 && hdrTyp h == 0
      | none => false
    match engine, short, wrong, rx, tx with
    | true, _, _, some e, _ => .block { kind := 5, ep := e.toNat, alias_ := true } s
    | _, true, _, some e, _ =>
      if (s.ep e).st == .peerClosed then .trap (refuse e 0) else .block { kind := 1, ep := e.toNat, alias_ := true } s
    | _, _, true, some e, _ => .trap (refuse e 0)
    | _, _, _, _, some e =>
      if (s.ep e).st != .open then .trap (refuse e 0)
      else if (s.ep e).full then .block { kind := 2, ep := e.toNat, alias_ := true } s
      else .ok (s.sources rx src 0)
    | _, _, _, _, none => .ok (s.sources rx src 0)

/-- The words that the sources name through g30 are taken, as the instruction completes (R220). -/
def State.takeWords (s : State) (src : List Reg) : State :=
  match s.aliasOf 1 with
  | some e => s.pops e (popCount (some e) src)
  | none => s

/-- The operation of an instruction on its register operands: operands, then `k` on their values, then
the words of g30 are taken. A trap or a wait takes none (R220). -/
def State.withOperands (s : State) (src dst vec : List Reg) (k : List W → State → Res State) : Res State :=
  (s.operands src dst vec).bind fun l =>
    match k l s with
    | .ok t => .ok (t.takeWords src)
    | r => r

/-- The checks of R74 that come before those of the instruction's own entry: the names of its registers, then, in `pre`, its
consumed x values and its endpoints' owners; `k` is what comes after, deferred faults first (R152, R213). -/
def State.checked (s : State) (src dst vec : List Reg) (pre : Res Unit) (k : Out) : Out :=
  if !s.legalNames src dst vec then .next (s.trap illOpnd)
  else match pre with
    | .trap t => .next (s.trap t)
    | _ => k

/-- An instruction of `len` bytes that continues in sequence. -/
def State.issue (s : State) (len : Nat) (src dst vec : List Reg) (k : List W → State → Res State) : Out :=
  s.finish len (s.withOperands src dst vec k)

/-- An instruction that only some contexts may issue (`ok`): the check needs no operand, so it comes before any wait for one. -/
def State.issueIf (s : State) (ok : Bool) (len : Nat) (src dst vec : List Reg) (k : List W → State → Res State) : Out :=
  s.checked src dst vec (Res.check ok illOpnd) (s.issue len src dst vec k)

/-- An instruction that sets its context's PC or state itself. -/
def State.issueJump (s : State) (src dst vec : List Reg) (k : List W → State → Res State) : Out :=
  s.finishJump (s.withOperands src dst vec k)

/-- d := f a b. -/
def State.alu2 (s : State) (len : Nat) (d a b : Reg) (f : W → W → W) : Out :=
  s.issue len [a, b] [d] [] fun l t => .ok (t.setG d (f (nthD 0 l 0) (nthD 0 l 1)))

/-- d := f a. -/
def State.alu1 (s : State) (len : Nat) (d a : Reg) (f : W → W) : Out :=
  s.issue len [a] [d] [] fun l t => .ok (t.setG d (f (nthD 0 l 0)))

/-- pD := f a b. -/
def State.cmpP (s : State) (d : BitVec 3) (a b : Reg) (f : W → W → Bool) : Out :=
  s.issue 4 [a, b] [] [] fun l t => .ok (t.setP d (f (nthD 0 l 0) (nthD 0 l 1)))

/-! ### Immediates and offsets (R67) -/

/-- ImmI: a signed 12-bit immediate. -/
def immI (i : BitVec 12) : W := i.signExtend 64

/-- OffM: a signed 12-bit offset in units of the access size. -/
def offM (i : BitVec 12) (size : Nat) : W := i.signExtend 64 * BitVec.ofNat 64 size

/-- OffB: a signed halfword offset of a branch. -/
def offB (o : BitVec 12) : W := o.signExtend 64 * 2

/-- OffJ: a signed halfword offset of `jal`. -/
def offJ (o : BitVec 17) : W := o.signExtend 64 * 2

/-- CImm, and CUImm (Table 3.3). -/
def cImm (i : BitVec 6) : W := i.signExtend 64

def cOffJ (o : BitVec 11) : W := o.signExtend 64 * 2

end Sys2Proof.Machine
end

