-- ==== Sys2Proof/Machine/Integer.lean ====
section
/-! DEFINITION. Integer, bit-field and message-header instructions (R87 to R99) and their compact forms (R76,
R77). -/

namespace Sys2Proof.Machine

/-! ### Values -/

/-- SExt of the low 32 bits. -/
def sext32 (w : W) : W := (w.truncate 32 : BitVec 32).signExtend 64

/-- SatS at 64 bits (Table 2.6). -/
def satS64 (x : Int) : W := BitVec.ofInt 64 (if x < -2 ^ 63 then -2 ^ 63 else if x > 2 ^ 63 - 1 then 2 ^ 63 - 1 else x)

/-- SatU at 64 bits. -/
def satU64 (x : Int) : W := BitVec.ofInt 64 (if x < 0 then 0 else if x > 2 ^ 64 - 1 then 2 ^ 64 - 1 else x)

/-- A shift amount: b<5:0> (R94). -/
def amount (b : W) : Nat := wf b 0 6

def minS (a b : W) : W := if a.toInt ≤ b.toInt then a else b
def maxS (a b : W) : W := if a.toInt ≤ b.toInt then b else a
def minU (a b : W) : W := if a.toNat ≤ b.toNat then a else b
def maxU (a b : W) : W := if a.toNat ≤ b.toNat then b else a

/-- Quotients and remainders with the borderline cases of R92. -/
def divS (a b : W) : W := if b = 0 then BitVec.allOnes 64 else BitVec.ofInt 64 (a.toInt.tdiv b.toInt)
def divU (a b : W) : W := if b = 0 then BitVec.allOnes 64 else BitVec.ofNat 64 (a.toNat / b.toNat)
def remS (a b : W) : W := if b = 0 then a else BitVec.ofInt 64 (a.toInt.tmod b.toInt)
def remU (a b : W) : W := if b = 0 then a else BitVec.ofNat 64 (a.toNat % b.toNat)

/-- FieldLen (R95). -/
def fieldLen (off w : Nat) : Nat := if w = 0 ∨ off ≥ 64 then 0 else Nat.min w (64 - off)

/-- An unsigned extract. -/
def extractU (a : W) (off w : Nat) : W := BitVec.ofNat 64 (bits a.toNat off (fieldLen off w))

/-- A signed extract. -/
def extractS (a : W) (off w : Nat) : W :=
  let n := fieldLen off w
  if n = 0 then 0 else (BitVec.ofNat n (bits a.toNat off n)).signExtend 64

/-- An insert into d. -/
def insertF (d a : W) (off w : Nat) : W :=
  let n := fieldLen off w
  if n = 0 then d else setField d off n a.toNat

/-- Leading zeros, trailing zeros, ones. -/
def countLead (a : W) : W := BitVec.ofNat 64 (((List.range 64).find? fun i => a.getLsbD (63 - i)).getD 64)
def countTrail (a : W) : W := BitVec.ofNat 64 (lowestBit a 64)
def countOnes (a : W) : W := BitVec.ofNat 64 ((List.range 64).filter fun i => a.getLsbD i).length

/-- Bytes and bits in reverse. -/
def revBytes (a : W) : W := BitVec.ofNat 64 (leNat (leBytes 8 a.toNat).reverse)
def revBits (a : W) : W := a.reverse

/-- d := f d a b, where d is read as the third source. -/
def State.alu3 (s : State) (len : Nat) (d a b : Reg) (f : W → W → W → W) : Out :=
  s.issue len [a, b, d] [d] [] fun l t => .ok (t.setG d (f (nthD 0 l 2) (nthD 0 l 0) (nthD 0 l 1)))

/-- The issuing context forfeits n more turns (R49, R93, R111). -/
def State.forfeits (s : State) (n : Nat) : State := s.mapCtx fun c => { c with forfeit := c.forfeit + n }

/-- A division: four turns are forfeited (R93). -/
def State.divide (s : State) (d a b : Reg) (f : W → W → W) : Out :=
  s.issue 4 [a, b] [d] [] fun l t => .ok ((t.setG d (f (nthD 0 l 0) (nthD 0 l 1))).forfeits 4)

/-! ### OP (Table 4.1) -/

def execAdd (d a b : BitVec 5) (s : State) : Out := s.alu2 4 d a b fun a b => a + b
def execSub (d a b : BitVec 5) (s : State) : Out := s.alu2 4 d a b fun a b => a - b
def execAddw (d a b : BitVec 5) (s : State) : Out := s.alu2 4 d a b fun a b => sext32 (a + b)
def execSubw (d a b : BitVec 5) (s : State) : Out := s.alu2 4 d a b fun a b => sext32 (a - b)
def execAnd (d a b : BitVec 5) (s : State) : Out := s.alu2 4 d a b fun a b => a &&& b
def execOr (d a b : BitVec 5) (s : State) : Out := s.alu2 4 d a b fun a b => a ||| b
def execXor (d a b : BitVec 5) (s : State) : Out := s.alu2 4 d a b fun a b => a ^^^ b
def execAndn (d a b : BitVec 5) (s : State) : Out := s.alu2 4 d a b fun a b => a &&& ~~~b
def execOrn (d a b : BitVec 5) (s : State) : Out := s.alu2 4 d a b fun a b => a ||| ~~~b
def execXnor (d a b : BitVec 5) (s : State) : Out := s.alu2 4 d a b fun a b => ~~~(a ^^^ b)
def execSeq (d a b : BitVec 5) (s : State) : Out := s.alu2 4 d a b fun a b => b2w (a == b)
def execSne (d a b : BitVec 5) (s : State) : Out := s.alu2 4 d a b fun a b => b2w (a != b)
def execSlt (d a b : BitVec 5) (s : State) : Out := s.alu2 4 d a b fun a b => b2w (decide (a.toInt < b.toInt))
def execSltu (d a b : BitVec 5) (s : State) : Out := s.alu2 4 d a b fun a b => b2w (decide (a.toNat < b.toNat))
def execMin (d a b : BitVec 5) (s : State) : Out := s.alu2 4 d a b fun a b => minS a b
def execMax (d a b : BitVec 5) (s : State) : Out := s.alu2 4 d a b fun a b => maxS a b
def execMinu (d a b : BitVec 5) (s : State) : Out := s.alu2 4 d a b fun a b => minU a b
def execMaxu (d a b : BitVec 5) (s : State) : Out := s.alu2 4 d a b fun a b => maxU a b
def execAddss (d a b : BitVec 5) (s : State) : Out := s.alu2 4 d a b fun a b => satS64 (a.toInt + b.toInt)
def execSubss (d a b : BitVec 5) (s : State) : Out := s.alu2 4 d a b fun a b => satS64 (a.toInt - b.toInt)
def execAddus (d a b : BitVec 5) (s : State) : Out := s.alu2 4 d a b fun a b => satU64 (a.toNat + b.toNat : Int)
def execSubus (d a b : BitVec 5) (s : State) : Out := s.alu2 4 d a b fun a b => satU64 ((a.toNat : Int) - b.toNat)

def execSel (d a b : BitVec 5) (n : BitVec 3) (s : State) : Out :=
  s.alu2 4 d a b fun a b => if s.ctx.rp n then a else b

def execAddsl (d a b : BitVec 5) (n : BitVec 2) (s : State) : Out := s.alu2 4 d a b fun a b => a + (b <<< n.toNat)

/-! ### OPI (Table 4.2) -/

def execAddi (d a : BitVec 5) (i : BitVec 12) (s : State) : Out := s.alu1 4 d a fun a => a + immI i
def execAndi (d a : BitVec 5) (i : BitVec 12) (s : State) : Out := s.alu1 4 d a fun a => a &&& immI i
def execOri (d a : BitVec 5) (i : BitVec 12) (s : State) : Out := s.alu1 4 d a fun a => a ||| immI i
def execXori (d a : BitVec 5) (i : BitVec 12) (s : State) : Out := s.alu1 4 d a fun a => a ^^^ immI i
def execSlti (d a : BitVec 5) (i : BitVec 12) (s : State) : Out := s.alu1 4 d a fun a => b2w (decide (a.toInt < (immI i).toInt))
def execSltiu (d a : BitVec 5) (i : BitVec 12) (s : State) : Out := s.alu1 4 d a fun a => b2w (decide (a.toNat < (immI i).toNat))
def execAddhi (d a : BitVec 5) (i : BitVec 12) (s : State) : Out := s.alu1 4 d a fun a => a + (immI i <<< 12)

/-! ### MUL (Table 4.3, R92, R93) -/

def execMul (d a b : BitVec 5) (s : State) : Out := s.alu2 4 d a b fun a b => a * b
def execMulw (d a b : BitVec 5) (s : State) : Out := s.alu2 4 d a b fun a b => sext32 (a * b)
def execMulh (d a b : BitVec 5) (s : State) : Out := s.alu2 4 d a b fun a b => BitVec.ofInt 64 (a.toInt * b.toInt / 2 ^ 64)
def execMulhu (d a b : BitVec 5) (s : State) : Out := s.alu2 4 d a b fun a b => BitVec.ofNat 64 (a.toNat * b.toNat / 2 ^ 64)
def execMulhsu (d a b : BitVec 5) (s : State) : Out := s.alu2 4 d a b fun a b => BitVec.ofInt 64 (a.toInt * (b.toNat : Int) / 2 ^ 64)
def execDiv (d a b : BitVec 5) (s : State) : Out := s.divide d a b divS
def execDivu (d a b : BitVec 5) (s : State) : Out := s.divide d a b divU
def execRem (d a b : BitVec 5) (s : State) : Out := s.divide d a b remS
def execRemu (d a b : BitVec 5) (s : State) : Out := s.divide d a b remU

/-! ### BIT (Tables 4.4, 4.5) -/

def execSll (d a b : BitVec 5) (s : State) : Out := s.alu2 4 d a b fun a b => a <<< amount b
def execSrl (d a b : BitVec 5) (s : State) : Out := s.alu2 4 d a b fun a b => a >>> amount b
def execSra (d a b : BitVec 5) (s : State) : Out := s.alu2 4 d a b fun a b => a.sshiftRight (amount b)
def execRol (d a b : BitVec 5) (s : State) : Out := s.alu2 4 d a b fun a b => a.rotateLeft (amount b)
def execRor (d a b : BitVec 5) (s : State) : Out := s.alu2 4 d a b fun a b => a.rotateRight (amount b)
def execExtur (d a b : BitVec 5) (s : State) : Out := s.alu2 4 d a b fun a b => extractU a (wf b 0 32) (wf b 32 32)
def execExtsr (d a b : BitVec 5) (s : State) : Out := s.alu2 4 d a b fun a b => extractS a (wf b 0 32) (wf b 32 32)
def execInsr (d a b : BitVec 5) (s : State) : Out := s.alu3 4 d a b fun d a b => insertF d a (wf b 0 32) (wf b 32 32)
def execSlli (d a : BitVec 5) (n : BitVec 6) (s : State) : Out := s.alu1 4 d a fun a => a <<< n.toNat
def execSrli (d a : BitVec 5) (n : BitVec 6) (s : State) : Out := s.alu1 4 d a fun a => a >>> n.toNat
def execSrai (d a : BitVec 5) (n : BitVec 6) (s : State) : Out := s.alu1 4 d a fun a => a.sshiftRight n.toNat
def execRori (d a : BitVec 5) (n : BitVec 6) (s : State) : Out := s.alu1 4 d a fun a => a.rotateRight n.toNat
def execExtu (d a : BitVec 5) (w o : BitVec 6) (s : State) : Out := s.alu1 4 d a fun a => extractU a o.toNat w.toNat
def execExts (d a : BitVec 5) (w o : BitVec 6) (s : State) : Out := s.alu1 4 d a fun a => extractS a o.toNat w.toNat

def execIns (d a : BitVec 5) (w o : BitVec 6) (s : State) : Out :=
  s.issue 4 [a, d] [d] [] fun l t => .ok (t.setG d (insertF (nthD 0 l 1) (nthD 0 l 0) o.toNat w.toNat))

def execClz (d a : BitVec 5) (s : State) : Out := s.alu1 4 d a countLead
def execCtz (d a : BitVec 5) (s : State) : Out := s.alu1 4 d a countTrail
def execPopc (d a : BitVec 5) (s : State) : Out := s.alu1 4 d a countOnes
def execRev8 (d a : BitVec 5) (s : State) : Out := s.alu1 4 d a revBytes
def execBrev (d a : BitVec 5) (s : State) : Out := s.alu1 4 d a revBits

/-! ### Message headers (R96 to R99) -/

/-- Fields of a layout entry: offsets and widths in order (Table 4.6). -/
def layoutFields (e : W) : List (Nat × Nat) :=
  let ws := (List.range (wf e 56 3 + 1)).map fun i => wf e (6 * i) 6 + 1
  (ws.foldl (fun (r : List (Nat × Nat) × Nat) n => (r.1 ++ [(r.2, n)], r.2 + n)) ([], 0)).1

/-- Registers a to a + n - 1, when none is past g31 or at the general cap (R98). A range that reaches the cap traps although it
may end in a bound alias, which R15 exempts where it is named alone (DESIGN CHOICE, log 33). -/
def State.range (s : State) (a : Reg) (n : Nat) : Option (List Reg) :=
  if a.toNat + n ≤ gcapOf s.me.part then some ((List.range n).map fun i => a + BitVec.ofNat 5 i) else none

def execMsghPack (d a : BitVec 5) (lay : BitVec 4) (s : State) : Out :=
  let e := s.me.layouts[lay.toNat]
  let fs := layoutFields e
  match if wb e 63 then s.range a fs.length else none with
  | none => .next (s.trap illOpnd)
  | some rs => s.issue 4 rs [d] [] fun l t =>
      .ok (t.setG d ((fs.zip l).foldl (fun h p => setField h p.1.1 p.1.2 p.2.toNat) 0))

def execMsghUnpk (d a : BitVec 5) (lay : BitVec 4) (s : State) : Out :=
  let e := s.me.layouts[lay.toNat]
  let fs := layoutFields e
  match if wb e 63 then s.range d fs.length else none with
  | none => .next (s.trap illOpnd)
  | some rs => s.issue 4 [a] rs [] fun l t =>
      .ok ((rs.zip fs).foldl (fun t p => t.setG p.1 (BitVec.ofNat 64 (wf (nthD 0 l 0) p.2.1 p.2.2))) t)

/-- A layout entry as `msgh.load` stores it: reserved bits 0 (Table 4.6). -/
def layoutStore (v : W) : W := mkW [(wf v 63 1, 63), (wf v 56 3, 56), (wf v 0 48, 0)]

def execMsghLoad (a : BitVec 5) (lay : BitVec 4) (s : State) : Out :=
  s.issueIf (s.cur.ctx == 0) 4 [a] [] [] fun l t =>
    let v := nthD 0 l 0
    if wb v 63 && decide (((layoutFields v).map fun p => p.2).sum > 64) then .trap illOpnd
    else .ok (t.mapMe fun x => { x with layouts := x.layouts.set lay.toNat (layoutStore v) })

def execMsghRead (d : BitVec 5) (lay : BitVec 4) (s : State) : Out :=
  s.issue 4 [] [d] [] fun _ t => .ok (t.setG d t.me.layouts[lay.toNat])

/-! ### Compact forms (Table 3.7) -/

def execCAddi (d : BitVec 5) (i : BitVec 6) (s : State) : Out := s.alu1 2 d d fun a => a + cImm i
def execCLi (d : BitVec 5) (i : BitVec 6) (s : State) : Out := s.alu1 2 d 0 fun a => a + cImm i
def execCMv (d b : BitVec 5) (s : State) : Out := s.alu2 2 d 0 b fun a b => a ||| b
def execCAdd (d b : BitVec 5) (s : State) : Out := s.alu2 2 d d b fun a b => a + b
def execCSub (d b : BitVec 5) (s : State) : Out := s.alu2 2 d d b fun a b => a - b
def execCSlli (d : BitVec 5) (n : BitVec 6) (s : State) : Out := s.alu1 2 d d fun a => a <<< n.toNat
def execCAnd (d b : BitVec 5) (s : State) : Out := s.alu2 2 d d b fun a b => a &&& b
def execCOr (d b : BitVec 5) (s : State) : Out := s.alu2 2 d d b fun a b => a ||| b
def execCXor (d b : BitVec 5) (s : State) : Out := s.alu2 2 d d b fun a b => a ^^^ b
def execCSrai (d : BitVec 5) (n : BitVec 6) (s : State) : Out := s.alu1 2 d d fun a => a.sshiftRight n.toNat
def execCSrli (d : BitVec 5) (n : BitVec 6) (s : State) : Out := s.alu1 2 d d fun a => a >>> n.toNat
def execCAndi (d : BitVec 5) (i : BitVec 6) (s : State) : Out := s.alu1 2 d d fun a => a &&& cImm i
def execCNop (s : State) : Out := s.alu1 2 0 0 fun a => a

end Sys2Proof.Machine
end

