-- ==== Sys2Proof/Machine/Cipher.lean ====
section
/-! DEFINITION. The ciphers the manual names: AES-256-XTS for backing memory (R418) and AES-KW for wrapped keys
(Table 21.3). FIPS 197, IEEE 1619 and RFC 3394 define them (log 7). -/

namespace Sys2Proof.Machine

/-! ### AES-256 (FIPS 197) -/

/-- Multiplication by x in the field of AES. -/
def aesX (b : Byte) : Byte := (b <<< 1) ^^^ (if b.getLsbD 7 then 0x1B else 0)

/-- The product in the field of AES, from the highest bit of b down. -/
def aesMul (a b : Byte) : Byte :=
  (List.range 8).foldl (fun r i => aesX r ^^^ (if b.getLsbD (7 - i) then a else 0)) 0

/-- The inverse in the field, 0 for 0: the power 254. -/
def aesInv (a : Byte) : Byte := (List.range 6).foldl (fun r _ => aesMul (aesMul r r) a) a |> fun r => aesMul r r

def subByte (a : Byte) : Byte :=
  let b := aesInv a
  b ^^^ b.rotateLeft 1 ^^^ b.rotateLeft 2 ^^^ b.rotateLeft 3 ^^^ b.rotateLeft 4 ^^^ 0x63

def invSubByte (a : Byte) : Byte := aesInv (a.rotateLeft 1 ^^^ a.rotateLeft 3 ^^^ a.rotateLeft 6 ^^^ 0x05)

def xorBytes (a b : List Byte) : List Byte := List.zipWith (fun x y => x ^^^ y) a b

def byteAt (l : List Byte) (i : Nat) : Byte := l.getD i 0

/-- Four bytes of the key schedule. -/
def keyWord (l : List Byte) (i : Nat) : List Byte := (l.drop (4 * i)).take 4

/-- The key schedule of a 256-bit key, word by word, up to n words beyond the first eight. -/
def aesSchedule (key : List Byte) : Nat → List Byte
  | 0 => key
  | n + 1 =>
    let w := aesSchedule key n
    let i := n + 8
    let t := keyWord w (i - 1)
    let t := if i % 8 = 0 then
        xorBytes ((t.drop 1 ++ t.take 1).map subByte) [(List.range (i / 8 - 1)).foldl (fun r _ => aesX r) 1, 0, 0, 0]
      else if i % 8 = 4 then t.map subByte else t
    w ++ xorBytes (keyWord w (i - 8)) t

/-- Round key r of an expanded key. -/
def roundKey (w : List Byte) (r : Nat) : List Byte := (w.drop (16 * r)).take 16

/-- The rows of a block shifted by `k` columns per row. -/
def shiftRows (k : Nat) (l : List Byte) : List Byte :=
  (List.range 16).map fun i => byteAt l (i % 4 + 4 * ((i / 4 + k * (i % 4)) % 4))

/-- The columns of a block multiplied by the circulant matrix of four coefficients. -/
def mixColumns (m : List Byte) (l : List Byte) : List Byte :=
  (List.range 16).map fun i =>
    (List.range 4).foldl (fun r j => r ^^^ aesMul (byteAt l (i / 4 * 4 + j)) (byteAt m ((j + 4 - i % 4) % 4))) 0

/-- One block encrypted under an expanded key. -/
def aesEncBlock (w : List Byte) (b : List Byte) : List Byte :=
  let mid := (List.range 13).foldl (fun s r =>
    xorBytes (mixColumns [2, 3, 1, 1] (shiftRows 1 (s.map subByte))) (roundKey w (r + 1))) (xorBytes b (roundKey w 0))
  xorBytes (shiftRows 1 (mid.map subByte)) (roundKey w 14)

/-- One block decrypted under an expanded key. -/
def aesDecBlock (w : List Byte) (b : List Byte) : List Byte :=
  let mid := (List.range 13).foldl (fun s r =>
    mixColumns [14, 11, 13, 9] (xorBytes ((shiftRows 3 s).map invSubByte) (roundKey w (13 - r)))) (xorBytes b (roundKey w 14))
  xorBytes ((shiftRows 3 mid).map invSubByte) (roundKey w 0)

/-! ### AES-256-XTS (IEEE 1619) -/

/-- A number as n bytes, least significant first. -/
def bytesLE : Nat → Nat → List Byte
  | 0, _ => []
  | n + 1, v => BitVec.ofNat 8 v :: bytesLE n (v / 256)

def numLE : List Byte → Nat
  | [] => 0
  | b :: l => b.toNat + 256 * numLE l

/-- The tweak of the next block: multiplication by x in the field of 2^128 elements. -/
def xtsNext (t : Nat) : Nat := (2 * t % 2 ^ 128) ^^^ (if t ≥ 2 ^ 127 then 0x87 else 0)

/-- The four blocks of a 64-byte unit, each between two additions of its tweak. -/
def xtsBlocks (f : List Byte → List Byte) : Nat → Nat → List Byte → List Byte
  | 0, _, _ => []
  | n + 1, t, l =>
    let m := bytesLE 16 t
    xorBytes (f (xorBytes (l.take 16) m)) m ++ xtsBlocks f n (xtsNext t) (l.drop 16)

/-- The first tweak of data unit u under a key pair: u, zero-extended, least significant byte first (R418). -/
def xtsTweak (pair : List Byte) (u : Nat) : Nat := numLE (aesEncBlock (aesSchedule (pair.drop 32) 52) (bytesLE 16 u))

/-- Data unit u, 64 bytes, encrypted under a key pair (R418). -/
def xtsEnc (pair : List Byte) (u : Nat) (l : List Byte) : List Byte :=
  xtsBlocks (aesEncBlock (aesSchedule (pair.take 32) 52)) 4 (xtsTweak pair u) l

/-- Data unit u decrypted under a key pair (R418). -/
def xtsDec (pair : List Byte) (u : Nat) (l : List Byte) : List Byte :=
  xtsBlocks (aesDecBlock (aesSchedule (pair.take 32) 52)) 4 (xtsTweak pair u) l

/-! ### AES-KW (RFC 3394) -/

/-- The steps of unwrapping, last first: A, and the blocks R1 to Rn as n times 8 bytes. -/
def kwSteps (w : List Byte) (n : Nat) : Nat → List Byte × List Byte → List Byte × List Byte
  | 0, x => x
  | t + 1, (a, r) =>
    let i := t % n
    let a' := xorBytes a ((bytesLE 8 (t + 1)).reverse)
    let b := aesDecBlock w (a' ++ (r.drop (8 * i)).take 8)
    kwSteps w n t (b.take 8, r.take (8 * i) ++ b.drop 8 ++ r.drop (8 * i + 8))

/-- A 64-byte key pair unwrapped from 72 bytes: none when the check value is wrong. -/
def kwUnwrap (kek : List Byte) (c : List Byte) : Option (List Byte) :=
  let (a, r) := kwSteps (aesSchedule kek 52) 8 48 (c.take 8, c.drop 8)
  if c.length == 72 && a == List.replicate 8 0xA6 then some r else none

end Sys2Proof.Machine
end

