-- ==== Sys2Proof/Machine/Translate.lean ====
section
/-! DEFINITION. Address translation (R388 to R396), backing memory under its keys (R383, R387, R418) and local
accesses (R135 to R138). -/

namespace Sys2Proof.Machine

/-! ### Backing memory under keys -/

/-- The serving controller of a physical address, die : controller (Table 17.1). -/
def servingCtrl (pa : Nat) : BitVec 5 := BitVec.ofNat 5 (pa / 2 ^ 10 % 32)

/-- The key pair that a controller holds for a slot: none when the slot is invalid (R418, R419). -/
def State.keyAt (s : State) (m : BitVec 5) (slot : Nat) : Option (List Byte) :=
  s.ctrlKeys.find (m.toNat * 128 + slot)

/-- The 64-byte units that a range touches. -/
def unitsOf (pa n : Nat) : List Nat := (List.range ((pa % 64 + n + 63) / 64)).map fun i => pa / 64 + i

/-- The key pair that the serving controller of unit u holds for a slot (R418). -/
def State.unitKey (s : State) (slot u : Nat) : Option (List Byte) := s.keyAt (servingCtrl (u * 64)) slot

/-- The 64 bytes of a unit as they read under a key pair (R418): as written under the same pair; under another, what
that pair's decryption gives of the other's encryption. A unit that nothing has written reads alike under all (log 3). -/
def State.unitUnder (s : State) (key : List Byte) (u : Nat) : List Byte :=
  let plain := memReads s.mem (u * 64) 64
  match s.unitKeys.find u with
  | none => plain
  | some k => if k == key then plain else xtsDec key u (xtsEnc k u plain)

/-- n bytes of backing memory as read under a slot (R418): none where a unit's controller holds the slot invalid. -/
def State.readUnder (s : State) (slot pa n : Nat) : Option (List Byte) :=
  ((unitsOf pa n).mapM fun u => (s.unitKey slot u).map fun key => s.unitUnder key u).map fun l =>
    (l.flatten.drop (pa % 64)).take n

/-- A write under a slot (R418): each unit is decrypted under the slot, merged and encrypted again. None where a unit's
controller holds the slot invalid. -/
def State.writeUnder (s : State) (slot pa : Nat) (l : List Byte) : Option State :=
  if (unitsOf pa l.length).all fun u => (s.unitKey slot u).isSome then
    let merged := (unitsOf pa l.length).foldl (fun (t : State) u =>
      match t.unitKey slot u with
      | none => t
      | some key => { t.wr (u * 64) (t.unitUnder key u) with unitKeys := t.unitKeys.put u key }) s
    some (merged.wr pa l)
  else none

/-! ### At a controller (R387, R418) -/

/-- Corrected errors of n bytes are repaired and counted by their controller (R387). -/
def State.correctMem (s : State) (pa n : Nat) : State :=
  let hit := fun d => decide (d < pa + n ∧ pa < d + 8)
  let m := (servingCtrl pa).toNat
  let k := (s.weak.filter hit).length
  if k = 0 then s
  else { s with
    weak := s.weak.filter fun d => !hit d
    mecc := s.mecc.put m (BitVec.ofNat 64 (satAdd (s.mecc.look 0 m).toNat k 64)) }

/-- A read of backing memory within one granule: its bytes, or none for error status (R387, R418). -/
def State.ctrlRead (s : State) (key pa n : Nat) : Option (List Byte × State) :=
  if (s.badIn pa n).isSome then none else (s.readUnder key pa n).map fun l => (l, s.correctMem pa n)

/-- The dword that an access of backing memory fails at (Table 17.2): of a write, one in a unit that it does not write whole. -/
def State.ctrlBad (s : State) (pa n : Nat) (write : Bool) : Nat :=
  let read := if write then (unitsOf pa n).filterMap fun u =>
      if decide (pa ≤ u * 64 ∧ u * 64 + 64 ≤ pa + n) then none else s.badIn (u * 64) 64
    else (s.badIn pa n).toList
  read.headD (pa / 8 * 8)

/-- A write of backing memory: none for error status (R387, R418). A unit of 64 bytes that is not written whole
is read for the merge. -/
def State.ctrlWrite (s : State) (key pa : Nat) (l : List Byte) : Option State :=
  let part := (unitsOf pa l.length).filter fun u => !decide (pa ≤ u * 64 ∧ u * 64 + 64 ≤ pa + l.length)
  if part.any fun u => (s.badIn (u * 64) 64).isSome then none
  else (part.foldl (fun s u => s.correctMem (u * 64) 64) s).writeUnder key pa l

/-! ### The store queue (R340) -/

/-- The byte at a physical address in the store queue (R340): the youngest store's. -/
def Core.queued (x : Core) (pa : Nat) : Option Byte :=
  (x.storeq.reverse.find? fun q => decide (q.pa ≤ pa ∧ pa < q.pa + q.data.length)).bind fun q => q.data[pa - q.pa]?

/-- The bytes that the store queue forwards to a load of n bytes (R340): index and byte. -/
def Core.forwarded (x : Core) (pa n : Nat) : List (Nat × Byte) :=
  (List.range n).filterMap fun i => (x.queued (pa + i)).map fun b => (i, b)

/-- The same, each with the store it is of. -/
def Core.forwardedBy (x : Core) (pa n : Nat) : List (Nat × Byte × Origin) :=
  (List.range n).filterMap fun i =>
    (x.storeq.reverse.find? fun q => decide (q.pa ≤ pa + i ∧ pa + i < q.pa + q.data.length)).bind fun q =>
      q.data[pa + i - q.pa]?.map fun b => (i, b, q.org)

/-- Bytes from the home, those forwarded in their place. -/
def overlay (fwd : List (Nat × Byte)) (l : List Byte) : List Byte :=
  (List.range l.length).zip l |>.map fun p => ((fwd.find? fun f => f.1 == p.1).map fun f => f.2).getD p.2

/-! ### Page tables -/

/-- What a leaf maps an address to (R390): backing memory with its key, or a pool. -/
inductive Home where
  | backing (pa : Nat) (key : Nat)
  | pool (c : CoreId) (off : Nat)
  deriving DecidableEq, Repr

/-- The home of virtual address va in an entry whose page begins at `page`. -/
def TlbEnt.home (e : TlbEnt) (va : Nat) : Home :=
  let off := va - e.page * 4096
  if wf e.pte 61 2 = 1 then .pool (BitVec.ofNat 11 (wf e.pte 37 11)) (wf e.pte 12 10 * 4096 + off)
  else .backing (wf e.pte 12 28 * 4096 + off) (wf e.pte 54 7)

/-- The walk level of an entry, by its page size (Table 17.4). -/
def TlbEnt.level (e : TlbEnt) : Nat := if e.pages ≤ 16 then 0 else if e.pages ≤ 512 then 1 else 2

def TlbEnt.fmt (e : TlbEnt) : Nat := wf e.pte 50 4
def TlbEnt.geom (e : TlbEnt) : Nat := wf e.pte 49 1

/-- Whether an entry translates page `page` of an address space (R393): G entries match any ASID. -/
def TlbEnt.hits (e : TlbEnt) (asid : BitVec 8) (page : Nat) : Bool :=
  decide (e.page ≤ page ∧ page < e.page + e.pages) && (e.asid == asid || wb e.pte 5)

/-- How a table walk ends or goes on (R390, R391): the next table, a leaf, or a detail code of Table 17.6. -/
inductive WalkStep where
  | next (table : Nat)
  | leaf (pages : Nat)
  | bad (code : Nat)
  deriving DecidableEq, Repr

/-- Pages of 4 KiB that a leaf at a level maps (Table 17.4). -/
def leafPages (level : Nat) (c64 : Bool) : Nat :=
  match level with
  | 0 => if c64 then 16 else 1
  | 1 => 512
  | _ => 262144

/-- A leaf is malformed (R391). -/
def leafBad (level : Nat) (e : W) : Bool :=
  let kind := wf e 61 2
  let c64 := wb e 48
  let pages := leafPages level c64
  decide (level ≥ 3) || wf e 0 5 != 0 || wf e 9 2 != 0 || decide (kind ≥ 2) || (c64 && level != 0) ||
  (if kind = 0 then wf e 12 36 % pages != 0 || wf e 40 8 != 0
   else decide (level ≥ 1) || wf e 54 7 != 0 || wf e 22 15 != 0 || wf e 12 10 % pages != 0 ||
     decide (wf e 12 10 * 4096 + pages * 4096 > 0x300000)) ||
  (wb e 49 && (wf e 50 4 != 15 || pages == 1))

/-- One entry of a table at a level (R390, R391). -/
def walkEntry (level : Nat) (e : W) : WalkStep :=
  if !wb e 63 then .bad 1
  else if wb e 11 then (if leafBad level e then .bad 2 else .leaf (leafPages level (wb e 48)))
  else if level = 0 || wf e 48 15 != 0 || wf e 0 11 != 0 || wf e 40 8 != 0 then .bad 2
  else .next (wf e 12 28 * 4096)

/-- The physical address of the entry for a page in a table at a level (Table 17.4). -/
def entryAddr (level table page : Nat) : Nat :=
  table + 8 * (match level with
    | 3 => page / 2 ^ 27 % 8192
    | 2 => page / 2 ^ 18 % 512
    | 1 => page / 2 ^ 9 % 512
    | _ => page % 512)

/-- The entry at a table address, read under slot 0 (R418): none on an error. -/
def State.readEntry (s : State) (pa : Nat) : Option W :=
  if (s.badIn pa 8).isSome then none
  else (s.readUnder 0 pa 8).map fun l => BitVec.ofNat 64 (leNat l)

/-- The level-3 table that an xroot names (Table 17.3). -/
def rootTable (xroot : W) : Nat := wf xroot 16 32 * 65536

def rootAsid (xroot : W) : BitVec 8 := xroot.extractLsb' 56 8

/-- The failure that needs no walk: EN = 0, or an address beyond 52 bits (R388, R389). -/
def earlyFail (xroot : W) (va : W) : Option Nat :=
  if wf va 52 12 != 0 then some (3 * 256 + 2)
  else if !wb xroot 0 then some (3 * 256 + 1)
  else none

/-- The page of 4 KiB that holds an address. -/
def pageOf (va : W) : Nat := va.toNat / 4096

/-- The leaf of a page as the tables stand, from a table of a level on. -/
def State.leafFrom (s : State) (root : W) (page : Nat) : Nat → Nat → Option TlbEnt
  | 0, table => (s.readEntry (entryAddr 0 table page)).bind fun e => match walkEntry 0 e with
    | .leaf n => some ⟨rootAsid root, page / n * n, n, e⟩
    | _ => none
  | l + 1, table => (s.readEntry (entryAddr (l + 1) table page)).bind fun e => match walkEntry (l + 1) e with
    | .leaf n => some ⟨rootAsid root, page / n * n, n, e⟩
    | .next t => s.leafFrom root page l t
    | .bad _ => none

/-- The entry that translates an address for core c: held by the core, or as the tables stand. -/
def State.leafNow (s : State) (c : CoreId) (va : W) : Option TlbEnt :=
  let x := s.core c
  (x.tlb.find? fun e => e.hits (rootAsid x.xroot) (pageOf va)).orElse fun _ =>
    if (earlyFail x.xroot va).isSome then none else s.leafFrom x.xroot (pageOf va) 3 (rootTable x.xroot)

/-- A micro-TLB takes an entry; with 32 held, which one gives way is left open (R393). -/
def State.fillTlb (s : State) (c : CoreId) (e : TlbEnt) : State :=
  let x := s.core c
  if x.tlb.contains e then s
  else if x.tlb.length < 32 then s.setCore c { x with tlb := x.tlb ++ [e] }
  else
    let (w, s1) := s.fresh
    s1.mapCore c fun x => { x with tlb := x.tlb.eraseIdx (w.toNat % 32) ++ [e] }

/-- A floe cache takes an entry, as above with 512. -/
def State.fillFloe (s : State) (f : FloeId) (e : TlbEnt) : State :=
  let x := s.floe f
  if x.tcache.contains e then s
  else if x.tcache.length < 512 then s.setFloe f { x with tcache := x.tcache ++ [e] }
  else
    let (w, s1) := s.fresh
    s1.mapFloe f fun x => { x with tcache := x.tcache.eraseIdx (w.toNat % 512) ++ [e] }

/-- A walk of a page joins the one under way in its floe cache, or is added to it (R394). `join` makes the requester one of
those that wait on it. -/
def Floe.joinWalk (x : Floe) (root : W) (page : Nat) (join : Walk → Walk) : Floe :=
  let same := fun (w : Walk) => w.page == page && rootAsid w.root == rootAsid root
  { x with walks := if x.walks.any same then x.walks.map fun w => if same w then join w else w
      else x.walks ++ [join ⟨root, page, 3, rootTable root, [], [], false, false⟩] }

/-- A miss goes to the floe cache, and on a miss there joins or adds the walk of its page (R393, R394). -/
def State.requestWalk (s : State) (page : Nat) : State :=
  let root := s.me.xroot
  let fl := s.floe s.myFloe
  match fl.tcache.find? fun e => e.hits (rootAsid root) page with
  | some e => s.fillTlb s.cur.core e
  | none =>
    let me := (s.cur.core, s.cur.ctx)
    if fl.walks.any fun w => w.waiters.contains me then s
    else s.setFloe s.myFloe (fl.joinWalk root page fun w => { w with waiters := w.waiters ++ [me] })

/-- What an engine waits for that has missed: its core, the root it translates by, and the page (R393, R396). -/
structure Miss where
  core : CoreId
  root : W
  page : Nat
  deriving DecidableEq, Repr

/-- The engine's request goes to the floe's walks, once (R393, R394). -/
def State.requestMiss (s : State) (m : Miss) : State :=
  let f := floeOf m.core
  s.setFloe f ((s.floe f).joinWalk m.root m.page fun w =>
    if w.engines.contains m.core then w else { w with engines := w.engines ++ [m.core] })

/-- What an access of an engine answers: a value and the state; a wait, for an operation that holds the bytes (R267, R284) or for
the walk of a page (R393); or its failure. -/
inductive EngOf (ε α : Type) where
  | ok (a : α) (s : State)
  | held (m : Option Miss)
  | bad (f : ε) (s : State)

def EngOf.bind {ε α β : Type} (r : EngOf ε α) (f : α → State → EngOf ε β) : EngOf ε β :=
  match r with
  | .ok a s => f a s
  | .held m => .held m
  | .bad e s => .bad e s

/-- What a unit does while its access waits: a miss is requested (R393). -/
def State.waitFor (s : State) (m : Option Miss) : State := match m with | some m => s.requestMiss m | none => s

/-- An engine's work in order over a list. -/
def EngOf.all {ε α β : Type} (rd : State → α → EngOf ε β) : List α → State → EngOf ε (List β)
  | [], s => .ok [] s
  | a :: l, s => (rd s a).bind fun v t => (EngOf.all rd l t).bind fun vs t => .ok (v :: vs) t

/-- Translation by an engine of core c under a root (R309, R388, R393, R396): the core's own entries if the root is its own,
then the floe cache's; a walk's failure, once it has come back. -/
def State.engineXlate (s : State) (c : CoreId) (root va : W) : EngOf Nat TlbEnt :=
  let x := s.core c
  let page := pageOf va
  let hit := fun (e : TlbEnt) => e.hits (rootAsid root) page
  match earlyFail root va with
  | some d => .bad d s
  | none =>
    match x.engFails.find? fun f => f.1 == root && f.2.1 == page with
    | some f => .bad f.2.2 (s.setCore c { x with engFails := x.engFails.erase f })
    | none =>
      match if x.xroot == root then x.tlb.find? hit else none with
      | some e => .ok e s
      | none =>
        match (s.floe (floeOf c)).tcache.find? hit with
        | some e => .ok e (if x.xroot == root then s.fillTlb c e else s)
        | none => .held (some ⟨c, root, page⟩)

/-- Translation by the issuing context (R136 step 2): the entry, the trap of Table 17.6, or BLOCKED with kind
6 until the walk returns. -/
def State.xlate (s : State) (va : W) (cause : Nat) : Res TlbEnt :=
  let x := s.me
  match earlyFail x.xroot va with
  | some d => .trap { cause := cause, detail := d, addr := va }
  | none =>
    match s.ctx.walkFail.filter fun f => f.page == pageOf va with
    | some f => .trap { cause := cause, detail := f.detail, addr := va }
    | none =>
      match x.tlb.find? fun e => e.hits (rootAsid x.xroot) (pageOf va) with
      | some e => .ok e
      | none => .block { kind := 6, hold := true } (s.requestWalk (pageOf va))

/-! ### Local accesses -/

/-- What an access needs of its page (R392). -/
structure Need where
  r : Bool := false
  w : Bool := false
  x : Bool := false
  deriving DecidableEq, Repr

def Need.granted (n : Need) (pte : W) : Bool := (!n.r || wb pte 6) && (!n.w || wb pte 7) && (!n.x || wb pte 8)

/-- The address checks of a local access of n bytes at va by the issuing context (R136): alignment, translation, permission,
locality. Answers the memory key. -/
def State.reach (s : State) (va : W) (n align : Nat) (need : Need) : Res Nat :=
  if va.toNat % align != 0 then .trap { cause := cMISALIGN, addr := va }
  else (s.xlate va cXLATE).bind fun e =>
    if !need.granted e.pte then .trap { cause := cPROT, detail := e.level * 256 + 4, addr := va }
    else match e.home va.toNat with
      | .backing _ _ => .trap { cause := cNONLOCAL, addr := va }
      | .pool c o => if c == s.cur.core && inPool s.me.part o n then .ok (poolKey c o) else .trap { cause := cNONLOCAL, addr := va }

/-- What follows once every address of an instruction has passed: the wait for engines that hold the bytes (R267, R284), then
uncorrectable data (R137). -/
def State.pass (s : State) (va : W) (k n : Nat) (need : Need) : Res Nat :=
  if s.me.excluded (k - poolKey s.cur.core 0) n need.w || s.me.gaussHolds k n then .block { kind := 5 } s
  else match s.badIn k n with
    | some d =>
      if need.r || n % 8 != 0 then .trap { cause := cDATAERR, addr := va + BitVec.ofNat 64 d - BitVec.ofNat 64 k }
      else .ok k
    | none => .ok k

/-- A local access of n bytes at va by the issuing context (R136, R137, R267, R284). Answers the memory key. -/
def State.access (s : State) (va : W) (n align : Nat) (need : Need) : Res Nat :=
  (s.reach va n align need).bind fun k => s.pass va k n need

/-- The pieces of an access, each at its own address: all addresses are checked before any byte is read or written (R132,
R136). A piece is its address and length, `align` what addresses are a multiple of. Answers the keys. -/
def State.reachAll (s : State) (align : Nat) (need : Need) : List (W × Nat) → Res (List Nat)
  | [] => .ok []
  | (va, n) :: l => (s.reach va n align need).bind fun k => (s.reachAll align need l).bind fun ks => .ok (k :: ks)

/-- The rest of those accesses, in the same order. -/
def State.passAll (s : State) (need : Need) : List (W × Nat) → List Nat → Res Unit
  | (va, n) :: l, k :: ks => (s.pass va k n need).bind fun _ => s.passAll need l ks
  | _, _ => .ok ()

/-- A local access in pieces (R136, R137). Answers the keys. -/
def State.accessAll (s : State) (align : Nat) (need : Need) (l : List (W × Nat)) : Res (List Nat) :=
  (s.reachAll align need l).bind fun ks => (s.passAll need l ks).bind fun _ => .ok ks

/-- ECC_THRESHOLD (R184): a corrected error is counted, and the count's reaching the threshold posts an ECC event. -/
def Core.countEcc (x : Core) : Core :=
  let n' := satAdd (wf x.ecnt 0 32) 1 32
  let x1 := { x with ecnt := setField x.ecnt 0 32 n' }
  if n' = wf x.ecnt 32 32 && n' != 0 && n' != wf x.ecnt 0 32 then x1.post (eventWord 0 6 0 0 n') else x1

/-- Single-bit errors that an access corrects are repaired and counted (R137, R184). -/
def State.correct (s : State) (c : CoreId) (k n : Nat) : State :=
  let hit := fun d => decide (d < k + n ∧ k < d + 8)
  let m := (s.weak.filter hit).length
  if m = 0 then s
  else
    let s1 : State := { s with weak := s.weak.filter fun d => !hit d }
    (List.range m).foldl (fun s _ => s.mapCore c Core.countEcc) s1

/-- The value of a local load of n bytes at key k (R138), with corrected errors counted. -/
def State.loadAt (s : State) (k n : Nat) : Nat × State := (s.rd k n, s.correct s.cur.core k n)

/-- A local range of n bytes at va in pieces of 16. -/
def piecesOf (va : W) (n : Nat) : List (W × Nat) :=
  (List.range ((n + 15) / 16)).map fun i => (va + BitVec.ofNat 64 (16 * i), Nat.min 16 (n - 16 * i))

/-- A local range of n bytes, 16-byte aligned, all of whose bytes are checked first (R136, R227): the first failing check in
address order is reported. Answers the key of each piece of 16. -/
def State.localUnits (s : State) (va : W) (need : Need) (n : Nat) : Res (List Nat) := s.accessAll 16 need (piecesOf va n)

/-- Corrected errors of pieces read are counted (R137). -/
def State.correctUnits (s : State) (l : List Nat) : State := l.foldl (fun s k => s.correct s.cur.core k 16) s

/-- Bytes of units of 16, up to n. -/
def State.readUnits (s : State) (l : List Nat) (n : Nat) : List Byte := (l.flatMap fun k => memReads s.mem k 16).take n

/-- Bytes written over units of 16. -/
def State.writeUnits (s : State) : List Nat → List Byte → State
  | [], _ => s
  | k :: l, b => (s.wr k (b.take 16)).writeUnits l (b.drop 16)

end Sys2Proof.Machine
end

