-- ==== Sys2Proof/Machine/Fetch.lean ====
section
/-! DEFINITION. Instruction fetch: fetch buffers, the loop buffer, fills (R109, R180 to R183, R349). -/

namespace Sys2Proof.Machine

/-- The fetch-fault trap. INSN is 0, also where the first halfword is known and the second fails: the manual gives INSN only of
FETCHALIGN (DESIGN CHOICE, log 61). -/
def fetchFault (va : W) (detail : Nat) : Trap := { cause := cFETCHFAULT, detail := detail, addr := va, insn := some 0 }

/-- Whether the halfword held at address a, in the loop buffer or the context's fetch buffer, begins a 32-bit instruction. -/
def State.longAt (s : State) (a : Nat) : Bool :=
  ((s.me.lbuf ++ s.ctx.fbuf).find? fun e => e.1 == a).any fun e => e.2.toNat % 4 == 3

/-- Whether halfword address a lies in the body of loop level n of the context, if the level is active (R107): up to the last
instruction, and its second halfword if it has one. -/
def State.inLevel (s : State) (a : Nat) (n : Fin 3) : Bool :=
  let c := s.ctx
  let stop := c.le[n].toNat
  c.lc[n] != 0 && decide (c.lb[n].toNat ≤ a) && (decide (a ≤ stop) || (a == stop + 2 && s.longAt stop))

/-- Whether it lies in the body of an active loop level (R107). -/
def State.inBody (s : State) (a : Nat) : Bool := [0, 1, 2].any fun (n : Fin 3) => s.inLevel a n

/-- The halfword held for address a: in the loop buffer while in a loop body (R109, R181), or in the
context's fetch buffer (R180). -/
def State.heldHalf (s : State) (a : Nat) : Option (BitVec 16) :=
  match if s.inBody a then s.me.lbuf.find? fun e => e.1 == a else none with
  | some e => some e.2
  | none => (s.ctx.fbuf.find? fun e => e.1 == a).map fun e => e.2

/-- The halfwords of n 32-bit words from key k, addressed from a. -/
def State.halves (s : State) (k a n : Nat) : List (Nat × BitVec 16) :=
  (List.range (2 * n)).map fun i => (a + 2 * i, BitVec.ofNat 16 (s.rd (k + 2 * i) 2))

/-- A fetch buffer holds eight words, the newest first (R180). -/
def trimFbuf (l : List (Nat × BitVec 16)) : List (Nat × BitVec 16) := l.take 16

/-- Whether a word of the core's pool may be fetched now: no engine holds it (R267, R284) and it has no uncorrectable error. -/
def State.fetchable (s : State) (k : Nat) : Bool :=
  !s.me.excluded (k - poolKey s.cur.core 0) 4 false && !s.me.gaussHolds k 4 && (s.badIn k 4).isNone

/-- A fill from the core's own pool: the word needed, and a number of the words after it that is left
open (R180, log 10). A word already held stays as it was fetched (R182). Corrected errors are counted (R184). -/
def State.poolFill (s : State) (k a : Nat) : State :=
  let (w, s1) := s.fresh
  let more := (List.range (Nat.min (w.toNat % 8) ((4096 - a % 4096) / 4 - 1))).filter fun i => s1.fetchable (k + 4 + 4 * i)
  let ahead := more.flatMap fun i => s1.halves (k + 4 + 4 * i) (a + 4 + 4 * i) 1
  let read := fun (d : Nat) => (0 :: more.map (· + 1)).any fun i => decide (d < k + 4 * i + 4 ∧ k + 4 * i < d + 8)
  let s2 := s1.weak.foldl (fun (s : State) d => if read d then s.correct s.cur.core d 1 else s) s1
  s2.mapCtx fun c =>
    { c with fbuf := trimFbuf (s1.halves k a 1 ++ (ahead.filter fun e => !c.fbuf.any fun f => f.1 == e.1) ++ c.fbuf) }

/-- The halfword at address a as the context fetches it, with the state after the fetch. Code may lie anywhere
in the core's own pool, its register-file banks included (R180, log 14). -/
def State.fetchHalf (s : State) (va : W) : Res (BitVec 16 × State) :=
  let a := va.toNat
  match s.heldHalf a with
  | some h => .ok (h, s)
  | none =>
    let word : W := va - BitVec.ofNat 64 (a % 4)
    let fault := fun (d : Nat) => (.trap (fetchFault va d) : Res (BitVec 16 × State))
    if s.ctx.fill.isSome && (s.ctx.req.any fun r => r.ans == some .mismatch) then fault 0
    else match s.xlate va cFETCHFAULT with
    | .trap t => fault t.detail
    | .block w t => .block w t
    | .ok e =>
      if !wb e.pte 8 then fault (e.level * 256 + 4)
      else match e.home word.toNat with
        | .pool c o =>
          if !(c == s.cur.core && decide (o + 4 ≤ 48 * 2 ^ 16)) then fault 0
          else if s.me.excluded o 4 false || s.me.gaussHolds (poolKey c o) 4 then .block { kind := 5 } s
          else if (s.badIn (poolKey c o) 4).isSome then fault 0
          else
            let s1 := s.poolFill (poolKey c o) word.toNat
            .ok (BitVec.ofNat 16 (s.rd (poolKey c o + a % 4) 2), s1)
        | .backing pa key =>
          if s.ctx.fill == some (word.toNat, pa, key) then .block { kind := 5 } s
          else .block { kind := 5 } (s.mapCtx fun c => { c with fill := some (word.toNat, pa, key) })

/-- FETCH_FILL_COMPLETE (R180): the controller's reply to a fill, read as a MEMRD read is (R387); the core's store queue gives the
bytes that a load would take from it (R340, R349). On an error the fetch traps. -/
def State.fillReply (s : State) (co : CoreId) (k : CtxId) : State :=
  match (s.ctxAt co k).fill with
  | none => s
  | some (va, pa, key) =>
    let fwd := (s.core co).forwarded pa 4
    match (s.ctrlRead key pa 4).orElse fun _ => if fwd.length = 4 then some ([0, 0, 0, 0], s) else none with
    | none => s.mapCtxAt co k fun c => { c with req := some ⟨0, some .mismatch⟩ }
    | some (home, s1) =>
      let l := overlay fwd home
      let hs := [(va, BitVec.ofNat 16 (leNat (l.take 2))), (va + 2, BitVec.ofNat 16 (leNat (l.drop 2)))]
      s1.mapCtxAt co k fun c => { c with fill := none, fbuf := trimFbuf (hs ++ c.fbuf) }

/-! ### The loop buffer (R109, R181) -/

/-- The halfword at address a, to count instructions by: as the loop buffer holds it, else as memory stands, each page at its own
home. None where nothing is mapped. -/
def State.codeHalf (s : State) (a : Nat) : Option Nat :=
  match s.me.lbuf.find? fun e => e.1 == a with
  | some e => some e.2.toNat
  | none => (s.leafNow s.cur.core (BitVec.ofNat 64 a)).bind fun e => match e.home a with
    | .pool c o => some (s.rd (poolKey c o) 2)
    | .backing pa key => (s.readUnder key pa 2).map leNat

/-- How many instructions lie from a to the last at `stop`, up to the fuel (R109), a compact one counting as one. -/
def State.bodyCount (s : State) (stop : Nat) : Nat → Nat → Nat
  | 0, _ => 257
  | n + 1, a =>
    if a > stop then 0
    else match s.codeHalf a with
      | some h => 1 + s.bodyCount stop n (a + if h % 4 = 3 then 4 else 2)
      | none => 257

/-- Whether some active body that holds a has at most 256 instructions (R109). -/
def State.bodyFits (s : State) (a : Nat) : Bool :=
  let c := s.ctx
  [0, 1, 2].any fun (n : Fin 3) => s.inLevel a n && decide (s.bodyCount c.le[n].toNat 257 c.lb[n].toNat ≤ 256)

/-- Whether a halfword lies in a body that some context of the core still runs. -/
def Core.running (x : Core) (a : Nat) : Bool :=
  allCtx.any fun k =>
    let c := x.ctx k
    c.life != .free && [0, 1, 2].any fun (n : Fin 3) => c.lc[n] != 0 && decide (c.lb[n].toNat ≤ a ∧ a ≤ c.le[n].toNat + 2)

/-- The buffer's instructions, each with its halfwords. -/
def insnsOf : List (Nat × BitVec 16) → List (List (Nat × BitVec 16))
  | [] => []
  | [e] => [[e]]
  | e :: f :: l => if e.2.toNat % 4 = 3 && f.1 == e.1 + 2 then [e, f] :: insnsOf l else [e] :: insnsOf (f :: l)

/-- The buffer's first n instructions of those no context runs give way. -/
def dropIdle (x : Core) : Nat → List (List (Nat × BitVec 16)) → List (List (Nat × BitVec 16))
  | 0, l => l
  | _, [] => []
  | n + 1, i :: l => if i.any fun e => x.running e.1 then i :: dropIdle x (n + 1) l else dropIdle x n l

/-- The loop buffer takes an instruction, of one or two halfwords, of a body that fits (R109). With room for 256 instructions it lets
the oldest give way of those that no context runs: which do is left open (log 10), but a body that runs keeps the words of its
first pass. -/
def State.keepInsn (s : State) (a : Nat) (hs : List (BitVec 16)) : State :=
  if s.inBody a && !(s.me.lbuf.any fun e => e.1 == a) && s.bodyFits a then
    s.mapMe fun x =>
      let old := insnsOf x.lbuf
      { x with lbuf := (dropIdle x (old.length + 1 - 256) old).flatten ++ ((List.range hs.length).zip hs).map fun e => (a + 2 * e.1, e.2) }
  else s

/-- The instruction word at the PC, zero-extended when compact (R65, R73), with the state after the
fetch. -/
def State.fetch (s : State) : Res (BitVec 32 × State) :=
  let pc := s.ctx.pc
  (s.fetchHalf pc).bind fun (h0, s1) =>
    if h0.toNat % 4 = 3 then
      (s1.fetchHalf (pc + 2)).bind fun (h1, s2) =>
        .ok (h1 ++ h0, s2.keepInsn pc.toNat [h0, h1])
    else .ok (h0.zeroExtend 32, s1.keepInsn pc.toNat [h0])

/-- Length of the instruction at an address (Len, R67). A fault is that of the instruction that asks, at the
address read (R106, R149). -/
def State.lenAt (s : State) (va : W) : Res (Nat × State) :=
  match s.fetchHalf va with
  | .ok (h, t) => .ok (if h.toNat % 4 = 3 then 4 else 2, t)
  | .trap t => .trap { t with insn := none }
  | .block w t => .block w t

end Sys2Proof.Machine
end

