-- ==== Sys2Proof/Machine/LocalMem.lean ====
section
/-! DEFINITION. Local loads and stores, acquire and release, fences, frames, operand extensions (R135 to
R143). -/

namespace Sys2Proof.Machine

/-- A loaded value of n bytes, sign- or zero-extended (SExt, ZExt). -/
def extend (signed : Bool) (n v : Nat) : W :=
  if signed then (BitVec.ofNat (8 * n) v).signExtend 64 else BitVec.ofNat 64 v

/-- d := n bytes at ea (R139). -/
def State.loadG (s : State) (len : Nat) (d a : Reg) (off : W) (n : Nat) (signed : Bool) : Out :=
  s.issue len [a] [d] [] fun l t =>
    (t.access (nthD 0 l 0 + off) n n { r := true }).bind fun k =>
      let (v, t1) := t.loadAt k n
      .ok (t1.setG d (extend signed n v))

/-- n low bytes of d stored at ea (R139); the base is field a, the data field d. -/
def State.storeG (s : State) (len : Nat) (d a : Reg) (off : W) (n : Nat) : Out :=
  s.issue len [a, d] [] [] fun l t =>
    (t.access (nthD 0 l 0 + off) n n { w := true }).bind fun k =>
      .ok ((if n = 8 then t else t.correct t.cur.core k n).wrN k n (nthD 0 l 1).toNat)

def execLdB (d a : BitVec 5) (o : BitVec 12) (s : State) : Out := s.loadG 4 d a (offM o 1) 1 true
def execLdH (d a : BitVec 5) (o : BitVec 12) (s : State) : Out := s.loadG 4 d a (offM o 2) 2 true
def execLdW (d a : BitVec 5) (o : BitVec 12) (s : State) : Out := s.loadG 4 d a (offM o 4) 4 true
def execLdD (d a : BitVec 5) (o : BitVec 12) (s : State) : Out := s.loadG 4 d a (offM o 8) 8 false
def execLdBu (d a : BitVec 5) (o : BitVec 12) (s : State) : Out := s.loadG 4 d a (offM o 1) 1 false
def execLdHu (d a : BitVec 5) (o : BitVec 12) (s : State) : Out := s.loadG 4 d a (offM o 2) 2 false
def execLdWu (d a : BitVec 5) (o : BitVec 12) (s : State) : Out := s.loadG 4 d a (offM o 4) 4 false
def execStB (d a : BitVec 5) (o : BitVec 12) (s : State) : Out := s.storeG 4 d a (offM o 1) 1
def execStH (d a : BitVec 5) (o : BitVec 12) (s : State) : Out := s.storeG 4 d a (offM o 2) 2
def execStW (d a : BitVec 5) (o : BitVec 12) (s : State) : Out := s.storeG 4 d a (offM o 4) 4
def execStD (d a : BitVec 5) (o : BitVec 12) (s : State) : Out := s.storeG 4 d a (offM o 8) 8

/-- The compact loads and stores (Table 3.7): base g2, an unscaled unsigned field. -/
def execCLdD (d : BitVec 5) (u : BitVec 6) (s : State) : Out := s.loadG 2 d 2 (BitVec.ofNat 64 (u.toNat * 8)) 8 false
def execCLdW (d : BitVec 5) (u : BitVec 6) (s : State) : Out := s.loadG 2 d 2 (BitVec.ofNat 64 (u.toNat * 4)) 4 true
def execCStD (d : BitVec 5) (u : BitVec 6) (s : State) : Out := s.storeG 2 d 2 (BitVec.ofNat 64 (u.toNat * 8)) 8
def execCStW (d : BitVec 5) (u : BitVec 6) (s : State) : Out := s.storeG 2 d 2 (BitVec.ofNat 64 (u.toNat * 4)) 4

/-! ### Acquire, release, fence (R140, R141, R348) -/

/-- Whether accesses of the context that a fence covers are still to be performed towards parties within the
scope: none are for `.core`, where every access is performed at its issue (R141, R340, R348). -/
def State.unfenced (s : State) (scope : BitVec 3) : Bool :=
  scope != 0 && s.ctx.ops.any fun o => o.fence && !o.done

/-- LDA: a load; every later access follows it, as accesses follow the reads that block (R140, R339). -/
def execLda (d a : BitVec 5) (u : BitVec 1) (z : BitVec 2) (_s : BitVec 3) (s : State) : Out :=
  s.loadG 4 d a 0 (2 ^ z.toNat) (u == 0)

/-- STL: a store that waits for the earlier accesses it releases (R140, R169 kind 5). -/
def execStl (a b : BitVec 5) (z : BitVec 2) (sc : BitVec 3) (s : State) : Out :=
  s.issue 4 [a, b] [] [] fun l t =>
    let n := 2 ^ z.toNat
    (t.access (nthD 0 l 0) n n { w := true }).bind fun k =>
      if t.unfenced sc then .block { kind := 5 } t
      else .ok ((if n = 8 then t else t.correct t.cur.core k n).wrN k n (nthD 0 l 1).toNat)

/-- FENCE (R141): covers the faults of the accesses it waits for (R152). -/
def execFence (sc : BitVec 3) (s : State) : Out :=
  s.covering (fun d => sc != 0 && d.fence)
    (s.finish 4 (if s.unfenced sc then .block { kind := 5 } s else .ok s))

/-- IFENCE (R183): every fetch buffer of the core and the loop buffer are emptied. -/
def execIfence (s : State) : Out :=
  s.finish 4 (.ok (s.mapMe fun x =>
    { x with lbuf := [], ctxs := x.ctxs.map fun e => (e.1, { e.2 with fbuf := [], fill := none }) }))

/-! ### Frames (R142) -/

/-- ENTER. -/
def execEnter (d : BitVec 5) (n : BitVec 12) (s : State) : Out :=
  s.issue 4 [d] [] [] fun l t =>
    let g2 := t.ctx.rg 2
    let f : W := BitVec.ofNat 64 (16 * n.toNat)
    if wf g2 0 4 != 0 then .trap { cause := cMISALIGN, addr := g2 }
    else if g2.toNat < 16 * n.toNat || (g2 - f).toNat < t.ctx.slim.toNat then
      .trap { cause := cSTACKLIM, addr := g2 - f }
    else if d = 0 then .ok (t.mapCtx fun c => c.wg 2 (g2 - f))
    else if n = 0 then .trap illOpnd
    else (t.access (g2 - 8) 8 8 { w := true }).bind fun k =>
      .ok ((t.wr8 k (nthD 0 l 0)).mapCtx fun c => c.wg 2 (g2 - f))

/-- LEAVE: g2 is raised after the load has written its register, g2 itself included (R11). -/
def execLeave (d : BitVec 5) (n : BitVec 12) (s : State) : Out :=
  s.issue 4 [] [d] [] fun _ t =>
    let g2 := t.ctx.rg 2
    let f : W := BitVec.ofNat 64 (16 * n.toNat)
    if d = 0 then .ok (t.mapCtx fun c => c.wg 2 (g2 + f))
    else if n = 0 then .trap illOpnd
    else (t.access (g2 + f - 8) 8 8 { r := true }).bind fun k =>
      let (v, t1) := t.loadAt k 8
      .ok ((t1.setG d (BitVec.ofNat 64 v)).mapCtx fun c => c.wg 2 (c.rg 2 + f))

/-! ### Operand extensions (R143) -/

def State.setX (s : State) (x : BitVec 3) (w : W) : State := s.mapCtx fun c => { c with x := c.x.set x.toNat w }

def execXset (x : BitVec 3) (a : BitVec 5) (s : State) : Out :=
  s.issue 4 [a] [] [] fun l t => .ok (t.setX x (nthD 0 l 0))

def execXld (x : BitVec 3) (a : BitVec 5) (o : BitVec 12) (s : State) : Out :=
  s.issue 4 [a] [] [] fun l t =>
    (t.access (nthD 0 l 0 + offM o 8) 8 8 { r := true }).bind fun k =>
      let (v, t1) := t.loadAt k 8
      .ok (t1.setX x (BitVec.ofNat 64 v))

def execXget (d : BitVec 5) (x : BitVec 3) (s : State) : Out :=
  s.issue 4 [] [d] [] fun _ t => .ok (t.setG d (t.ctx.rx x))

end Sys2Proof.Machine
end

