-- ==== Sys2Proof/Machine/Numbers.lean ====
section
/-! DEFINITION. Number formats, rounding and exceptions, and the helpers of Table 2.6 (R33 to R35, R40 to R45, R51
to R56). -/

namespace Sys2Proof.Machine

/-! ### Formats (R33, R34) -/

/-- A floating-point format: exponent and fraction bits; E4M3 has no infinity. -/
structure Fmt where
  eb   : Nat
  fb   : Nat
  e4m3 : Bool := false
  deriving DecidableEq, Repr

def f64 : Fmt := ⟨11, 52, false⟩
def f32 : Fmt := ⟨8, 23, false⟩
def f16 : Fmt := ⟨5, 10, false⟩
def bf16 : Fmt := ⟨8, 7, false⟩
def e4m3 : Fmt := ⟨4, 3, true⟩
def e5m2 : Fmt := ⟨5, 2, false⟩

def Fmt.width (f : Fmt) : Nat := f.eb + f.fb + 1
def Fmt.bias (f : Fmt) : Nat := 2 ^ (f.eb - 1) - 1

/-- The exponent of the smallest normal. -/
def Fmt.emin (f : Fmt) : Int := 1 - f.bias

/-- The encoding of the largest finite value, without its sign. -/
def Fmt.largest (f : Fmt) : Nat := if f.e4m3 then 0x7E else (2 ^ f.eb - 1) * 2 ^ f.fb - 1

/-- The formats of the FP group and of lanes (R69): `.d`, `.s`, `.h`, `.bf`. -/
def fpFmt (n : Nat) : Fmt := match n with | 0 => f64 | 1 => f32 | 2 => f16 | _ => bf16

/-- A decoded value: a NaN with its sign, its fraction as the high bits of 52 and whether it signals; an
infinity; or (-1)^s * m * 2^e. -/
inductive Val where
  | nan (s : Bool) (frac : Nat) (sig : Bool)
  | inf (s : Bool)
  | fin (s : Bool) (m : Nat) (e : Int)
  deriving DecidableEq, Repr

def Val.isNan : Val → Bool
  | .nan _ _ _ => true
  | _ => false

def Val.isSig : Val → Bool
  | .nan _ _ g => g
  | _ => false

def Val.isZero : Val → Bool
  | .fin _ m _ => m == 0
  | _ => false

def Val.isInf : Val → Bool
  | .inf _ => true
  | _ => false

def Val.sign : Val → Bool
  | .nan s _ _ => s
  | .inf s => s
  | .fin s _ _ => s

/-- The value with its sign inverted; a NaN stays as it is (R117). -/
def Val.neg : Val → Val
  | .inf s => .inf !s
  | .fin s m e => .fin (!s) m e
  | v => v

/-- The value of an encoding (R33, R34). -/
def Fmt.decode (f : Fmt) (b : Nat) : Val :=
  let s := b.testBit (f.width - 1)
  let ex := bits b f.fb f.eb
  let fr := bits b 0 f.fb
  if ex = 2 ^ f.eb - 1 && f.e4m3 && fr = 7 then .nan s (fr * 2 ^ (52 - f.fb)) false
  else if ex = 2 ^ f.eb - 1 && !f.e4m3 then
    if fr = 0 then .inf s else .nan s (fr * 2 ^ (52 - f.fb)) (!fr.testBit (f.fb - 1))
  else if ex = 0 then .fin s fr (f.emin - f.fb)
  else .fin s (fr + 2 ^ f.fb) (ex - f.bias - f.fb)

/-- A subnormal encoding (R49). -/
def Fmt.isSub (f : Fmt) (b : Nat) : Bool := bits b f.fb f.eb == 0 && bits b 0 f.fb != 0

/-- A sign placed over an encoding. -/
def Fmt.signed (f : Fmt) (s : Bool) (v : Nat) : Nat := v + b2n s * 2 ^ (f.width - 1)

def Fmt.inf (f : Fmt) (s : Bool) : Nat := f.signed s (if f.e4m3 then 0x7F else (2 ^ f.eb - 1) * 2 ^ f.fb)

/-- The default NaN (R35). -/
def Fmt.dnan (f : Fmt) : Nat := if f.e4m3 then 0x7F else (2 ^ f.eb - 1) * 2 ^ f.fb + 2 ^ (f.fb - 1)

/-- A NaN in this format, quiet, with the payload bits that fit (R44, R51). -/
def Fmt.quiet (f : Fmt) (s : Bool) (frac : Nat) : Nat :=
  f.signed s (if f.e4m3 then 0x7F
    else (2 ^ f.eb - 1) * 2 ^ f.fb + ((frac / 2 ^ (52 - f.fb)) ||| 2 ^ (f.fb - 1)))

/-! ### Exceptions and results -/

/-- Exceptions in the order of `fst` (Table 1.2). -/
def xNV : BitVec 5 := 16
def xDZ : BitVec 5 := 8
def xOF : BitVec 5 := 4
def xUF : BitVec 5 := 2
def xNX : BitVec 5 := 1

/-- A result: its encoding, the exceptions raised, and whether it sends the instruction to the normaliser
(R49). -/
structure FRes where
  v    : Nat
  f    : BitVec 5 := 0
  slow : Bool := false
  deriving DecidableEq, Repr

/-- The effective rounding mode (R40). -/
def rmOf (fst : BitVec 13) (rm : Nat) : Nat := if rm = 7 then (fst.extractLsb' 5 3).toNat else rm

/-- Bits of a number: 0 for 0. -/
def bitLen (n : Nat) : Nat := if n = 0 then 0 else n.log2 + 1

/-- m / 2^d rounded to an integer by mode, and whether it was inexact (R40). -/
def roundShift (mode : Nat) (s : Bool) (m d : Nat) : Nat × Bool :=
  let q := m / 2 ^ d
  let r := m % 2 ^ d
  let up := match mode with
    | 0 => decide (2 * r > 2 ^ d) || (2 * r == 2 ^ d && q % 2 == 1)
    | 1 => false
    | 2 => !s && r != 0
    | 3 => s && r != 0
    | _ => r != 0 && decide (2 * r ≥ 2 ^ d)
  (if up then q + 1 else q, r != 0)

/-- m * 2^e in units of 2^q, rounded. -/
def roundAt (mode : Nat) (s : Bool) (m : Nat) (e q : Int) : Nat × Bool :=
  if e ≥ q then (m * 2 ^ (e - q).toNat, false) else roundShift mode s m (q - e).toNat

/-- The result of an overflow (Table 2.4, Table 2.5). -/
def Fmt.overflow (f : Fmt) (mode : Nat) (s sat : Bool) : Nat :=
  let big := sat || (match mode with | 1 => true | 2 => s | 3 => !s | _ => false)
  if big then f.signed s f.largest else f.inf s

/-- RoundTo (R41 to R43): (-1)^s * m * 2^e rounded once. -/
def Fmt.roundTo (f : Fmt) (mode : Nat) (s : Bool) (m : Nat) (e : Int) (sat : Bool := false) : FRes :=
  if m = 0 then ⟨f.signed s 0, 0, false⟩
  else
    let top : Int := bitLen m - 1 + e
    let qmin := f.emin - f.fb
    let q := if top - f.fb > qmin then top - f.fb else qmin
    let (n, inexact) := roundAt mode s m e q
    let enc := (q - qmin).toNat * 2 ^ f.fb + n
    if enc > f.largest then ⟨f.overflow mode s sat, xOF ||| xNX, false⟩
    else
      let tiny := decide (top < f.emin) &&
        !(top == f.emin - 1 && (roundAt mode s m e (top - f.fb)).1 == 2 ^ (f.fb + 1))
      ⟨f.signed s enc, (if inexact then xNX else 0) ||| (if tiny && inexact then xUF else 0), decide (top < f.emin)⟩

/-! ### Arithmetic (R43 to R45) -/

/-- NV if some operand signals. -/
def sigFlag (l : List Val) : BitVec 5 := if l.any Val.isSig then xNV else 0

/-- The first NaN in operand order, made quiet (R44). -/
def Fmt.propagate (f : Fmt) (l : List Val) : Option FRes :=
  match l.find? Val.isNan with
  | some (.nan s fr _) => some ⟨f.quiet s fr, sigFlag l, false⟩
  | _ => none

/-- An exact sum: sign, magnitude and exponent; the sign of an exact zero is R43's. -/
def exactSum (mode : Nat) (l : List (Bool × Nat × Int)) : Bool × Nat × Int :=
  let e := (l.map fun t => t.2.2).foldl (fun a b => if b < a then b else a) 100000
  let v : Int := (l.map fun t =>
    let x : Int := (t.2.1 * 2 ^ (t.2.2 - e).toNat : Nat)
    if t.1 then -x else x).sum
  if v = 0 then
    (if l.all fun t => t.1 then !l.isEmpty else if l.all fun t => !t.1 then false else mode == 3, 0, 0)
  else (decide (v < 0), v.natAbs, e)

/-- The exact product of two finite values. -/
def mulFin : Val → Val → Option (Bool × Nat × Int)
  | .fin s m e, .fin t n g => some (s != t, m * n, e + g)
  | _, _ => none

def addFin : Val → Option (Bool × Nat × Int)
  | .fin s m e => some (s, m, e)
  | _ => none

/-- A product that is infinite, with its sign. -/
def mulInf (a b : Val) : Option Bool :=
  if (a.isInf && !b.isNan && !b.isZero) || (b.isInf && !a.isNan && !a.isZero) then some (a.sign != b.sign) else none

def addInf : Val → Option Bool
  | .inf s => some s
  | _ => none

/-- One operation that rounds once: the sum of products and addends, with the NaN rule over `ops` in order (R44,
R45). A product 0 * inf raises NV also where a NaN is propagated. -/
def Fmt.fused (f : Fmt) (mode : Nat) (ops : List Val) (prods : List (Val × Val)) (adds : List Val) : FRes :=
  let bad := prods.any fun p => (p.1.isZero && p.2.isInf) || (p.1.isInf && p.2.isZero)
  match f.propagate ops with
  | some r => { r with f := r.f ||| if bad then xNV else 0 }
  | none =>
    let infs := prods.filterMap (fun p => mulInf p.1 p.2) ++ adds.filterMap addInf
    if bad || (infs.contains true && infs.contains false) then ⟨f.dnan, xNV, false⟩
    else match infs with
      | s :: _ => ⟨f.inf s, 0, false⟩
      | [] =>
        let (s, m, e) := exactSum mode (prods.filterMap (fun p => mulFin p.1 p.2) ++ adds.filterMap addFin)
        f.roundTo mode s m e

/-- FAdd, and the subtraction of R112. -/
def Fmt.add (f : Fmt) (mode a b : Nat) : FRes :=
  let x := f.decode a
  let y := f.decode b
  f.fused mode [x, y] [] [x, y]

def Fmt.sub (f : Fmt) (mode a b : Nat) : FRes :=
  let x := f.decode a
  let y := f.decode b
  f.fused mode [x, y] [] [x, y.neg]

/-- FMul. -/
def Fmt.mul (f : Fmt) (mode a b : Nat) : FRes :=
  let x := f.decode a
  let y := f.decode b
  f.fused mode [x, y] [(x, y)] []

/-- FFma, with the product and the addend negated on demand (R117). -/
def Fmt.fma (f : Fmt) (mode : Nat) (np nc : Bool) (a b c : Nat) : FRes :=
  let x := f.decode a
  let y := f.decode b
  let z := f.decode c
  f.fused mode [x, y, z] [(if np then x.neg else x, y)] [if nc then z.neg else z]

/-- A quotient of finite values, with a sticky bit below it. -/
def quotient (p m n : Nat) (e : Int) : Nat × Int :=
  let k := p + bitLen n - bitLen m
  let q := m * 2 ^ k / n
  (2 * q + (if m * 2 ^ k % n = 0 then 0 else 1), e - k - 1)

/-- Division (R44, R45). -/
def Fmt.div (f : Fmt) (mode a b : Nat) : FRes :=
  let x := f.decode a
  let y := f.decode b
  match f.propagate [x, y] with
  | some r => r
  | none =>
    let s := x.sign != y.sign
    match x, y with
    | .inf _, .inf _ => ⟨f.dnan, xNV, false⟩
    | .inf _, _ => ⟨f.inf s, 0, false⟩
    | _, .inf _ => ⟨f.signed s 0, 0, false⟩
    | .fin _ m e, .fin _ n g =>
      if n = 0 then (if m = 0 then ⟨f.dnan, xNV, false⟩ else ⟨f.inf s, xDZ, false⟩)
      else if m = 0 then ⟨f.signed s 0, 0, false⟩
      else
        let (q, h) := quotient (f.fb + 4) m n (e - g)
        f.roundTo mode s q h
    | _, _ => ⟨f.dnan, 0, false⟩

/-- The integer square root of a number below 2^128. -/
def isqrt (n : Nat) : Nat :=
  ((List.range 64).map fun i => 63 - i).foldl (fun r i => if (r + 2 ^ i) * (r + 2 ^ i) ≤ n then r + 2 ^ i else r) 0

/-- Square root (R45, R112). -/
def Fmt.sqrt (f : Fmt) (mode a : Nat) : FRes :=
  let x := f.decode a
  match f.propagate [x] with
  | some r => r
  | none =>
    match x with
    | .inf false => ⟨a, 0, false⟩
    | .fin s m e =>
      if m = 0 then ⟨a, 0, false⟩
      else if s then ⟨f.dnan, xNV, false⟩
      else
        -- scaled to at least 2^(2(fb+3)), with an even exponent
        let up := 2 * (f.fb + 4) - bitLen m
        let k := if (e - up) % 2 = 0 then up else up + 1
        let n := m * 2 ^ k
        let r := isqrt n
        f.roundTo mode false (2 * r + (if r * r = n then 0 else 1)) ((e - k) / 2 - 1)
    | _ => ⟨f.dnan, xNV, false⟩

/-! ### Comparison (R113 to R116) -/

/-- -1, 0 or 1, as a is below, equal to or above b; zeros are equal. Neither is a NaN. -/
def cmpVal (a b : Val) : Int :=
  let key := fun (v : Val) (e : Int) => (match v with
    | .fin s m g => if s then -((m * 2 ^ (g - e).toNat : Nat) : Int) else ((m * 2 ^ (g - e).toNat : Nat) : Int)
    | _ => 0)
  match a, b with
  | .inf s, .inf t => if s == t then 0 else if s then -1 else 1
  | .inf s, _ => if s then -1 else 1
  | _, .inf t => if t then 1 else -1
  | .fin _ _ g, .fin _ _ h =>
    let e := if g < h then g else h
    let x := key a e
    let y := key b e
    if x < y then -1 else if x = y then 0 else 1
  | _, _ => 0

/-- Minimum and maximum (R113). -/
def Fmt.minmax (f : Fmt) (isMax prop : Bool) (a b : Nat) : FRes :=
  let x := f.decode a
  let y := f.decode b
  let nv := sigFlag [x, y]
  if x.isNan && y.isNan || (prop && (x.isNan || y.isNan)) then (f.propagate [x, y]).getD ⟨f.dnan, 0, false⟩
  else if x.isNan then ⟨b, nv, false⟩
  else if y.isNan then ⟨a, nv, false⟩
  else
    let c := cmpVal x y
    let aLess := c < 0 || (c = 0 && x.sign)
    ⟨if aLess != isMax then a else b, 0, false⟩

/-- feq, flt, fle, funord by number (R114): the truth value and the exceptions. -/
def Fmt.compare (f : Fmt) (op a b : Nat) : Bool × BitVec 5 :=
  let x := f.decode a
  let y := f.decode b
  let un := x.isNan || y.isNan
  let c := cmpVal x y
  let quietOp := op = 0 || op = 3
  let fl := if un && !quietOp then xNV else sigFlag [x, y]
  (match op with
   | 0 => !un && c == 0
   | 1 => !un && decide (c < 0)
   | 2 => !un && decide (c ≤ 0)
   | _ => un, fl)

/-- Classification (Table 5.2). -/
def Fmt.classify (f : Fmt) (a : Nat) : Nat :=
  let sub := f.isSub a
  2 ^ (match f.decode a with
    | .inf true => 0
    | .inf false => 7
    | .nan _ _ true => 8
    | .nan _ _ false => 9
    | .fin s m _ => if m = 0 then (if s then 3 else 4) else if sub then (if s then 2 else 5) else (if s then 1 else 6))

/-- fsgnj, fsgnjn, fsgnjx by number (R116). -/
def Fmt.signInject (f : Fmt) (op a b : Nat) : Nat :=
  let sa := a.testBit (f.width - 1)
  let sb := b.testBit (f.width - 1)
  f.signed (match op with | 0 => sb | 1 => !sb | _ => sa != sb) (bits a 0 (f.width - 1))

/-! ### Conversions (R51 to R53, R118 to R121) -/

/-- The format of a floating element code (Table 2.3). -/
def codeFmt (c : Nat) : Fmt :=
  match c with | 1 => f64 | 2 => f32 | 3 => f16 | 4 => bf16 | 5 => e4m3 | _ => e5m2

def codeIsFloat (c : Nat) : Bool := decide (1 ≤ c ∧ c ≤ 6)

/-- Width and signedness of an integer element code; bit-plane elements are int8. -/
def codeInt (c : Nat) : Nat × Bool :=
  match c with
  | 0x7 => (8, true)
  | 0x8 => (8, false)
  | 0x9 => (16, true)
  | 0xA => (16, false)
  | 0xB => (32, true)
  | 0xC => (32, false)
  | 0xD => (64, true)
  | 0xE => (64, false)
  | _ => (8, true)

/-- The integer that n bits hold. -/
def intOf (n : Nat) (signed : Bool) (b : Nat) : Int :=
  let v := b % 2 ^ n
  if signed && v ≥ 2 ^ (n - 1) then (v : Int) - 2 ^ n else v

/-- The two's complement of an integer in n bits. -/
def bitsOf (n : Nat) (x : Int) : Nat := (x % 2 ^ n).toNat

/-- SatS or SatU (Table 2.6). -/
def clampInt (n : Nat) (signed : Bool) (x : Int) : Int :=
  let lo : Int := if signed then -2 ^ (n - 1) else 0
  let hi : Int := if signed then 2 ^ (n - 1) - 1 else 2 ^ n - 1
  if x < lo then lo else if x > hi then hi else x

/-- An exact value from an integer. -/
def Val.ofInt (x : Int) : Val := .fin (decide (x < 0)) x.natAbs 0

/-- FCvt into a floating format (R51, R53, Table 2.5): the saturation choice belongs to the FP8 formats alone. -/
def Fmt.convert (f : Fmt) (mode : Nat) (sat : Bool) (x : Val) : FRes :=
  match x with
  | .nan s fr g => ⟨f.quiet s fr, if g then xNV else 0, false⟩
  | .inf s => if f.e4m3 then ⟨if sat then f.signed s f.largest else f.inf s, xNV, false⟩ else ⟨f.inf s, 0, false⟩
  | .fin s m e => f.roundTo mode s m e (sat && f.width == 8)

/-- ToInt (R52). -/
def toInt (n : Nat) (signed : Bool) (mode : Nat) (x : Val) : Int × BitVec 5 :=
  let hi : Int := if signed then 2 ^ (n - 1) - 1 else 2 ^ n - 1
  let lo : Int := if signed then -2 ^ (n - 1) else 0
  match x with
  | .nan _ _ _ => (hi, xNV)
  | .inf s => (if s then lo else hi, xNV)
  | .fin s m e =>
    let (q, inexact) := roundAt mode s m e 0
    let v : Int := if s then -q else q
    if v > hi then (hi, xNV) else if v < lo then (lo, xNV) else (v, if inexact then xNX else 0)

/-- Rounding to an integral value in the same format (R121). -/
def Fmt.roundInt (f : Fmt) (mode a : Nat) : FRes :=
  match f.decode a with
  | .nan s fr g => ⟨f.quiet s fr, if g then xNV else 0, false⟩
  | .inf _ => ⟨a, 0, false⟩
  | .fin s m e =>
    let (q, inexact) := roundAt mode s m e 0
    if e ≥ 0 then ⟨a, 0, false⟩ else ⟨(f.roundTo 0 s q 0).v, if inexact then xNX else 0, false⟩

/-- The value of an element of a code: floating or integer. -/
def codeVal (c b : Nat) : Val :=
  if codeIsFloat c then (codeFmt c).decode b
  else let (n, sg) := codeInt c
    .ofInt (intOf n sg b)

/-- An element converted into another code (R51 to R53), as engines convert. -/
def codeConvert (mode : Nat) (sat : Bool) (x : Val) (dst : Nat) : Nat × BitVec 5 :=
  if codeIsFloat dst then
    let r := (codeFmt dst).convert mode sat x
    (r.v, r.f)
  else
    let (n, sg) := codeInt dst
    let (v, fl) := toInt n sg mode x
    (bitsOf n v, fl)

/-! ### Pairwise trees (R55, R56) -/

/-- One operation of a tree, with the lowest present lane among its terms. -/
structure TreeOp where
  lane : Nat
  f    : BitVec 5
  deriving DecidableEq, Repr

/-- A term of a tree: its lane and value, when present. -/
abbrev Leaf := Option (Nat × Nat)

/-- One level: pairs combined, single terms passed up. -/
def treeLevel (op : Nat → Nat → FRes) : List Leaf → List Leaf × List TreeOp × Bool
  | [] => ([], [], false)
  | [x] => ([x], [], false)
  | x :: y :: l =>
    let (r, ops, slow) := treeLevel op l
    match x, y with
    | some (i, a), some (_, b) =>
      let v := op a b
      (some (i, v.v) :: r, ⟨i, v.f⟩ :: ops, v.slow || slow)
    | some t, none => (some t :: r, ops, slow)
    | none, u => (u :: r, ops, slow)

/-- The whole tree: the result, the operations level by level, and whether the normaliser served one: the exact result of any
operation of the tree counts, where R49 speaks of that of an active lane (DESIGN CHOICE, log 65). -/
def treeRun (op : Nat → Nat → FRes) : Nat → List Leaf → Option Nat × List TreeOp × Bool
  | 0, l => (match l with | some (_, v) :: _ => some v | _ => none, [], false)
  | n + 1, l =>
    if l.length ≤ 1 then (match l with | some (_, v) :: _ => some v | _ => none, [], false)
    else
      let (l1, ops, slow) := treeLevel op l
      let (r, ops1, slow1) := treeRun op n l1
      (r, ops ++ ops1, slow || slow1)

/-- PairwiseSum (R55), or the same tree over another operation: +0 when nothing is present. -/
def tree (op : Nat → Nat → FRes) (l : List Leaf) : Nat × List TreeOp × Bool :=
  let (r, ops, slow) := treeRun op 16 l
  (r.getD 0, ops, slow)

/-- The union of exceptions. -/
def orAll (l : List (BitVec 5)) : BitVec 5 := l.foldl (fun a b => a ||| b) 0

end Sys2Proof.Machine
end

