-- ==== Sys2Proof/Machine/Atomic.lean ====
section
/-! DEFINITION. Port operations, local atomics and NWAIT (R173 to R175). -/

namespace Sys2Proof.Machine

/-- Bytes of a port operation, by the codes of Table 10.9. -/
def portSize (op : Nat) : Nat := if op = 2 then 4 else 8

/-- The new value of a port operation and the exceptions it raises (R173, Tables 8.11 and 10.9). -/
def portNew (op : Nat) (old b cmp : W) : W × BitVec 5 :=
  match op with
  | 0 => (old + b, 0)
  | 1 => let r := f64.add 0 old.toNat b.toNat
         (BitVec.ofNat 64 r.v, r.f)
  | 2 => let r := f32.add 0 (old.toNat % 2 ^ 32) (b.toNat % 2 ^ 32)
         (BitVec.ofNat 64 r.v, r.f)
  | 3 => (minS old b, 0)
  | 4 => (maxS old b, 0)
  | 5 => (minU old b, 0)
  | 6 => (maxU old b, 0)
  | 7 => (b, 0)
  | 8 => (if old = cmp then b else old, 0)
  | 9 => (old &&& b, 0)
  | 10 => (old ||| b, 0)
  | _ => (old ^^^ b, 0)

/-- A local atomic (R174). With release it waits for the earlier accesses it releases. -/
def State.amo (s : State) (d a b : Reg) (sc : BitVec 3) (o : BitVec 2) (op : Nat) (readsD : Bool) : Out :=
  s.issue 4 (if readsD then [a, b, d] else [a, b]) [d] [] fun l t =>
    let n := portSize op
    (t.access (nthD 0 l 0) n n { r := true, w := true }).bind fun k =>
      if o.toNat ≥ 2 && t.unfenced sc then .block { kind := 5 } t
      else
        let (v, t1) := t.loadAt k n
        let old : W := BitVec.ofNat 64 v
        let (new, f) := portNew op old (nthD 0 l 1) (nthD 0 l 2)
        .ok (((t1.wrN k n new.toNat).setG d old).orFlags t.cur.core t.cur.ctx f)

def execAmoadd (d a b : BitVec 5) (sc : BitVec 3) (o : BitVec 2) (s : State) : Out := s.amo d a b sc o 0 false
def execAmofaddD (d a b : BitVec 5) (sc : BitVec 3) (o : BitVec 2) (s : State) : Out := s.amo d a b sc o 1 false
def execAmofaddS (d a b : BitVec 5) (sc : BitVec 3) (o : BitVec 2) (s : State) : Out := s.amo d a b sc o 2 false
def execAmomin (d a b : BitVec 5) (sc : BitVec 3) (o : BitVec 2) (s : State) : Out := s.amo d a b sc o 3 false
def execAmomax (d a b : BitVec 5) (sc : BitVec 3) (o : BitVec 2) (s : State) : Out := s.amo d a b sc o 4 false
def execAmominu (d a b : BitVec 5) (sc : BitVec 3) (o : BitVec 2) (s : State) : Out := s.amo d a b sc o 5 false
def execAmomaxu (d a b : BitVec 5) (sc : BitVec 3) (o : BitVec 2) (s : State) : Out := s.amo d a b sc o 6 false
def execAmoswap (d a b : BitVec 5) (sc : BitVec 3) (o : BitVec 2) (s : State) : Out := s.amo d a b sc o 7 false
def execAmocas (d a b : BitVec 5) (sc : BitVec 3) (o : BitVec 2) (s : State) : Out := s.amo d a b sc o 8 true
def execAmoand (d a b : BitVec 5) (sc : BitVec 3) (o : BitVec 2) (s : State) : Out := s.amo d a b sc o 9 false
def execAmoor (d a b : BitVec 5) (sc : BitVec 3) (o : BitVec 2) (s : State) : Out := s.amo d a b sc o 10 false
def execAmoxor (d a b : BitVec 5) (sc : BitVec 3) (o : BitVec 2) (s : State) : Out := s.amo d a b sc o 11 false

/-- NWAIT (R175): the word satisfies the test at once, or a watch waits for the write that makes it. -/
def execNwait (d a b : BitVec 5) (_sc : BitVec 3) (_o t : BitVec 1) (s : State) : Out :=
  s.issue 4 [a, b] [d] [] fun l u =>
    match u.ctx.watch with
    | some w =>
      match w.got with
      | some v => .ok (u.setG d v)
      | none => .block { kind := 4 } u
    | none =>
      (u.access (nthD 0 l 0) 8 8 { r := true }).bind fun k =>
        let (v, u1) := u.loadAt k 8
        let w : Watch := ⟨k, nthD 0 l 1, t == 1, none⟩
        if w.test (BitVec.ofNat 64 v) then .ok (u1.setG d (BitVec.ofNat 64 v))
        else .block { kind := 4 } (u1.mapCtx fun c => { c with watch := some w })

end Sys2Proof.Machine
end

