-- ==== Sys2Proof/Machine/Digest.lean ====
section
/-! DEFINITION. SHAKE256, which the manual names (R191, R424, R425) and FIPS 202 defines (log 7): the permutation on
25 lanes of 64 bits, lane (x, y) at 5y + x. -/

namespace Sys2Proof.Machine

/-- Round constants. -/
def keccakRounds : List W :=
  [0x0000000000000001, 0x0000000000008082, 0x800000000000808A, 0x8000000080008000, 0x000000000000808B,
    0x0000000080000001, 0x8000000080008081, 0x8000000000008009, 0x000000000000008A, 0x0000000000000088,
    0x0000000080008009, 0x000000008000000A] ++
  [0x000000008000808B, 0x800000000000008B, 0x8000000000008089, 0x8000000000008003, 0x8000000000008002,
    0x8000000000000080, 0x000000000000800A, 0x800000008000000A, 0x8000000080008081, 0x8000000000008080,
    0x0000000080000001, 0x8000000080008008]

/-- How far lane i is rotated. -/
def keccakTurns : List Nat :=
  [0, 1, 62, 28, 27, 36, 44, 6, 55, 20, 3, 10, 43, 25, 39, 41, 45, 15, 21, 8, 18, 2, 61, 56, 14]

/-- The state whose lane (x, y) is f x y. -/
def keccakLanes (f : Nat → Nat → W) : List W := (List.range 25).map fun i => f (i % 5) (i / 5)

/-- Lane (x, y), each taken modulo 5. -/
def keccakLane (a : List W) (x y : Nat) : W := a.getD (x % 5 + 5 * (y % 5)) 0

/-- One round: the column parities, the rotations and moves, the row mix and the round constant. -/
def keccakRound (a : List W) (k : W) : List W :=
  let col := (List.range 5).map fun x =>
    keccakLane a x 0 ^^^ keccakLane a x 1 ^^^ keccakLane a x 2 ^^^ keccakLane a x 3 ^^^ keccakLane a x 4
  let b := keccakLanes fun x y => keccakLane a x y ^^^ col.getD ((x + 4) % 5) 0 ^^^ (col.getD ((x + 1) % 5) 0).rotateLeft 1
  let c := keccakLanes fun x y =>
    (keccakLane b (x + 3 * y) x).rotateLeft (keccakTurns.getD ((x + 3 * y) % 5 + 5 * x) 0)
  let d := keccakLanes fun x y => keccakLane c x y ^^^ (~~~(keccakLane c (x + 1) y) &&& keccakLane c (x + 2) y)
  keccakLanes fun x y => if x + 5 * y = 0 then keccakLane d 0 0 ^^^ k else keccakLane d x y

/-- The permutation. -/
def keccakAll (a : List W) : List W := keccakRounds.foldl keccakRound a

/-- Bytes that one permutation takes or gives. -/
def shakeRate : Nat := 136

/-- A block of bytes joins the state. -/
def absorbBlock (a : List W) (l : List Byte) : List W :=
  keccakAll (keccakLanes fun x y => keccakLane a x y ^^^ BitVec.ofNat 64 (leNat ((l.drop (8 * (x + 5 * y))).take 8)))

/-- n whole blocks join the state. -/
def absorb : Nat → List W → List Byte → List W
  | 0, a, _ => a
  | n + 1, a, l => absorb n (absorbBlock a (l.take shakeRate)) (l.drop shakeRate)

/-- The first bytes of the state, and of the states after it. -/
def squeeze : Nat → List W → List Byte
  | 0, _ => []
  | n + 1, a => ((a.flatMap fun w => leBytes 8 w.toNat).take shakeRate) ++ squeeze n (keccakAll a)

/-- The message with its padding: the domain bits 11111, a one, zeros and a one, to whole blocks. -/
def shakePad (l : List Byte) : List Byte :=
  let room := shakeRate - l.length % shakeRate
  if room = 1 then l ++ [0x9F] else l ++ [0x1F] ++ List.replicate (room - 2) 0 ++ [0x80]

/-- SHAKE256 of a byte string, as many bytes as asked. -/
def shake256 (l : List Byte) (n : Nat) : List Byte :=
  let p := shakePad l
  (squeeze ((n + shakeRate - 1) / shakeRate) (absorb (p.length / shakeRate) (List.replicate 25 0) p)).take n

end Sys2Proof.Machine
end

