-- ==== Sys2Proof/Machine/Proto.lean ====
section
/-! DEFINITION. Protocol images: layout, the loader's checks, look-ahead bounds, duality, the protocol table
(R191 to R201). -/

namespace Sys2Proof.Machine

/-- Bytes of an element format (Table 2.3); bit-plane and untyped elements count as one byte. -/
def fmtSize (f : Nat) : Nat :=
  match f with
  | 0x1 => 8
  | 0x2 => 4
  | 0x3 => 2
  | 0x4 => 2
  | 0x9 => 2
  | 0xA => 2
  | 0xB => 4
  | 0xC => 4
  | 0xD => 8
  | 0xE => 8
  | _ => 1

/-- A transition (Table 9.4). -/
structure Trans where
  action : Nat
  typ    : Nat
  goesTo     : Nat
  cls    : Nat
  rows   : Nat
  cols   : Nat
  tfmt   : Nat
  blen   : Nat
  deriving DecidableEq, Repr

/-- An image as the loader reads it (R192). -/
structure Img where
  named  : W
  states : List (List Trans)
  deriving DecidableEq, Repr

/-- Dword i of a byte string. -/
def dwordAt (l : List Byte) (i : Nat) : W := BitVec.ofNat 64 (leNat ((l.drop (8 * i)).take 8))

def transOfWord (w : W) : Trans :=
  ⟨wf w 0 4, wf w 4 8, wf w 12 6, wf w 18 3, wf w 24 6, wf w 30 6, wf w 36 4, wf w 40 12⟩

/-- Counts in the header, and the span of an image (R195). -/
def imgStates (l : List Byte) : Nat := wf (dwordAt l 0) 32 8
def imgTrans (l : List Byte) : Nat := wf (dwordAt l 0) 16 16
def imgSpan (l : List Byte) : Nat := Nat.min 2624 (64 + 8 * (imgStates l + imgTrans l))

def stateEntry (l : List Byte) (s : Nat) : W := dwordAt l (8 + s)
def transEntry (l : List Byte) (i : Nat) : W := dwordAt l (8 + imgStates l + i)

def parseImg (l : List Byte) : Img :=
  { named := dwordAt l 1
    states := (List.range (imgStates l)).map fun s =>
      let e := stateEntry l s
      (List.range (wf e 8 4)).map fun j => transOfWord (transEntry l (wf e 0 8 + j)) }

def Img.at (m : Img) (s : Nat) : List Trans := nthD [] m.states s

/-- Kinds of a state (R193). -/
inductive Kind where
  | send | select | recv | offer | closeOnly
  deriving DecidableEq, Repr

/-- The kind of a state, when it has one (R193). -/
def kindOf (l : List Trans) : Option Kind :=
  let rest := l.filter fun t => t.action != 6
  let labels := rest.map fun t => t.typ
  match rest with
  | [] => if l.isEmpty then none else some .closeOnly
  | t :: _ =>
    if rest.all fun t => t.action == 3 then (if labels.Nodup then some .select else none)
    else if rest.all fun t => t.action == 2 then (if labels.Nodup then some .offer else none)
    else if rest.length = 1 then
      (if t.action = 0 || t.action = 4 then some .send
       else if t.action = 1 || t.action = 5 then some .recv else none)
    else none

/-- Payload bytes of a transition (R192). -/
def Trans.size (t : Trans) : Nat :=
  match t.cls with
  | 1 => 8
  | 2 => 128
  | 3 => (t.rows + 1) * (t.cols + 1) * fmtSize t.tfmt
  | 4 => t.blen + 1
  | 5 => 48
  | _ => 0

def Trans.isOut (t : Trans) : Bool := t.action == 0 || t.action == 3 || t.action == 4
def Trans.isIn (t : Trans) : Bool := t.action == 1 || t.action == 2 || t.action == 5

/-- One round of the longest-run computation (R194). -/
def runRound (m : Img) (out : Bool) (l : List Nat) : List Nat :=
  m.states.map fun ts =>
    (ts.filter fun t => if out then t.isOut else t.isIn).foldl (fun a t => Nat.max a (1 + nthD 0 l t.goesTo)) 0

def runRounds (m : Img) (out : Bool) : Nat → List Nat → List Nat
  | 0, l => l
  | n + 1, l => runRounds m out n (runRound m out l)

/-- Run (R194): none when unbounded. A run longer than the number of states passes one twice. -/
def runBound (m : Img) (out : Bool) : Option Nat :=
  let n := m.states.length
  let top := (runRounds m out (n + 1) (List.replicate n 0)).foldl Nat.max 0
  if top > n then none else some top

/-- Check 4 (R192, Table 9.5). -/
def transOk (ns : Nat) (t : Trans) : Bool :=
  t.action ≤ 6 && decide (t.goesTo < ns) && t.cls ≤ 5 &&
  (t.cls == 3 || (t.rows == 0 && t.cols == 0 && t.tfmt == 0)) && (t.cls == 4 || t.blen == 0) &&
  (t.cls != 3 || (decide (1 ≤ t.tfmt ∧ t.tfmt ≤ 14) && decide (t.size ≤ 4096))) &&
  (if t.action = 4 || t.action = 5 then t.cls == 5
   else if t.action = 0 || t.action = 1 then t.cls != 5 else t.cls == 0) &&
  (t.action != 6 || (t.typ == 0 && t.goesTo == 0))

/-- Whether state ranges follow one another and cover the transitions (R192). -/
def rangesOk (l : List Byte) : Bool :=
  let r := (List.range (imgStates l)).foldl (fun (st : Nat × Bool) s =>
    let e := stateEntry l s
    (st.1 + wf e 8 4, st.2 && wf e 0 8 == st.1 && decide (1 ≤ wf e 8 4 ∧ wf e 8 4 ≤ 8))) (0, true)
  r.2 && r.1 == imgTrans l

/-- Bits set in a word. -/
def popCount64 (w : W) : Nat := ((List.range 64).filter fun i => w.getLsbD i).length

/-- Checks 2 to 7 of Table 9.5, in order: the first that fails. -/
def checkImage (l : List Byte) : Option Nat :=
  let d0 := dwordAt l 0
  let ns := imgStates l
  let nt := imgTrans l
  let m := parseImg l
  let ts := (List.range nt).map fun i => transOfWord (transEntry l i)
  if wf d0 48 16 != 0x58A5 || wf d0 40 8 != 1 || wf d0 0 16 != 0 ||
      !((List.range 6).all fun i => dwordAt l (2 + i) == 0) ||
      !((List.range ns).all fun s => wf (stateEntry l s) 12 52 == 0) ||
      !((List.range nt).all fun i => wf (transEntry l i) 52 12 == 0 && wf (transEntry l i) 21 3 == 0) then some 2
  else if ns = 0 || ns > 64 || nt = 0 || nt > 256 || !rangesOk l then some 3
  else if !ts.all (transOk ns) then some 4
  else if !m.states.all fun s => (kindOf s).isSome then some 5
  else if popCount64 m.named > 16 || (m.named >>> ns) != 0 then some 6
  else match runBound m true, runBound m false with
    | some a, some b => if a ≤ 32 && b ≤ 32 then none else some 7
    | _, _ => some 7

/-- Dual actions (R201). -/
def dualActions (u v : Nat) : Bool := (u == 0 && v == 1) || (u == 4 && v == 5)

/-- One pair of the duality walk (R201): the pairs to visit next, or none at a mismatch. -/
def dualStep (a b : Img) (x y : Nat) : Option (List (Nat × Nat)) :=
  let ka := kindOf (a.at x)
  let kb := kindOf (b.at y)
  if ka == some .closeOnly || kb == some .closeOnly then some []
  else
    let aSends := ka == some .send || ka == some .select
    let (p, q) := if aSends then (a.at x, b.at y) else (b.at y, a.at x)
    let pair := fun (i j : Nat) => if aSends then (i, j) else (j, i)
    match kindOf p with
    | some .send =>
      match p.find? fun t => t.action != 6, q.find? fun t => t.action != 6 with
      | some u, some v =>
        if kindOf q == some .recv && dualActions u.action v.action && v.typ == u.typ && v.cls == u.cls &&
            v.rows == u.rows && v.cols == u.cols && v.tfmt == u.tfmt && v.blen == u.blen then some [pair u.goesTo v.goesTo]
        else none
      | _, _ => none
    | some .select =>
      if kindOf q != some .offer then none
      else (p.filter fun t => t.action == 3).mapM fun u =>
        (q.find? fun v => v.action == 2 && v.typ == u.typ).map fun v => pair u.goesTo v.goesTo
    | _ => none

/-- DUALITY_CHECK (R201). Each pair is visited once, so 64 × 64 visits and their successors suffice. -/
def dualWalk (a b : Img) : Nat → List (Nat × Nat) → List (Nat × Nat) → Bool
  | 0, _, _ => false
  | _, _, [] => true
  | n + 1, seen, p :: todo =>
    if seen.contains p then dualWalk a b n seen todo
    else match dualStep a b p.1 p.2 with
      | none => false
      | some l => dualWalk a b n (p :: seen) (l ++ todo)

/-- Whether two ends are dual; built-ins by number and complementary roles (R201). -/
def dual : Proto → Proto → Bool
  | .image a, .image b => dualWalk (parseImg a) (parseImg b) 40000 [] [(0, 0)]
  | .builtin n r, .builtin m q => n == m && r != q
  | _, _ => false

/-! ### The protocol table (R191, R196) -/

/-- Slot size of a user image in 16-byte units (R206). -/
def imgSlotU (m : Img) : Nat :=
  let p := m.states.foldl (fun a ts => ts.foldl (fun a t => if t.isIn && t.action != 2 then Nat.max a t.size else a) a) 0
  (16 + p + 15) / 16

/-- The fingerprint of an image, as a dword (R191). -/
def fingerprint (l : List Byte) : W := BitVec.ofNat 64 (leNat (shake256 l 8))

/-- Whether table entry n is in use (R196): bound by an endpoint, any but UNBOUND, or named by the loader to a context whose
instruction has not bound it yet. -/
def Core.bound (x : Core) (n : Nat) (except : Option CtxId := none) : Bool :=
  (x.eps.any fun e => e.2.st != .unbound && e.2.proto.toNat == n) ||
  allCtx.any fun k => except != some k && match (x.ctx k).req with | some ⟨1, some (.loaded m _)⟩ => m == n | _ => false

/-- The entry that holds an image, or the lowest that can take it (R196): none when no entry is free. -/
def Core.protoSlot (x : Core) (l : List Byte) : Option Nat :=
  match x.protos.find? fun e => e.2.image == l with
  | some e => some e.1
  | none => ((List.range 16).map fun i => i + 16).find? fun n =>
      !(x.bound n || (x.protos.find n).any fun e => e.pinned)

/-- An image installed in entry n. -/
def Core.install (x : Core) (n : Nat) (l : List Byte) (pinned : Bool) : Core :=
  let m := parseImg l
  if (x.protos.find n).any fun e => e.image == l then x
  else
    let e : ProtoEnt := ⟨l, (runBound m true).getD 0, (runBound m false).getD 0, imgSlotU m, pinned⟩
    { x with protos := x.protos.put n e }

/-- The image bound at table entry n. -/
def Core.img (x : Core) (n : Nat) : Img := parseImg (((x.protos.find n).map fun e => e.image).getD [])

/-- The loader's translation of an address (R195, R393). -/
def State.loaderHome (s : State) (c : CoreId) (va : W) : EngOf Trap Home :=
  match s.engineXlate c (s.core c).xroot va with
  | .held m => .held m
  | .bad d t => .bad { cause := cXLATE, detail := d, addr := va } t
  | .ok e t =>
    if !wb e.pte 6 then .bad { cause := cPROT, detail := e.level * 256 + 4, addr := va } t
    else .ok (e.home va.toNat) t

/-- Byte i from a home on, as the loader reads it; of a header in backing memory that cannot be read nothing is known, and it
counts as empty (log 27). -/
def State.homeByte (s : State) (i : Nat) : Home → Byte
  | .pool d o => memRead s.mem (poolKey d (o + i))
  | .backing pa key => ((s.ctrlRead key (pa + i) 1).map fun r => r.1.headD 0).getD 0

/-- The byte at address a of a span whose pages, from their first address in the span on, lie at these homes. -/
def State.spanByte (s : State) (starts : List (W × Home)) (a : Nat) : Byte :=
  match starts.reverse.find? fun p => decide (p.1.toNat ≤ a) with
  | some (b, h) => s.homeByte (a - b.toNat) h
  | none => 0

/-- Whether a page of a span lies in core c's own scratchpad (R195, check 1). -/
def homeLocal (x : Core) (c : CoreId) : Home → Bool
  | .pool d o => d == c && inScratch x.part o 8
  | .backing _ _ => false

/-- A refusal of an image, with the endpoint left to add (R195). -/
def codeTrap (n : Nat) : Trap := { cause := cPROTOCOL, detail := 64 * n }

/-- The loader's reading of an image (R195, R196): the header is translated, then the rest of the span that it gives; then
check 1, and what follows it. The entry, with the table as it then stands, or the trap. -/
def State.loadImage (s : State) (c : CoreId) (va : W) : EngOf Trap (Nat × Core) :=
  let off := va.toNat % 4096
  -- the pages from address va on that n bytes reach beyond the first
  let pages := fun (n : Nat) => (List.range ((off + n + 4095) / 4096 - 1)).map fun i => va - BitVec.ofNat 64 off + BitVec.ofNat 64 (4096 * (i + 1))
  let homes := fun (l : List W) (s : State) => EngOf.all (fun s a => (s.loaderHome c a).bind fun h t => .ok (a, h) t) l s
  (homes (va :: pages 64) s).bind fun first s =>
    let span := imgSpan ((List.range 64).map fun i => s.spanByte first (va.toNat + i))
    (homes ((pages span).drop (pages 64).length) s).bind fun rest s =>
      let x := s.core c
      let starts := first ++ rest
      if va.toNat % 64 != 0 || !(starts.all fun p => homeLocal x c p.2) then .bad (codeTrap 1) s
      else
        let bytes := (List.range span).map fun i => s.spanByte starts (va.toNat + i)
        match x.protos.find? fun e => e.2.image == bytes with
        | some e => .ok (e.1, x) s
        | none =>
          match checkImage bytes with
          | some n => .bad (codeTrap n) s
          | none =>
            match x.protoSlot bytes with
            | none => .bad (codeTrap 8) s
            | some n => .ok (n, x.install n bytes false) s

end Sys2Proof.Machine
end

