-- ==== Sys2Proof/Machine/Channels.lean ====
section
/-! DEFINITION. Channels: the checks at issue, SEND, RECV, OFFER, SELECT, and what arrives at an endpoint:
messages, credits, close, loss, notices, delegation (R203 to R218, R226 to R231, R432). -/

namespace Sys2Proof.Machine

/-! ### Checks shared by instructions that name an endpoint -/

/-- The endpoint-ownership trap (R20). -/
def epown (e : EpId) : Trap := { cause := cEPOWN, detail := e.toNat }

def State.owns (s : State) (e : EpId) : Bool := (s.ep e).owner == s.cur.ctx

/-- The precise PEERLOST trap of an instruction on a LOST endpoint (R213). -/
def peerLost (e : EpId) : Trap := { cause := cPEERLOST, detail := e.toNat }

/-- The endpoint is OPEN; otherwise by its status (R204, R213, R243). -/
def State.mustOpen (s : State) (e : EpId) : Res Unit :=
  match (s.ep e).st with
  | .open => .ok ()
  | .lost => .trap (peerLost e)
  | .delegating => .trap (refuse e 12)
  | _ => .trap (refuse e 0)

/-- An instruction that names endpoint e, in the order of R74: the names of its registers, the x values it consumes (`pre`), the
ownership of e (R20); then the owner's pending PEERLOST fault of e is delivered (R213), or `k` is performed. -/
def State.onEp (s : State) (e : EpId) (src dst vec : List Reg) (pre : Res Unit) (k : List W → State → Res State) : Out :=
  s.checked src dst vec (pre.bind fun _ => Res.check (s.owns e) (epown e))
    (s.covering (fun d => d.ep == some e) (s.issue 4 src dst vec k))

def Endpoint.isUser (ep : Endpoint) : Bool := decide (ep.proto.toNat ≥ 16)

/-- The transitions from the current state of a user endpoint. -/
def State.trans (s : State) (e : EpId) : List Trans :=
  let ep := s.ep e
  (s.me.img ep.proto.toNat).at ep.state.toNat

/-- STATE moves to a state, and a named one is passed (R203, R205). -/
def Core.toState (x : Core) (e : EpId) (goesTo : Nat) : Core :=
  let named := (x.img (x.ep e).proto.toNat).named.getLsbD goesTo
  x.mapEp e fun ep =>
    { ep with
      state := BitVec.ofNat 6 goesTo
      nv := ep.nv || named
      named := if named then BitVec.ofNat 6 goesTo else ep.named }

def State.toState (s : State) (e : EpId) (goesTo : Nat) : State := s.mapMe fun x => x.toState e goesTo

/-- Whether a built-in takes a message instruction (Table 10.5). -/
def builtinChan (ep : Endpoint) (sends : Bool) (typ cls : Nat) : Bool :=
  match ep.proto.toNat with
  | 8 => cls == 1 || cls == 4
  | 9 => typ == 0 && cls == 1 && (ep.role == 1) == sends
  | 10 => !sends && typ == 1 && cls == 4
  | _ => false

/-- HOST block length from x4 (R227): none when it is out of range. -/
def hostLen (x4 : W) : Option Nat := if 1 ≤ x4.toNat && x4.toNat ≤ 4096 then some x4.toNat else none

/-- Whether a message instruction on endpoint e consumes x4 as a block length: class 4 on HOST (R70, R227). -/
def State.hostBlock (s : State) (e : EpId) (cls : Nat) : Bool :=
  (s.ep e).st != .unbound && (s.ep e).proto == 8 && cls == 4

/-- The check of a consumed x4 (R70, R74, R227). -/
def State.hostPre (s : State) (e : EpId) (cls : Nat) : Res Unit :=
  Res.check (!s.hostBlock e cls || (hostLen (s.ctx.rx 4)).isSome) illOpnd

/-! ### SEND and SELECT (R228, R230) -/

/-- The transition that a send or select matches: its next state and its payload bytes (R203, R204). -/
def State.matchOut (s : State) (e : EpId) (action typ cls : Nat) : Res (Nat × Nat) :=
  let ep := s.ep e
  if ep.isUser then
    match (s.trans e).find? fun t => t.action == action && t.typ == typ && t.cls == cls with
    | some t => .ok (t.goesTo, t.size)
    | none => .trap (refuse e 0)
  else if action = 0 && builtinChan ep true typ cls then .ok (0, 0)
  else .trap (refuse e 0)

/-- The g or v register that a class names (Table 10.4). -/
def clsG (cls : Nat) (d : Reg) : List Reg := if cls = 1 || cls = 3 || cls = 4 then [d] else []
def clsV (cls : Nat) (d : Reg) : List Reg := if cls = 2 then [d] else []

/-- A send of `typ` and `cls`: checks, wait for a free slot at the peer, payload, transmission. -/
def State.sendOn (s : State) (e : EpId) (action typ cls : Nat) (d : Reg) : Out :=
  s.onEp e (clsG cls d) [] (clsV cls d) (s.hostPre e cls) fun l t =>
    let ep := t.ep e
    (t.mustOpen e).bind fun _ =>
    (t.matchOut e action typ cls).bind fun (goesTo, size) =>
      if ep.full then .block { kind := 2, ep := e.toNat } t
      else
        let n := if ep.isUser then size else (hostLen (t.ctx.rx 4)).getD 0
        let go := fun (p : List Byte) (t : State) =>
          let t1 := t.transmit t.cur.core e cls typ p
          (.ok (if ep.isUser then t1.toState e goesTo else t1) : Res State)
        match cls with
        | 0 => go [] t
        | 1 => go (leBytes 8 (nthD 0 l 0).toNat) t
        | 2 => go (leBytes 128 (t.ctx.rv d).toNat) t
        | _ => (t.localUnits (nthD 0 l 0) { r := true } n).bind fun ks => go (t.readUnits ks n) (t.correctUnits ks)

def execSend (d : BitVec 5) (c : BitVec 3) (l : BitVec 8) (e : BitVec 6) (s : State) : Out :=
  s.sendOn e 0 l.toNat c.toNat d

def execSelect (l : BitVec 8) (e : BitVec 6) (s : State) : Out := s.sendOn e 3 l.toNat 0 0

/-! ### RECV and OFFER (R229, R230) -/

/-- The key of the head slot. -/
def State.headKey (s : State) (e : EpId) : Nat := (s.ep e).slotKey s.cur.core (s.ep e).head.toNat

/-- The header of the head slot, which is to be received: waiting with kind 1 while it is empty, and for an engine that holds it
(R284); a drained PEERCLOSED endpoint refuses (R211, R219). -/
def State.headOf (s : State) (e : EpId) : Res W :=
  let h := s.slotHeader s.cur.core e 0
  match (s.ep e).st with
  | .open => s.unheld (s.headKey e) 16 true (if hdrF h then .ok h else .block { kind := 1, ep := e.toNat } s)
  | .peerClosed => s.unheld (s.headKey e) 16 true (if hdrF h then .ok h else .trap (refuse e 0))
  | .lost => .trap (peerLost e)
  | .delegating => .trap (refuse e 12)
  | _ => .trap (refuse e 0)

/-- A status that refuses every receive, checked before the automaton. -/
def State.mayRecv (s : State) (e : EpId) : Res Unit :=
  match (s.ep e).st with
  | .open => .ok ()
  | .peerClosed => .ok ()
  | .lost => .trap (peerLost e)
  | .delegating => .trap (refuse e 12)
  | _ => .trap (refuse e 0)

def State.matchIn (s : State) (e : EpId) (typ cls : Nat) : Res (Nat × Nat) :=
  let ep := s.ep e
  if ep.isUser then
    match (s.trans e).find? fun t => t.action == 1 && t.typ == typ && t.cls == cls with
    | some t => .ok (t.goesTo, t.size)
    | none => .trap (refuse e 0)
  else if builtinChan ep false typ cls then .ok (0, 64)
  else .trap (refuse e 0)

/-- RECV (R229). An uncorrectable error in the slot is no error of a load: header and payload are read as they stand
(DESIGN CHOICE, log 73). -/
def execRecv (d : BitVec 5) (c : BitVec 3) (l : BitVec 8) (e : BitVec 6) (s : State) : Out :=
  let cls := c.toNat
  let src := if cls = 3 || cls = 4 then [d] else []
  let dst := if cls = 1 then [d] else []
  s.onEp e src dst (clsV cls d) (s.hostPre e cls) fun vs t =>
    let ep := t.ep e
    let host := t.hostBlock e cls
    (t.mayRecv e).bind fun _ =>
    (t.matchIn e l.toNat cls).bind fun (goesTo, size) =>
    -- the x4 bytes of a HOST block are checked at issue (R227)
    (if host then (t.reachAll 16 { w := true } (piecesOf (nthD 0 vs 0) ((hostLen (t.ctx.rx 4)).getD 0))).bind fun _ => .ok ()
      else .ok ()).bind fun _ =>
    (t.headOf e).bind fun h =>
      if hdrTyp h != l.toNat || hdrCls h != cls then .trap (refuse e 0)
      else
        let cap := if host then (hostLen (t.ctx.rx 4)).getD 0 else Nat.max size (hdrLen h)
        let k := ep.slotKey t.cur.core ep.head.toNat + 16
        -- the payload is read once no engine holds it (R267, R284)
        t.unheld k (hdrLen h) false <|
        let done := fun (t1 : State) =>
          let t2 := t1.freeSlot t.cur.core e
          (.ok (if ep.isUser then t2.toState e goesTo else t2) : Res State)
        match cls with
        | 0 => done t
        | 1 => done (t.setG d (t.rd8 k))
        | 2 => done (t.setV d (BitVec.ofNat 1024 (t.rd k 128)))
        | _ =>
          if host && hdrLen h > cap then .trap (refuse e 0)
          else (t.localUnits (nthD 0 vs 0) { w := true } cap).bind fun ks =>
            done (t.writeUnits ks (memReads t.mem k (hdrLen h)))

def execOffer (d : BitVec 5) (e : BitVec 6) (s : State) : Out :=
  s.onEp e [] [d] [] (.ok ()) fun _ t =>
    (t.mustOpen e).bind fun _ =>
      if !(t.ep e).isUser || kindOf (t.trans e) != some .offer then .trap (refuse e 0)
      else (t.headOf e).bind fun h =>
        match (t.trans e).find? fun r => r.action == 2 && r.typ == hdrTyp h with
        | none => .trap (refuse e 0)
        | some r =>
          if hdrCls h != 0 then .trap (refuse e 0)
          else .ok (((t.setG d (BitVec.ofNat 64 (hdrTyp h))).freeSlot t.cur.core e).toState e r.goesTo)

/-! ### Loss and notices (R210 to R214, R432) -/

/-- An address of an endpoint of this module, as w1 <63:28>. -/
def State.locOf (s : State) (c : CoreId) (e : EpId) : BitVec 36 := locWord s.address c e

/-- The fingerprint of an endpoint's protocol; a built-in's number (Table 10.7). -/
def Core.fprint (x : Core) (n : Nat) : W :=
  if n < 16 then BitVec.ofNat 64 n else match x.protos.find n with | some p => fingerprint p.image | none => 0

/-- The notice record (Table 9.10a). -/
def noticeRecord (reason proto named nv hw gen sseq rseq : Nat) (surv lost : BitVec 36) (fp : W) : List W :=
  [mkW [(reason, 61), (proto, 56), (named, 50), (nv, 49), (hw, 48), (gen, 32), (sseq, 16), (rseq, 0)],
   mkW [(surv.toNat, 28)], mkW [(lost.toNat, 28)], fp, 0, 0, 0, 0]

/-- Sends a notice to a recovery endpoint; notices of one end arrive in the order sent (R214). -/
def State.sendNotice (s : State) (f : FloeId) (from_ : Nat) (raddr : BitVec 36) (rgen : BitVec 16)
    (l : List W) (inp : Nat := 0) : State :=
  s.send f (.core (locCore raddr)) (some (65536 + from_)) 64 (.notice (locEp raddr) rgen l) (some (locMod raddr)) (coreAt f 0) inp

/-- A LOSS packet to the peer of an endpoint (R210); NOTE has none (R198). -/
def State.sendLoss (s : State) (c : CoreId) (e : EpId) (reason : Nat) : State :=
  let ep := s.epAt c e
  if ep.proto == 10 then s
  else s.sendPeer c ep 0 (.loss (ep.toPeer e).1 (ep.toPeer e).2 reason)

/-- A MSG event for an endpoint (R32, R165, R213). -/
def State.msgEvent (s : State) (c : CoreId) (e : EpId) (always : Bool) : State :=
  let x := s.core c
  let o := (x.ep e).owner
  let life := (x.ctx o).life
  if life == .stopped || life == .spilled || (always && o == 0) then
    s.mapCore c fun x => x.post (eventWord 2 2 o.toNat e.toNat 0)
  else s

/-- An endpoint becomes UNBOUND, keeping owner and generation (R20, R211). -/
def Endpoint.unbind (ep : Endpoint) : Endpoint :=
  { ep with
    st := .unbound, bindAs := 0, accept := false, asked := none, withdrawn := false, held := [], owed := 0
    carrier := none, first := none, forwarded := [], boundrx := false, holder := 0 }

/-- Where a DELEGATING endpoint's channel has gone: its holder, or the sender of the BOUND that is on its way
(R216, R217), with the generation there. -/
def State.goneTo (s : State) (c : CoreId) (e : EpId) (g : BitVec 16) : Option W :=
  let ep := s.epAt c e
  if ep.st != .delegating || ep.gen != g then none
  else if ep.boundrx then some ep.holder
  else s.net.findSome? fun p => match p.dst, p.body with
    | .core c1, .bound e1 g1 z => if c1 == c && e1 == e && g1 == g then some z else none
    | _, _ => none

/-- Whether endpoint e of core c, of generation g, still stands, at its peer, for the endpoint at z, over at most n
delegations. -/
def State.standsFor (s : State) : Nat → CoreId → EpId → BitVec 16 → W → Bool
  | 0, _, _, _, _ => false
  | n + 1, c, e, g, z => match s.goneTo c e g with
    | none => false
    | some l => l == z ||
        (locMod (wLoc l) == s.address && s.standsFor n (locCore (wLoc l)) (locEp (wLoc l)) (wGen l) z)

def HwEnd.isFor (h : HwEnd) (c : CoreId) (e : EpId) (g : BitVec 16) : Bool := h.core == c && h.ep == e && h.cgen == g

/-- The hardware end of the channel of endpoint e of core c, of generation g (R190): the one that names it, or, until it has
taken REDIRECT, the one that names the DELEGATING endpoint it came from (R217, Table 22.5, log 29). -/
def State.hwFind (s : State) (c : CoreId) (e : EpId) (g : BitVec 16) : Option HwEnd :=
  (s.hwEnds.find? fun h => h.isFor c e g).orElse fun _ =>
    s.hwEnds.find? fun h => h.cmod == s.address && s.standsFor 4 h.core h.ep h.cgen (locW (s.locOf c e) g)

/-- That end changed. -/
def State.mapHw (s : State) (h : HwEnd) (f : HwEnd → HwEnd) : State :=
  { s with hwEnds := s.hwEnds.map fun q => if q == h then f q else q }

/-- A hardware end takes a request (R199, R432). -/
def State.hwTakes (s : State) (c : CoreId) (e : EpId) (g : BitVec 16) : State :=
  match s.hwFind c e g with
  | some h => s.mapHw h fun h => { h with rseq := h.rseq + 1 }
  | none => s

/-- A unit answers on the channel of endpoint e of core c: the answer goes to the core endpoint under which its end knows the
channel (R217, Table 22.5), numbered by the end's SSEQ (R432) unless it is a credit. An end that is gone answers nothing
(R211). -/
def State.hwReply (s : State) (f : FloeId) (inp : Nat) (c : CoreId) (e : EpId) (g : BitVec 16) (numbered : Bool) (bytes : Nat)
    (b : Body) (src : CoreId := coreAt f 0) : State :=
  match s.hwFind c e g with
  | none => s
  | some h =>
    (if numbered then s.mapHw h fun h => { h with sseq := h.sseq + 1 } else s).send f (.core h.core) none bytes
      (.reply h.ep h.cgen (if numbered then some h.sseq else none) b) (some h.cmod) src inp

/-- Whether endpoint e of core c is bound, with generation g: what is outstanding on one that is not has finished as failed,
and writes no byte any more (R432). One whose binding is under way still has the generation of its last. -/
def State.bears (s : State) (c : CoreId) (e : EpId) (g : BitVec 16) : Bool :=
  (s.epAt c e).st != .unbound && (s.epAt c e).st != .connecting && (s.epAt c e).gen == g

/-- The hardware end of an endpoint's channel goes (R422, R432); a host channel closes. -/
def State.dropHw (s : State) (c : CoreId) (e : EpId) (g : BitVec 16) : State :=
  match s.hwFind c e g with
  | none => s
  | some h =>
    { s with
      hwEnds := s.hwEnds.filter fun q => q != h
      chans := s.chans.filter fun q => !(q.2.core == h.core && q.2.ep == h.ep && q.2.gen == h.cgen) }

/-- Delegations whose carrier, of generation g, was lost before BOUND end: LOSS with REASON 3 to the peer (Table 9.10). -/
def State.carrierLost (s : State) (c : CoreId) (e : EpId) (g : BitVec 16) : State :=
  allEps.foldl (fun s y =>
    let ep := s.epAt c y
    if ep.st == .delegating && ep.carrier == some (e, g) && !ep.boundrx then
      (s.sendLoss c y 3).mapEpAt c y Endpoint.unbind
    else s) s

/-- CLOSE_NOTICE (R212, R213): the endpoint becomes LOST, rolls back, discards what it has not received,
notifies its recovery endpoint and its owner. -/
def State.enterLost (s : State) (c : CoreId) (e : EpId) (reason : Nat) : State :=
  let ep := s.epAt c e
  let st := if ep.nv then ep.named else ep.state
  let s1 := (s.clearSlots c e).mapEpAt c e fun ep => { ep with st := .lost, state := st, bindAs := 0, owed := 0 }
  let s2 :=
    if ep.rv then
      s1.sendNotice (floeOf c) (c.toNat * 64 + e.toNat) ep.raddr ep.rgen
        (noticeRecord reason ep.proto.toNat st.toNat (b2n ep.nv) 0 ep.gen.toNat ep.sseq.toNat ep.rseq.toNat
          (s.locOf c e) ep.paddr ((s.core c).fprint ep.proto.toNat))
    else s1
  let s3 := s2.mapCtxAt c ep.owner fun k =>
    k.defer ⟨cPEERLOST, e.toNat, 0, 0, 0, 0, none, none, some e, false⟩
  (s3.msgEvent c e false).carrierLost c e ep.gen

/-- What was outstanding on an endpoint is over: the chunk bits and cbm bits of its copies are set (R153, R259, R432), and no
acknowledgement of a global access or a drain is waited for. -/
def Core.dropOwned (x : Core) (e : EpId) : Core :=
  (x.owned.filter fun o => o.ep == some e).foldl (fun x o =>
    { x with
      cbm := x.cbm ||| (1#64 <<< o.tag.toNat), chunks := x.chunks.set o.tag.toNat (BitVec.allOnes 64)
      owned := x.owned.erase o })
    { x with
      storeq := x.storeq.filter fun q => q.ep != e
      drains := x.drains.filter fun o => match o.kind with | .drain d => !(d.ep.any fun p => p.1 == e) | _ => true }

/-- Operations outstanding on an endpoint finish as failed with PEERLOST (R432). -/
def State.failOps (s : State) (c : CoreId) (e : EpId) : State :=
  let tag := fun (k : CtxId) (id : Nat) =>
    ((s.core c).owned.find? fun o => o.ctx == k && o.op == id).map fun o => o.tag
  (allCtx.foldl (fun s k =>
    s.mapCtxAt c k fun x =>
      (x.ops.filter fun o => o.ep == some e && !o.done).foldl (fun x o =>
        (x.defer ⟨cPEERLOST, e.toNat, 0, 0, 0, 0, some (o.cls, o.num), tag k o.id, some e, o.fence⟩).finishOp o.id) x) s).mapCore
    c fun x => x.dropOwned e

/-- The owner of endpoints is lost (R210, R211, R432): each that is OPEN, PEERCLOSED or LOST sends LOSS and
becomes UNBOUND. -/
def State.ownerLost (s : State) (c : CoreId) (k : CtxId) : State :=
  allEps.foldl (fun s e =>
    let ep := s.epAt c e
    if ep.owner == k && (ep.st == .open || ep.st == .peerClosed || ep.st == .lost) then
      ((((s.sendLoss c e 1).failOps c e).mapEpAt c e Endpoint.unbind).carrierLost c e ep.gen)
    else s) s

/-! ### Arrivals at a core endpoint -/

/-- The generation that a body addressed to an endpoint carries (R190). -/
def bodyTarget : Body → Option (EpId × BitVec 16)
  | .msg e g _ _ _ _ _ => some (e, g)
  | .credit e g _ => some (e, g)
  | .close e g => some (e, g)
  | .loss e g _ => some (e, g)
  | .notice e g _ => some (e, g)
  | .bound e g _ => some (e, g)
  | .redirect e g _ _ => some (e, g)
  | .redirectAck e g _ => some (e, g)
  | .reply e g _ _ => some (e, g)
  | _ => none

/-- The same body for another endpoint and generation, as forwarding re-addresses it (R217). -/
def bodyReaddress (b : Body) (e : EpId) (g : BitVec 16) : Body :=
  match b with
  | .msg _ _ c t q n p => .msg e g c t q n p
  | .credit _ _ n => .credit e g n
  | .close _ _ => .close e g
  | .loss _ _ r => .loss e g r
  | .notice _ _ l => .notice e g l
  | .bound _ _ z => .bound e g z
  | .redirect _ _ z q => .redirect e g z q
  | .redirectAck _ _ f => .redirectAck e g f
  | .reply _ _ q a => .reply e g q a
  | b => b

/-- The data that an answer carries. -/
def answerData : Body → List Byte
  | .memReply _ _ l => l
  | .winReply _ _ w _ => leBytes 8 w.toNat
  | _ => []

/-- Bytes of payload of a body (R399). -/
def bodyBytes : Body → Nat
  | .msg _ _ _ _ _ _ p => p.length
  | .notice _ _ _ => 64
  | .reply _ _ _ a => (answerData a).length
  | _ => 0

/-- Forwarding is complete: the acknowledgement names FIRST and every number below it has been forwarded
(R217). -/
def Endpoint.forwardDone (ep : Endpoint) : Bool :=
  match ep.first with
  | none => false
  | some f => (List.range ((f - ep.rseq).toNat)).all fun i => ep.forwarded.contains (ep.rseq + BitVec.ofNat 16 i)

/-- The DELEGATING endpoint ends its forwarding when it is complete (R211, R217). -/
def State.endForward (s : State) (c : CoreId) (e : EpId) : State :=
  if (s.epAt c e).forwardDone then s.mapEpAt c e fun ep => { ep.unbind with gen := ep.gen + 1 } else s

/-- Forwards one arrival to the new holder (R217). -/
def State.forward (s : State) (c : CoreId) (e : EpId) (b : Body) : State :=
  let ep := s.epAt c e
  let z := wLoc ep.holder
  let s1 := s.sendCore c (.core (locCore z)) false (bodyBytes b) (bodyReaddress b (locEp z) (wGen ep.holder)) (some (locMod z))
  let s2 := match b with
    | .msg _ _ _ _ q _ _ => s1.mapEpAt c e fun ep => { ep with forwarded := q :: ep.forwarded }
    | .reply _ _ (some q) _ => s1.mapEpAt c e fun ep => { ep with forwarded := q :: ep.forwarded }
    | .loss _ _ _ => s1.mapEpAt c e Endpoint.unbind
    | _ => s1
  s2.endForward c e

/-- Messages in the buffer that have not been received, as bodies (R217). -/
def State.unreceived (s : State) (c : CoreId) (e : EpId) : List Body :=
  let ep := s.epAt c e
  (List.range ep.slots).filterMap fun i =>
    let k := ep.slotKey c (ep.slotOf i)
    let h := s.rd8 k
    if hdrF h then
      some (.msg e ep.gen (hdrCls h) (hdrTyp h) (BitVec.ofNat 16 (hdrSeq h)) 0 (memReads s.mem (k + 16) (hdrLen h)))
    else none

/-- BOUND reaches the DELEGATING endpoint (R217): held arrivals go to the new holder, REDIRECT to the peer; NOTE has none
(R198). -/
def State.takeBound (s : State) (c : CoreId) (e : EpId) (z : W) : State :=
  let ep := s.epAt c e
  let all := s.unreceived c e ++ ep.held
  let s1 := s.mapEpAt c e fun ep => { ep with boundrx := true, holder := z, held := [] }
  let s2 := if ep.proto == 10 then s1
    else s1.sendPeer c ep 0 (.redirect (ep.toPeer e).1 (ep.toPeer e).2 z (locW (s.locOf c e) ep.gen))
  all.foldl (fun s b => if (s.epAt c e).st == .delegating then s.forward c e b else s) s2

/-- REDIRECT reaches the peer (R217). An end that is LOST or UNBOUND answers it with LOSS; to any other arrival it answers nothing
(DESIGN CHOICE, log 71). -/
def State.takeRedirect (s : State) (c : CoreId) (e : EpId) (z src : W) : State :=
  let ep := s.epAt c e
  let back := fun (b : Body) (s : State) =>
    s.sendCore c (.core (locCore (wLoc src))) false 0 b (some (locMod (wLoc src)))
  match ep.st with
  | .open | .peerClosed =>
    (back (.redirectAck (locEp (wLoc src)) (wGen src) ep.sseq) s).mapEpAt c e fun ep =>
      { ep with paddr := wLoc z, pgen := wGen z }
  | .lost | .unbound => back (.loss (locEp (wLoc src)) (wGen src) 1) s
  | _ => s

/-- Whether an engine holds bytes of slot i into which a header and n bytes of payload are to be written (R267, R284). -/
def State.slotHeld (s : State) (c : CoreId) (e : EpId) (i n : Nat) : Bool := s.heldAt c ((s.epAt c e).slotKey c i) (16 + n) true

/-- An arrival at endpoint e of core c; none when it waits at the bank port (R207, R214), for an engine that holds bytes of its slots
(R267, R284), or at a core whose `connect` has not
got its result for the message that comes on the new channel (R200). -/
def State.deliver (s : State) (c : CoreId) (b : Body) : Option State :=
  match bodyTarget b with
  | none => some s
  | some (e, g) =>
    let ep := s.epAt c e
    if ep.st == .connecting && ep.request.isSome && g == ep.gen + 1 then none
    else if g != ep.gen then some s
    else if ep.st == .delegating then
      match b with
      | .bound _ _ z => if s.slotsHeld c e false then none else some (s.takeBound c e z)
      | .redirectAck _ _ f => some ((s.mapEpAt c e fun ep => { ep with first := some f }).endForward c e)
      | b => some (if ep.boundrx then s.forward c e b else s.mapEpAt c e fun ep => { ep with held := ep.held ++ [b] })
    else match b with
      | .msg _ _ cls typ q n p =>
        if ep.st != .open then some s
        else
          let i := ep.slotOf ((q - ep.rseq).toNat % ep.slots)
          if hdrF (s.rd8 (ep.slotKey c i)) || s.slotHeld c e i p.length then none
          else some (((s.fillSlot c e i cls typ q p).mapEpAt c e fun ep =>
            { ep with lacnt := ep.lacnt - BitVec.ofNat 7 n }).msgEvent c e true)
      | .notice _ _ l =>
        if ep.st != .open || ep.proto != 10 then some s
        else
          match (List.range ep.slots).find? fun i => !hdrF (s.rd8 (ep.slotKey c (ep.slotOf i))) with
          | none => none
          | some i => if s.slotHeld c e (ep.slotOf i) 64 then none else some ((s.fillSlot c e (ep.slotOf i) 4 1 (ep.rseq + BitVec.ofNat 16 i)
              (l.flatMap fun w => leBytes 8 w.toNat)).msgEvent c e true)
      | .credit _ _ n =>
        some (if ep.st == .open then s.mapEpAt c e fun ep => { ep with lacnt := ep.lacnt - BitVec.ofNat 7 n } else s)
      | .close _ _ => some (if ep.st == .open then s.mapEpAt c e fun ep => { ep with st := .peerClosed } else s)
      | .loss _ _ r =>
        if ep.st == .open || ep.st == .peerClosed then
          if s.slotsHeld c e true then none else some (s.enterLost c e r)
        else some s
      | .redirect _ _ z src => some (s.takeRedirect c e z src)
      | _ => some s

/-- A hardware end takes a LOSS: its notice goes to the recovery endpoint, then it is UNBOUND (R432). -/
def State.hwLoss (s : State) (f : FloeId) (inp : Nat) (core : CoreId) (e : EpId) (g : BitVec 16) (reason : Nat) : State :=
  match s.hwFind core e g with
  | none => s
  | some h =>
    let l := noticeRecord reason h.proto 0 1 1 h.gen.toNat h.sseq.toNat h.rseq.toNat h.unit (locWord h.cmod h.core h.ep)
      (BitVec.ofNat 64 h.proto)
    let s1 :=
      if wb h.recov 11 then
        s.sendNotice f (131072 + h.core.toNat * 64 + h.ep.toNat) (wLoc h.recov) (wGen h.recov) l inp
      else s
    s1.dropHw h.core h.ep h.cgen

/-- A hardware end takes REDIRECT (R217): it goes on with the new holder, and acknowledges with FIRST. -/
def State.hwRedirect (s : State) (f : FloeId) (inp : Nat) (z src : W) : State :=
  let c := locCore (wLoc src)
  let e := locEp (wLoc src)
  let m := locMod (wLoc src)
  match s.hwEnds.find? fun h => h.isFor c e (wGen src) && h.cmod == m with
  | none => s.send f (.core c) none 0 (.loss e (wGen src) 1) (some m) (coreAt f 0) inp
  | some h =>
    let s1 := (s.mapHw h fun h =>
      { h with core := locCore (wLoc z), ep := locEp (wLoc z), cgen := wGen z, cmod := locMod (wLoc z) }).send f (.core c)
      none 0 (.redirectAck e (wGen src) h.sseq) (some m) (coreAt f 0) inp
    let chan := fun (q : HostChan) =>
      if q.core == c && q.ep == e && q.gen == wGen src && q.cmod == m then
        { q with core := locCore (wLoc z), ep := locEp (wLoc z), gen := wGen z, cmod := locMod (wLoc z) }
      else q
    { s1 with chans := s1.chans.map fun p => (p.1, chan p.2) }

/-- Entries of a host channel's send ring go to its core endpoint while that has free slots (R208, R422). -/
def State.hostPump (s : State) (n : Nat) : State :=
  match s.chans.find n with
  | none => s
  | some ch =>
    let k := Nat.min ch.ring.length (ch.depth + 1 - ch.lacnt)
    let s1 := ((List.range k).zip ch.ring).foldl (fun (s : State) p =>
      s.send 32 (.core ch.core) none p.2.payload.length
        (.msg ch.ep ch.gen p.2.cls p.2.typ (ch.sseq + BitVec.ofNat 16 p.1) 0 p.2.payload) (some ch.cmod) (coreAt 32 0) 5) s
    let ch1 : HostChan := { ch with ring := ch.ring.drop k, sseq := ch.sseq + BitVec.ofNat 16 k, lacnt := ch.lacnt + k }
    let s2 := match s1.hwFind ch.core ch.ep ch.gen with
      | some h => s1.mapHw h fun h => { h with sseq := h.sseq + BitVec.ofNat 16 k }
      | none => s1
    { s2 with chans := s2.chans.put n ch1 }

/-- The host channel whose host end endpoint e of core c, of generation g, talks to (R422). -/
def State.chanOf (s : State) (c : CoreId) (e : EpId) (g : BitVec 16) : Option (Nat × HostChan) :=
  (s.hwFind c e g).bind fun h => s.chans.find? fun q => q.2.core == h.core && q.2.ep == h.ep && q.2.gen == h.cgen

/-- Credits that a core returns to the host (R208, R422). -/
def State.hostCredit (s : State) (c : CoreId) (e : EpId) (g : BitVec 16) (n : Nat) : State :=
  match s.chanOf c e g with
  | some p => ({ s with chans := s.chans.put p.1 { p.2 with lacnt := p.2.lacnt - n } } : State).hostPump p.1
  | none => s

/-- An arrival event on packet p: `want` says whether the packet is of the event's kind. -/
def State.arrival (s : State) (p : Nat) (want : Body → Bool) : Out :=
  .next (match s.arrived p with
    | none => s
    | some pk =>
      if !want pk.body then s
      else match pk.dst with
        | .core c => match (s.takePacket p).deliver c pk.body with
          | some t => t
          | none => s.park p
        | d => match pk.body with
          | .loss e g r => (s.takePacket p).hwLoss (destFloe d) (destPort d) pk.src e g r
          | .close e g => (s.takePacket p).dropHw pk.src e g
          | .redirect _ _ z src => (s.takePacket p).hwRedirect (destFloe d) (destPort d) z src
          | .credit e g n => (s.takePacket p).hostCredit pk.src e g n
          | .msg _ _ _ _ _ _ _ => s
          | _ => s.takePacket p)

def execMessageArrival (p : Nat) (s : State) : Out :=
  s.arrival p fun b => match b with | .msg _ _ _ _ _ _ _ => true | .notice _ _ _ => true | _ => false
def execCreditPacketArrival (p : Nat) (s : State) : Out :=
  s.arrival p fun b => match b with | .credit _ _ _ => true | .noteCredit _ _ _ => true | _ => false
def execClosePacketArrival (p : Nat) (s : State) : Out :=
  s.arrival p fun b => match b with | .close _ _ => true | _ => false
def execLossPacketArrival (p : Nat) (s : State) : Out :=
  s.arrival p fun b => match b with | .loss _ _ _ => true | _ => false
def execBoundArrival (p : Nat) (s : State) : Out :=
  s.arrival p fun b => match b with | .bound _ _ _ => true | _ => false
def execRedirectArrival (p : Nat) (s : State) : Out :=
  s.arrival p fun b => match b with | .redirect _ _ _ _ => true | _ => false
def execRedirectAckArrival (p : Nat) (s : State) : Out :=
  s.arrival p fun b => match b with | .redirectAck _ _ _ => true | _ => false

/-! ### Answers of units (R198, R207) -/

/-- A reply on a counted channel is placed in its slot, as any message (R32, R207, R436); which class and type its header
shows is left open (log 29). None while the slot is full or an engine holds it (R284). -/
def State.placeReply (s : State) (p : Nat) (c : CoreId) (e : EpId) (q : BitVec 16) (b : Body) : Option State :=
  let ep := s.epAt c e
  let i := ep.slotOf ((q - ep.rseq).toNat % ep.slots)
  if hdrF (s.rd8 (ep.slotKey c i)) || s.slotHeld c e i (answerData b).length then none
  else
    let (w, s1) := s.fresh
    let s2 := (s1.fillSlot c e i (w.toNat % 8) (w.toNat / 8 % 256) q (answerData b)).msgEvent c e true
    some { s2 with net := s2.net.modify p fun pk => { pk with parked := true, placed := true } }

/-- The reply in the head slot is taken (R198, R207). -/
def State.takeReply (s : State) (c : CoreId) (e : EpId) : State :=
  (s.freeSlot c e).mapEpAt c e fun ep => { ep with state := ep.state - 1, lacnt := ep.lacnt - 1 }

/-- A credit of a one-way protocol is counted (R198, R208). -/
def Endpoint.endCredit (ep : Endpoint) : Endpoint := { ep with state := ep.state - 1, lacnt := ep.lacnt - 1 }

/-- The access that an answer acknowledges is outstanding no longer, whatever becomes of the answer (R340, R386). -/
def State.acknowledgedBy (s : State) (c : CoreId) : Body → State
  | .memReply r _ _ => s.mapCore c fun x => { x with storeq := x.storeq.filter fun q => q.org != r.org }
  | _ => s

/-- An answer arrives on endpoint e of core c, open with the answer's generation. A numbered one goes through its slot, and the
channel's answers are taken in the order of their numbers (R207); `k` is what it does, none while an engine holds what it
writes (R267). -/
def State.replyOpen (s : State) (p : Nat) (pk : Packet) (c : CoreId) (e : EpId) (q : Option (BitVec 16)) (b : Body)
    (k : State → Option State) : State :=
  match q with
  | none => match k (((s.takePacket p).acknowledgedBy c b).mapEpAt c e Endpoint.endCredit) with
    | some t => t
    | none => s.park p
  | some q =>
    match if pk.placed then some s else s.placeReply p c e q b with
    | none => s.park p
    | some s1 =>
      if q != (s1.epAt c e).rseq then s1
      else match k (((s1.takePacket p).acknowledgedBy c b).takeReply c e) with
        | some t => t
        | none => s1

/-- An event by which packet p brings an answer to its core: `want` says whether it is of the event's kind, `k` what it does at
core c and endpoint e. A DELEGATING endpoint holds or forwards it (R217); one of another generation, and one not OPEN,
discards it (R190, R211). -/
def State.replyArrival (s : State) (p : Nat) (want : Body → Bool) (k : CoreId → EpId → Body → State → Option State) : Out :=
  .next (match s.arrived p with
    | none => s
    | some pk =>
      match pk.dst, pk.body with
      | .core c, .reply e g q b =>
        let ep := s.epAt c e
        if !want b then s
        else if ep.gen != g || !(ep.st == .open || ep.st == .delegating) then (s.takePacket p).acknowledgedBy c b
        else if ep.st == .delegating then ((s.takePacket p).deliver c pk.body).getD (s.park p)
        else s.replyOpen p pk c e q b (k c e b)
      | _, _ => s)

end Sys2Proof.Machine
end

