-- ==== Sys2Proof/Machine/Control.lean ====
section
/-! DEFINITION. Branches, jumps, hardware loops and predicates (R100 to R107), their compact forms, and the
illegal instruction (R73). -/

namespace Sys2Proof.Machine

/-- ILLEGAL_INSTRUCTION (R73): the trap of an encoding that is not an instruction. -/
def execIllegalInstruction (s : State) : Out := .next (s.trap { cause := cILLINSN })

/-! ### Branches (R101, R103) -/

/-- A conditional branch of `len` bytes by `off` bytes. -/
def State.branch (s : State) (len : Nat) (a b : Reg) (off : W) (f : W → W → Bool) : Out :=
  s.issueJump [a, b] [] [] fun l t =>
    .ok (if f (nthD 0 l 0) (nthD 0 l 1) then t.completeTo (t.ctx.pc + off) else t.complete len)

def execBeq (a b : BitVec 5) (o : BitVec 12) (s : State) : Out := s.branch 4 a b (offB o) fun a b => a == b
def execBne (a b : BitVec 5) (o : BitVec 12) (s : State) : Out := s.branch 4 a b (offB o) fun a b => a != b
def execBlt (a b : BitVec 5) (o : BitVec 12) (s : State) : Out :=
  s.branch 4 a b (offB o) fun a b => decide (a.toInt < b.toInt)
def execBge (a b : BitVec 5) (o : BitVec 12) (s : State) : Out :=
  s.branch 4 a b (offB o) fun a b => decide (a.toInt ≥ b.toInt)
def execBltu (a b : BitVec 5) (o : BitVec 12) (s : State) : Out :=
  s.branch 4 a b (offB o) fun a b => decide (a.toNat < b.toNat)
def execBgeu (a b : BitVec 5) (o : BitVec 12) (s : State) : Out :=
  s.branch 4 a b (offB o) fun a b => decide (a.toNat ≥ b.toNat)

/-- A branch on a predicate. -/
def State.branchP (s : State) (o : BitVec 12) (taken : Bool) : Out :=
  .next (if taken then s.completeTo (s.ctx.pc + offB o) else s.complete 4)

def execBpt (p : BitVec 3) (o : BitVec 12) (s : State) : Out := s.branchP o (s.ctx.rp p)
def execBpf (p : BitVec 3) (o : BitVec 12) (s : State) : Out := s.branchP o (!s.ctx.rp p)

def execCBeqz (d : BitVec 5) (o : BitVec 6) (s : State) : Out := s.branch 2 d 0 (cImm o * 2) fun a b => a == b
def execCBnez (d : BitVec 5) (o : BitVec 6) (s : State) : Out := s.branch 2 d 0 (cImm o * 2) fun a b => a != b

/-! ### Jumps (R102, R77) -/

/-- A jump by `off` bytes with its link in d. -/
def State.jumpBy (s : State) (len : Nat) (d : Reg) (off : W) : Out :=
  s.issueJump [] [d] [] fun _ t =>
    .ok ((t.setG d (t.ctx.pc + BitVec.ofNat 64 len)).completeTo (t.ctx.pc + off))

/-- A jump to a register and an offset; an odd target is kept for the fetch-alignment trap. -/
def State.jumpReg (s : State) (len : Nat) (d a : Reg) (off : W) : Out :=
  s.issueJump [a] [d] [] fun l t =>
    .ok ((t.setG d (t.ctx.pc + BitVec.ofNat 64 len)).completeTo (nthD 0 l 0 + off))

def execJal (d : BitVec 5) (o : BitVec 17) (s : State) : Out := s.jumpBy 4 d (offJ o)
def execJalr (d a : BitVec 5) (i : BitVec 12) (s : State) : Out := s.jumpReg 4 d a (immI i)
def execCJ (o : BitVec 11) (s : State) : Out := s.jumpBy 2 0 (cOffJ o)
def execCJal (o : BitVec 11) (s : State) : Out := s.jumpBy 2 1 (cOffJ o)
def execCJr (d : BitVec 5) (s : State) : Out := s.jumpReg 2 0 d 0

/-! ### Hardware loops (R105, R106) -/

/-- Inner levels abandoned and level n started (R106). -/
def Ctx.startLoop (c : Ctx) (n : Fin 3) (base stop : W) (cnt : BitVec 32) : Ctx :=
  let lc0 := if n.val > 0 then c.lc.set 0 0 else c.lc
  let lc1 := if n.val > 1 then lc0.set 1 0 else lc0
  { c with lc := lc1.set n cnt, lb := c.lb.set n base, le := c.le.set n stop }

/-- Whether the body nests in the active outer levels (R106). -/
def Ctx.nests (c : Ctx) (n : Nat) (stop : W) : Bool :=
  [0, 1, 2].all fun (m : Fin 3) => !(decide (m.val > n) && c.lc[m] != 0 && decide (c.le[m].toNat < stop.toNat))

/-- The context goes on in sequence after a loop instruction, with no loop-end action (R107). -/
def State.intoLoop (s : State) : State :=
  s.mapCtx fun c => ({ c.settle with pc := c.pc + 4, life := .runnable } : Ctx).honour s.me.cycle

/-- A loop instruction with count cnt and offset `off` halfwords. -/
def State.startLoop (s : State) (n : BitVec 2) (off cnt : Nat) : Res State :=
  let c := s.ctx
  let stop := c.pc + BitVec.ofNat 64 (2 * off)
  let lev : Fin 3 := if n = 0 then 0 else if n = 1 then 1 else 2
  if !c.nests lev.val stop then .trap illOpnd
  else
    let go := fun (t : State) => t.mapCtx fun c => c.startLoop lev (c.pc + 4) stop (BitVec.ofNat 32 cnt)
    if cnt = 0 then (s.lenAt stop).bind fun (len, t) => .ok ((go t).completeTo (stop + BitVec.ofNat 64 len))
    else .ok (go s).intoLoop

def execLoop (a : BitVec 5) (n : BitVec 2) (o : BitVec 15) (s : State) : Out :=
  s.issueJump [a] [] [] fun l t => t.startLoop n o.toNat (Nat.min (nthD 0 l 0).toNat (2 ^ 32 - 1))

def execLoopi (n : BitVec 2) (o : BitVec 10) (c : BitVec 10) (s : State) : Out :=
  s.finishJump (s.startLoop n o.toNat c.toNat)

/-! ### Predicates (R100) -/

/-- pD := f of predicates. -/
def State.predOp (s : State) (d : BitVec 3) (v : Bool) : Out := s.finish 4 (.ok (s.setP d v))

def execPand (d a b : BitVec 3) (s : State) : Out := s.predOp d (s.ctx.rp a && s.ctx.rp b)
def execPor (d a b : BitVec 3) (s : State) : Out := s.predOp d (s.ctx.rp a || s.ctx.rp b)
def execPxor (d a b : BitVec 3) (s : State) : Out := s.predOp d (s.ctx.rp a != s.ctx.rp b)
def execPandn (d a b : BitVec 3) (s : State) : Out := s.predOp d (s.ctx.rp a && !s.ctx.rp b)
def execPorn (d a b : BitVec 3) (s : State) : Out := s.predOp d (s.ctx.rp a || !s.ctx.rp b)
def execPnot (d a : BitVec 3) (s : State) : Out := s.predOp d (!s.ctx.rp a)
def execPmov (d a : BitVec 3) (s : State) : Out := s.predOp d (s.ctx.rp a)

def execPeq (d : BitVec 3) (a b : BitVec 5) (s : State) : Out := s.cmpP d a b fun a b => a == b
def execPne (d : BitVec 3) (a b : BitVec 5) (s : State) : Out := s.cmpP d a b fun a b => a != b
def execPlt (d : BitVec 3) (a b : BitVec 5) (s : State) : Out := s.cmpP d a b fun a b => decide (a.toInt < b.toInt)
def execPge (d : BitVec 3) (a b : BitVec 5) (s : State) : Out := s.cmpP d a b fun a b => decide (a.toInt ≥ b.toInt)
def execPltu (d : BitVec 3) (a b : BitVec 5) (s : State) : Out := s.cmpP d a b fun a b => decide (a.toNat < b.toNat)
def execPgeu (d : BitVec 3) (a b : BitVec 5) (s : State) : Out := s.cmpP d a b fun a b => decide (a.toNat ≥ b.toNat)

def execPget (d : BitVec 5) (s : State) : Out :=
  s.issue 4 [] [d] [] fun _ t => .ok (t.setG d (t.ctx.p.zeroExtend 64))

def execPput (a : BitVec 5) (s : State) : Out :=
  s.issue 4 [a] [] [] fun l t => .ok (t.mapCtx fun c => { c with p := (nthD 0 l 0).truncate 8 })

end Sys2Proof.Machine
end

