-- ==== Sys2Proof/Machine/Session.lean ====
section
/-! DEFINITION. Sessions: binding an endpoint, connection requests and their results, delegation's two ends,
closing, inspection, aliases and waiting (R195, R196, R200 to R202, R206, R215, R216, R222 to R225,
R232 to R241). -/

namespace Sys2Proof.Machine

/-! ### Binding operands -/

/-- Largest index of a unit kind, plus one (Table 10.2). -/
def unitRange : Nat → Nat
  | 1 => 8
  | 2 => 512
  | 3 => 512
  | 4 => 64
  | 6 => 1
  | _ => 0

/-- A peer word passes R223. -/
def State.peerOk (s : State) (w : W) : Bool :=
  wf w 1 11 == 0 &&
  (!wb w 0 ||
    (decide (unitIndex (wLoc w) < unitRange (unitKind (wLoc w))) && wGen w == 0 && locMod (wLoc w) == s.address))

/-- A buffer word passes R224 for a reference (R222). -/
def bufferOk (ref w : W) : Bool :=
  wf w 38 26 == 0 && (!wb w 37 || ref == 9) &&
  (if ref.toNat ≥ 16 then wf w 22 15 == 0 else decide (1 ≤ wf w 28 9 ∧ wf w 28 9 ≤ 257))

/-- A recovery word passes R225. -/
def recoveryOk (w : W) : Bool := wf w 0 11 == 0 && (wb w 11 || w == 0)

/-- The geometry of a binding (R206, R224). -/
structure Binding where
  entry : Nat
  role  : Nat
  base  : Nat
  slotu : Nat
  depth : Nat
  deriving DecidableEq, Repr

/-- The geometry that table entry n and a buffer word give. -/
def Core.binding (x : Core) (n : Nat) (buf : W) : Binding :=
  match if n < 16 then none else x.protos.find n with
  | some p => ⟨n, 0, wf buf 0 22, p.slotu, Nat.max 1 p.lar - 1⟩
  | none => ⟨n, wf buf 37 1, wf buf 0 22, wf buf 28 9, wf buf 22 6⟩

/-- Check 10 of Table 9.5. -/
def Core.bufferFits (x : Core) (b : Binding) : Bool :=
  b.base % 64 == 0 && inScratch x.part b.base ((b.depth + 1) * b.slotu * 16)

/-- A refusal with code n at endpoint e. -/
def Res.refuseIf {α : Type} (b : Bool) (e : EpId) (n : Nat) (k : Res α) : Res α :=
  if b then .trap (refuse e n) else k

/-- The table entry that a reference names: a built-in, or the loader's answer, for which the context first
waits with kind 5 (R169, R195, R196). The trap of a failed image names endpoint e. -/
def State.reference (s : State) (ref : W) (e : EpId) : Res Nat :=
  if ref.toNat < 16 then Res.refuseIf (ref.toNat > 10) e 9 (.ok ref.toNat)
  else match s.ctx.req with
    | some ⟨1, some (.loaded n _)⟩ => .ok n
    | some ⟨1, some (.failed d)⟩ =>
      .trap { cause := d.cause, addr := d.addr, detail := d.detail + if d.cause = cPROTOCOL then e.toNat else 0 }
    | some ⟨1, none⟩ => .block { kind := 5 } s
    | _ => .block { kind := 5 } (s.mapCtx fun c => { c with req := some ⟨1, none⟩ })

/-- PROTOCOL_IMAGE_LOAD (R195, R196): the loader reads, checks and installs the image that x0 of the waiting
context names. -/
def execProtocolImageLoad (c : CoreId) (k : CtxId) (s : State) : Out :=
  .next (match (s.ctxAt c k).req with
    | some ⟨1, none⟩ =>
      let answer := fun (s : State) (a : Answer) => s.mapCtxAt c k fun x => { x with req := some ⟨1, some a⟩ }
      match s.loadImage c ((s.ctxAt c k).rx 0) with
      | .held m => s.waitFor m
      | .bad t s => answer s (.failed ⟨t.cause, t.detail, t.addr, 0, 0, 0, none, none, none, false⟩)
      | .ok (n, x) s =>
        let old := (s.core c).protos.find n
        answer (s.setCore c x) (.loaded n (if x.protos.find n == old then none else some old))
    | _ => s)

/-- The image that the loader installed goes again, when its binding fails or is stopped and nothing else
has bound the entry: a failed binding leaves the protocol table unchanged (R195). -/
def State.unload (s : State) (c : CoreId) (k : CtxId) : State :=
  match (s.ctxAt c k).req with
  | some ⟨1, some (.loaded n (some old))⟩ =>
    if (s.core c).bound n (some k) then s
    else s.mapCore c fun x => { x with protos := match old with | some p => x.protos.put n p | none => x.protos.drop n }
  | _ => s

/-- What a binding instruction answers: its trap restores the protocol table. -/
def State.finishBind (s : State) (r : Res State) : Out :=
  match r with
  | .trap t => .next ((s.unload s.cur.core s.cur.ctx).trap t)
  | r => s.finish 4 r

/-! ### Opening an endpoint -/

/-- Bounds L of the counted built-ins (Table 9.6). -/
def boundL (n : Nat) : Nat := nthD 0 [32, 32, 32, 16, 16, 8, 8, 4] n

/-- Whether an endpoint's protocol is a counted built-in (R198). -/
def Endpoint.counted (ep : Endpoint) : Bool := decide (ep.proto.toNat < 8)

/-- PDEPTH at OPEN (R198, R200). -/
def pdepthOf (proto depth peer : Nat) : Nat :=
  if proto < 8 then Nat.min (boundL proto) (depth + 1) - 1
  else if proto = 8 then 31
  else if proto = 10 then 0
  else peer

/-- The binding of an endpoint, with its status. -/
def Endpoint.bindTo (ep : Endpoint) (b : Binding) (st : EpSt) : Endpoint :=
  { ep with
    st := st, proto := BitVec.ofNat 5 b.entry, role := b.role, base := BitVec.ofNat 22 b.base
    slotu := BitVec.ofNat 9 b.slotu, depth := BitVec.ofNat 6 b.depth }

/-- An endpoint enters OPEN (R189, R200, R205, R206): state 0, its slots empty. NV and NAMED change only where state 0 is
named (R205). -/
def State.openEp (s : State) (c : CoreId) (e : EpId) (peer : W) (peerDepth : Nat) (recov : W) (ini : Bool) : State :=
  let x := s.core c
  let p := (x.ep e).proto.toNat
  let named := decide (p < 16) || (x.img p).named.getLsbD 0
  (s.mapEpAt c e fun ep =>
    { ep with
      st := .open, gen := ep.gen + 1, state := 0, nv := named || ep.nv, named := if named then 0 else ep.named, lacnt := 0, sseq := 0, rseq := 0, head := 0
      paddr := wLoc peer, pgen := wGen peer, phw := wb peer 0
      pdepth := BitVec.ofNat 6 (pdepthOf p ep.depth.toNat peerDepth)
      raddr := wLoc recov, rgen := wGen recov, rv := wb recov 11, ini := ini, bindAs := 0, boundrx := false
      accept := false, request := none, asked := none, withdrawn := false, owed := 0, held := []
      carrier := none, first := none, forwarded := [] }).clearSlots c e

/-- The protocol that a bound endpoint names to its peer (R200). -/
def Core.protoOf (x : Core) (ep : Endpoint) : Proto :=
  match if ep.proto.toNat < 16 then none else x.protos.find ep.proto.toNat with
  | some p => .image p.image
  | none => .builtin ep.proto.toNat ep.role

/-- Answers a request with the result of a connection. -/
def State.answer (s : State) (c : CoreId) (r : ConnReq) (ok : Bool) (peer : W) (depth : Nat) : State :=
  s.sendCore c (.core (locCore (wLoc r.src))) false 16 (.connRes (locEp (wLoc r.src)) ok peer depth) (some (locMod (wLoc r.src)))

/-- A request held at an endpoint is answered as a mismatch (R200): where the owner binds it by `connect`, which the rule says, and by
`accept` of NOTE, `rjoin` and `delegate.rx`, of which it says nothing (DESIGN CHOICE, log 72). -/
def State.refuseAsked (s : State) (c : CoreId) (e : EpId) : State :=
  match (s.epAt c e).asked with
  | none => s
  | some r => (s.answer c r false 0 0).mapEpAt c e fun ep => { ep with asked := none }

/-- The owner of an endpoint finds the result of its `connect` or `accept` at its next issue. -/
def State.tell (s : State) (c : CoreId) (k : CtxId) (a : Answer) : State :=
  s.mapCtxAt c k fun x => { x with req := some ⟨2, some a⟩ }

/-- Both sides are present at the accepting end (R200): the job domains (R202), then duality (R201). -/
def State.matchUp (s : State) (c : CoreId) (e : EpId) (r : ConnReq) : State :=
  let x := s.core c
  let ep := x.ep e
  let own := x.protoOf ep
  let domOk := match own with | .image _ => r.dom == x.jdom | .builtin _ _ => true
  if domOk && dual r.proto own then
    let s1 := s.openEp c e r.src r.depth r.recov false
    let me := locW (s.locOf c e) (s1.epAt c e).gen
    (s1.answer c r true me ep.depth.toNat).tell c ep.owner (.value 0 0)
  else ((s.answer c r false 0 0).mapEpAt c e Endpoint.unbind).tell c ep.owner .mismatch

/-- The CONNMISMATCH trap (R200). -/
def connMismatch (e : EpId) : Trap := { cause := cCONNMISMATCH, detail := e.toNat }

/-- What an instruction finds that waits for the result of a connection: it completes, traps or waits on. -/
def State.connResult (s : State) (e : EpId) (k : Res State) : Res State :=
  match s.ctx.req with
  | some ⟨2, some .mismatch⟩ => .trap (connMismatch e)
  | some ⟨2, some _⟩ => .ok s
  | some ⟨2, none⟩ => .block { kind := 1, ep := e.toNat } s
  | _ => k

/-- The protocol and the kind of peer fit (R233). -/
def peerFits (n : Nat) (peer : W) : Bool :=
  let kind := unitKind (wLoc peer)
  match n with
  | 0 => wb peer 0 && kind == 1
  | 1 => wb peer 0 && kind == 1
  | 2 => wb peer 0 && kind == 2
  | 3 => wb peer 0 && kind == 3
  | 4 => wb peer 0 && kind == 4
  | 5 => wb peer 0 && kind == 2
  | 6 => wb peer 0 && kind == 2
  | 7 => false
  | 8 => wb peer 0 && kind == 6
  | 10 => false
  | _ => !wb peer 0

/-- An instruction that binds endpoint e, in the order of R74, as `State.onEp`. -/
def State.binds (s : State) (e : EpId) (src : List Reg) (pre : Res Unit) (k : List W → State → Res State) : Out :=
  s.checked src [] [] (pre.bind fun _ => Res.check (s.owns e) (epown e))
    (s.covering (fun d => d.ep == some e) (s.finishBind (s.withOperands src [] [] k)))

/-- CONNECT (R233). An endpoint that is not UNBOUND is refused with code 11, check 11 of Table 9.5, also where it is DELEGATING, of which
R215 says 12 (DESIGN CHOICE, log 70). -/
def execConnect (d : BitVec 5) (e : BitVec 6) (s : State) : Out :=
  let ref := s.ctx.rx 0
  let buf := s.ctx.rx 1
  let recov := s.ctx.rx 2
  s.binds e [d] (Res.check (bufferOk ref buf && recoveryOk recov) illOpnd) fun l t =>
    let peer := nthD 0 l 0
    t.connResult e <|
    if !t.peerOk peer then .trap illOpnd
    else if (t.ep e).st == .lost then .trap (peerLost e)
    else (t.reference ref e).bind fun n =>
      let b := t.me.binding n buf
      Res.refuseIf (!t.me.bufferFits b) e 10 <|
      Res.refuseIf ((t.ep e).st != .unbound) e 11 <|
      Res.refuseIf (!peerFits n peer) e 9 <|
      let c := t.cur.core
      let t1 := t.refuseAsked c e
      let ep := (t1.ep e).bindTo b .connecting
      let r : ConnReq :=
        ⟨locW (t.locOf c e) (ep.gen + 1), locEp (wLoc peer), wGen peer, t1.me.protoOf ep, t1.me.jdom, b.depth, recov⟩
      let t2 := t1.mapEp e fun _ =>
        { ep with request := some r, paddr := wLoc peer, pgen := wGen peer, phw := wb peer 0, ini := true }
      let t3 := t2.sendPeer c (t2.ep e) 64 (.connReq r)
      .block { kind := 1, ep := e.toNat } (t3.mapCtx fun c => { c with req := some ⟨2, none⟩ })

/-- ACCEPT (R234). With NOTE, which has no peer, a request held there is answered as a mismatch (log 72). -/
def execAccept (e : BitVec 6) (s : State) : Out :=
  let ref := s.ctx.rx 0
  let buf := s.ctx.rx 1
  s.binds e [] (Res.check (bufferOk ref buf) illOpnd) fun _ t =>
    t.connResult e <|
    if (t.ep e).st == .lost then .trap (peerLost e)
    else (t.reference ref e).bind fun n =>
      let b := t.me.binding n buf
      Res.refuseIf (decide (n < 9)) e 9 <|
      Res.refuseIf (!t.me.bufferFits b) e 10 <|
      Res.refuseIf ((t.ep e).st != .unbound) e 11 <|
      let c := t.cur.core
      let bound := t.mapEp e fun ep => ep.bindTo b .connecting
      if (n = 10 || (t.ep e).asked.isSome) && bound.slotsHeld c e true then .block { kind := 5 } t
      else if n = 10 then
        .ok (((t.refuseAsked c e).mapEp e fun ep => ep.bindTo b .connecting).openEp c e 0 0 0 false)
      else
        let t1 := (t.mapEp e fun ep => { ep.bindTo b .connecting with accept := true, ini := false }).mapCtx fun c =>
          { c with req := some ⟨2, none⟩ }
        .block { kind := 1, ep := e.toNat } (match (t1.ep e).asked with
          | none => t1
          | some r => t1.matchUp c e r)

/-! ### Requests and results on their way -/

/-- The peer location of a hardware unit that serves a built-in (Table 10.2). -/
def State.unitLoc (s : State) (d : Dest) (proto : Nat) : BitVec 36 :=
  let at_ := fun (die kind idx : Nat) => s.address ++ BitVec.ofNat 17 (die % 4 * 2 ^ 15 + kind * 2 ^ 12 + idx)
  match d with
  | .core c => locWord s.address c 0
  | .port c => at_ (c.toNat / 512) (if proto = 3 then 3 else 2) (c.toNat % 512)
  | .ctrl m => at_ (m.toNat / 8) 1 (m.toNat % 8)
  | .floe f => at_ (f.toNat / 64) 4 (f.toNat % 64)
  | .host => at_ 0 6 0

/-- The number of a built-in, as a request names it. -/
def protoNum : Proto → Nat
  | .builtin n _ => n
  | .image _ => 16

/-- Whether a host channel is open (R422): until its core endpoint is UNBOUND, or, where that is in another module, until it
is told. One whose `connect` is under way comes with the
next generation. -/
def State.hostOpen (s : State) (ch : HostChan) : Bool :=
  let ep := s.epAt ch.core ch.ep
  if ch.cmod != s.address then true
  else if ep.st == .connecting then ep.gen + 1 == ch.gen else s.bears ch.core ch.ep ch.gen

/-- A hardware unit answers a request (R233): the host endpoint with its 1,024 channels open answers a
mismatch (R422). -/
def State.unitAnswer (s : State) (d : Dest) (r : ConnReq) : State :=
  let core := locCore (wLoc r.src)
  let res := fun (s : State) (ok : Bool) => s.send (destFloe d) (.core core) none 16 (.connRes (locEp (wLoc r.src)) ok 1 0) none (coreAt (destFloe d) 0) (destPort d)
  let taken := fun n => s.chans.any fun p => p.1 == n && s.hostOpen p.2
  match (if d = .host then (List.range 1024).find? fun n => !taken n else some 0) with
  | none => res s false
  | some n =>
    let unit := s.unitLoc d (protoNum r.proto)
    let s1 := { s with hwEnds := s.hwEnds ++ [⟨unit, core, locEp (wLoc r.src), wGen r.src, 1, protoNum r.proto, 0, 0, r.recov, locMod (wLoc r.src)⟩] }
    let s2 : State :=
      if d = .host then
        { s1 with
          chans := s1.chans.put n ⟨core, locEp (wLoc r.src), wGen r.src, 0, 0, r.depth, [], 0, locMod (wLoc r.src)⟩
          hostOut := s1.hostOut ++ [.chanTable n core (locEp (wLoc r.src))] }
      else s1
    res s2 true

/-- CONNECTION_REQUEST_ARRIVAL (R190, R200). -/
def execConnectionRequestArrival (p : Nat) (s : State) : Out :=
  .next (match s.arrived p with
    | none => s
    | some pk =>
      match pk.body, pk.dst with
      | .connReq r, .core c =>
        let s1 := s.takePacket p
        let e := r.ep
        let ep := s1.epAt c e
        if r.pgen != ep.gen then s1
        else if ep.asked.isSome then s1.answer c r false 0 0
        else if ep.st == .unbound then s1.mapEpAt c e fun ep => { ep with asked := some r }
        else if ep.st == .connecting && ep.accept then if s1.slotsHeld c e true then s.park p else s1.matchUp c e r
        else s1.answer c r false 0 0
      | .connReq r, d => (s.takePacket p).unitAnswer d r
      | _, _ => s)

/-- CONNECTION_RESULT_ARRIVAL (R200): the requester opens, or returns to UNBOUND. -/
def execConnectionResultArrival (p : Nat) (s : State) : Out :=
  .next (match s.arrived p with
    | none => s
    | some pk =>
      match pk.body, pk.dst with
      | .connRes e ok peer depth, .core c =>
        let s1 := s.takePacket p
        let ep := s1.epAt c e
        match ep.st, ep.request with
        | .connecting, some r =>
          if ok && s1.slotsHeld c e true then s.park p
          else if ok then
            let peer := if ep.phw then mkW [(ep.paddr.toNat, 28), (1, 0)] else peer
            (s1.openEp c e peer depth r.recov true).tell c ep.owner (.value 0 0)
          else (s1.mapEpAt c e fun ep => { ep.unbind with request := none }).tell c ep.owner .mismatch
        | _, _ => s1
      | _, _ => s)

/-- Whether the result of the connection that endpoint e of core c asked for is on its way. -/
def State.resultComes (s : State) (c : CoreId) (e : EpId) : Bool :=
  s.net.any fun q => q.dst == .core c && q.dmod == s.address && match q.body with | .connRes e' _ _ _ => e' == e | _ => false

/-- CONNECT_WITHDRAWAL (R235): a request still held is dropped, and the requester told; its endpoint returns to UNBOUND and
the STOP held pending takes effect. Where duality has run, its result stands (log 12). -/
def execConnectWithdrawal (p : Nat) (s : State) : Out :=
  .next (match s.arrived p with
    | none => s
    | some pk =>
      match pk.body, pk.dst with
      | .withdraw e _ src, .core c =>
        let s1 := s.takePacket p
        let ep := s1.epAt c e
        let held := ep.asked.any fun r => r.src == src
        if !held && ep.st == .open && ep.paddr == wLoc src && ep.pgen == wGen src then s1
        else
          (if held then s1.mapEpAt c e fun ep => { ep with asked := none } else s1).sendCore c (.core (locCore (wLoc src))) false 0
            (.withdrawn (locEp (wLoc src))) (some (locMod (wLoc src)))
      | .withdrawn e, .core c =>
        let s1 := s.takePacket p
        let ep := s1.epAt c e
        if ep.st != .connecting || !ep.withdrawn || s1.resultComes c e then s1
        else
          (s1.mapEpAt c e fun ep => { ep.unbind with request := none }).mapCtxAt c ep.owner fun k =>
            if k.heldStop then k.stop (s1.core c).cycle else k
      | _, _ => s)

/-- A STOP reaches a context in a binding instruction (R235). Answers the state, and whether the STOP is
held pending. A request that no end holds goes with it: one still in flight (log 12), one that was discarded (R190), one to an
address that names no module, or a lost one (R437, R448). -/
def State.stopBinding (s : State) (c : CoreId) (k : CtxId) : State × Bool :=
  let s := s.unload c k
  match (s.ctxAt c k).req, allEps.find? fun e => (s.epAt c e).st == .connecting && (s.epAt c e).owner == k with
  | some ⟨2, some _⟩, _ => (s, true)
  | some ⟨2, none⟩, some e =>
    let ep := s.epAt c e
    match ep.request with
    | none => (s.mapEpAt c e Endpoint.unbind, false)
    | some r =>
      let mine := fun (q : Packet) => match q.body with | .connReq r' => r' == r | _ => false
      let here := locMod ep.paddr == s.address
      let held := (s.epAt (locCore ep.paddr) (locEp ep.paddr)).asked == some r
      let nowhere := !s.isModule (locMod ep.paddr) || s.lostTab.contains (locMod ep.paddr)
      if s.resultComes c e || ep.withdrawn then (s, true)
      else if s.net.any mine || ep.phw || nowhere || (here && !held) then
        ({ s with net := s.net.filter fun q => !mine q }.mapEpAt c e fun ep => { ep.unbind with request := none }, false)
      else
        ((s.sendPeer c ep 0 (.withdraw (locEp ep.paddr) r.pgen r.src)).mapEpAt c e fun ep => { ep with withdrawn := true }, true)
  | _, _ => (s, false)

/-! ### Delegation -/

/-- The recv or send of an endpoint that the carrier's state allows (R203). -/
def State.carrierMove (s : State) (e : EpId) (action typ : Nat) : Res Nat :=
  match (s.trans e).find? fun t => t.action == action && t.typ == typ && t.cls == 5 with
  | some t => if (s.ep e).isUser then .ok t.goesTo else .trap (refuse e 0)
  | none => .trap (refuse e 0)

/-- DELEGATE (R215, R236): the operand and the owner of Y first, then the order of R74. -/
def execDelegate (d : BitVec 5) (l : BitVec 8) (e : BitVec 6) (s : State) : Out :=
  match s.operands [d] [] [] with
  | .ok vs =>
    let g := nthD 0 vs 0
    let y : EpId := g.truncate 6
    s.checked [d] [] [] ((Res.check (wf g 6 58 == 0) illOpnd).bind fun _ => (Res.check (s.owns y) (epown y)).bind fun _ =>
      Res.check (s.owns e) (epown e)) <|
    s.covering (fun f => f.ep == some e || f.ep == some y) <| s.issue 4 [d] [] [] fun _ t =>
      (t.mustOpen e).bind fun _ => (t.carrierMove e 4 l.toNat).bind fun goesTo =>
      let ey := t.ep y
      if ey.st == .lost then .trap (peerLost y)
      else Res.refuseIf (ey.st != .open || ey.bindAs != 0 || y == e) y 12 <|
      if ey.counted && ey.state != 0 then .block { kind := 5, ep := y.toNat } t
      else if (t.ep e).full then .block { kind := 2, ep := e.toNat } t
      else
        let c := t.cur.core
        let t1 := if ey.phw then t else t.sendCredits c y
        let words := [ey.word 0, ey.word 1, ey.word 2, ey.word 3, locW (t.locOf c y) ey.gen, t.me.fprint ey.proto.toNat]
        let t2 := t1.mapEp y fun ep =>
          { ep with
            st := .delegating, boundrx := false, held := [], first := none, forwarded := []
            carrier := some (e, (t1.ep e).gen) }
        .ok ((t2.transmit c e 5 l.toNat (words.flatMap fun w => leBytes 8 w.toNat)).toState e goesTo)
  | r => s.checked [d] [] [] (Res.check (s.owns e) (epown e)) (s.finish 4 (r.bind fun _ => .ok s))

/-- Z as it takes the payload of an endpoint (R216). PROTO is the receiver's own table entry of the protocol whose fingerprint has
matched, not the sender's (DESIGN CHOICE, log 74). -/
def Endpoint.receive (z : Endpoint) (b : Binding) (k : CtxId) (w0 w1 w2 w3 : W) : Endpoint :=
  { z.bindTo b .open with
    owner := k, gen := z.gen + 1
    state := BitVec.ofNat 6 (wf w0 46 6), nv := wb w0 45, named := BitVec.ofNat 6 (wf w0 39 6)
    lacnt := BitVec.ofNat 7 (wf w0 32 7), sseq := BitVec.ofNat 16 (wf w0 0 16)
    paddr := wLoc w1, pgen := wGen w1, phw := wb w1 0
    rseq := BitVec.ofNat 16 (wf w2 5 16), pdepth := BitVec.ofNat 6 (wf w2 21 6)
    raddr := wLoc w3, rgen := wGen w3, rv := wb w3 11, ini := wb w3 10
    bindAs := 0, boundrx := false, head := 0
    accept := false, request := none, asked := none, withdrawn := false, owed := 0, held := []
    carrier := none, first := none, forwarded := [], inSlots := [] }

/-- DELEGATE.RX (R216, R237). A request held at Z is answered as a mismatch (log 72). The x values that it consumes are checked, then that the carrier, which it names, is owned (R74,
log 33). -/
def execDelegateRx (d : BitVec 5) (l : BitVec 8) (e : BitVec 6) (s : State) : Out :=
  let named : Option EpId := match s.operands [d] [] [] with | .ok vs => some ((nthD 0 vs 0).truncate 6) | _ => none
  s.checked [d] [] [] ((Res.check (bufferOk (s.ctx.rx 0) (s.ctx.rx 1)) illOpnd).bind fun _ => Res.check (s.owns e) (epown e)) <|
  s.covering (fun f => f.ep == some e || named.any fun z => f.ep == some z && s.owns z) <|
  s.finishBind <| s.withOperands [d] [] [] fun vs t =>
    let g := nthD 0 vs 0
    let z : EpId := g.truncate 6
    let ref := t.ctx.rx 0
    let buf := t.ctx.rx 1
    let c := t.cur.core
    if wf g 6 58 != 0 then .trap illOpnd
    else if !t.owns z then .trap (epown z)
    else if (t.ep z).st == .lost then .trap (peerLost z)
    else Res.refuseIf ((t.ep z).st != .unbound) z 11 <|
      (t.mustOpen e).bind fun _ => (t.carrierMove e 5 l.toNat).bind fun goesTo => (t.headOf e).bind fun h =>
      if hdrTyp h != l.toNat || hdrCls h != 5 then .trap (refuse e 0)
      else (t.reference ref z).bind fun n =>
        let b := t.me.binding n buf
        let k := (t.ep e).slotKey c (t.ep e).head.toNat + 16
        let w := fun i => t.rd8 (k + 8 * i)
        t.unheld k 48 false <|
        Res.refuseIf (!t.me.bufferFits b) z 10 <|
        Res.refuseIf (t.me.fprint n != w 5) z 12 <|
        if (t.mapEp z fun ep => ep.bindTo b .open).slotsHeld c z true then .block { kind := 5 } t else
        let t1 := (((t.refuseAsked c z).mapEp z fun ep => ep.receive b t.cur.ctx (w 0) (w 1) (w 2) (w 3)).clearSlots c z)
        let t2 := (t1.freeSlot c e).toState e goesTo
        let from_ := wLoc (w 4)
        .ok (t2.sendCore c (.core (locCore from_)) false 0
          (.bound (locEp from_) (wGen (w 4)) (locW (t2.locOf c z) (t2.ep z).gen)) (some (locMod from_)))

/-! ### Closing, inspection, aliases, waiting -/

/-- CLOSE (R211, R238). -/
def execClose (e : BitVec 6) (s : State) : Out :=
  s.onEp e [] [] [] (.ok ()) fun _ t =>
    let ep := t.ep e
    let gone := fun (t : State) => t.mapEp e Endpoint.unbind
    match ep.st with
      | .unbound => .trap (refuse e 11)
      | .connecting => .trap (refuse e 0)
      | .delegating => .trap (refuse e 12)
      | .peerClosed => .ok (gone t)
      | .lost => .ok (gone t)
      | .open =>
        if ep.isUser && !((t.trans e).any fun r => r.action == 6) then .trap (refuse e 0)
        else if ep.counted && ep.state != 0 then .block { kind := 5, ep := e.toNat } t
        else if ep.proto == 10 then .ok (gone t)
        else .ok (gone (t.sendPeer t.cur.core ep 0 (.close (ep.toPeer e).1 (ep.toPeer e).2)))

/-- PROBE (R239). -/
def execProbe (d : BitVec 5) (l : BitVec 8) (e : BitVec 6) (s : State) : Out :=
  s.checked [] [d] [] (Res.check (s.owns e || s.cur.ctx == 0) (epown e)) <|
  s.issue 4 [] [d] [] fun _ t =>
    let ep := t.ep e
    let h := t.slotHeader t.cur.core e 0
    t.unheld (t.headKey e) (if l = 4 && ep.st != .unbound then 16 else 0) false <|
    let v : W := match l.toNat with
      | 4 => if hdrF h && ep.st != .unbound then h else 0
      | 5 => if ep.st == .unbound then 0 else t.me.fprint ep.proto.toNat
      | n => ep.word n
    .ok (t.setG d v)

/-- SBIND (R220, R241). -/
def State.sbind (s : State) (e : EpId) (role : Nat) (bindAs : BitVec 2) : Out :=
  s.onEp e [] [] [] (.ok ()) fun _ t =>
    let ep := t.ep e
    (t.mustOpen e).bind fun _ =>
      Res.refuseIf (ep.proto != 9 || (bindAs != 0 && ep.role != role)) e 9 <|
      if bindAs != 0 && allEps.any fun f => f != e && (t.ep f).bindAs == bindAs && (t.ep f).owner == t.cur.ctx then
        .trap illOpnd
      else .ok (t.mapEp e fun ep => { ep with bindAs := bindAs })

def execSbindG30 (e : BitVec 6) (s : State) : Out := s.sbind e 0 1
def execSbindG31 (e : BitVec 6) (s : State) : Out := s.sbind e 1 2
def execSbindOff (e : BitVec 6) (s : State) : Out := s.sbind e 0 0

/-- WAITE (R240). -/
def execWaite (d : BitVec 5) (s : State) : Out :=
  s.issue 4 [d] [d] [] fun l t =>
    let mine := allEps.filter fun e => (nthD 0 l 0).getLsbD e.toNat && t.owns e
    let ready := fun (e : EpId) =>
      let ep := t.ep e
      ep.st == .peerClosed || ep.st == .lost ||
        (ep.st != .unbound && ep.st != .connecting && hdrF (t.slotHeader t.cur.core e 0))
    if mine.isEmpty then .trap illOpnd
    else if mine.any fun e => (t.ep e).st != .unbound && (t.ep e).st != .connecting && t.heldAt t.cur.core (t.headKey e) 16 false then
      .block { kind := 5 } t
    else match mine.find? ready with
      | some e => .ok (t.setG d (BitVec.ofNat 64 e.toNat))
      | none => .block { kind := 1 } t

end Sys2Proof.Machine
end

