-- ==== Sys2Proof/Machine/Global.lean ====
section
/-! DEFINITION. Global memory and windows: the GMEM instructions, the memory controllers, window accesses at their
target and what returns (R176, R177, R242 to R250, R339 to R343, R351, R385 to R387, R418). -/

namespace Sys2Proof.Machine

/-! ### Checks and counts of a request -/

/-- Endpoint checks of a GMEM or engine instruction (R243) after its ownership: status, protocol, slot size. -/
def State.mayUse (s : State) (e : EpId) (proto need : Nat) : Res Unit :=
  (s.mustOpen e).bind fun _ =>
    Res.refuseIf ((s.ep e).proto.toNat != proto || decide ((s.ep e).slotu.toNat * 16 < need + 16)) e 0 (.ok ())

/-- A global address (R244): alignment, translation, permission; a page that maps a pool fails the permission
step. Answers physical address and key. -/
def State.globalAddr (s : State) (va : W) (n : Nat) (need : Need) : Res (Nat × Nat) :=
  if va.toNat % n != 0 then .trap { cause := cMISALIGN, addr := va }
  else (s.xlate va cXLATE).bind fun e =>
    let prot : Trap := { cause := cPROT, detail := e.level * 256 + 4, addr := va }
    if !need.granted e.pte then .trap prot
    else match e.home va.toNat with
      | .backing pa key => .ok (pa, key)
      | .pool _ _ => .trap prot

/-- Waits for room below the bound of outstanding requests (R198, R243). -/
def State.underBound (s : State) (e : EpId) : Res Unit :=
  if (s.ep e).state.toNat ≥ (s.ep e).pdepth.toNat + 1 then .block { kind := 2, ep := e.toNat } s else .ok ()

/-- Waits for room in a class counter (R278). -/
def State.classRoom (s : State) (cls : Cls) : Res Unit :=
  if s.ctx.count cls ≥ 65535 then .block { kind := 5 } s else .ok ()

/-- Waits until no access to the same serving controller is outstanding through another peer (R386). -/
def State.onePeer (s : State) (e : EpId) (pa peer : Nat) : Res Unit :=
  if s.me.storeq.any fun q => q.serving == (servingCtrl pa).toNat && q.peer != peer then
    .block { kind := 2, ep := e.toNat } s
  else .ok ()

/-- A request is counted at its endpoint (R198, R228); it carries the credits owed (R208). -/
def Endpoint.addReq (ep : Endpoint) : Endpoint :=
  { ep with state := ep.state + 1, lacnt := ep.lacnt + 1, sseq := ep.sseq + 1, owed := 0 }

/-- The origin and the transaction number of a request that blocks its context. -/
def State.newTxn (s : State) : Origin × Nat × State :=
  (s.origin, 1000 + s.ctx.nextOp, s.mapCtx fun c => { c with nextOp := c.nextOp + 1 })

/-- An answer for the transaction that a context waits for. -/
def State.give (s : State) (c : CoreId) (k : CtxId) (txn : Nat) (a : Answer) : State :=
  s.mapCtxAt c k fun x => if x.req == some ⟨txn, none⟩ then { x with req := some ⟨txn, some a⟩ } else x

/-- A failed request as the fault of its origin. -/
def originFault (o : Origin) (cause detail : Nat) (addr : W) : Deferred :=
  ⟨cause, detail, addr, o.fpc, 0, o.insn, none, none, none, false⟩

/-- An instruction that blocks until its own answer arrives (R152, R245): `first` sends the request. Its own fault is taken at
the instruction also where four faults are pending, and is then no fifth that R151 would drop (log 69). -/
def State.await (s : State) (e : EpId) (first : Res State) (done : W → BitVec 5 → Res State) : Res State :=
  match s.ctx.req with
  | none => match first with
    | .ok t => .block { kind := 1, ep := e.toNat } t
    | r => r
  | some ⟨_, none⟩ => .block { kind := 1, ep := e.toNat } s
  | some ⟨_, some (.value w f)⟩ => done w f
  | some ⟨_, some (.failed d)⟩ => .trap d.asTrap
  | some ⟨_, some _⟩ => .trap (refuse e 0)

/-! ### Global loads and stores (R245, R246) -/

/-- The number of the controller that an endpoint names. -/
def Endpoint.ctrl (ep : Endpoint) : Nat := match peerDest ep.phw ep.paddr with | .ctrl m => m.toNat | _ => 0

/-- A request goes to the peer controller, in the core's issue order (R246). A load takes with it the bytes of the stores that
the core's store queue holds (R340, log 13). -/
def State.sendMem (s : State) (r : MemReq) : State :=
  let c := s.cur.core
  let fwd := if r.write then [] else s.me.forwardedBy r.pa r.size
  let s1 := (s.mapEp r.ep Endpoint.addReq).mapMe fun x =>
    { x with storeq := x.storeq ++ [⟨(servingCtrl r.pa).toNat, r.peer, r.ep, r.org, r.pa, r.data⟩] }
  s1.sendCore c (.ctrl (BitVec.ofNat 5 r.peer)) true r.data.length (.mem { r with fwd := fwd })

/-- The checks of a global access of n bytes at va, and what it waits for (R243, R244, R278, R386); then `k` on
the memory key of its local operand and the request it sends. -/
def State.globally (s : State) (e : EpId) (write : Bool) (n : Nat) (va : W) (cls : Option Cls) (operand : Res Nat)
    (k : Nat → MemReq → Res State) : Res State :=
  (s.mayUse e (b2n write) (Nat.max 8 n)).bind fun _ =>
  (s.globalAddr va n { r := !write, w := write }).bind fun (pa, key) =>
  operand.bind fun o =>
  (s.underBound e).bind fun _ =>
  (s.onePeer e pa (s.ep e).ctrl).bind fun _ =>
  (match cls with | some c => s.classRoom c | none => .ok ()).bind fun _ =>
    k o ⟨s.origin, 0, e, (s.ep e).gen, (s.ep e).ctrl, write, pa, va, n, key, [], o, []⟩

def execGld (d a : BitVec 5) (u : BitVec 1) (e : BitVec 6) (sz : BitVec 2) (s : State) : Out :=
  s.onEp e [a] [d] [] (.ok ()) fun l t =>
    let n := 2 ^ sz.toNat
    t.await e
      (t.globally e false n (nthD 0 l 0) none (.ok 0) fun _ r =>
        let (_, txn, t1) := t.newTxn
        .ok ((t1.mapCtx fun c => { c with req := some ⟨txn, none⟩ }).sendMem { r with txn := txn }))
      fun w _ => .ok (t.setG d (extend (u == 0) n w.toNat))

def execGst (d a : BitVec 5) (e : BitVec 6) (sz : BitVec 2) (s : State) : Out :=
  s.onEp e [a, d] [] [] (.ok ()) fun l t =>
    let n := 2 ^ sz.toNat
    t.globally e true n (nthD 0 l 0) (some .gstore) (.ok 0) fun _ r =>
      .ok ((t.mapCtx fun c => c.launch .gstore true (some e)).sendMem { r with data := leBytes n (nthD 0 l 1).toNat })

def execGvld (d a : BitVec 5) (e : BitVec 6) (s : State) : Out :=
  s.onEp e [a, d] [] [] (.ok ()) fun l t =>
    t.globally e false 128 (nthD 0 l 0) (some .gload) (t.access (nthD 0 l 1) 128 128 { w := true }) fun _ r =>
      .ok ((t.mapCtx fun c => c.launch .gload true (some e)).sendMem r)

def execGvst (d a : BitVec 5) (e : BitVec 6) (s : State) : Out :=
  s.onEp e [a, d] [] [] (.ok ()) fun l t =>
    t.globally e true 128 (nthD 0 l 0) (some .gstore) (t.access (nthD 0 l 1) 128 128 { r := true }) fun k r =>
      let t1 := t.correct t.cur.core k 128
      .ok ((t1.mapCtx fun c => c.launch .gstore true (some e)).sendMem { r with data := memReads t1.mem k 128 })

/-! ### At the controllers (R385 to R387, R418) -/

/-- A request that stands at a controller: the packet, the controller and the request. -/
def State.atCtrl (s : State) (p : Nat) : Option (BitVec 5 × MemReq) :=
  (s.arrived p).bind fun pk =>
    match pk.dst, pk.body with
    | .ctrl m, .mem r => some (m, r)
    | _, _ => none

/-- A store has been performed (R337, R340): the queue forwards it no longer, and the loads behind it on the way read it at its
home. -/
def State.stored (s : State) (r : MemReq) : State :=
  let later := fun (q : Packet) => match q.body with
    | .mem x => if x.org.core == r.org.core then { q with body := .mem { x with fwd := x.fwd.filter fun f => f.2.2 != r.org } } else q
    | _ => q
  ({ s with net := s.net.map later } : State).mapCore r.org.core fun x =>
    { x with storeq := x.storeq.map fun q => if q.org == r.org then { q with data := [] } else q }

/-- A request at the serving controller: performed, and answered straight to its core (R385 to R387). An end that is gone takes
none (R211), and the operation of an endpoint that is bound no more writes nothing (R432). A load has in `fwd` what stores
before it that failed would have written, and returns it (R340, log 13). An error status names the dword (Table 17.2). -/
def State.perform (s : State) (p : Nat) (m : BitVec 5) (r : MemReq) : State :=
  let s1 := s.takePacket p
  if (s1.hwFind r.org.core r.ep r.gen).isNone then s1
  else
    let s2 := if r.peer == m.toNat then s1.hwTakes r.org.core r.ep r.gen else s1
    let reply := fun (t : State) (v : Verdict) (l : List Byte) =>
      t.hwReply (ctrlFloe m) 5 r.org.core r.ep r.gen true l.length (.memReply r v l)
    let err : Verdict := .dataErr (BitVec.ofNat 64 (s2.ctrlBad r.pa r.size r.write))
    let fwd := r.fwd.map fun f => (f.1, f.2.1)
    if r.write then
      if !s2.bears r.org.core r.ep r.gen then reply s2 .ok []
      else match s2.ctrlWrite r.key r.pa r.data with
        | none => reply s2 err []
        | some t => reply (t.stored r) .ok []
    else match s2.ctrlRead r.key r.pa r.size with
      | none => if fwd.length = r.size then reply s2 .ok (fwd.map fun f => f.2) else reply s2 err []
      | some (l, t) => reply t .ok (overlay fwd l)

/-- MEMRD_REQUEST (R387). -/
def execMemrdRequest (p : Nat) (s : State) : Out :=
  .next (match s.atCtrl p with
    | some (m, r) => if servingCtrl r.pa == m && !r.write then s.perform p m r else s
    | none => s)

/-- MEMWR_REQUEST (R387). -/
def execMemwrRequest (p : Nat) (s : State) : Out :=
  .next (match s.atCtrl p with
    | some (m, r) => if servingCtrl r.pa == m && r.write then s.perform p m r else s
    | none => s)

/-- REQUEST_FORWARD (R386): on ordered lanes to the serving controller. -/
def execRequestForward (p : Nat) (s : State) : Out :=
  .next (match s.atCtrl p with
    | some (m, r) =>
      if servingCtrl r.pa == m then s
      else if (s.hwFind r.org.core r.ep r.gen).isNone then s.takePacket p
      else ((s.takePacket p).hwTakes r.org.core r.ep r.gen).sendCtrl m (.ctrl (servingCtrl r.pa)) r.data.length (.mem r) true
    | none => s)

/-! ### Replies of controllers (R245) -/

/-- MEMRD_REPLY_ARRIVAL (R245): a `gld` finds its value or its fault; a `gvld` writes its 128 bytes, once no tile
operation holds them (R267). -/
def execMemrdReplyArrival (p : Nat) (s : State) : Out :=
  s.replyArrival p (fun b => match b with | .memReply r _ _ => !r.write | _ => false) fun c _ b s =>
    match b with
    | .memReply r v l =>
      let held := (s.core c).excluded (r.dst - poolKey c 0) 128 true || (s.core c).gaussHolds r.dst 128
      match r.txn, v with
      | 0, .ok => if held then none else some ((s.wr r.dst l).finishOp r.org none)
      | 0, _ => some (s.finishOp r.org (some (cDATAERR, 0, r.va)))
      | n, .ok => some (s.give c r.org.ctx n (.value (BitVec.ofNat 64 (leNat l)) 0))
      | n, _ => some (s.give c r.org.ctx n (.failed (originFault r.org cDATAERR 0 r.va)))
    | _ => none

/-- MEMWR_ACK_ARRIVAL (R245): the global store retires. -/
def execMemwrAckArrival (p : Nat) (s : State) : Out :=
  s.replyArrival p (fun b => match b with | .memReply r _ _ => r.write | _ => false) fun _ _ b s =>
    match b with
    | .memReply r v _ => some (s.finishOp r.org (if v == .ok then none else some (cDATAERR, 0, r.va)))
    | _ => none

/-! ### Window accesses (R247 to R250) -/

/-- The checks of a window access to n bytes at va, and what it waits for; then `k` on the endpoint (R243, R247). -/
def State.windowed (s : State) (e : EpId) (n : Nat) (va : W) (cls : Option Cls) (k : Res State) : Res State :=
  (s.mayUse e 2 (Nat.max 8 n)).bind fun _ =>
    if wf va 22 42 != 0 then .trap illOpnd
    else if va.toNat % n != 0 then .trap { cause := cMISALIGN, addr := va }
    else (s.underBound e).bind fun _ =>
      (match cls with | some c => s.classRoom c | none => .ok ()).bind fun _ => k

/-- A window packet to the target, in the order of its endpoint (R250). -/
def State.sendWindow (s : State) (e : EpId) (bytes : Nat) (b : Body) : State :=
  let c := s.cur.core
  let ep := s.ep e
  (s.mapEp e Endpoint.addReq).send (floeOf c) (peerDest ep.phw ep.paddr) (some (1048576 + c.toNat * 64 + e.toNat)) bytes b none c

/-- The request of a window access that the issuing context makes. -/
def State.winReq (s : State) (e : EpId) (txn : Nat) (kind : WinKind) (off n : Nat) (data : List Byte) : WinReq :=
  ⟨s.origin, txn, e, (s.ep e).gen, s.cur.core, kind, off, n, data⟩

/-- A window access that blocks until its reply (R247, R248). -/
def State.windowWait (s : State) (e : EpId) (n : Nat) (va : W) (kind : WinKind) (data : List Byte)
    (done : W → BitVec 5 → Res State) : Res State :=
  s.await e
    (s.windowed e n va none
      (let (_, txn, t1) := s.newTxn
       .ok ((t1.mapCtx fun c => { c with req := some ⟨txn, none⟩ }).sendWindow e data.length
         (.win (s.winReq e txn kind va.toNat n data)))))
    done

def execWrd (d a : BitVec 5) (u : BitVec 1) (e : BitVec 6) (sz : BitVec 2) (s : State) : Out :=
  s.onEp e [a] [d] [] (.ok ()) fun l t =>
    let n := 2 ^ sz.toNat
    t.windowWait e n (nthD 0 l 0) .read [] fun w _ => .ok (t.setG d (extend (u == 0) n w.toNat))

def execWwr (d a : BitVec 5) (e : BitVec 6) (sz : BitVec 2) (s : State) : Out :=
  s.onEp e [a, d] [] [] (.ok ()) fun l t =>
    let n := 2 ^ sz.toNat
    let va := nthD 0 l 0
    t.windowed e n va (some .gstore)
      (let data := leBytes n (nthD 0 l 1).toNat
       .ok ((t.mapCtx fun c => c.launch .gstore true (some e)).sendWindow e n (.win (t.winReq e 0 .write va.toNat n data))))

def execWamo (d a : BitVec 5) (e : BitVec 6) (o : BitVec 5) (s : State) : Out :=
  s.onEp e [a, d] [d] [] (.ok ()) fun l t =>
    let n := portSize o.toNat
    t.windowWait e n (nthD 0 l 0) (.amo o.toNat (t.ctx.rx 7)) (leBytes n (nthD 0 l 1).toNat) fun w f =>
      .ok ((t.setG d w).orFlags t.cur.core t.cur.ctx f)

/-- x5 of `wpm` names a record in the pool (R249). -/
def wpmOk (x5 : W) : Bool :=
  wf x5 28 36 == 0 && wf x5 0 22 % 8 == 0 && decide (wf x5 0 22 + 8 * (wf x5 22 6 + 1) + 7 ≤ 0x2FFFFF)

/-- WPM (R249): x5 is checked first, as R74 has it for consumed x values. -/
def execWpm (d a b : BitVec 5) (e : BitVec 6) (s : State) : Out :=
  s.onEp e [a, b] [] [d] (Res.check (wpmOk (s.ctx.rx 5)) illOpnd) fun l t =>
    let va := nthD 0 l 0
    let slot := nthD 0 l 1
    let x5 := t.ctx.rx 5
    let rcd := wf x5 0 22
    let nb := wf x5 22 6 + 1
    (t.mayUse e 2 128).bind fun _ =>
      if slot.toNat ≥ 64 * nb then .trap illOpnd
      else t.windowed e 128 va (some .gstore)
        (.ok ((t.mapCtx fun c => c.launch .gstore true (some e)).sendWindow e 128
          (.wpm ⟨t.origin, e, (t.ep e).gen, t.cur.core, va.toNat, leBytes 128 (t.ctx.rv d).toNat, slot.toNat, rcd, nb⟩)))

/-! ### At the target (R176, R177) -/

/-- The window bit of an access (Table 8.8). -/
def winBit : WinKind → Nat
  | .read => 62
  | .write => 61
  | .amo _ _ => 60

/-- One window register grants an access by core `src` to n bytes at o of core c's pool. -/
def winGrants (w : W) (bit : Nat) (c src : CoreId) (o n : Nat) : Bool :=
  wb w 63 && wb w bit && wf w 57 3 != 0 && inScope (wf w 57 3) c src && decide (wf w 0 22 ≤ o ∧ o + n ≤ wf w 22 22 + 1)

/-- The core grants a remote access (R176). -/
def State.granted (s : State) (c : CoreId) (bit : Nat) (src : CoreId) (o n : Nat) : Bool :=
  let x := s.core c
  inPool x.part o n && x.win.toList.any fun w => winGrants w bit c src o n

/-- WINDOW_REFUSAL (R177). -/
def State.nack (s : State) (c : CoreId) : State :=
  s.mapCore c fun x => { x with nackcnt := BitVec.ofNat 16 (satAdd x.nackcnt.toNat 1 16) }

/-- The pool offset at which a Gaussian message is written at core c: that of the slot that accepted it, else the one that gmbox now
gives (R297, R299). -/
def State.mailOff (s : State) (c : CoreId) (g : GbpPkt) : Nat := g.slot.getD (wf (s.core c).gmbox 0 22 + 512 * g.mslot)

/-- Whether a write of the same context, earlier in its program order, to bytes of the same pool is still on its way, by whatever
endpoint: the context's own read waits for it (R338). -/
def State.ownWrites (s : State) (d : Dest) (r : WinReq) : Bool :=
  let meets := fun (o : Origin) (off n : Nat) =>
    o.core == r.org.core && o.ctx == r.org.ctx && decide (o.op < r.org.op) && overlaps off n r.off r.size
  s.net.any fun q => q.dst == d && match q.body with
    | .win w => w.kind != .read && meets w.org w.off w.size
    | .wpm w => meets w.org w.off 128 || meets w.org w.rcd (8 + 8 * w.nb)
    | .gbp g =>
      (match d with | .port c => meets g.org (s.mailOff c g) g.bytes.length | _ => false)
    | _ => false

/-- WINDOW_ACCESS_ARRIVAL (R176, R177, R247, R248). An access that the windows grant may have to wait for an engine (R267), a read
or atomic for its context's own write (R338): it stays granted. The DATAERR of any access shows its offset o (log 25). A write or atomic whose endpoint is bound no more has no effect (R432). -/
def execWindowAccessArrival (p : Nat) (s : State) : Out :=
  .next (match s.arrived p with
    | none => s
    | some pk =>
      match pk.dst, pk.body with
      | .port c, .win r =>
        let k := poolKey c r.off
        let ok := pk.parked || s.granted c (winBit r.kind) r.src r.off r.size
        if ok && (s.held c r.off r.size (r.kind != .read) || (r.kind != .write && s.ownWrites pk.dst r)) then s.park p
        else
          let s1 := (s.takePacket p).hwTakes r.src r.ep r.gen
          let reply := fun (t : State) (v : Verdict) (old : W) (f : BitVec 5) =>
            t.hwReply (floeOf c) 0 r.src r.ep r.gen true 8 (.winReply r v old f) c
          if !ok then reply (s1.nack c) .nack 0 0
          else if r.kind != .read && !s1.bears r.src r.ep r.gen then reply s1 .ok 0 0
          else if (s1.badIn k r.size).isSome && (r.kind != .write || r.size % 8 != 0) then
            reply s1 (.dataErr (BitVec.ofNat 64 r.off)) 0 0
          else
            let t := if r.kind == .write && r.size % 8 == 0 then s1 else s1.correct c k r.size
            let old : W := BitVec.ofNat 64 (t.rd k r.size)
            match r.kind with
            | .read => reply t .ok old 0
            | .write => reply (t.wr k r.data) .ok 0 0
            | .amo op cmp =>
              let (new, f) := portNew op old (BitVec.ofNat 64 (leNat r.data)) cmp
              reply (t.wrN k r.size new.toNat) .ok old f
      | _, _ => s)

/-- WPM_ARRIVAL (R249): the data first, then bitmap and counter as one port operation. -/
def execWpmArrival (p : Nat) (s : State) : Out :=
  .next (match s.arrived p with
    | none => s
    | some pk =>
      match pk.dst, pk.body with
      | .port c, .wpm r =>
        let n := 8 + 8 * r.nb
        let ok := pk.parked || (s.granted c 61 r.src r.off 128 && s.granted c 61 r.src r.rcd n)
        if ok && (s.held c r.off 128 true || s.held c r.rcd n true) then s.park p
        else
          let s1 := (s.takePacket p).hwTakes r.src r.ep r.gen
          let reply := fun (t : State) (v : Verdict) => t.hwReply (floeOf c) 0 r.src r.ep r.gen true 0 (.wpmReply r v) c
          let kc := poolKey c r.rcd
          let kw := poolKey c (r.rcd + 8 + 8 * (r.slot / 64))
          if !ok then reply (s1.nack c) .nack
          else if !s1.bears r.src r.ep r.gen then reply s1 .ok
          else if (s1.badIn kc 8).isSome || (s1.badIn kw 8).isSome then reply s1 (.dataErr (BitVec.ofNat 64 r.off))
          else
            let t := (s1.wr (poolKey c r.off) r.data).correct c kc 8 |>.correct c kw 8
            let w := t.rd8 kw
            let b : W := 1#64 <<< (r.slot % 64)
            reply (if w &&& b = 0 then (t.wr8 kw (w ||| b)).wr8 kc (t.rd8 kc + 1) else t) .ok
      | _, _ => s)

/-! ### Window replies (R177, R247, R248) -/

/-- The parts of a window reply, or of the acknowledgement of a present-marked write: origin, transaction, offset, how it ended,
value and flags. -/
def winAnswer : Body → Option (Origin × Nat × Nat × Verdict × W × BitVec 5)
  | .winReply r v w f => some (r.org, r.txn, r.off, v, w, f)
  | .wpmReply r v => some (r.org, 0, r.off, v, 0, 0)
  | _ => none

/-- A window reply of one of the two kinds arrives: negative, or another. -/
def State.windowReply (s : State) (p : Nat) (negative : Bool) : Out :=
  s.replyArrival p (fun b => (winAnswer b).any fun a => (a.2.2.2.1 == .nack) == negative) fun c e b s =>
    (winAnswer b).map fun (o, txn, off, v, w, f) =>
      let a : W := BitVec.ofNat 64 off
      match txn, v with
      | 0, .ok => s.finishOp o none
      | 0, .nack => s.finishOp o (some (cNACK, e.toNat, a))
      | 0, .dataErr d => s.finishOp o (some (cDATAERR, 0, d))
      | n, .ok => s.give c o.ctx n (.value w f)
      | n, .nack => s.give c o.ctx n (.failed (originFault o cNACK e.toNat a))
      | n, .dataErr d => s.give c o.ctx n (.failed (originFault o cDATAERR 0 d))

/-- WINDOW_REPLY_ARRIVAL (R247, R248). -/
def execWindowReplyArrival (p : Nat) (s : State) : Out := s.windowReply p false

/-- NEGATIVE_ACKNOWLEDGEMENT (R177). -/
def execNegativeAcknowledgement (p : Nat) (s : State) : Out := s.windowReply p true

/-! ### A STOP in a blocking read (R29, R351) -/

/-- Whether a packet carries a request of transaction `txn` by context k of core c that is not performed yet: its endpoint, its
origin and generation, and whether the unit that the endpoint names has taken it already. -/
def packetAsks (q : Packet) (c : CoreId) (k : CtxId) (txn : Nat) : Option (EpId × Origin × BitVec 16 × Bool) :=
  match q.body with
  | .mem r =>
    if r.org.core == c && r.org.ctx == k && r.txn == txn then some (r.ep, r.org, r.gen, q.dst != .ctrl (BitVec.ofNat 5 r.peer))
    else none
  | .win r => if r.org.core == c && r.org.ctx == k && r.txn == txn then some (r.ep, r.org, r.gen, false) else none
  | _ => none

/-- A request is withdrawn with every trace of it: at the core's queue, at its endpoint and, where its unit had taken it, at that
end (R29, R351). -/
def State.withdrawReq (s : State) (c : CoreId) (k : CtxId) (txn : Nat) (e : EpId) (o : Origin) (g : BitVec 16) (taken : Bool) :
    State :=
  let s1 := (({ s with net := s.net.filter fun q => (packetAsks q c k txn).isNone } : State).mapCore c fun x =>
    { x with storeq := x.storeq.filter fun q => q.org != o }).mapEpAt c e fun ep =>
    { ep with state := ep.state - 1, lacnt := ep.lacnt - 1, sseq := ep.sseq - 1 }
  match if taken then s1.hwFind c e g else none with
  | some h => s1.mapHw h fun h => { h with rseq := h.rseq - 1 }
  | none => s1

/-- A STOP reaches a context that waits for the reply of a blocking read, a wait for the fetch of its own word included (R349):
before its value is fixed the access is withdrawn, else the STOP is held until the read completes (R351 speaks only of the
first; log 26). Answers the state, and whether it is held. -/
def State.stopRead (s : State) (c : CoreId) (k : CtxId) : State × Bool :=
  match (s.ctxAt c k).req with
  | some ⟨txn, none⟩ =>
    if txn < 1000 then (s, false)
    else match s.net.findSome? fun q => packetAsks q c k txn with
      | some (e, o, g, taken) => (s.withdrawReq c k txn e o g taken, false)
      | none => (s, true)
  | some ⟨txn, some _⟩ => (s, txn ≥ 1000)
  | _ => (s, false)

end Sys2Proof.Machine
end

