-- ==== Sys2Proof/Machine/Engine.lean ====
section
/-! DEFINITION. Accesses that an engine makes: translation, permission, windows, reading, writing, notifying, acquiring
(R176, R257, R264, R277, R387, R392, R396). -/

namespace Sys2Proof.Machine

/-! ### Accesses of an engine -/

/-- What an access of an engine answers (R264). -/
abbrev Eng (α : Type) := EngOf CopyFail α

/-- A COPYERR failure with the detail code of Table 17.6, or 0 (R264, R396). -/
def copyErr (va : W) (code : Nat) : CopyFail := ⟨cCOPYERR, va, code * 128⟩

/-- A translated access of an engine: permission (R392), then page format (R257): a side of format 0 takes any
page, a page of format 0 any side but a bit-plane one. -/
def engPage (e : TlbEnt) (va : W) (need : Need) (fmt : Nat) : Except CopyFail Home :=
  if !need.granted e.pte then .error (copyErr va 4)
  else if fmt != 0 && (e.fmt != fmt && (e.fmt != 0 || fmt == 15)) then .error (copyErr va 0)
  else .ok (e.home va.toNat)

/-- An address of an engine of core c, translated under a root (R264, R309, R393, R396). -/
def State.engLeaf (s : State) (c : CoreId) (root va : W) : Eng TlbEnt :=
  match s.engineXlate c root va with
  | .ok e t => .ok e t
  | .held m => .held m
  | .bad d t => .bad (copyErr va (d % 16)) t

/-- The home of an access under a root. -/
def State.engHomeBy (s : State) (c : CoreId) (root va : W) (need : Need) (fmt : Nat) : Eng Home :=
  (s.engLeaf c root va).bind fun e t => match engPage e va need fmt with
    | .ok h => .ok h t
    | .error f => .bad f t

/-- An access of core c's engine, translated with the core's view (R264, R396). -/
def State.engHome (s : State) (c : CoreId) (va : W) (need : Need) (fmt : Nat) : Eng Home :=
  s.engHomeBy c (s.core c).xroot va need fmt

/-- Whether an access by core c to n bytes at o of core t's pool is granted (R176), or why not: its own
register-file banks lie outside every pool (R264), another core refuses by its windows (R177). -/
def State.engGrant (s : State) (c t : CoreId) (bit o n : Nat) (va : W) : Option (CopyFail × State) :=
  if t == c then (if inPool (s.core c).part o n then none else some (copyErr va 0, s))
  else if s.granted t bit c o n then none
  else some (⟨cNACK, va, 0⟩, s.nack t)

/-- An engine of core c reads n bytes at va, which lies at a home. Uncorrectable data is DATAERR in memory as in a pool, as R264 has
it; R387 names COPYERR (DEDUCED, log 62). -/
def State.engReadAt (s : State) (c : CoreId) (h : Home) (va : W) (n : Nat) : Eng Nat :=
  match h with
  | .backing pa key =>
    match s.ctrlRead key pa n with
    | some (l, t) => .ok (leNat l) t
    | none => .bad (if (s.badIn pa n).isSome then ⟨cDATAERR, va, 0⟩ else copyErr va 0) s
  | .pool t o =>
    match s.engGrant c t 62 o n va with
    | some (f, s1) => .bad f s1
    | none =>
      if s.held t o n false then .held none
      else if (s.badIn (poolKey t o) n).isSome then .bad ⟨cDATAERR, va, 0⟩ s
      else
        let s1 := s.correct t (poolKey t o) n
        .ok (s1.rd (poolKey t o) n) s1

def State.engRead (s : State) (c : CoreId) (va : W) (n fmt : Nat) : Eng Nat :=
  (s.engHome c va { r := true } fmt).bind fun h t => t.engReadAt c h va n

/-- An engine of core c writes bytes at va, which lies at a home. -/
def State.engWriteAt (s : State) (c : CoreId) (h : Home) (va : W) (l : List Byte) : Eng Unit :=
  let n := l.length
  match h with
  | .backing pa key =>
    match s.ctrlWrite key pa l with
    | some t => .ok () t
    | none => .bad (if (s.keyAt (servingCtrl pa) key).isSome then ⟨cDATAERR, va, 0⟩ else copyErr va 0) s
  | .pool t o =>
    match s.engGrant c t 61 o n va with
    | some (f, s1) => .bad f s1
    | none =>
      if s.held t o n true then .held none
      else if n % 8 != 0 && (s.badIn (poolKey t o) n).isSome then .bad ⟨cDATAERR, va, 0⟩ s
      else .ok () ((if n % 8 = 0 then s else s.correct t (poolKey t o) n).wr (poolKey t o) l)

def State.engWrite (s : State) (c : CoreId) (va : W) (l : List Byte) (fmt : Nat) : Eng Unit :=
  (s.engHome c va { w := true } fmt).bind fun h t => t.engWriteAt c h va l

/-- The pool place of a port operation of n bytes at va (R173): none but a pool has ports. -/
def State.engPort (s : State) (c : CoreId) (va : W) (fmt : Nat) : Eng (CoreId × Nat) :=
  (s.engHome c va { r := true, w := true } fmt).bind fun h t => match h with
    | .backing _ _ => .bad (copyErr va 0) t
    | .pool p o => .ok (p, o) t

/-- NTF (R277): 1 is added to the dword at va by a port operation. -/
def State.engNotify (s : State) (c : CoreId) (va : W) : Eng Unit :=
  (s.engPort c va 0).bind fun (t, o) s =>
    match s.engGrant c t 60 o 8 va with
    | some (f, s1) => .bad f s1
    | none =>
      if s.held t o 8 true then .held none
      else if (s.badIn (poolKey t o) 8).isSome then .bad ⟨cDATAERR, va, 0⟩ s
      else
        let s1 := s.correct t (poolKey t o) 8
        .ok () (s1.wr8 (poolKey t o) (s1.rd8 (poolKey t o) + 1))

/-- ACQ (R277): every access of the context before operation `op` has been performed within the scope, the writes of
`gstorm.send` and `spawn` among them (R341); other engines' operations count only once observed (R347). -/
def State.acquired (s : State) (o : Origin) (acq : Bool) (scope : Nat) : Bool :=
  !acq || scope == 0 || (s.ctxAt o.core o.ctx).ops.all fun p =>
    !(p.fence || p.cls == .gstore) || p.done || decide (o.op ≤ p.id)

end Sys2Proof.Machine
end

