-- ==== Sys2Proof/Machine/Copy.lean ====
section
/-! DEFINITION. The copy engine: the shadow set, launch, elements, chunks, reducing copies, remote launch and
faults (R38, R39, R251 to R265, R277). -/

namespace Sys2Proof.Machine

/-! ### The shadow set (R251, R252, Tables 11.1 and 11.2) -/

def execCpwr (a n : BitVec 5) (s : State) : Out :=
  s.issue 4 [a] [] [] fun l t =>
    if n = 6 || n = 7 || n.toNat ≥ 24 then .trap illOpnd
    else .ok (t.mapCtx fun c => { c with shadow := c.shadow.set n.toNat (nthD 0 l 0) })

def execCprd (d n : BitVec 5) (s : State) : Out :=
  s.issue 4 [] [d] [] fun _ t =>
    if n = 31 then .ok (t.setG d t.me.cbm)
    else if n = 6 || n = 7 || n.toNat ≥ 24 then .trap illOpnd
    else .ok (t.setG d t.ctx.shadow[n.toNat])

/-- Shadow register i of a snapshot. -/
def shadowReg (l : List W) (i : Nat) : W := nthD 0 l i

/-- CTL and its fields. -/
def shCtl (l : List W) : W := shadowReg l 2
def shNdim (l : List W) : Nat := wf (shCtl l) 53 3 + 1
def shSrcFmt (l : List W) : Nat := wf (shCtl l) 41 4
def shDstFmt (l : List W) : Nat := wf (shCtl l) 37 4
def shTag (l : List W) : BitVec 6 := (shCtl l).extractLsb' 0 6
def shSgs (l : List W) : Bool := wb (shCtl l) 57
def shAdd (l : List W) : Bool := wb (shCtl l) 56
def shScope (l : List W) : Nat := wf (shCtl l) 59 3

/-- Counts, source strides and destination strides of the dimensions in use. -/
def shCounts (l : List W) : List Nat := (List.range (shNdim l)).map fun n => wf (shadowReg l (8 + n)) 48 16 + 1
def shSstr (l : List W) : List Int := (List.range (shNdim l)).map fun n => ((shadowReg l (8 + n)).truncate 48 : BitVec 48).toInt
def shDstr (l : List W) : List Int := (List.range (shNdim l)).map fun n => ((shadowReg l (16 + n)).truncate 48 : BitVec 48).toInt

/-- E (R255). -/
def shElems (l : List W) : Nat := (shCounts l).foldl (fun a n => a * n) 1

def shSrcSize (l : List W) : Nat := fmtSize (shSrcFmt l)
def shDstSize (l : List W) : Nat := fmtSize (shDstFmt l)

/-- The indices of element j, dimension 0 first (R255). -/
def indices : List Nat → Nat → List Nat
  | [], _ => []
  | c :: l, j => j % c :: indices l (j / c)

/-- base + Σ index × stride, truncated (R255). -/
def copyElem (base : W) (idx : List Nat) (str : List Int) : W :=
  base + BitVec.ofInt 64 ((idx.zip str).foldl (fun a p => a + p.1 * p.2) 0)

def shSrcAddr (l : List W) (j : Nat) : W := copyElem (shadowReg l 0) (indices (shCounts l) j) (shSstr l)
def shDstAddr (l : List W) (j : Nat) : W := copyElem (shadowReg l 1) (indices (shCounts l) j) (shDstr l)

/-- Table 11.5. -/
def pairOk (sf df : Nat) : Bool :=
  if sf = 0 || df = 0 then sf == df
  else if df = 15 then false
  else if sf = 15 then decide (1 ≤ df ∧ df ≤ 4) || df == 7
  else true

/-- A contiguous destination (R261). -/
def contiguous (size : Nat) : List Nat → List Int → Bool
  | [], _ => true
  | _, [] => true
  | c :: l, d :: m => d == (size : Int) && contiguous (size * c) l m

/-- CheckLaunch (R254). -/
def launchOk (l : List W) : Bool :=
  let ctl := shCtl l
  let (sf, df) := (shSrcFmt l, shDstFmt l)
  let (sz, dz) := (shSrcSize l, shDstSize l)
  wf ctl 6 31 == 0 && wf (shadowReg l 3) 32 32 == 0 &&
  ((List.range (shNdim l)).all fun n => wf (shadowReg l (16 + n)) 48 16 == 0) &&
  wf ctl 50 3 != 5 && wf ctl 50 3 != 6 &&
  (if sf = 15 then decide (2 ≤ wf ctl 45 4 ∧ wf ctl 45 4 ≤ 8) else wf ctl 45 4 == 0) &&
  pairOk sf df &&
  (shadowReg l 1).toNat % dz == 0 && ((shDstr l).all fun d => d % dz == 0) &&
  (if shSgs l then (shadowReg l 0).toNat % 32 == 0 && (shSstr l).all fun d => d == 0
   else (shadowReg l 0).toNat % sz == 0 && (shSstr l).all fun d => d % sz == 0) &&
  (!wb ctl 58 || (shadowReg l 5).toNat % 8 == 0) &&
  (wb ctl 63 || wb ctl 62 || shScope l == 0) && decide (shScope l ≤ 4) &&
  (!shAdd l ||
    ([1, 2, 13, 14].contains df && contiguous dz (shCounts l) (shDstr l) && decide (shElems l * dz ≤ 32768) &&
     (shadowReg l 1).toNat % 64 == 0))

/-- The first element of chunk c and how many it holds (R259). -/
def chunkSpan (l : List W) (c : Nat) : Nat × Nat :=
  let e := shElems l
  let lo := Nat.min e (512 * c / shDstSize l)
  let hi := if c = 63 then e else Nat.min e (512 * (c + 1) / shDstSize l)
  (lo, hi - lo)

/-- EmptyChunks (R253, R259). -/
def emptyChunks (l : List W) : W :=
  BitVec.ofNat 64 (place ((List.range 64).map fun c => (b2n ((chunkSpan l c).2 == 0), c)))

/-! ### Launch (R253, R265) -/

/-- What both launches do at issue: the checks, tag, XID and class count; then `k` starts the copy. -/
def State.launchCopy (s : State) (d : Reg) (ep : Option EpId) (k : CopyDesc → State → State) : Res State :=
  let l := s.ctx.shadow.toList
  let t := shTag l
  if !launchOk l then .trap illOpnd
  else if s.me.owned.any fun o => o.tag == t then .trap { illOpnd with detail := t.toNat }
  else (s.classRoom .copy).bind fun _ =>
    let xid := s.me.xid + 1
    let o := s.origin
    let desc : CopyDesc := ⟨o.core, o.ctx, o.op, xid, t, o.fpc, o.insn, rmOf s.ctx.fst (wf (shCtl l) 50 3), l⟩
    let own : CopyOwn := ⟨t, xid, o.ctx, o.op, if shAdd l then some ((shadowReg l 3).truncate 32) else none, ep⟩
    let s1 := (s.mapMe fun x =>
      { x with
        xid := xid, cbm := x.cbm &&& ~~~(1#64 <<< t.toNat), chunks := x.chunks.set t.toNat (emptyChunks l)
        owned := x.owned ++ [own] }).mapCtx fun c => c.launch .copy false ep
    .ok ((k desc s1).setG d (xid.zeroExtend 64))

/-- A copy begins on the engine of a core. -/
def newCopy (d : CopyDesc) (ep : Option (EpId × BitVec 16)) : CopyRun :=
  ⟨d, ep, emptyChunks d.shadow, 0, 0, none, ⟨shadowReg d.shadow 0, 0, 0, 0⟩⟩

def execCpgo (d : BitVec 5) (s : State) : Out :=
  s.issue 4 [] [d] [] fun _ t =>
    t.launchCopy d none fun desc t => t.mapMe fun x => { x with copies := x.copies ++ [newCopy desc none] }

/-- CPGO on a COPY endpoint (R265): a request to the peer's engine. -/
def execCpgoRemote (d : BitVec 5) (e : BitVec 6) (s : State) : Out :=
  s.onEp e [] [d] [] (.ok ()) fun _ t =>
    (t.mayUse e 3 0).bind fun _ => (t.underBound e).bind fun _ =>
      t.launchCopy d (some e) fun desc t =>
        let ep := t.ep e
        (t.mapEp e Endpoint.addReq).sendCore t.cur.core (peerDest ep.phw ep.paddr) false 256 (.copyReq e ep.gen desc)

/-- COPY_REQUEST_ARRIVAL (R265). -/
def execCopyRequestArrival (p : Nat) (s : State) : Out :=
  .next (match s.atUnit p with
    | some (.port c, .copyReq e gen d) =>
      if (s.hwFind d.owner e gen).isNone || !s.bears d.owner e gen then (s.takePacket p).hwTakes d.owner e gen
      else ((s.takePacket p).hwTakes d.owner e gen).mapCore c fun x => { x with copies := x.copies ++ [newCopy d (some (e, gen))] }
    | _ => s)

/-! ### Elements (R38, R39, R255 to R258) -/

/-- Bytes of a bit-plane block of geometry G (R38). -/
def blockBytes (g : Nat) : Nat := g * g + 64

/-- BitPlaneInt and the block's scale (R38, R39): element (row, col) of the block at address a, from k planes. The scale is read
also where BitPlaneInt alone is needed (DESIGN CHOICE, log 63). -/
def State.bitPlane (s : State) (read : State → W → Nat → Eng Nat) (a : W) (g row col : Nat) :
    Nat → Nat → Nat → Eng (Int × Nat)
  | 0, _, w => (read s (a + BitVec.ofNat 64 (g * g)) 2).bind fun sc t => .ok (intOf 8 true w, sc) t
  | k + 1, j, w =>
    let b := row * g + col
    (read s (a + BitVec.ofNat 64 (j * (g * g / 8) + b / 8)) 1).bind fun byte t =>
      t.bitPlane read a g row col k (j + 1) (w + b2n (byte.testBit (b % 8)) * 2 ^ (7 - j))

/-- BitPlaneValue (R39): the value and the exceptions of forming it. -/
def bitPlaneValue (i : Int) (scale : Nat) : Val × BitVec 5 :=
  match f16.decode scale with
  | .nan s fr g => (.nan s fr false, if g then xNV else 0)
  | .inf s => if i = 0 then (.nan false (2 ^ 51) false, xNV) else (.inf (s != decide (i < 0)), 0)
  | .fin s m e => (.fin (s != decide (i < 0)) (m * i.natAbs) e, 0)

/-- One stored element converted from one code into another (R120, R257, Table 11.5). -/
def convCode (sf df rm : Nat) (sat : Bool) (b : Nat) : Nat × BitVec 5 :=
  if !codeIsFloat sf && !codeIsFloat df then
    let v := intOf (codeInt sf).1 (codeInt sf).2 b
    (bitsOf (codeInt df).1 (if sat then clampInt (codeInt df).1 (codeInt df).2 v else v), 0)
  else codeConvert rm sat (codeVal sf b) df

/-- One stored element of a copy: the same code is moved bit for bit. -/
def convertElem (l : List W) (rm : Nat) (b : Nat) : Nat × BitVec 5 :=
  if shSrcFmt l = shDstFmt l then (b, 0) else convCode (shSrcFmt l) (shDstFmt l) rm (wb (shCtl l) 49) b

/-- The scatter-gather chain brought to an element that still supplies bytes (R256). -/
def State.sgSource (s : State) (c : CoreId) (l : List W) : Nat → SgPos → Eng SgPos
  | 0, g => .bad (copyErr g.next 0) s
  | n + 1, g =>
    if g.left != 0 then .ok g s
    else if g.next = 0 || g.next.toNat % 32 != 0 || g.count ≥ 65536 then .bad (copyErr g.next 0) s
    else (s.engRead c g.next 32 0).bind fun v t =>
      let d0 : W := BitVec.ofNat 64 v
      let d1 : W := BitVec.ofNat 64 (v / 2 ^ 64)
      let d2 : W := BitVec.ofNat 64 (v / 2 ^ 128)
      let d3 : W := BitVec.ofNat 64 (v / 2 ^ 192)
      let len := wf d1 0 32
      if wf d1 40 24 != 0 || d3 != 0 || len % shSrcSize l != 0 || d0.toNat % shSrcSize l != 0 then .bad (copyErr g.next 0) t
      else
        let goesTo := fun (skip : Bool) (t : State) =>
          t.sgSource c l n ⟨d2, g.count + 1, d0, if skip then 0 else len⟩
        if !wb d1 38 then goesTo false t
        else if (shadowReg l 4).toNat % 8 != 0 then .bad (copyErr (shadowReg l 4) 0) t
        else (t.engRead c (shadowReg l 4) 8 0).bind fun w t => goesTo (w.testBit (wf d1 32 6) == wb d1 39) t

/-- A bit-plane source that breaks R258, at the page of element address a. -/
def State.planeFault (s : State) (c : CoreId) (l : List W) (a : W) : Eng Unit :=
  (s.engLeaf c (s.core c).xroot a).bind fun e s =>
    let g := if e.geom = 1 then 64 else 32
    if !wb e.pte 6 then .bad (copyErr a 4) s
    else if e.fmt != 15 || shSgs l || shNdim l < 2 || nthD 0 (shCounts l) 0 != g || nthD 0 (shCounts l) 1 != g ||
        nthD 0 (shSstr l) 0 != 0 || nthD 0 (shSstr l) 1 != 0 || (shadowReg l 0).toNat % blockBytes g != 0 ||
        ((shSstr l).drop 2).any fun d => d % blockBytes g != 0 then .bad (copyErr a 0) s
    else .ok () s

/-- The converted element j, the exceptions it raised, and where the chain then stands. -/
def State.copyValue (s : State) (c : CoreId) (d : CopyDesc) (j : Nat) (g : SgPos) : Eng (Nat × BitVec 5 × SgPos) :=
  let l := d.shadow
  if shSrcFmt l = 15 then
    let a := shSrcAddr l j
    (s.planeFault c l a).bind fun _ s =>
      let geo := nthD 0 (shCounts l) 0
      let idx := indices (shCounts l) j
      (s.bitPlane (fun t va n => t.engRead c va n 15) a geo (nthD 0 idx 1) (nthD 0 idx 0) (wf (shCtl l) 45 4) 0 0).bind
        fun (i, sc) t =>
          if shDstFmt l = 7 then .ok (bitsOf 8 i, 0, g) t
          else
            let (v, f) := bitPlaneValue i sc
            let (r, f2) := codeConvert d.rm false v (shDstFmt l)
            .ok (r, f ||| f2, g) t
  else if shSgs l then
    (s.sgSource c l 65538 g).bind fun g t =>
      (t.engRead c g.addr (shSrcSize l) (shSrcFmt l)).bind fun b t =>
        let (v, f) := convertElem l d.rm b
        .ok (v, f, { g with addr := g.addr + BitVec.ofNat 64 (shSrcSize l), left := g.left - shSrcSize l }) t
  else
    (s.engRead c (shSrcAddr l j) (shSrcSize l) (shSrcFmt l)).bind fun b t =>
      let (v, f) := convertElem l d.rm b
      .ok (v, f, g) t

/-- Work on the elements of a chunk: the state, the chain, exceptions, additions collected, and how it ended; a wait may be for
a page. -/
structure CopyWork where
  s     : State
  sg    : SgPos
  flags : BitVec 5
  adds  : List (Nat × W)
  held  : Option (Option Miss)
  fail  : Option CopyFail

/-- The value v of element j is written, or collected as an addition (R255, R261). -/
def CopyWork.write (w : CopyWork) (c : CoreId) (d : CopyDesc) (j v : Nat) : CopyWork :=
  let l := d.shadow
  let a := shDstAddr l j
  if shAdd l then
    match (w.s.engPort c (shDstAddr l 0) (shDstFmt l)).bind fun p0 s =>
        (s.engPort c a (shDstFmt l)).bind fun p s => .ok (p0, p) s with
    | .ok ((t0, _), (t, o)) s =>
      if t == t0 then { w with s := s, adds := w.adds ++ [(o, BitVec.ofNat 64 v)] }
      else { w with s := s, fail := some (copyErr a 0) }
    | .held m => { w with held := some m }
    | .bad f s => { w with s := s, fail := some f }
  else match w.s.engWrite c a (leBytes (shDstSize l) v) (shDstFmt l) with
    | .held m => { w with held := some m }
    | .bad f s => { w with s := s, fail := some f }
    | .ok _ s => { w with s := s }

/-- Element j is read and converted; `k` goes on with its value. -/
def CopyWork.read (w : CopyWork) (c : CoreId) (d : CopyDesc) (j : Nat) (k : CopyWork → Nat → CopyWork) : CopyWork :=
  match w.s.copyValue c d j w.sg with
  | .held m => { w with held := some m }
  | .bad f s => { w with s := s, fail := some f }
  | .ok (v, f, g) s => k { w with s := s, sg := g, flags := w.flags ||| f } v

/-- Elements read and written one by one, until one waits or fails. -/
def CopyWork.elems (c : CoreId) (d : CopyDesc) : List Nat → CopyWork → CopyWork
  | [], w => w
  | j :: l, w =>
    let w1 := w.read c d j fun w v => w.write c d j v
    if w1.held.isSome || w1.fail.isSome then w1 else CopyWork.elems c d l w1

/-- Elements of a chain read in order; their values, until one waits or fails. -/
def CopyWork.gather (c : CoreId) (d : CopyDesc) : List Nat → CopyWork → List (Nat × Nat) → CopyWork × List (Nat × Nat)
  | [], w, vs => (w, vs)
  | j :: l, w, vs =>
    match w.s.copyValue c d j w.sg with
    | .held m => ({ w with held := some m }, vs)
    | .bad f s => ({ w with s := s, fail := some f }, vs)
    | .ok (v, f, g) s => CopyWork.gather c d l { w with s := s, sg := g, flags := w.flags ||| f } (vs ++ [(j, v)])

/-- An index takes its place among others by a free number. -/
def insertFree (base i : Nat) : List Nat → List Nat
  | [] => [i]
  | j :: l =>
    if (Config.freeWord (base + i)).toNat ≤ (Config.freeWord (base + j)).toNat then i :: j :: l else j :: insertFree base i l

/-- The numbers below n in an order that is left open (R253, log 17). -/
def freeOrder (base n : Nat) : List Nat := (List.range n).foldr (insertFree base) []

/-- The n elements from element j, written in no defined order (R253, R255); a chain is read in order (R256). -/
def CopyWork.chunk (w : CopyWork) (c : CoreId) (d : CopyDesc) (j n : Nat) : CopyWork :=
  let order := freeOrder w.s.free n
  let w0 := if n ≤ 1 then w else { w with s := { w.s with free := w.s.free + n } }
  if shSgs d.shadow then
    let (w1, vs) := CopyWork.gather c d ((List.range n).map fun i => j + i) w0 []
    if w1.held.isSome then w1
    else order.foldl (fun u i =>
      match vs[i]? with
      | some (e, v) =>
        if u.held.isSome || (u.fail.isSome && w1.fail.isNone) then u
        else
          let u1 := ({ u with fail := none } : CopyWork).write c d e v
          { u1 with fail := u1.fail.orElse fun _ => w1.fail }
      | none => u) w1
  else CopyWork.elems c d (order.map fun i => j + i) w0

/-! ### Chunks, completion, failure (R259, R264) -/

/-- The copy with a tag of core c: the core whose engine performs it, and the copy. -/
def State.findCopy (s : State) (c : CoreId) (tag : BitVec 6) : Option (CoreId × CopyRun) :=
  s.cores.findSome? fun e =>
    (e.2.copies.find? fun r => r.d.owner == c && r.d.tag == tag).map fun r => (BitVec.ofNat 11 e.1, r)

def sameCopy (d : CopyDesc) (r : CopyRun) : Bool := r.d.owner == d.owner && r.d.tag == d.tag

def State.setCopy (s : State) (e : CoreId) (r : CopyRun) : State :=
  s.mapCore e fun x => { x with copies := x.copies.map fun q => if sameCopy r.d q then r else q }

def State.dropCopy (s : State) (e : CoreId) (d : CopyDesc) : State :=
  s.mapCore e fun x => { x with copies := x.copies.filter fun q => !sameCopy d q }

def copyOrigin (d : CopyDesc) : Origin := ⟨d.owner, d.ctx, d.op, d.fpc, d.insn⟩

/-- A chunk is written: its bit is set, in a local copy also in Chunks (R259, R265). -/
def State.chunkSet (s : State) (e : CoreId) (r : CopyRun) (ch : BitVec 6) : State :=
  let bit : W := 1#64 <<< ch.toNat
  let s1 := s.setCopy e { r with done := r.done ||| bit, sent := r.sent &&& ~~~bit }
  if r.ep.isSome then s1
  else s1.mapCore e fun x => { x with chunks := x.chunks.set r.d.tag.toNat (x.chunks[r.d.tag.toNat] ||| bit) }

/-- The answer to a reducing chunk, if it has arrived: the packet and what it says (R262). -/
def State.chunkAnswer (s : State) (c : CoreId) (tag ch : BitVec 6) : Option (Nat × Option CopyFail × BitVec 5) :=
  (List.range s.net.length).findSome? fun p =>
    match s.atUnit p with
    | some (_, .chunkAns d ch' fail f) => if d.owner == c && d.tag == tag && ch' == ch then some (p, fail, f) else none
    | _ => none

/-- Whether every chunk below `ch` has been handled: a chain supplies its bytes in order (R256). -/
def CopyRun.reached (r : CopyRun) (ch : BitVec 6) : Bool :=
  (List.range ch.toNat).all fun i => (r.done ||| r.sent).getLsbD i

/-- A copy that a remote owner's endpoint still carries, or a local one: another has failed, and writes no byte (R432). -/
def State.lives (s : State) (r : CopyRun) : Bool := r.ep.all fun p => s.bears r.d.owner p.1 p.2

/-- The engine works on a chunk (R253, R255, R262). -/
def State.runChunk (s : State) (e : CoreId) (r : CopyRun) (ch : BitVec 6) : State :=
  let l := r.d.shadow
  let (j, n) := chunkSpan l ch.toNat
  if !s.lives r then s.dropCopy e r.d
  else if (r.done ||| r.sent).getLsbD ch.toNat || (shSgs l && !r.reached ch) ||
      !s.acquired (copyOrigin r.d) (wb (shCtl l) 63) (shScope l) then s
  else
    let w := CopyWork.chunk ⟨s, r.sg, r.flags, [], none, none⟩ e r.d j n
    match w.held with
    | some m => s.waitFor m
    | none =>
      let r1 := { r with sg := w.sg, flags := w.flags, fail := w.fail }
      if w.fail.isSome then w.s.setCopy e r1
      else if shAdd l then
        match w.s.engPort e (shDstAddr l 0) (shDstFmt l) with
        | .held m => s.waitFor m
        | .ok (t, _) s1 =>
          (s1.setCopy e { r1 with sent := r.sent ||| (1#64 <<< ch.toNat) }).sendCore e (.port t) false
            (n * shDstSize l) (.chunk r.d ch e (match shDstFmt l with | 1 => 1 | 2 => 2 | _ => 0) w.adds)
        | .bad f s1 => s1.setCopy e { r1 with fail := some f }
      else w.s.chunkSet e r1 ch

/-- COPY_CHUNK_DONE (R259): the engine writes the elements of a chunk, or finds a reducing chunk answered. -/
def execCopyChunkDone (c : CoreId) (tag chunk : BitVec 6) (s : State) : Out :=
  .next (match s.findCopy c tag, s.chunkAnswer c tag chunk with
    | some (e, r), some (p, fail, f) =>
      let s1 := s.takePacket p
      let r1 := { r with flags := r.flags ||| f, fail := r.fail.orElse fun _ => fail }
      if fail.isNone then s1.chunkSet e r1 chunk
      else s1.setCopy e { r1 with sent := r.sent &&& ~~~(1#64 <<< chunk.toNat) }
    | none, some (p, _, _) => s.takePacket p
    | some (e, r), none => if r.fail.isSome then s else s.runChunk e r chunk
    | none, none => s)

/-- A copy is over at its owner (R257, R259, R264): chunk bits, cbm, flags, the class count and the fault. -/
def State.settleCopy (s : State) (d : CopyDesc) (fail : Option CopyFail) (flags : BitVec 5) : State :=
  let s1 := s.mapCore d.owner fun x =>
    { x with
      owned := x.owned.filter fun o => o.tag != d.tag
      cbm := x.cbm ||| (1#64 <<< d.tag.toNat), chunks := x.chunks.set d.tag.toNat (BitVec.allOnes 64) }
  (s1.orFlags d.owner d.ctx flags).finishOp (copyOrigin d)
    (fail.map fun f => (f.cause, d.tag.toNat + f.detail, f.addr)) (some d.tag) d.xid

/-- The engine has done with a copy: it settles here, or the answer goes to the owner (R265). -/
def State.endCopy (s : State) (e : CoreId) (r : CopyRun) (fail : Option CopyFail) : State :=
  let s1 := s.dropCopy e r.d
  match r.ep with
  | none => s1.settleCopy r.d fail r.flags
  | some (ep, gen) =>
    s1.hwReply (floeOf e) 0 r.d.owner ep gen true 16 (.copyAns r.d fail r.flags) e

/-- COPY_COMPLETE (R259, R277): every element is written; REL holds, as each write is performed at its home in
its step; NTF notifies; then the copy is over. -/
def execCopyComplete (c : CoreId) (tag : BitVec 6) (s : State) : Out :=
  .next (match s.findCopy c tag with
    | some (e, r) =>
      if !s.lives r then s.dropCopy e r.d
      else if r.done != BitVec.allOnes 64 || r.fail.isSome then s
      else if wb (shCtl r.d.shadow) 58 then
        match s.engNotify e (shadowReg r.d.shadow 5) with
        | .ok _ t => t.endCopy e r none
        | .held m => s.waitFor m
        | .bad f t => t.setCopy e { r with fail := some f }
      else s.endCopy e r none
    | none => s)

/-- COPY_FAILURE (R264): a copy that has failed ends, once no chunk of it is on its way. -/
def execCopyFailure (c : CoreId) (tag : BitVec 6) (s : State) : Out :=
  .next (match s.findCopy c tag with
    | some (e, r) => if r.fail.isSome && r.sent == 0 then s.endCopy e r r.fail else s
    | none => s)

/-- COPY_ANSWER_ARRIVAL (R265). -/
def execCopyAnswerArrival (p : Nat) (s : State) : Out :=
  s.replyArrival p (fun b => match b with | .copyAns _ _ _ => true | _ => false) fun _ _ b s =>
    match b with
    | .copyAns d fail flags => some (s.settleCopy d fail flags)
    | _ => none

/-! ### Reducing copies at the destination (R261 to R263) -/

/-- The additions of a chunk, each one port operation (R173, R261). -/
def State.applyAdds (s : State) (c : CoreId) (op : Nat) : List (Nat × W) → BitVec 5 → State × BitVec 5
  | [], f => (s, f)
  | (o, b) :: l, f =>
    let n := portSize op
    let s1 := s.correct c (poolKey c o) n
    let (v, f') := portNew op (BitVec.ofNat 64 (s1.rd (poolKey c o) n)) b 0
    (s1.wrN (poolKey c o) n v.toNat).applyAdds c op l (f ||| f')

/-- REDUCE_CHUNK_ARRIVAL (R262): a chunk is applied whole or not at all, once under its key. Once granted it may have to wait for
an engine (R267). One whose copy is no more writes nothing (R432). -/
def execReduceChunkArrival (p : Nat) (s : State) : Out :=
  .next (match s.arrived p with
    | none => s
    | some pk =>
      match pk.dst, pk.body with
      | .port c, .chunk d ch eng op adds =>
        let n := portSize op
        let va := fun (i : Nat) => shDstAddr d.shadow ((chunkSpan d.shadow ch.toNat).1 + i)
        let items := (List.range adds.length).zip adds
        let reply := fun (t : State) (fail : Option CopyFail) (f : BitVec 5) =>
          t.sendCore c (.port eng) false 8 (.chunkAns d ch fail f)
        let refused := if pk.parked then none else items.findSome? fun (i, a) => s.engGrant eng c 60 a.1 n (va i)
        let x := s.core c
        let key : BitVec 32 := (shadowReg d.shadow 3).truncate 32
        let bit : W := 1#64 <<< ch.toNat
        let mine := fun (e : CoreId × BitVec 32 × W) => e.1 == d.owner && e.2.1 == key
        let mark := fun (e : CoreId × BitVec 32 × W) => if mine e then (e.1, e.2.1, e.2.2 ||| bit) else e
        if !((s.core eng).copies.any fun r => r.d == d && s.lives r) then s.takePacket p
        else match refused with
        | some (f, t) => reply (t.takePacket p) (some f) 0
        | none =>
          if adds.any fun a => s.held c a.1 n true then s.park p
          else
            let s1 := s.takePacket p
            match x.redKeys.find? mine, items.find? fun (_, a) => (s.badIn (poolKey c a.1) n).isSome with
            | some (_, _, bm), bad =>
              if bm &&& bit != 0 then reply s1 none 0
              else match bad with
                | some (i, _) => reply s1 (some ⟨cDATAERR, va i, 0⟩) 0
                | none =>
                  let (t, f) := s1.applyAdds c op adds 0
                  reply (t.mapCore c fun x => { x with redKeys := x.redKeys.map mark }) none f
            | none, bad =>
              if x.redKeys.length ≥ 32 then reply s1 (some (copyErr (va 0) 0)) 0
              else match bad with
                | some (i, _) => reply s1 (some ⟨cDATAERR, va i, 0⟩) 0
                | none =>
                  let (t, f) := s1.applyAdds c op adds 0
                  reply (t.mapCore c fun x => { x with redKeys := x.redKeys ++ [(d.owner, key, bit)] }) none f
      | _, _ => s)

/-- CPRET (R263). -/
def execCpret (a b : BitVec 5) (s : State) : Out :=
  s.issue 4 [a, b] [] [] fun l t =>
    let key : BitVec 32 := (nthD 0 l 0).truncate 32
    let va := nthD 0 l 1
    if wf (nthD 0 l 0) 32 32 != 0 then .trap illOpnd
    else (t.xlate va cXLATE).bind fun e =>
      match e.home va.toNat with
      | .backing _ _ => .trap { cause := cPROT, detail := e.level * 256 + 4, addr := va }
      | .pool c _ =>
        if t.me.owned.any fun o => o.key == some key then .block { kind := 5 } t
        else (t.classRoom .copy).bind fun _ =>
          .ok ((t.mapCtx fun x => x.launch .copy false none).sendCore t.cur.core (.port c) false 8 (.keyRetire t.origin key))

/-- KEY_RETIREMENT_ARRIVAL (R263). -/
def execKeyRetirementArrival (p : Nat) (s : State) : Out :=
  .next (match s.atUnit p with
    | some (.port c, .keyRetire o key) =>
      ((s.takePacket p).mapCore c fun x =>
        { x with redKeys := x.redKeys.filter fun e => !(e.1 == o.core && e.2.1 == key) }).sendCore c (.core o.core) false 0
        (.keyRetired o)
    | _ => s)

/-- KEY_RETIREMENT_ACKNOWLEDGEMENT (R263). -/
def execKeyRetirementAcknowledgement (p : Nat) (s : State) : Out :=
  .next (match s.atUnit p with
    | some (.core _, .keyRetired o) => (s.takePacket p).finishOp o none
    | _ => s)

end Sys2Proof.Machine
end

