-- ==== Sys2Proof/Machine/System.lean ====
section
/-! DEFINITION. System registers, return from a trap, software traps, the event queue and the timer (R144,
R149, R150, R165 to R168). -/

namespace Sys2Proof.Machine

/-- locid (Table 6.5). -/
def locid (c : CoreId) (k : CtxId) : W := mkW [(c.toNat, 4), (k.toNat, 0)]

/-- System register n of Table 6.5 as a context reads it. -/
def Ctx.readSys (c : Ctx) (n : Nat) (loc cycles : W) : W :=
  match n with
  | 0x000 => c.fst.zeroExtend 64
  | 0x001 => (c.fst.truncate 5).zeroExtend 64
  | 0x008 => c.slim
  | 0x010 => c.lc[0].zeroExtend 64
  | 0x011 => c.lc[1].zeroExtend 64
  | 0x012 => c.lc[2].zeroExtend 64
  | 0x014 => c.lb[0]
  | 0x015 => c.lb[1]
  | 0x016 => c.lb[2]
  | 0x018 => c.le[0]
  | 0x019 => c.le[1]
  | 0x01A => c.le[2]
  | 0x020 => c.tvec
  | 0x021 => c.epc
  | 0x022 => mkW [(b2n c.skip, 1), (b2n c.act, 0)]
  | 0x028 => c.frec0
  | 0x029 => c.frec1
  | 0x02A => c.frec2
  | 0x02B => c.frec3
  | 0x100 => loc
  | _ => cycles

/-- A write of fst: none when it would place 5 to 7 in RM (R18). -/
def Ctx.writeFst (c : Ctx) (v : W) : Option Ctx :=
  if wf v 5 3 ≥ 5 then none else some { c with fst := v.truncate 13 }

/-- A write of frec0: only bit 63, by its HS rule (R144). -/
def Ctx.writeFrec0 (c : Ctx) (v : W) : Ctx := if wb v 63 then c else { c with frec0 := setField c.frec0 63 1 0 }

/-- A write of system register n: none where it traps (R144). -/
def Ctx.writeSys (c : Ctx) (n : Nat) (v : W) : Option Ctx :=
  match n with
  | 0x000 => c.writeFst v
  | 0x001 => some { c with fst := (c.fst.extractLsb' 5 8) ++ v.truncate 5 }
  | 0x008 => some { c with slim := v }
  | 0x010 => some { c with lc := c.lc.set 0 (v.truncate 32) }
  | 0x011 => some { c with lc := c.lc.set 1 (v.truncate 32) }
  | 0x012 => some { c with lc := c.lc.set 2 (v.truncate 32) }
  | 0x014 => some { c with lb := c.lb.set 0 (even v) }
  | 0x015 => some { c with lb := c.lb.set 1 (even v) }
  | 0x016 => some { c with lb := c.lb.set 2 (even v) }
  | 0x018 => some { c with le := c.le.set 0 (even v) }
  | 0x019 => some { c with le := c.le.set 1 (even v) }
  | 0x01A => some { c with le := c.le.set 2 (even v) }
  | 0x020 => some { c with tvec := even v }
  | 0x021 => some { c with epc := even v }
  | 0x022 => some { c with skip := wb v 1, act := c.act && wb v 0 }
  | 0x028 => some (c.writeFrec0 v)
  | _ => none

def execMfs (d : BitVec 5) (n : BitVec 12) (s : State) : Out :=
  s.issue 4 [] [d] [] fun _ t =>
    .ok (t.setG d (t.ctx.readSys n.toNat (locid t.cur.core t.cur.ctx) (BitVec.ofNat 64 t.me.cycle)))

def execMts (a : BitVec 5) (n : BitVec 12) (s : State) : Out :=
  s.issue 4 [a] [] [] fun l t =>
    match t.ctx.writeSys n.toNat (nthD 0 l 0) with
    | some c => .ok (t.mapCtx fun _ => c)
    | none => .trap illOpnd

/-- FST_WRITE (R17, R18): the write that `mts fst` makes. -/
def execFstWrite (v : W) (s : State) : Out :=
  s.finishJump (match s.ctx.writeFst v with
    | some c => .ok (s.mapCtx fun _ => c)
    | none => .trap illOpnd)

/-- FREC0_WRITE (R144): the write that `mts frec0` makes. -/
def execFrec0Write (v : W) (s : State) : Out := .next (s.mapCtx fun c => c.writeFrec0 v)

/-- ERET (R149): with SKIP the instruction at epc counts as completed, by R107. -/
def execEret (s : State) : Out :=
  let c := s.ctx
  if !c.act then .next (s.trap illOpnd)
  else
    let leave := fun (t : State) => t.mapCtx fun c => { c with act := false }
    if !c.skip then .next ((leave s).completeTo c.epc)
    else s.finishJump ((s.lenAt c.epc).bind fun (n, t) =>
      .ok (((leave t).mapCtx fun c => (c.loopNext c.epc n).1).completeTo (c.loopNext c.epc n).2))

def execTrap (c : BitVec 12) (s : State) : Out := .next (s.trap { cause := cSWTRAP, detail := c.toNat })

def execBrk (s : State) : Out := .next (s.trap { cause := cBREAK })

/-! ### The event queue (R165 to R167) -/

/-- The oldest entry of the highest priority present. -/
def takeEvent (l : List W) : Option (W × List W) :=
  ([0, 1, 2, 3].findSome? fun p => l.find? fun e => wf e 61 2 == p).map fun e => (e, l.erase e)

/-- The instruction is c0's. -/
def State.onlyC0 (s : State) (k : Out) : Out := if s.cur.ctx = 0 then k else .next (s.trap illOpnd)

def execEvwait (d : BitVec 5) (s : State) : Out :=
  s.onlyC0 (s.issue 4 [] [d] [] fun _ t =>
    match takeEvent t.me.events with
    | some (e, rest) => .ok ((t.mapMe fun x => { x with events := rest, newEvents := min x.newEvents rest.length }).setG d e)
    | none => .block { kind := 5 } t)

def execEvget (d : BitVec 5) (s : State) : Out :=
  s.onlyC0 (s.issue 4 [] [d] [] fun _ t =>
    match takeEvent t.me.events with
    | some (e, rest) => .ok ((t.mapMe fun x => { x with events := rest, newEvents := min x.newEvents rest.length }).setG d e)
    | none => .ok (t.setG d 0))

def execEvpost (a : BitVec 5) (s : State) : Out :=
  s.issue 4 [a] [] [] fun l t =>
    let w := nthD 0 l 0
    .ok (t.mapMe fun x => x.post (eventWord (wf w 61 2) 5 t.cur.ctx.toNat 0 (wf w 0 32)))

def execEvstat (d : BitVec 5) (s : State) : Out :=
  s.onlyC0 (s.issue 4 [] [d] [] fun _ t =>
    .ok ((t.setG d (mkW [(t.me.lost.toNat, 48), (t.me.events.length, 0)])).mapMe fun x => { x with lost := 0 }))

/-- TIMER_EXPIRY (R168): the countdown has reached 0. -/
def execTimerExpiry (c : CoreId) (s : State) : Out :=
  .next (if (s.core c).timer = 0 then s.mapCore c fun x => x.post (eventWord 1 1 0 0 0) else s)

/-- WATCHDOG_EXPIRY (R169): the stall counter of a blocked context has reached wdlim; it restarts. -/
def execWatchdogExpiry (c : CoreId) (k : CtxId) (s : State) : Out :=
  let x := s.core c
  let t := x.ctx k
  .next (match t.wait with
    | some w =>
      if t.life == .blocked && k != 0 && x.wdlim != 0 && decide (t.stall ≥ x.wdlim.toNat) then
        (s.mapCore c fun x => x.post (eventWord 1 4 k.toNat (w.kind + 16 * w.ep) t.pc.toNat)).mapCtxAt c k
          fun t => { t with stall := 0 }
      else s
    | none => s)

def execTmset (a : BitVec 5) (s : State) : Out :=
  s.onlyC0 (s.issue 4 [a] [] [] fun l t => .ok (t.mapMe fun x => { x with timer := nthD 0 l 0 }))

def execTmget (d : BitVec 5) (s : State) : Out :=
  s.issue 4 [] [d] [] fun _ t => .ok (t.setG d t.me.timer)

/-- FETCH_FILL_COMPLETE (R180). -/
def execFetchFillComplete (c : CoreId) (k : CtxId) (s : State) : Out := .next (s.fillReply c k)

/-- FORFEITED_TURN (R157): the context at its turn forfeits it. -/
def execForfeitedTurn (s : State) : Out := .next (s.mapCtx fun c => { c with forfeit := c.forfeit - 1 })

end Sys2Proof.Machine
end

