-- ==== Sys2Proof/Machine/CoreRegs.lean ====
section
/-! DEFINITION. Core registers and the instructions and events that write them (R163, R172, R176, R184, R202,
R297, R317, R388, R395, R431). -/

namespace Sys2Proof.Machine

/-- epown n (R431): the owners of endpoints 16n to 16n+15. -/
def Core.epown (x : Core) (n : Nat) : W :=
  mkW ((List.range 16).map fun j => ((x.ep (BitVec.ofNat 6 (16 * n + j))).owner.toNat, 4 * j))

/-- Core register n as `rdcore` reads it: none where it is not listed (Table 8.5 and its extensions). -/
def Core.readReg (x : Core) (n : Nat) : Option W :=
  match n with
  | 0x000 => some x.part
  | 0x008 => some x.win[0]
  | 0x009 => some x.win[1]
  | 0x00A => some x.win[2]
  | 0x00B => some x.win[3]
  | 0x00C => some x.win[4]
  | 0x00D => some x.win[5]
  | 0x00E => some x.win[6]
  | 0x00F => some x.win[7]
  | 0x010 => some (x.wdlim.zeroExtend 64)
  | 0x018 => some x.spbase
  | 0x020 => some x.ecnt
  | 0x028 => some (x.nackcnt.zeroExtend 64)
  | 0x030 => some x.cfault
  | 0x038 => some x.gmbox
  | 0x040 => some (x.gwake.zeroExtend 64)
  | 0x048 => some x.dqbase
  | 0x050 => some x.dqlim
  | 0x058 => some x.xroot
  | 0x060 => some 0
  | 0x068 => some (x.epown 0)
  | 0x070 => some (x.epown 1)
  | 0x078 => some (x.epown 2)
  | 0x080 => some (x.epown 3)
  | 0x088 => some (x.jdom.zeroExtend 64)
  | _ => none

/-! ### Writes, each answering none where it traps -/

/-- A window register (Table 8.8): IDX is its own index, reserved bits read 0. -/
def Core.writeWin (x : Core) (n : BitVec 3) (v : W) : Option Core :=
  if wf v 57 3 ≥ 5 then none
  else
    let w := mkW [(wf v 57 7, 57), (n.toNat, 54), (wf v 0 44, 0)]
    some { x with win := x.win.set n.toNat w }

/-- gmbox (R297, Table 12.6). -/
def Core.writeGmbox (x : Core) (v : W) : Option Core :=
  let base := wf v 9 13 * 512
  let n := wf v 22 7
  if wb v 63 && (n = 0 || n > 64 || !inScratch x.part base (512 * n)) then none
  else some { x with gmbox := mkW [(wf v 63 1, 63), (n, 22), (base, 0)] }

/-- Whether a deque region lies in scratchpad; an empty one passes (R317). -/
def dequeOk (part : W) (b l : Nat) : Bool := l = b || inScratch part b (l - b)

/-- dqbase (R317): the deque empties; a base above dqlim moves dqlim up. -/
def Core.writeDqbase (x : Core) (v : W) : Option Core :=
  let b := setField v 0 3 0
  let l := if x.dqlim.toNat < b.toNat then b else x.dqlim
  if dequeOk x.part b.toNat l.toNat then some { x with dqbase := b, dqlim := l, top := 0, bot := 0 } else none

/-- dqlim (R317). -/
def Core.writeDqlim (x : Core) (v : W) : Option Core :=
  let l := setField v 0 3 0
  if l.toNat < x.dqbase.toNat || !dequeOk x.part x.dqbase.toNat l.toNat then none
  else some { x with dqlim := l, top := 0, bot := 0 }

/-- xroot (R388): the micro-TLB empties. -/
def Core.writeXroot (x : Core) (v : W) : Option Core :=
  if wf v 48 8 != 0 || wf v 1 15 != 0 || wf v 40 8 != 0 then none else some { x with xroot := v, tlb := [] }

/-- epown n (R431): no owner of an endpoint that is not UNBOUND changes. -/
def Core.writeEpown (x : Core) (n : BitVec 2) (v : W) : Option Core :=
  let es := (List.range 16).map fun j => (BitVec.ofNat 6 (16 * n.toNat + j), (BitVec.ofNat 4 (wf v (4 * j) 4) : CtxId))
  if es.any fun e => (x.ep e.1).st != .unbound && (x.ep e.1).owner != e.2 then none
  else some (es.foldl (fun x e => if (x.ep e.1).owner == e.2 then x else x.mapEp e.1 fun p => { p with owner := e.2 }) x)

/-- Core registers that `wrcore` writes at once. -/
def Core.writeReg (x : Core) (n : Nat) (v : W) : Option Core :=
  match n with
  | 0x008 => x.writeWin 0 v
  | 0x009 => x.writeWin 1 v
  | 0x00A => x.writeWin 2 v
  | 0x00B => x.writeWin 3 v
  | 0x00C => x.writeWin 4 v
  | 0x00D => x.writeWin 5 v
  | 0x00E => x.writeWin 6 v
  | 0x00F => x.writeWin 7 v
  | 0x010 => some { x with wdlim := v.truncate 32 }
  | 0x018 => some { x with spbase := setField v 0 14 0 }
  | 0x020 => some { x with ecnt := v }
  | 0x028 => some { x with nackcnt := v.truncate 16 }
  | 0x038 => x.writeGmbox v
  | 0x040 => some { x with gwake := v.truncate 16 }
  | 0x048 => x.writeDqbase v
  | 0x050 => x.writeDqlim v
  | 0x058 => x.writeXroot v
  | 0x068 => x.writeEpown 0 v
  | 0x070 => x.writeEpown 1 v
  | 0x078 => x.writeEpown 2 v
  | 0x080 => x.writeEpown 3 v
  | _ => none

/-- Whether a tlbinv value drops an entry (R395). -/
def invDrops (v : W) (e : TlbEnt) : Bool :=
  if wb v 8 then e.asid == v.truncate 8
  else e.hits (v.truncate 8) (wf v 12 40)

/-- The drop reaches every translation unit in the scope: entries go, and walks in progress will install
nothing (R395). -/
def State.dropEntries (s : State) (o : CoreId) (v : W) : State :=
  let sc := wf v 9 3
  { s with
    cores := s.cores.map fun e =>
      if inScope sc o (BitVec.ofNat 11 e.1) then (e.1, { e.2 with tlb := e.2.tlb.filter fun t => !invDrops v t }) else e
    floes := s.floes.map fun e =>
      if sc != 0 && inScope sc o (coreAt (BitVec.ofNat 8 e.1) 0) then
        (e.1, { e.2 with
          tcache := e.2.tcache.filter fun t => !invDrops v t
          walks := e.2.walks.map fun w => { w with dead := true } })
      else e }

/-- The tlbinv write (R388, R395): c0 is BLOCKED until every unit in scope has dropped its entries. -/
def State.writeTlbinv (s : State) (v : W) : Res State :=
  if wf v 52 12 != 0 || wf v 9 3 ≥ 5 then .trap illOpnd
  else match s.ctx.req with
    | some ⟨_, some _⟩ => .ok s
    | some ⟨_, none⟩ => .block { kind := 5 } s
    | none =>
      .block { kind := 5 } ((s.mapMe fun x => { x with inval := some v }).mapCtx fun c => { c with req := some ⟨0, none⟩ })

/-- A write of core register n by the issuing context (R163). -/
def State.writeCore (s : State) (n : Nat) (v : W) : Res State :=
  if s.cur.ctx != 0 then .trap illOpnd
  else if n = 0x060 then s.writeTlbinv v
  else match s.me.writeReg n v with
    | some x => .ok (s.mapMe fun _ => x)
    | none => .trap illOpnd

def execRdcore (d a : BitVec 5) (s : State) : Out :=
  s.issue 4 [a] [d] [] fun l t =>
    match t.me.readReg (wf (nthD 0 l 0) 0 12) with
    | some v => .ok (t.setG d v)
    | none => .trap illOpnd

def execWrcore (a b : BitVec 5) (s : State) : Out :=
  s.issueIf (s.cur.ctx == 0) 4 [a, b] [] [] fun l t => t.writeCore (wf (nthD 0 l 0) 0 12) (nthD 0 l 1)

/-- TLBINV_DROP_COMPLETE (R395): every unit in scope has dropped, and c0's `wrcore` completes. -/
def execTlbinvDropComplete (c : CoreId) (s : State) : Out :=
  .next (match (s.core c).inval with
    | none => s
    | some v =>
      ((s.dropEntries c v).mapCore c fun x => { x with inval := none }).mapCtxAt c 0 fun k =>
        { k with req := k.req.map fun r => { r with ans := some (.value 0 0) } })

/-! ### The register writes as events: the write that `wrcore` makes, by the context at hand -/

def execXrootWrite (v : W) (s : State) : Out := s.finishJump (s.writeCore 0x058 v)
def execTlbinvWrite (v : W) (s : State) : Out := s.finishJump (s.writeCore 0x060 v)
def execDqbaseWrite (v : W) (s : State) : Out := s.finishJump (s.writeCore 0x048 v)
def execDqlimWrite (v : W) (s : State) : Out := s.finishJump (s.writeCore 0x050 v)
def execGmboxWrite (v : W) (s : State) : Out := s.finishJump (s.writeCore 0x038 v)
def execEpownWrite (n : BitVec 2) (v : W) (s : State) : Out := s.finishJump (s.writeCore (0x068 + 8 * n.toNat) v)
def execWindowRegisterWrite (n : BitVec 3) (v : W) (s : State) : Out := s.finishJump (s.writeCore (0x008 + n.toNat) v)

/-- JDOM_WRITE (R202): a `wrcore` to jdom traps; only a launch image writes it. -/
def execJdomWrite (v : W) (s : State) : Out := s.finishJump (s.writeCore 0x088 v)

end Sys2Proof.Machine
end

