-- ==== Sys2Proof/Machine/Fabric.lean ====
section
/-! DEFINITION. The fabric: addresses and ports, frames and link retry, failover, routing between modules, lost
modules (R437 to R449). -/

namespace Sys2Proof

/-- The lanes that hold flits of a packet, the head's first. -/
def Packet.chain (pk : Packet) : List Held :=
  match pk.place with
  | .standing r port lane => ⟨r, port, lane, pk.here⟩ :: pk.behind
  | _ => pk.behind

end Sys2Proof

namespace Sys2Proof.Machine

/-- What a packet keeps of a lane (R355, R356): a shared lane is reserved for all of it that has not left the lane, an
escape lane holds the flits that are there. -/
def heldIn (r : FloeId) (port : Nat) (lane : Lane) (rest : Nat) : List Held → Nat
  | [] => 0
  | h :: l =>
    (if h.router == r && h.port == port && h.lane == lane then
      (match lane with
      | .shared => h.flits + (l.map fun x => x.flits).sum + rest
      | _ => h.flits)
    else 0) + heldIn r port lane rest l

/-- Flits that a lane holds or is reserved for. -/
def State.laneHeld (s : State) (r : FloeId) (port : Nat) (lane : Lane) : Nat :=
  (s.net.map fun q => heldIn r port lane q.rest q.chain).sum

/-! ### Addresses and ports -/

/-- Port n = 5d + j: its dimension j, its die d, whether its direction is +, its rail (R438). -/
def portDim (n : BitVec 5) : Nat := n.toNat % 5
def portDie (n : BitVec 5) : Nat := n.toNat / 5
def portPlus (n : BitVec 5) : Bool := portDie n / 2 == 0
def portRail (n : BitVec 5) : Bool := portDie n % 2 == 1

/-- The port of a dimension, direction and rail. -/
def portAt (dim : Nat) (plus rail : Bool) : BitVec 5 :=
  BitVec.ofNat 5 (5 * ((if plus then 0 else 2) + b2n rail) + dim)

/-- The partner of the same direction (R441). -/
def partner (n : BitVec 5) : BitVec 5 := portAt (portDim n) (portPlus n) (!portRail n)

/-- The router whose port A a fabric port sits behind (R415, R438). -/
def portFloe (n : BitVec 5) : FloeId := BitVec.ofNat 8 (portDie n * 64 + nthD 50 [2, 12, 21, 35, 50] (portDim n))

def allPorts : List (BitVec 5) := (List.range 20).map (BitVec.ofNat 5)

/-- The fabric port behind port A of a router, if one is (R415). -/
def fabricPortOf (r : FloeId) : Option (BitVec 5) := allPorts.find? fun n => portFloe n == r

def State.port (s : State) (n : BitVec 5) : Port := s.ports.look {} n.toNat

def State.mapPort (s : State) (n : BitVec 5) (f : Port → Port) : State :=
  { s with ports := s.ports.put n.toNat (f (s.port n)) }

/-- fstat (Table 23.5): two bits of status for each port. -/
def State.fstat (s : State) : W := mkW (allPorts.map fun n => ((s.port n).st.toNat, 2 * n.toNat))

def State.portUp (s : State) (n : BitVec 5) : Bool := (s.port n).st == 2
def State.portDown (s : State) (n : BitVec 5) : Bool := (s.port n).st == 3

/-- The home port of a rail as port n of the same direction carries it. -/
def railHome (n : BitVec 5) (rail : Bool) : BitVec 5 := if portRail n == rail then n else partner n

/-- The port that carries the rail whose home is h (R441). -/
def State.carrier (s : State) (h : BitVec 5) : BitVec 5 := if (s.port h).moved then partner h else h

def State.fretryBy (s : State) (n : Nat) : State := { s with fretry := BitVec.ofNat 32 (satAdd s.fretry.toNat n 32) }
def State.fdropOne (s : State) : State := { s with fdrop := BitVec.ofNat 32 (satAdd s.fdrop.toNat 1 32) }

/-- rdrop of a router counts one more (Table 16.4). -/
def State.rdropOne (s : State) (r : FloeId) : State :=
  s.mapFloe r fun f => { f with rdrop := BitVec.ofNat 32 (satAdd f.rdrop.toNat 1 32) }

/-! ### Frames (R439, R440) -/

/-- A frame without slots: control, NAK, RESYNC, its answer (Table 23.3). -/
def frame (ftype : Nat) (rail : Bool) (ack : BitVec 12) : Frame :=
  { ftype := ftype, rail := rail, seq := 0, ack := ack, cls := [], crcOk := true, slots := [], lanes := [], lost := none }

/-- The header of a frame (Table 23.3); NF counts the slots that the frame uses, one of a control or lost-module frame (log 30). -/
def frameHeader (f : Frame) : W :=
  let nf := if f.ftype = 1 || f.ftype = 5 then 1 else f.slots.length
  mkW ([(f.ftype % 16, 60), (nf % 8, 57), (b2n f.rail, 56), (if f.ftype = 0 then f.seq.toNat else 0, 44), (f.ack.toNat, 32)] ++
    ((List.range f.cls.length).zip f.cls).map fun e => (e.2 % 4, 24 + 2 * e.1))

/-- The network header of a packet that leaves by port n (R443, Table 23.4). -/
def lineHeader (n : BitVec 5) (pk : Packet) : W :=
  if pk.kind != 0 then netHeader pk
  else
    let sub := match pk.dst with | .core c => c.toNat % 8 | .port c => c.toNat % 8 | _ => 0
    mkW [(wf (netHeader pk) 54 10, 54), ((portFloe n).toNat, 46), (5, 43), (pk.dmod.toNat, 21), ((destFloe pk.dst).toNat, 13),
      (destPort pk.dst, 10), (sub, 7), (pk.rev.toNat, 2)]

/-- The bytes of a frame's slots on port n: of a data frame the flits that stand in them, `start` being the place in its packet
of the first; none where the manual gives the packet's contents no layout. -/
def slotBytes (n : BitVec 5) (f : Frame) (start : Nat) : Option (List Byte) :=
  match f.ftype with
  | 0 => f.slots.head?.bind fun e => (channelBytes e.1).map fun l =>
      ((leBytes 8 (lineHeader n e.1).toNat ++ l.drop 8).drop (64 * start)).take (64 * f.slots.length)
  | 1 => some (f.lanes.map (BitVec.ofNat 8))
  | 5 => some (leBytes 8 (match f.lost with | some (a, ttl) => mkW [(a.toNat, 45), (ttl.toNat, 39)] | none => 0).toNat)
  | _ => some []

/-- One byte into a CRC-32C, least significant bit first (R439; PRESUMED, log 30: the Castagnoli polynomial, reflected, preset
and inverted with ones). -/
def crcByte (c : BitVec 32) (b : Byte) : BitVec 32 :=
  (List.range 8).foldl (fun c _ => if c.getLsbD 0 then (c >>> 1) ^^^ 0x82F63B78 else c >>> 1) (c ^^^ b.zeroExtend 32)

def crc32c (l : List Byte) : BitVec 32 := l.foldl crcByte 0xFFFFFFFF ^^^ 0xFFFFFFFF

/-- The 272 bytes of a frame (R439): header, four slots, and the trailer with the CRC over both. -/
def frameBytes (n : BitVec 5) (f : Frame) (start : Nat) : Option (List Byte) :=
  (slotBytes n f start).map fun b =>
    let l := leBytes 8 (frameHeader f).toNat ++ b ++ List.replicate (256 - b.length) 0
    l ++ leBytes 8 (crc32c l).toNat

/-- The frames of a packet: each of its flits in a slot, the last one marked. -/
def packetFrames (rail : Bool) (pk : Packet) : List Frame :=
  (List.range ((pk.len + 3) / 4)).map fun j =>
    let slots := (List.range (Nat.min 4 (pk.len - 4 * j))).map fun i => (pk, 4 * j + i + 1 == pk.len)
    { frame 0 rail 0 with cls := slots.map fun _ => pk.fcls, slots := slots }

/-- Frames go on the line of port n. -/
def State.putOnLine (s : State) (n : BitVec 5) (l : List Frame) : State :=
  s.mapPort n fun p => { p with sent := p.sent ++ l }

/-- Whether frames of the rail of home h may go out now: the port that carries it is up, and a move to the
partner has been answered (R441). -/
def State.canSend (s : State) (h : BitVec 5) : Bool :=
  let c := s.carrier h
  s.portUp c && !((s.port h).moved && (s.port c).resync)

/-- The lane of a fabric input or output that a packet uses: 0 shared, 1 + class else (R439, R444). -/
def fabLane (pk : Packet) : Nat := if pk.kind != 0 || (pk.adapt && !pk.esc) then 0 else 1 + pk.fcls

/-- The lanes of the flits that frames carry. -/
def laneFlits (l : List Frame) (k : Nat) : Nat := ((l.flatMap fun f => f.slots).filter fun e => fabLane e.1 == k).length

/-- The counts last reported, less the flits that these frames send (R439). -/
def lessFlits (lanes : List Nat) (l : List Frame) : List Nat := (List.range 4).map fun k => nthD 0 lanes k - laneFlits l k

/-- The slots of a frame up to n, and from n on. -/
def frameUpTo (f : Frame) (n : Nat) : Frame := { f with slots := f.slots.take n, cls := f.cls.take n }
def frameFrom (f : Frame) (n : Nat) : Frame := { f with slots := f.slots.drop n, cls := f.cls.drop n }

/-- Of the frames that wait, those that go out now, at most `room`, and those that wait on. A packet of the shared lane has its
reservation; the flits of a class lane go as far as the count of the lane allows (R356, R439), and what follows them in that
lane waits behind them. -/
def sendable : Nat → List Nat → List Frame → List Frame × List Frame
  | _, _, [] => ([], [])
  | 0, _, l => ([], l)
  | room + 1, lanes, f :: l =>
    let k := (f.slots.head?.map fun e => fabLane e.1).getD 0
    let n := if k = 0 then f.slots.length else Nat.min f.slots.length (nthD 0 lanes k)
    let rest := lanes.set k (if n < f.slots.length then 0 else nthD 0 lanes k - n)
    if n = 0 && !f.slots.isEmpty then
      let (a, b) := sendable (room + 1) rest l
      (a, f :: b)
    else
      let (a, b) := sendable room rest l
      (frameUpTo f n :: a, if n < f.slots.length then frameFrom f n :: b else b)

/-- Frames that wait go out in sequence, at most 1,024 unacknowledged (R439, R440). -/
def State.pump (s : State) (h : BitVec 5) : State :=
  if !s.canSend h then s
  else
    let p := s.port h
    let (now, later) := sendable (1024 - p.unacked.length) (s.port (s.carrier h)).lanes p.outq
    let l := ((List.range now.length).zip now).map fun e =>
      { e.2 with seq := p.nextTx + BitVec.ofNat 12 e.1, ack := p.nextRx }
    let s1 := s.mapPort h fun p =>
      { p with
        outq := later
        unacked := p.unacked ++ l.map fun f => (f, 1)
        nextTx := p.nextTx + BitVec.ofNat 12 now.length }
    (s1.mapPort (s.carrier h) fun p => { p with lanes := lessFlits p.lanes l }).putOnLine (s.carrier h) l

/-- Both rails that a port may carry. -/
def State.pumpBoth (s : State) (n : BitVec 5) : State := (s.pump n).pump (partner n)

/-- An ACK passes frames below it (R440). -/
def Port.acked (p : Port) (ack : BitVec 12) : Port :=
  match p.unacked with
  | [] => p
  | (f, _) :: _ =>
    let n := (ack - f.seq).toNat
    if n ≤ p.unacked.length then { p with unacked := p.unacked.drop n } else p

/-! ### Lost modules (R442, R447, R448) -/

/-- LOST_ADDRESS_ACTION (R448): to an endpoint whose peer lies there it is a LOSS with REASON 2, which a DELEGATING one holds for
its new holder (R218), and which waits in the core's floe for an engine that holds its slots (R284); NOTE has no peer (R198). -/
def State.actOnLost (s : State) (a : BitVec 19) : State :=
  let cores := s.cores.map fun e => (BitVec.ofNat 11 e.1 : CoreId)
  let s1 := cores.foldl (fun s c =>
    allEps.foldl (fun s e =>
      let ep := s.epAt c e
      if ep.phw || ep.proto == 10 || locMod ep.paddr != a then s
      else if ep.st == .open || ep.st == .peerClosed || ep.st == .delegating then
        (s.deliver c (.loss e ep.gen 2)).getD (s.sendCore c (.core c) false 0 (.loss e ep.gen 2))
      else if ep.st == .connecting && ep.request.isSome then
        (s.mapEpAt c e fun ep => { ep.unbind with request := none }).tell c ep.owner .mismatch
      else s) s) s
  { s1 with
    flost := setField (setField s1.flost 32 16 (satAdd (wf s1.flost 32 16) 1 16)) 0 19 a.toNat
    hostOut := s1.hostOut ++ [.msix 3] }

/-- The lost table takes an address, the oldest of 256 giving way (R447). -/
def State.recordLost (s : State) (a : BitVec 19) : State :=
  { s with lostTab := (if s.lostTab.length < 256 then s.lostTab else s.lostTab.drop 1) ++ [a] }

/-- A lost-module frame goes out on every up port but one (R447). -/
def State.spreadLost (s : State) (a : BitVec 19) (ttl : Nat) (but : Option (BitVec 5)) : State :=
  (allPorts.filter fun n => s.portUp n && some n != but).foldl (fun s n =>
    s.putOnLine n [{ frame 5 (portRail n) (s.port n).nextRx with lost := some (a, BitVec.ofNat 6 ttl) }]) s

/-- The neighbour of a port's direction. -/
def State.neighbour (s : State) (n : BitVec 5) : BitVec 19 :=
  let i := portDim n
  let z := coord s.address i
  let k := s.dimSize i
  setCoord s.address i (if portPlus n then (z + 1) % k else (z + k - 1) % k)

/-- DIRECTION_LOST (R442): what is held for the direction is lost, and a packet that has come from there in part. -/
def State.directionLost (s : State) (n : BitVec 5) : State :=
  let drop := fun (p : Port) => { p with unacked := [], outq := [] }
  let a := s.neighbour n
  let s := { s with net := s.net.filter fun q => !(q.awaits.isSome && (q.fin == some n || q.fin == some (partner n))) }
  ((((s.mapPort n drop).mapPort (partner n) drop).recordLost a).actOnLost a).spreadLost a 48 none

/-! ### Ports going down (R441, R449) -/

/-- Fields of a stream entry's first dword (Table 16.2). -/
def entV (d0 : W) : Bool := wb d0 63
def entCur (d0 : W) : Nat := wf d0 61 2
def entNset (d0 : W) : Nat := wf d0 59 2
def entSet (d0 : W) (i : Nat) : Nat := wf d0 (12 * i) 12
def entIn (d0 : W) : Nat := entSet d0 (entCur d0) / 64
def entOut (d0 : W) : Nat := entSet d0 (entCur d0) % 64

/-- Whether a port set names port A. -/
def setNamesA (x : Nat) : Bool := x.testBit 5 || x.testBit 11

/-- STREAM_FAILOVER (R449): an entry whose current set names the port steps to the next that does not. -/
def failover (e : StreamEnt) : StreamEnt :=
  let n := entNset e.d0 + 1
  if entV e.d0 && setNamesA (entSet e.d0 (entCur e.d0)) then
    match ((List.range n).map fun i => (entCur e.d0 + i) % n).find? fun i => !setNamesA (entSet e.d0 i) with
    | some i => { e with d0 := setField e.d0 61 2 i }
    | none => e
  else e

/-- The rail of a down port moves to its partner (R441): RESYNC goes out there; how often the frames it still holds have been sent is
counted anew on that port (log 30). -/
def State.moveRail (s : State) (n : BitVec 5) : State :=
  let q := partner n
  ((s.mapPort n fun p => { p with moved := true, unacked := p.unacked.map fun f => (f.1, 0) }).mapPort q fun p =>
    { p with resync := true }).putOnLine q [frame 3 (portRail n) (s.port n).nextRx]

/-- PORT_DOWN (R441): streams fail over; the rail moves to an up partner, or the direction is lost. A partner that is still in
training takes the rail once it is up. -/
def State.takeDown (s : State) (n : BitVec 5) : State :=
  let q := partner n
  let s1 := (s.mapPort n fun p => { p with st := 3, resync := false }).mapFloe (portFloe n) fun f =>
    { f with streams := f.streams.map fun e => (e.1, failover e.2) }
  if s.portUp q then s1.moveRail n
  else if s.portDown q then s1.directionLost n
  else s1

/-- The unacknowledged frames of a rail are sent again in order; one that has been sent 8 times takes the port
down instead (R440, R441). -/
def State.resend (s : State) (h : BitVec 5) : State :=
  let p := s.port h
  if p.unacked.any fun f => decide (f.2 ≥ 8) then s.takeDown (s.carrier h)
  else if !s.canSend h then s
  else
    let s1 := (s.mapPort h fun p => { p with unacked := p.unacked.map fun f => (f.1, f.2 + 1) }).mapPort (s.carrier h) fun c =>
      { c with lanes := lessFlits c.lanes (p.unacked.map fun f => f.1) }
    ((s1.putOnLine (s.carrier h) (p.unacked.map fun f => { f.1 with ack := p.nextRx })).fretryBy p.unacked.length).pump h

/-! ### What arrives at a port -/

/-- A port has its link up, and takes the rail of a partner that is down (R441). -/
def State.linkUp (s : State) (n : BitVec 5) : State :=
  let s1 := s.mapPort n fun p => { p with st := 2 }
  if s.portDown (partner n) && !(s.port (partner n)).moved then s1.moveRail (partner n) else s1

/-- A frame reaches a port that is there and not down: a training port has its link up (log 30). -/
def State.heard (s : State) (n : BitVec 5) (k : State → State) : Out :=
  .next (if n.toNat ≥ 20 || (s.port n).st == 0 || s.portDown n then s else k (s.linkUp n))

/-- An acknowledgement of the rail that a frame names (R439, R440). -/
def State.ackFrom (s : State) (n : BitVec 5) (fr : Frame) : State :=
  s.mapPort (railHome n fr.rail) fun p => p.acked fr.ack

/-- FABRIC_INGRESS_REWRITE (R443): a packet whose first flit has come stands at port A of the port's router; at
its destination module the fabric fields are 0. Its further flits come by the rail's frames. -/
def State.ingress (s : State) (n : BitVec 5) (rail : Bool) (pk : Packet) : State :=
  let mine := pk.kind == 0 && pk.dmod == s.address
  let pk1 : Packet :=
    { pk with
      vc := false, fin := some n, via := none
      rev := if mine then 0 else pk.rev
      place := .standing (portFloe n) 5 (if fabLane pk = 0 then .shared else .fabric pk.fcls), here := 1, behind := []
      rest := pk.len - 1, awaits := if pk.len ≤ 1 then none else some (rail, fabLane pk) }
  { s with net := s.net ++ [pk1] }

/-- One more flit of a packet has come in by the fabric: it enters the lane that the packet's last flits hold. -/
def flitIn (pk : Packet) : Packet :=
  let n := pk.behind.length
  { pk with
    here := if n = 0 then pk.here + 1 else pk.here
    behind := ((List.range n).zip pk.behind).map fun e => if e.1 + 1 = n then { e.2 with flits := e.2.flits + 1 } else e.2
    rest := pk.rest - 1, awaits := if pk.rest ≤ 1 then none else pk.awaits }

/-- A flit comes in at port n: a further one of the packet of its rail and lane that is not whole yet, or the first of one
(R356, R439). -/
def State.slotIn (s : State) (n : BitVec 5) (rail : Bool) (pk : Packet) : State :=
  let mine := fun (q : Packet) => q.awaits == some (rail, fabLane pk) && (q.fin == some n || q.fin == some (partner n))
  match s.net.findIdx? mine with
  | some i => { s with net := s.net.modify i flitIn }
  | none => s.ingress n rail pk

/-- DATA_FRAME_ARRIVAL (R440): accepted with a good CRC and the SEQ expected; else discarded, with one NAK for
each expected value. A frame of a reserved type is discarded (R439). -/
def execDataFrameArrival (port : BitVec 5) (fr : Frame) (s : State) : Out :=
  s.heard port fun s =>
    let h := railHome port fr.rail
    let p := s.port h
    if fr.ftype ≥ 6 then s.fretryBy 1
    else if fr.ftype ≠ 0 then s
    else if fr.crcOk && fr.seq == p.nextRx then
      let s1 := (s.mapPort h fun p => { p with nextRx := p.nextRx + 1, naked := false }).ackFrom port fr
      (fr.slots.foldl (fun s e => s.slotIn port fr.rail e.1) s1).pump h
    else
      let s1 := s.fretryBy 1
      if p.naked then s1
      else (s1.mapPort h fun p => { p with naked := true }).putOnLine port [frame 2 fr.rail p.nextRx]

/-- NAK_ARRIVAL (R440): the sender resends from the expected SEQ. -/
def execNakArrival (port : BitVec 5) (fr : Frame) (s : State) : Out :=
  s.heard port fun s =>
    if fr.ftype ≠ 2 || !fr.crcOk then s else (s.ackFrom port fr).resend (railHome port fr.rail)

/-- CONTROL_FRAME_ARRIVAL (R439): free flit counts and an acknowledgement. -/
def execControlFrameArrival (port : BitVec 5) (fr : Frame) (s : State) : Out :=
  s.heard port fun s =>
    if fr.ftype ≠ 1 || !fr.crcOk then s
    else ((s.ackFrom port fr).mapPort port fun p => { p with lanes := fr.lanes }).pumpBoth port

/-- RETRY_TIMEOUT (R440): the oldest unacknowledged frame of a rail is 16,384 cycles old. -/
def execRetryTimeout (port : BitVec 5) (rail : Bool) (s : State) : Out :=
  .next (let h := railHome port rail
    if port.toNat ≥ 20 || !s.portUp (s.carrier h) || (s.port h).unacked.isEmpty then s else s.resend h)

/-- The lane of a fabric input. -/
def fabricLane (k : Nat) : Lane := if k = 0 then .shared else .fabric (k - 1)

/-- Free flits of lane k of a port's input: its size less the flits it holds, those of a packet that has come in part among
them (R355, R439). -/
def State.fabFree (s : State) (n : BitVec 5) (k : Nat) : Nat :=
  (if k = 0 then 32 else 8) - (s.net.map fun q =>
    ((q.chain.filter fun h => h.router == portFloe n && h.port == 5 && h.lane == fabricLane k).map fun h => h.flits).sum).sum

/-- CONTROL_FRAME_INTERVAL (R440): a control frame with the free counts of the input lanes. -/
def execControlFrameInterval (port : BitVec 5) (s : State) : Out :=
  .next (if port.toNat ≥ 20 || !((s.port port).st == 1 || s.portUp port) then s
    else s.putOnLine port [{ frame 1 (portRail port) (s.port port).nextRx with
      lanes := (List.range 4).map (s.fabFree port) }])

/-- PORT_SILENCE_TIMEOUT (R441): no frame for 2^20 cycles. -/
def execPortSilenceTimeout (port : BitVec 5) (s : State) : Out :=
  .next (if port.toNat ≥ 20 || !s.portUp port then s else s.takeDown port)

/-- RESYNC_ARRIVAL (R441): the answer names the SEQ expected on the down rail. -/
def execResyncArrival (port : BitVec 5) (fr : Frame) (s : State) : Out :=
  s.heard port fun s =>
    if fr.ftype ≠ 3 || !fr.crcOk then s
    else (s.ackFrom port fr).putOnLine port [frame 4 fr.rail (s.port (railHome port fr.rail)).nextRx]

/-- RESYNC_ANSWER_ARRIVAL (R441): frames below E are dropped, the rest go out again on the partner, and the rail
goes on there. -/
def execResyncAnswerArrival (port : BitVec 5) (fr : Frame) (s : State) : Out :=
  s.heard port fun s =>
    let h := partner port
    if fr.ftype ≠ 4 || !fr.crcOk || !(s.port port).resync || portRail h != fr.rail then s
    else (((s.mapPort port fun p => { p with resync := false }).ackFrom port fr).resend h).pump h

/-- RESYNC_TIMEOUT (R441): a RESYNC without an answer takes the partner down as well. -/
def execResyncTimeout (port : BitVec 5) (s : State) : Out :=
  .next (if port.toNat < 20 && s.portUp port && (s.port port).resync then s.takeDown port else s)

/-- LOST_MODULE_FRAME_ARRIVAL (R447). -/
def execLostModuleFrameArrival (port : BitVec 5) (addr : BitVec 19) (ttl : BitVec 6) (s : State) : Out :=
  s.heard port fun s =>
    if addr == s.address then s.fail 1 6 0x100
    else if s.lostTab.contains addr then s
    else
      let s1 := (s.recordLost addr).actOnLost addr
      if ttl.toNat - 1 > 0 then s1.spreadLost addr (ttl.toNat - 1) (some port) else s1

/-! ### Management registers of the fabric (Table 23.5) -/

/-- The bits of fid that a write sets (Table 23.2). -/
def fidMask : W := 0x00FFFFE00007FFFF

/-- A write of fid (R437): ignored while a port is up; the ports of the dimensions whose size is above 1 train, the
others stay unused (R438). -/
def State.writeFid (s : State) (v : W) : State :=
  if allPorts.any s.portUp then s
  else
    let s1 : State := { s with fid := v &&& fidMask }
    allPorts.foldl (fun s n =>
      if s.portDown n then s
      else s.mapPort n fun p => { p with st := if s1.dimSize (portDim n) > 1 then 1 else 0 }) s1

/-- A write of flost (R447, Table 23.5). -/
def State.writeFlost (s : State) (v : W) : State :=
  { s with
    lostTab := if wb v 63 then [] else s.lostTab
    flost := v &&& 0x0000FFFF0007FFFF }

/-- FID_WRITE (R437). -/
def execFidWrite (v : W) (s : State) : Out := .next (s.writeFid v)

/-- FLOST_WRITE (R447). -/
def execFlostWrite (v : W) (s : State) : Out := .next (s.writeFlost v)

/-! ### Routing between modules (R444, R448) -/

/-- The rail of a unicast packet (R444). -/
def packetRail (pk : Packet) : Bool := Bool.xor (pk.dmod.getLsbD 0) ((destFloe pk.dst).getLsbD 0)

/-- The next port, and REV after the choice: none when both ports of both directions are down (R444). -/
def State.nextPort (s : State) (pk : Packet) : Option (BitVec 5 × BitVec 5) :=
  let me := s.address
  match (List.range 5).find? fun i => coord pk.dmod i != coord me i with
  | none => none
  | some i =>
    let size := s.dimSize i
    let plus := decide ((coord pk.dmod i + size - coord me i) % size ≤ size / 2)
    let came := pk.fin.bind fun n => if portDim n = i then some (!portPlus n) else none
    let rev := pk.rev.getLsbD i
    let dir := if rev then came.getD (!plus) else plus
    let usable := fun (d : Bool) =>
      let n := portAt i d (packetRail pk)
      [n, partner n].find? fun n => !s.portDown n
    match usable dir with
    | some n => some (n, pk.rev)
    | none => if rev then none else (usable (!dir)).map fun n => (n, pk.rev ||| (1#5 <<< i))

/-- Whether a packet is discarded at its source's fabric port: its address names no module, or it is a notice,
LOSS or buddy copy for a lost one (R437, R448). -/
def State.noModule (s : State) (pk : Packet) : Bool :=
  !s.isModule pk.dmod ||
  (pk.fin.isNone && s.lostTab.contains pk.dmod &&
    (match pk.body with | .notice _ _ _ => true | .loss _ _ _ => true | .buddy _ _ _ => true | _ => false))

/-- The class in which a packet leaves by port n (R444). -/
def State.classAt (s : State) (n : BitVec 5) (pk : Packet) : Nat :=
  let i := portDim n
  let z := coord s.address i
  let base := if pk.fin.any fun m => portDim m == i then pk.fcls else 0
  let crosses := if portPlus n then z + 1 == s.dimSize i else z == 0
  if pk.rev.getLsbD i then 2 else if crosses then Nat.max base 1 else base

/-- The flits that a port's partner module has room for in lane k: the count seen, less those in frames that still wait. -/
def State.fabCount (s : State) (c : BitVec 5) (k : Nat) : Nat :=
  let waiting := (allPorts.filter fun h => s.carrier h == c && (s.port h).st != 0).flatMap fun h => (s.port h).outq
  nthD 0 (s.port c).lanes k - laneFlits waiting k

/-- A packet leaves by port n, in the shared lane or that of its class, when the count allows (R439); none when it
waits. -/
def State.leave (s : State) (n : BitVec 5) (pk : Packet) : Option State :=
  let pk1 := if pk.kind = 0 then { pk with fcls := s.classAt n pk } else pk
  let rail := if pk.kind = 0 then packetRail pk else portRail n
  let h := railHome n rail
  let c := s.carrier h
  let free := s.fabCount c
  let go := fun (pk : Packet) => (s.mapPort h fun p => { p with outq := p.outq ++ packetFrames rail pk }).pump h
  if !s.portUp c then none
  else if fabLane pk1 = 0 && free 0 ≥ pk.len then some (go pk1)
  else if pk.kind = 0 && free (1 + pk1.fcls) ≥ 1 then some (go { pk1 with esc := true })
  else none

end Sys2Proof.Machine
end

