-- ==== Sys2Proof/Machine/Float.lean ====
section
/-! DEFINITION. Scalar floating-point instructions and conversions (R46, R49, R50, R110 to R121). -/

namespace Sys2Proof.Machine

/-! ### Exceptions and the normaliser at an instruction -/

/-- The exceptions that `fst` enables (Table 1.2). -/
def Ctx.enables (c : Ctx) : BitVec 5 := c.fst.extractLsb' 8 5

/-- The trap of an instruction that raised an enabled exception (R46, R50). -/
def fpTrap (f : BitVec 5) (lane turns : Nat) : Trap := { cause := cFP, lane := lane, exc := f, turns := turns }

/-- A floating-point instruction that raised `f`: it traps when one is enabled, at `lane`; otherwise its result is
written, its flags are set, and its turns are forfeited (R46, R49). -/
def State.fpDone (s : State) (f : BitVec 5) (lane turns : Nat) (k : State → State) : Res State :=
  if f &&& s.ctx.enables != 0 then .trap (fpTrap f lane turns)
  else .ok (((k s).orFlags s.cur.core s.cur.ctx f).forfeits turns)

/-- The operand of a format in a g register (R110). -/
def Fmt.arg (f : Fmt) (w : W) : Nat := w.toNat % 2 ^ f.width

/-- Turns that a scalar instruction forfeits to the normaliser (R49). -/
def slowTurns (n : Nat) (slow : Bool) : Nat := if slow then n else 0

/-- A scalar instruction of format f on the sources `src`: `op` gives its result, `turns` its fixed forfeits. -/
def State.fpG (s : State) (f : Fmt) (d : Reg) (src : List Reg) (turns : Nat) (op : List Nat → FRes) : Out :=
  s.issue 4 src [d] [] fun l t =>
    let args := l.map f.arg
    let r := op args
    t.fpDone r.f 0 (turns + slowTurns 2 (r.slow || args.any f.isSub)) fun t => t.setG d (BitVec.ofNat 64 r.v)

/-- A compare of format f into a predicate. -/
def State.fpP (s : State) (f : Fmt) (op : Nat) (p : BitVec 3) (a b : Reg) : Out :=
  s.issue 4 [a, b] [] [] fun l t =>
    let args := l.map f.arg
    let r := f.compare op (nthD 0 args 0) (nthD 0 args 1)
    t.fpDone r.2 0 (slowTurns 2 (args.any f.isSub)) fun t => t.setP p r.1

/-! ### FP (Table 5.1) -/

def execFadd (d a b : BitVec 5) (r : BitVec 3) (f : BitVec 2) (s : State) : Out :=
  let m := rmOf s.ctx.fst r.toNat
  s.fpG (fpFmt f.toNat) d [a, b] 0 fun l => (fpFmt f.toNat).add m (nthD 0 l 0) (nthD 0 l 1)

def execFsub (d a b : BitVec 5) (r : BitVec 3) (f : BitVec 2) (s : State) : Out :=
  let m := rmOf s.ctx.fst r.toNat
  s.fpG (fpFmt f.toNat) d [a, b] 0 fun l => (fpFmt f.toNat).sub m (nthD 0 l 0) (nthD 0 l 1)

def execFmul (d a b : BitVec 5) (r : BitVec 3) (f : BitVec 2) (s : State) : Out :=
  let m := rmOf s.ctx.fst r.toNat
  s.fpG (fpFmt f.toNat) d [a, b] 0 fun l => (fpFmt f.toNat).mul m (nthD 0 l 0) (nthD 0 l 1)

def execFdiv (d a b : BitVec 5) (r : BitVec 3) (f : BitVec 2) (s : State) : Out :=
  let m := rmOf s.ctx.fst r.toNat
  s.fpG (fpFmt f.toNat) d [a, b] 4 fun l => (fpFmt f.toNat).div m (nthD 0 l 0) (nthD 0 l 1)

def execFsqrt (d a : BitVec 5) (r : BitVec 3) (f : BitVec 2) (s : State) : Out :=
  let m := rmOf s.ctx.fst r.toNat
  s.fpG (fpFmt f.toNat) d [a] 4 fun l => (fpFmt f.toNat).sqrt m (nthD 0 l 0)

def execFmin (d a b : BitVec 5) (f : BitVec 2) (s : State) : Out :=
  s.fpG (fpFmt f.toNat) d [a, b] 0 fun l => (fpFmt f.toNat).minmax false false (nthD 0 l 0) (nthD 0 l 1)

def execFmax (d a b : BitVec 5) (f : BitVec 2) (s : State) : Out :=
  s.fpG (fpFmt f.toNat) d [a, b] 0 fun l => (fpFmt f.toNat).minmax true false (nthD 0 l 0) (nthD 0 l 1)

def execFminp (d a b : BitVec 5) (f : BitVec 2) (s : State) : Out :=
  s.fpG (fpFmt f.toNat) d [a, b] 0 fun l => (fpFmt f.toNat).minmax false true (nthD 0 l 0) (nthD 0 l 1)

def execFmaxp (d a b : BitVec 5) (f : BitVec 2) (s : State) : Out :=
  s.fpG (fpFmt f.toNat) d [a, b] 0 fun l => (fpFmt f.toNat).minmax true true (nthD 0 l 0) (nthD 0 l 1)

def execFeq (p : BitVec 3) (a b : BitVec 5) (f : BitVec 2) (s : State) : Out := s.fpP (fpFmt f.toNat) 0 p a b
def execFlt (p : BitVec 3) (a b : BitVec 5) (f : BitVec 2) (s : State) : Out := s.fpP (fpFmt f.toNat) 1 p a b
def execFle (p : BitVec 3) (a b : BitVec 5) (f : BitVec 2) (s : State) : Out := s.fpP (fpFmt f.toNat) 2 p a b
def execFunord (p : BitVec 3) (a b : BitVec 5) (f : BitVec 2) (s : State) : Out := s.fpP (fpFmt f.toNat) 3 p a b

def execFclass (d a : BitVec 5) (f : BitVec 2) (s : State) : Out :=
  s.fpG (fpFmt f.toNat) d [a] 0 fun l => ⟨(fpFmt f.toNat).classify (nthD 0 l 0), 0, false⟩

def execFsgnj (d a b : BitVec 5) (f : BitVec 2) (s : State) : Out :=
  s.fpG (fpFmt f.toNat) d [a, b] 0 fun l => ⟨(fpFmt f.toNat).signInject 0 (nthD 0 l 0) (nthD 0 l 1), 0, false⟩

def execFsgnjn (d a b : BitVec 5) (f : BitVec 2) (s : State) : Out :=
  s.fpG (fpFmt f.toNat) d [a, b] 0 fun l => ⟨(fpFmt f.toNat).signInject 1 (nthD 0 l 0) (nthD 0 l 1), 0, false⟩

def execFsgnjx (d a b : BitVec 5) (f : BitVec 2) (s : State) : Out :=
  s.fpG (fpFmt f.toNat) d [a, b] 0 fun l => ⟨(fpFmt f.toNat).signInject 2 (nthD 0 l 0) (nthD 0 l 1), 0, false⟩

/-! ### FMA (Table 5.3): the addend is read from d -/

def execFmadd (d a b : BitVec 5) (r : BitVec 3) (f : BitVec 2) (s : State) : Out :=
  let m := rmOf s.ctx.fst r.toNat
  s.fpG (fpFmt f.toNat) d [a, b, d] 0 fun l =>
    (fpFmt f.toNat).fma m false false (nthD 0 l 0) (nthD 0 l 1) (nthD 0 l 2)

def execFmsub (d a b : BitVec 5) (r : BitVec 3) (f : BitVec 2) (s : State) : Out :=
  let m := rmOf s.ctx.fst r.toNat
  s.fpG (fpFmt f.toNat) d [a, b, d] 0 fun l =>
    (fpFmt f.toNat).fma m false true (nthD 0 l 0) (nthD 0 l 1) (nthD 0 l 2)

def execFnmadd (d a b : BitVec 5) (r : BitVec 3) (f : BitVec 2) (s : State) : Out :=
  let m := rmOf s.ctx.fst r.toNat
  s.fpG (fpFmt f.toNat) d [a, b, d] 0 fun l =>
    (fpFmt f.toNat).fma m true false (nthD 0 l 0) (nthD 0 l 1) (nthD 0 l 2)

def execFnmsub (d a b : BitVec 5) (r : BitVec 3) (f : BitVec 2) (s : State) : Out :=
  let m := rmOf s.ctx.fst r.toNat
  s.fpG (fpFmt f.toNat) d [a, b, d] 0 fun l =>
    (fpFmt f.toNat).fma m true true (nthD 0 l 0) (nthD 0 l 1) (nthD 0 l 2)

/-! ### FCVT (R118 to R121) -/

/-- A value of an element code as a g register holds it (R110). -/
def gOfCode (c v : Nat) : W :=
  if codeIsFloat c then BitVec.ofNat 64 v
  else BitVec.ofInt 64 (intOf (codeInt c).1 (codeInt c).2 v)

/-- The conversion of x from code src to code dst: result, exceptions, and whether the normaliser serves it. -/
def fcvtOp (mode : Nat) (sat : Bool) (dst src : Nat) (w : W) : W × BitVec 5 × Bool :=
  let subIn := codeIsFloat src && (codeFmt src).isSub ((codeFmt src).arg w)
  let x := codeVal src (if codeIsFloat src then (codeFmt src).arg w else w.toNat)
  if codeIsFloat dst then
    let r := (codeFmt dst).convert mode sat x
    (BitVec.ofNat 64 r.v, r.f, r.slow || subIn)
  else
    let (n, sg) := codeInt dst
    if codeIsFloat src then
      let (v, f) := toInt n sg mode x
      (gOfCode dst (bitsOf n v), f, subIn)
    else
      let v := intOf (codeInt src).1 (codeInt src).2 w.toNat
      (gOfCode dst (bitsOf n (if sat then clampInt n sg v else v)), 0, false)

def execFcvt (d a : BitVec 5) (t s' : BitVec 4) (x : BitVec 1) (r : BitVec 3) (s : State) : Out :=
  s.issue 4 [a] [d] [] fun l u =>
    let (v, f, slow) := fcvtOp (rmOf u.ctx.fst r.toNat) (x == 1) t.toNat s'.toNat (nthD 0 l 0)
    u.fpDone f 0 (slowTurns 2 slow) fun u => u.setG d v

def execFround (d a : BitVec 5) (t _s : BitVec 4) (r : BitVec 3) (s : State) : Out :=
  s.fpG (codeFmt t.toNat) d [a] 0 fun l => (codeFmt t.toNat).roundInt (rmOf s.ctx.fst r.toNat) (nthD 0 l 0)

end Sys2Proof.Machine
end

