-- ==== Sys2Proof/Machine/Semaphore.lean ====
section
/-! DEFINITION. Core semaphores, floe semaphores and floe barriers (R178, R179, R322 to R324). -/

namespace Sys2Proof.Machine

/-- Whether earlier accesses that a release at .floe covers are still to be performed (R324). -/
def State.unfencedFloe (s : State) : Bool := s.ctx.ops.any fun o => o.fence && !o.done

/-- Whether the context waits, or has been granted, at a semaphore or barrier: its wait is of kind 3 (R169). -/
def Ctx.semWaiter (c : Ctx) : Bool := c.wait.any fun w => w.kind == 3

/-- The mark of a granted waiter, which completes at its next issue. -/
def Ctx.granted (c : Ctx) : Bool := c.semWaiter && c.req.any fun r => r.ans.isSome

/-- Whether a barrier has released the context, which then completes its `fbar` at its next issue (R323). -/
def Ctx.released (c : Ctx) : Bool := c.semWaiter && c.req.any fun r => r.txn == 0 && r.ans.isSome

/-- A waiter is granted; `tag` says by what: 1 + n for core semaphore n, 64 + n for floe semaphore n, 0 for a
barrier. -/
def Ctx.grant (c : Ctx) (tag : Nat) : Ctx := { c with req := some ⟨tag, some (.value 1 0)⟩ }

/-- SEMAPHORE_GRANT (R179): while the count is positive, the earliest waiter is granted. -/
def grantSem (s : State) (co : CoreId) (n : Nat) (hn : n < 32) : List (Nat × CtxId) → State
  | [] => s
  | (m, k) :: l =>
    let x := s.core co
    if m = n && x.sems[n] != 0 then
      grantSem ((s.setCore co { x with sems := x.sems.set n (x.sems[n] - 1), semWait := x.semWait.erase (m, k) }).mapCtxAt
        co k fun c => c.grant (1 + n)) co n hn l
    else grantSem s co n hn l

/-- A count is set, then Grant (R179). -/
def State.setSem (s : State) (co : CoreId) (n : BitVec 5) (v : BitVec 32) : State :=
  let s1 := s.mapCore co fun x => { x with sems := x.sems.set n.toNat v }
  grantSem s1 co n.toNat n.isLt (s1.core co).semWait

def execSemwait (n : BitVec 5) (s : State) : Out :=
  s.finish 4 (
    let x := s.me
    if s.ctx.granted then .ok s
    else if x.semWait.contains (n.toNat, s.cur.ctx) then .block { kind := 3 } s
    else if x.sems[n.toNat] != 0 then .ok (s.mapMe fun x => { x with sems := x.sems.set n.toNat (x.sems[n.toNat] - 1) })
    else .block { kind := 3 } (s.mapMe fun x => { x with semWait := x.semWait ++ [(n.toNat, s.cur.ctx)] }))

def execSempost (b n : BitVec 5) (s : State) : Out :=
  s.issue 4 [b] [] [] fun l t =>
    .ok (t.setSem t.cur.core n (BitVec.ofNat 32 (satAdd (t.me.sems[n.toNat]).toNat (wf (nthD 0 l 0) 0 32) 32)))

def execSemget (d n : BitVec 5) (s : State) : Out :=
  s.issue 4 [] [d] [] fun _ t => .ok (t.setG d ((t.me.sems[n.toNat]).zeroExtend 64))

def execSemset (b n : BitVec 5) (s : State) : Out :=
  s.issue 4 [b] [] [] fun l t => .ok (t.setSem t.cur.core n ((nthD 0 l 0).truncate 32))

/-- Grant at a floe semaphore (R322). -/
def grantFsem (s : State) (f : FloeId) (n : Nat) (hn : n < 64) : List (Nat × CoreId × CtxId) → State
  | [] => s
  | (m, c, k) :: l =>
    let x := s.floe f
    if m = n && x.fsems[n] != 0 then
      grantFsem ((s.setFloe f { x with fsems := x.fsems.set n (x.fsems[n] - 1), fsemWait := x.fsemWait.erase (m, c, k) }).mapCtxAt
        c k fun c => c.grant (64 + n)) f n hn l
    else grantFsem s f n hn l

def State.setFsem (s : State) (f : FloeId) (n : BitVec 6) (v : BitVec 32) : State :=
  let s1 := s.mapFloe f fun x => { x with fsems := x.fsems.set n.toNat v }
  grantFsem s1 f n.toNat n.isLt (s1.floe f).fsemWait

/-- `fspost` of b, as a context or an engine makes it (R272, R322). -/
def State.postFsem (s : State) (f : FloeId) (n : BitVec 6) (b : Nat) : State :=
  s.setFsem f n (BitVec.ofNat 32 (satAdd ((s.floe f).fsems[n.toNat]).toNat b 32))

/-- A waiter joins the queue at its end; but before those of its gang on higher cores, which issued in the same cycle (R322). -/
def joinWaiters (mates : List CoreId) (me : Nat × CoreId × CtxId) : List (Nat × CoreId × CtxId) → List (Nat × CoreId × CtxId)
  | [] => [me]
  | w :: l =>
    if w.1 == me.1 && w.2.2 == me.2.2 && mates.contains w.2.1 && decide (me.2.1.toNat < w.2.1.toNat) then me :: w :: l
    else w :: joinWaiters mates me l

/-- The cores of a gang (R331). -/
def gangCores (g : Gang) : List CoreId := (List.range g.n).map fun i => g.first + BitVec.ofNat 11 i

def execFswait (n : BitVec 6) (s : State) : Out :=
  s.finish 4 (
    let x := s.floe s.myFloe
    let me := (n.toNat, s.cur.core, s.cur.ctx)
    if s.ctx.granted then .ok s
    else if x.fsemWait.contains me then .block { kind := 3 } s
    else if x.fsems[n.toNat] != 0 then
      .ok (s.mapFloe s.myFloe fun x => { x with fsems := x.fsems.set n.toNat (x.fsems[n.toNat] - 1) })
    else .block { kind := 3 } (s.mapFloe s.myFloe fun x => { x with fsemWait := joinWaiters ((s.ctx.gang.map gangCores).getD []) me x.fsemWait }))

/-- FSPOST: a release at .floe, so it waits for the earlier accesses (R169 kind 5, R324). -/
def execFspost (b : BitVec 5) (n : BitVec 6) (s : State) : Out :=
  s.issue 4 [b] [] [] fun l t =>
    if t.unfencedFloe then .block { kind := 5 } t else .ok (t.postFsem t.myFloe n (wf (nthD 0 l 0) 0 32))

def execFsget (d : BitVec 5) (n : BitVec 6) (s : State) : Out :=
  s.issue 4 [] [d] [] fun _ t => .ok (t.setG d (((t.floe t.myFloe).fsems[n.toNat]).zeroExtend 64))

def execFsset (b : BitVec 5) (n : BitVec 6) (s : State) : Out :=
  s.issue 4 [b] [] [] fun l t => .ok (t.setFsem t.myFloe n ((nthD 0 l 0).truncate 32))

/-- FBAR (R323). -/
def execFbar (b : BitVec 5) (n : BitVec 6) (s : State) : Out :=
  s.issue 4 [b] [] [] fun l t =>
    let f := t.myFloe
    let x := t.floe f
    let me := (n.toNat, t.cur.core, t.cur.ctx)
    let p := wf (nthD 0 l 0) 0 32
    if p = 0 then .trap illOpnd
    else if t.ctx.granted then .ok t
    else if x.fbarWait.contains me then .block { kind := 3 } t
    else if t.unfencedFloe then .block { kind := 5 } t
    else
      let count := (x.fsems[n.toNat]).toNat + 1
      if count ≥ p then
        let freed := x.fbarWait.filter fun w => w.1 == n.toNat
        let t1 := t.setFloe f { x with
          fsems := x.fsems.set n.toNat 0, fbarWait := x.fbarWait.filter fun w => w.1 != n.toNat }
        .ok (freed.foldl (fun t w => t.mapCtxAt w.2.1 w.2.2 fun c => c.grant 0) t1)
      else
        .block { kind := 3 } (t.setFloe f { x with
          fsems := x.fsems.set n.toNat (BitVec.ofNat 32 count), fbarWait := x.fbarWait ++ [me] })

/-- A STOP takes a context out of the waiters; a grant not yet taken returns to the count, and Grant is applied
again (R179); a barrier arrival is withdrawn (R323). -/
def State.leaveSems (s : State) (co : CoreId) (k : CtxId) : State :=
  let f := floeOf co
  let c := s.ctxAt co k
  let x := s.floe f
  let mine := x.fbarWait.filter fun w => w.2 == (co, k)
  let fl : Floe := { x with
    fsemWait := x.fsemWait.filter fun w => w.2 != (co, k)
    fbarWait := x.fbarWait.filter fun w => w.2 != (co, k)
    fsems := mine.foldl (fun v w => if h : w.1 < 64 then v.set w.1 (v[w.1] - 1) else v) x.fsems }
  let s1 := (s.setFloe f fl).mapCore co fun x => { x with semWait := x.semWait.filter fun w => w.2 != k }
  match if c.released then none else c.req with
  | some ⟨tag, some _⟩ =>
    let s2 := s1.mapCtxAt co k fun c => { c with req := none }
    if c.semWaiter && tag ≥ 64 && tag < 128 then
      let n : BitVec 6 := BitVec.ofNat 6 (tag - 64)
      s2.setFsem f n (BitVec.ofNat 32 (satAdd ((s2.floe f).fsems[n.toNat]).toNat 1 32))
    else if c.semWaiter && tag ≥ 1 && tag ≤ 32 then
      let n : BitVec 5 := BitVec.ofNat 5 (tag - 1)
      s2.setSem co n (BitVec.ofNat 32 (satAdd ((s2.core co).sems[n.toNat]).toNat 1 32))
    else s2
  | _ => s1

end Sys2Proof.Machine
end

