-- ==== Sys2Proof/Machine/Lifecycle.lean ====
section
/-! DEFINITION. Supervision by c0: START, STOP, REAP, the spill engine, context registers, YIELD (R28 to R31, R160
to R164, R170, R171, R453). -/

namespace Sys2Proof.Machine

/-- State codes (Table 8.3). -/
def Life.code : Life → Nat
  | .free => 0
  | .runnable => 1
  | .blocked => 2
  | .waiting => 3
  | .stopped => 4
  | .spilled => 5

/-! ### Frames (R170, R171) -/

/-- Frame size by the vector cap. -/
def frameSize (part : W) : Nat := match wf part 40 2 with | 0 => 4096 | 1 => 8192 | _ => 12288

/-- NF. -/
def frameCount (part : W) : Nat := Nat.min 16 (regBanks part * 65536 / frameSize part)

/-- Whether a context holds a frame: c0 from launch, the others while neither FREE nor SPILLED; one being reloaded too. -/
def Core.holdsFrame (x : Core) (k : CtxId) : Bool :=
  k == 0 || ((x.ctx k).life != .free && (x.ctx k).life != .spilled) || x.reload == some k

/-- The frames that nobody holds. -/
def Core.freeFrames (x : Core) : List Nat :=
  (List.range (frameCount x.part)).filter fun i => !allCtx.any fun k => x.holdsFrame k && (x.ctx k).frame == i

/-- A free frame is at hand. -/
def Core.frameFree (x : Core) : Bool := !x.freeFrames.isEmpty

/-- Context k of core c takes a free frame: which one is the core's choice (R170). -/
def State.takeFrame (s : State) (c : CoreId) (k : CtxId) : State :=
  let l := (s.core c).freeFrames
  let (w, s1) := s.fresh
  s1.mapCtxAt c k fun x => { x with frame := nthD 0 l (w.toNat % l.length) }

/-- The spill engine's victim: the STOPPED context, other than c0 and c15, stopped the longest. -/
def Core.victim (x : Core) : Option CtxId :=
  (allCtx.filter fun k => k != 0 && k != 15 && (x.ctx k).life == .stopped).foldl (fun b k =>
    match b with
    | none => some k
    | some j => if (x.ctx k).stoppedAt < (x.ctx j).stoppedAt then some k else b) none

/-- The virtual address of a context's spill slot. -/
def Core.spillSlot (x : Core) (k : CtxId) : W := x.spbase + BitVec.ofNat 64 (16384 * k.toNat)

/-- Whether a page of backing memory lies in the spill area of a core other than c that has been launched, as its tables stand
(R171; log 8). -/
def State.spillShared (s : State) (c : CoreId) (pa : Nat) : Bool :=
  s.cores.any fun e =>
    let o : CoreId := BitVec.ofNat 11 e.1
    o != c && e.2.launched && (List.range 64).any fun i =>
      let va := e.2.spbase + BitVec.ofNat 64 (4096 * i)
      (s.leafNow o va).any fun l => match l.home va.toNat with
        | .backing a _ => a == pa
        | .pool _ _ => false

/-- The pages of a spill slot that a frame fills, as backing addresses with their keys. One that is unmapped, not writable, no
backing memory, or shared with another core fails. -/
def State.spillPages (s : State) (c : CoreId) (k : CtxId) : EngOf Unit (List (Nat × Nat)) :=
  EngOf.all (fun s i =>
    let va := (s.core c).spillSlot k + BitVec.ofNat 64 (4096 * i)
    match s.engineXlate c (s.core c).xroot va with
    | .held m => .held m
    | .bad _ t => .bad () t
    | .ok e t =>
      match e.home va.toNat with
      | .backing pa key => if wb e.pte 7 && !t.spillShared c pa then .ok (pa, key) t else .bad () t
      | .pool _ _ => .bad () t) (List.range (frameSize (s.core c).part / 4096)) s

/-- A frame's contents are written to its slot: none when the write fails. The layout within the slot is left open (log 8). -/
def State.spillWrite (s : State) (pages : List (Nat × Nat)) : Option State :=
  let write := fun (r : Option State × Nat) (p : Nat × Nat) =>
    (r.1.bind fun t => t.writeUnder p.2 p.1
      ((List.range 4096).map fun i => Config.spillByte s.free (4096 * r.2 + i)), r.2 + 1)
  (pages.foldl write (some { s with free := s.free + 1 }, 0)).1

/-- A slot is read: the spill-area address of the first uncorrectable error, and the state with corrected ones repaired. -/
def State.spillRead (s : State) (c : CoreId) (k : CtxId) (pages : List (Nat × Nat)) : Option W × State :=
  (((List.range pages.length).zip pages).findSome? fun (i, p) =>
      (s.badIn p.1 4096).map fun d => (s.core c).spillSlot k + BitVec.ofNat 64 (4096 * i + (d - p.1)),
    pages.foldl (fun s p => [0, 1, 2, 3].foldl (fun s i => s.correctMem (p.1 + 1024 * i) 1024) s) s)

/-- The precise trap of an instruction that a spill slot's uncorrectable error stops (R161). -/
def spillFailed (a : W) : Answer := .failed ⟨cDATAERR, 0, a, 0, 0, 0, none, none, none, false⟩

/-- The request of c0 is answered. -/
def Ctx.answer (c : Ctx) (txn : Nat) (a : Answer) : Ctx :=
  if c.req == some ⟨txn, none⟩ then { c with req := some ⟨txn, some a⟩ } else c

/-- SPILL_WRITE_COMPLETE (R171): the victim, if it is still STOPPED (Table 1.7), is SPILLED; a write that fails is a core fault
(R185). -/
def execSpillWriteComplete (c : CoreId) (ok : Bool) (s : State) : Out :=
  let ends := fun (s : State) => (s.mapCore c fun x => { x with spill := none }).mapCtxAt c 0 fun k => k.answer 10 (.value 0 0)
  .next (match (s.core c).spill with
    | none => s
    | some (v, _) =>
      if (s.ctxAt c v).life != .stopped then ends s
      else if !ok then s.coreFault c 3
      else match s.spillPages c v with
        | .held m => s.waitFor m
        | .bad _ t => t.coreFault c 3
        | .ok pages t => match t.spillWrite pages with
          | none => t.coreFault c 3
          | some t => ends (t.mapCtxAt c v fun k => { k with life := .spilled }))

/-- SPILL_RELOAD_COMPLETE (R161): the reload ends, with the spill-area address of an uncorrectable error if it
found one. -/
def execSpillReloadComplete (c : CoreId) (err : Option W) (s : State) : Out :=
  let ends := fun (bad : Option W) (s : State) =>
    (s.mapCore c fun x => { x with reload := if bad.isSome then none else x.reload }).mapCtxAt c 0 fun t =>
      t.answer 11 ((bad.map spillFailed).getD (.value 0 0))
  .next (match (s.core c).reload with
    | none => s
    | some k => match s.spillPages c k with
      | .held m => s.waitFor m
      | .bad _ t => ends err t
      | .ok pages t =>
        let (bad, t1) := t.spillRead c k pages
        ends (err.orElse fun _ => bad) t1)

/-- The spill engine serves c0's `rdctx` or `wrctx` of a SPILLED context from its slot (R162; log 58): requests 32 + k read, 48 + k
write. -/
def State.spillAccess (s : State) (c : CoreId) : State :=
  match (s.ctxAt c 0).req with
  | some ⟨n, none⟩ =>
    if n < 32 || n ≥ 64 then s
    else
      let k : CtxId := BitVec.ofNat 4 n
      let ends := fun (a : Answer) (s : State) => s.mapCtxAt c 0 fun t => t.answer n a
      match s.spillPages c k with
      | .held m => s.waitFor m
      | .bad _ t => ends (.value 0 0) t
      | .ok pages t => match t.spillRead c k pages with
        | (some a, t) => ends (spillFailed a) t
        | (none, t) => if n < 48 then ends (.value 0 0) t else match t.spillWrite pages with
          | none => t.coreFault c 3
          | some t => ends (.value 0 0) t
  | _ => s

/-- GetFrame (R171) for c0 of the core at hand: a frame is free; or the spill engine writes a victim while c0
waits; or none is to be had. -/
def State.getFrame (s : State) (k : CtxId) : Res Bool :=
  let x := s.me
  if x.frameFree then .ok true
  else match x.victim with
    | none => .ok false
    | some v => .block { kind := 5 } ((s.mapMe fun x => { x with spill := some (v, k) }).mapCtx fun c =>
        { c with req := some ⟨10, none⟩ })

/-! ### START -/

/-- An instruction of c0 on a context that gA names, which is not c0 (R160). -/
def State.supervise (s : State) (src dst : List Reg) (k : CtxId → List W → State → Res State) : Out :=
  s.issueIf (s.cur.ctx == 0) 4 src dst [] fun l t =>
    let c : CtxId := (nthD 0 l 0).truncate 4
    if c == 0 then .trap illOpnd else k c l t

/-- The context continues (R161, R453): at the operand's PC, or where it stood. A reload empties its fetch buffer
(R180). -/
def Ctx.restart (c : Ctx) (pc : Option W) (now : Nat) : Ctx :=
  let c1 := match pc with | some a => { c with wait := none, req := none }.jump a | none => c
  if c.wasWaiting && pc.isNone then { c1 with life := .waiting, wasWaiting := false, waitingAt := now }
  else { c1 with life := .runnable, wasWaiting := false }

/-- START of context k (R161). A frame error that the reload of k met has stopped it (R184): nothing is left to do then. -/
def State.startCtx (s : State) (d : Reg) (k : CtxId) (pc : Option W) : Res State :=
  let x := s.me
  let old := (x.ctx k).life
  let ans := fun (n : Nat) (t : State) => t.setG d (BitVec.ofNat 64 n)
  let go := fun (t : State) =>
    ans old.code ((t.mapMe fun x => { x with reload := none }).mapCtxAt t.cur.core k fun c =>
      (if old == .spilled then { c with fbuf := [] } else c).restart pc x.cycle)
  if s.ctx.req == some ⟨12, some (.value 5 0)⟩ then .ok (ans 5 s)
  else if old == .free && pc.isNone then .trap illOpnd
  else if old == .stopped then .ok (go s)
  else if old == .free || old == .spilled then
    match s.ctx.req with
    | some ⟨10, none⟩ => .block { kind := 5 } s
    | some ⟨11, none⟩ => .block { kind := 5 } s
    | some ⟨11, some (.failed f)⟩ => .trap { cause := f.cause, addr := f.addr }
    | some ⟨11, some _⟩ => .ok (go s)
    | _ => (s.getFrame k).bind fun got =>
        if !got then .ok (ans 7 s)
        else
          let s1 := s.takeFrame s.cur.core k
          if old == .free then .ok (go s1)
          else .block { kind := 5 } ((s1.mapMe fun x => { x with reload := some k }).mapCtx fun c =>
            { c with req := some ⟨11, none⟩ })
  else .ok (ans old.code s)

def execStart (d a : BitVec 5) (s : State) : Out :=
  s.supervise [a] [d] fun k _ t => t.startCtx d k none

def execStartPc (d a b : BitVec 5) (s : State) : Out :=
  s.supervise [a, b] [d] fun k l t => t.startCtx d k (some (nthD 0 l 1))

/-! ### STOP -/

/-- A gang disbands: every member goes on alone (R333). -/
def State.disbandAt (s : State) (c : CoreId) (k : CtxId) : State :=
  match (s.ctxAt c k).gang with
  | none => s
  | some g => ((List.range g.n).map fun i => g.first + BitVec.ofNat 11 i).foldl (fun s c =>
      s.mapCtxAt c k fun x => { x with gang := none, gangLate := none }) s

/-- What a frame error leaves of a context (R184): STOPPED, with its record; what it waited for or held is given back (R179,
R333), its endpoints are lost (R210), c0 is told. -/
def State.frameStop (s : State) (c : CoreId) (k : CtxId) (off : W) : State :=
  let t := s.ctxAt c k
  let tr : Trap := { cause := cDATAERR, addr := off, fpc := some t.pc, insn := some 0 }
  let (pend, s0) := s.pendShown t
  let s1 := ((s0.disbandAt c k).leaveSems c k).mapCtxAt c k fun t =>
    { t.stop (s.core c).cycle with
      frec0 := frec0Of tr t.act t.ovf pend, frec1 := t.pc, frec2 := off, frec3 := 0, ovf := false }
  (s1.mapCore c fun x => x.post (eventWord 0 3 k.toNat cDATAERR t.pc.toNat)).ownerLost c k

/-- Whether a pool offset is a dword of the frame that a context holds (R170). -/
def Core.inFrame (x : Core) (k : CtxId) (off : W) : Bool :=
  x.holdsFrame k && off.toNat % 8 == 0 && off.toNat / frameSize x.part == (x.ctx k).frame

/-- FRAME_DATA_ERROR (R184, R185): an uncorrectable error in the dword at pool offset `off` of a context's frame: of c0 or c15 a
core fault; of another found when the context issues, which only a RUNNABLE one does (Table 1.7), or as it reloads, whose
START then completes (log 58). -/
def execFrameDataError (c : CoreId) (k : CtxId) (off : W) (s : State) : Out :=
  let x := s.core c
  .next (
    if !x.inFrame k off then s
    else if k = 0 || k = 15 then s.coreFault c 2
    else if (x.ctx k).life == .runnable then s.frameStop c k off
    else if x.reload == some k then
      ((s.mapCore c fun x => { x with reload := none }).frameStop c k off).mapCtxAt c 0 fun t =>
        if t.req.any fun r => r.txn == 11 then { t with req := some ⟨12, some (.value 5 0)⟩ } else t
    else s)

/-- A context as a STOP leaves it: one that a barrier has released stays released, since R323 lets it complete at its
next issue. -/
def Ctx.halted (c : Ctx) (now : Nat) : Ctx :=
  if c.released then { c.stop now with wait := c.wait, req := c.req } else c.stop now

/-- A STOP reaches a context (R29 to R31, R179, R235, R453). Answers the state code before it. -/
def State.stopAt (s : State) (c : CoreId) (k : CtxId) : State × Nat :=
  let t := s.ctxAt c k
  let now := (s.core c).cycle
  let hold := fun (s : State) => (s.mapCtxAt c k fun t => { t with heldStop := true }, 10)
  let halt := fun (code : Nat) =>
    let s1 := s.disbandAt c k
    let (s2, held) := s1.stopBinding c k
    let (s3, reading) := if held then (s2, true) else s2.stopRead c k
    if reading then hold s3
    else if t.wait.any fun w => w.hold && (code == 2 || w.kind != 6) then
      hold (s3.mapCtxAt c k fun t => if t.awaitsAnswer then { t with req := none } else t)
    else ((s3.leaveSems c k).mapCtxAt c k fun t => t.halted now, code)
  match t.life with
  | .runnable => halt 1
  | .blocked => halt 2
  | .waiting => (s.mapCtxAt c k fun t => { t.stop now with wasWaiting := true }, 3)
  | l => (s, l.code)

def execStop (d a : BitVec 5) (s : State) : Out :=
  s.supervise [a] [d] fun k _ t =>
    let (t1, code) := t.stopAt t.cur.core k
    .ok (t1.setG d (BitVec.ofNat 64 code))

/-! ### REAP -/

/-- The context is FREE, and its endpoints are c0's (R13, R20, R161, R241). -/
def Core.reapCtx (x : Core) (k : CtxId) : Core :=
  { x with
    ctxs := x.ctxs.put k.toNat Ctx.init
    eps := x.eps.map fun e => if e.2.owner == k then (e.1, { e.2 with owner := 0, bindAs := 0 }) else e }

def execReap (d a : BitVec 5) (s : State) : Out :=
  s.supervise [a] [d] fun k _ t =>
    let c := t.me.ctx k
    if c.life == .stopped || c.life == .spilled then
      if c.ops.isEmpty then .ok ((t.mapMe fun x => x.reapCtx k).setG d (BitVec.ofNat 64 c.life.code))
      else .block { kind := 5 } t
    else .ok (t.setG d (BitVec.ofNat 64 c.life.code))

/-! ### Context registers (R162, Table 8.4) -/

/-- One register of a context: none where it is not listed or above its cap. -/
def Ctx.readSel (c : Ctx) (part : W) (n : Nat) (loc cycles : W) : Option W :=
  if n < 0x20 then (if n < gcapOf part then some (c.rg (BitVec.ofNat 5 n)) else none)
  else if n < 0x28 then some (c.rx (BitVec.ofNat 3 (n - 0x20)))
  else if 0x30 ≤ n && n < 0x34 then some (c.rq (BitVec.ofNat 2 (n - 0x30)))
  else if n = 0x38 then some (c.p.zeroExtend 64)
  else if n = 0x3F then some c.pc
  else if 0x100 ≤ n && n < 0x200 then
    (if (n - 0x100) / 16 < vcapOf part then
      some ((c.rv (BitVec.ofNat 5 ((n - 0x100) / 16))).extractLsb' (64 * ((n - 0x100) % 16)) 64)
    else none)
  else if 0x800 ≤ n && sysRegOk (BitVec.ofNat 12 (n - 0x800)) then some (c.readSys (n - 0x800) loc cycles)
  else none

/-- Dword j of a vector register replaced. -/
def setDword (v : V) (j : Nat) (w : W) : V :=
  (v &&& ~~~((BitVec.allOnes 64).zeroExtend 1024 <<< (64 * j))) ||| (w.zeroExtend 1024 <<< (64 * j))

/-- A write of one register: none where it traps. -/
def Ctx.writeSel (c : Ctx) (part : W) (n : Nat) (v : W) : Option Ctx :=
  if n < 0x20 then (if n < gcapOf part then some (c.wg (BitVec.ofNat 5 n) v) else none)
  else if h : n < 0x28 then some { c with x := c.x.set (n - 0x20) v (by omega) }
  else if 0x30 ≤ n && n < 0x34 then some (c.wq (BitVec.ofNat 2 (n - 0x30)) v)
  else if n = 0x38 then some { c with p := v.truncate 8 }
  else if n = 0x3F then some { c with pc := even v, oddPc := none, fbuf := [], wait := none, req := none }
  else if 0x100 ≤ n && n < 0x200 then
    (if (n - 0x100) / 16 < vcapOf part then
      let r : Reg := BitVec.ofNat 5 ((n - 0x100) / 16)
      some (c.wv r (setDword (c.rv r) ((n - 0x100) % 16) v))
    else none)
  else if 0x800 ≤ n && sysRegOk (BitVec.ofNat 12 (n - 0x800)) then c.writeSys (n - 0x800) v
  else none

/-- An access to a context register that is served from the spill area (R162): c0 is BLOCKED until it has completed. -/
def State.fromSpill (s : State) (n : Nat) (k : Res State) : Res State :=
  match s.ctx.req with
  | none => .block { kind := 5 } (s.mapCtx fun c => { c with req := some ⟨n, none⟩ })
  | some ⟨_, none⟩ => .block { kind := 5 } s
  | some ⟨_, some (.failed f)⟩ => .trap { cause := f.cause, addr := f.addr }
  | some _ => k

def execRdctx (d a : BitVec 5) (s : State) : Out :=
  s.supervise [a] [d] fun k l t =>
    let c := t.me.ctx k
    if c.life != .stopped && c.life != .spilled then .trap illOpnd
    else match c.readSel t.me.part (wf (nthD 0 l 0) 16 12) (locid t.cur.core k) (BitVec.ofNat 64 t.me.cycle) with
      | some v => if c.life == .spilled then t.fromSpill (32 + k.toNat) (.ok (t.setG d v)) else .ok (t.setG d v)
      | none => .trap illOpnd

def execWrctx (a b : BitVec 5) (s : State) : Out :=
  s.supervise [a, b] [] fun k l t =>
    let c := t.me.ctx k
    if c.life != .stopped && c.life != .spilled then .trap illOpnd
    else match c.writeSel t.me.part (wf (nthD 0 l 0) 16 12) (nthD 0 l 1) with
      | some c' =>
        let go := .ok (t.mapCtxAt t.cur.core k fun _ => c')
        if c.life == .spilled then t.fromSpill (48 + k.toNat) go else go
      | none => .trap illOpnd

/-- YIELD (R164). -/
def execYield (n : BitVec 7) (s : State) : Out :=
  s.finish 4 (.ok (s.mapCtx fun c => { c with forfeit := satAdd c.forfeit n.toNat 8 }))

end Sys2Proof.Machine
end

