-- ==== Sys2Proof/Machine/Queue.lean ====
section
/-! DEFINITION. Continuation queues: banks, overflow rings, moves between them, and the fates of an enqueue (R309
to R312, R335). -/

namespace Sys2Proof.Machine

/-- Queue i of a floe. -/
def State.queue (s : State) (f : FloeId) (i : BitVec 2) : Queue := (s.floe f).queues[i.toNat]

def State.setQueue (s : State) (f : FloeId) (i : BitVec 2) (q : Queue) : State :=
  s.mapFloe f fun x => { x with queues := x.queues.set i.toNat q }

/-- Records that a ring descriptor gives room for (Table 14.2). -/
def ringCap (desc : W) : Nat := if wf desc 0 5 = 0 then 0 else 2 ^ wf desc 0 5

def State.ringDesc (s : State) (f : FloeId) (i : BitVec 2) : W := (s.floe f).qring[i.toNat]

/-- The virtual address of ring position n. -/
def ringSlot (desc : W) (n : Nat) : W :=
  BitVec.ofNat 64 (wf desc 12 52 * 4096) + BitVec.ofNat 64 (64 * (n % ringCap desc))

/-- Where a ring record lies: through the page tables in force when the descriptor was written (R309). -/
def State.ringHome (s : State) (f : FloeId) (i : BitVec 2) (va : W) (need : Need) : Eng Home :=
  s.engHomeBy (coreAt f 0) (s.queue f i).root va need 0

/-- The records that the spill engine reads from n positions on. -/
def State.ringRead (s : State) (f : FloeId) (i : BitVec 2) : Nat → Nat → Eng (List (List W))
  | 0, _ => .ok [] s
  | k + 1, n =>
    let va := ringSlot (s.ringDesc f i) n
    ((s.ringHome f i va { r := true }).bind fun h s => s.engReadAt (coreAt f 0) h va 64).bind fun v t =>
      (t.ringRead f i k (n + 1)).bind fun r u =>
        .ok ((List.range 8).map (fun j => BitVec.ofNat 64 (v / 2 ^ (64 * j))) :: r) u

/-- Records written at ring positions from n on. -/
def State.ringWrite (s : State) (f : FloeId) (i : BitVec 2) : List (List W) → Nat → Eng Unit
  | [], _ => .ok () s
  | r :: l, n =>
    let va := ringSlot (s.ringDesc f i) n
    ((s.ringHome f i va { w := true }).bind fun h s =>
      s.engWriteAt (coreAt f 0) h va (r.flatMap fun w => leBytes 8 w.toNat)).bind fun _ t => t.ringWrite f i l (n + 1)

/-- The handle of a queue (Table 14.4). -/
def State.handleOf (s : State) (f : FloeId) (i : BitVec 2) : W :=
  mkW [(f.toNat, 40), ((s.queue f i).gen.toNat, 24), (i.toNat, 0)]

/-- What an enqueue answers (R312): a `spawn` an ACK or NACK, a TASK request its answer, others nothing. -/
def State.answerEnq (s : State) (f : FloeId) (e : Enq) (ok : Bool) : State :=
  let h := e.handle.getD 0
  match e.src with
  | .quiet => s
  | .spawn o => s.send f (.core o.core) none 0 (.enqueueAck o ok h)
  | .task _ _ _ => { s with hostOut := s.hostOut ++ [.launchAnswer ok h] }

/-- A record that finds no room: refused with a handle, a floe fault without (R312, R335). -/
def State.noRoom (s : State) (f : FloeId) (e : Enq) : State :=
  if e.handle.isSome then s.answerEnq f e false else s.floeFault f 2

/-- A record enters a queue in which no move is in progress (R310, R312, Table 14.3). Where the ring's bytes or their page have to be
waited for (R267, R393), the record waits at the input as for a move. -/
def State.enter (s : State) (f : FloeId) (i : BitVec 2) (e : Enq) : State :=
  let q := s.queue f i
  let desc := s.ringDesc f i
  if e.handle.any fun h => wf h 24 12 != q.gen.toNat then s.answerEnq f e false
  else if !q.spilled then
    if q.bank.length < 256 then (s.setQueue f i { q with bank := q.bank ++ [e.record] }).answerEnq f e true
    else if ringCap desc = 0 then s.noRoom f e
    else s.setQueue f i { q with bank := q.bank.take 192, move := some (true, q.bank.drop 192), input := [e] }
  else if q.ringLen < ringCap desc then
    match s.ringWrite f i [e.record] (q.ringAt + q.ringLen) with
    | .ok _ t => (t.setQueue f i { q with ringLen := q.ringLen + 1 }).answerEnq f e true
    | .held m => (s.waitFor m).setQueue f i { q with move := some (true, []), input := [e] }
    | .bad _ t => t.floeFault f 3
  else s.noRoom f e

/-- Where a record that reaches floe f is enqueued: with ANY = 1, the floe of the first dispenser routing entry of f
that its STAGE falls in (Table 21.6). -/
def State.routed (s : State) (f : FloeId) (record : List W) : FloeId :=
  let h := nthD 0 record 0
  let stage := wf h 48 16
  if wb h 36 then
    match (s.floe f).routes.find? fun r => decide (r.1.toNat ≤ stage ∧ stage ≤ r.2.1.toNat) with
    | some r => r.2.2
    | none => f
  else f

/-- The queue that a record enters (R311, R312): that of its handle, else queue PRIO. -/
def enqueueIndex (e : Enq) : BitVec 2 :=
  match e.handle with
  | some h => h.truncate 2
  | none => (nthD 0 e.record 0).extractLsb' 30 2

/-- A record is enqueued at a floe: records wait at the dispenser's input while a move is in progress (R310). -/
def State.enqueueAt (s : State) (f : FloeId) (e : Enq) : State :=
  let i := enqueueIndex e
  let q := s.queue f i
  if q.move.isSome then s.setQueue f i { q with input := q.input ++ [e] } else s.enter f i e

/-- An enqueue reaches the dispenser of floe f (R312, Table 21.6). -/
def State.enqueue (s : State) (f : FloeId) (e : Enq) : State := s.enqueueAt (s.routed f e.record) e

/-- The records that waited enter in order. -/
def State.enterAll (s : State) (f : FloeId) (i : BitVec 2) : State :=
  let q := s.queue f i
  q.input.foldl (fun s e => s.enqueueAt f e) (s.setQueue f i { q with input := [] })

/-- QUEUE_REFILL (R310): a bank of a SPILLED queue at 64 records begins refilling from its ring. -/
def State.refill (s : State) (f : FloeId) (i : BitVec 2) : State :=
  let q := s.queue f i
  if q.spilled && q.move.isNone && q.bank.length ≤ 64 then s.setQueue f i { q with move := some (false, []) } else s

/-- A move ends (R310, Table 14.3): the spilled records are in the ring, or the oldest ring records in the bank. It goes on while an
access waits (R267). -/
def State.endMove (s : State) (f : FloeId) (i : BitVec 2) : State :=
  let q := s.queue f i
  match q.move with
  | some (true, l) =>
    match s.ringWrite f i l (q.ringAt + q.ringLen) with
    | .ok _ t =>
      ((t.setQueue f i { q with spilled := true, move := none, ringLen := q.ringLen + l.length }).enterAll f i).refill f i
    | .held m => s.waitFor m
    | .bad _ t => t.floeFault f 3
  | some (false, _) =>
    let n := Nat.min 128 q.ringLen
    match s.ringRead f i n q.ringAt with
    | .ok l t =>
      ((t.setQueue f i { q with
        bank := q.bank ++ l, move := none, ringAt := q.ringAt + n, ringLen := q.ringLen - n
        spilled := decide (n < q.ringLen) }).enterAll f i).refill f i
    | .held m => s.waitFor m
    | .bad _ t => t.floeFault f 3
  | none => s

/-- QUEUE_MOVE_COMPLETE (R310): `ok` is false when the ring access fails (R335). -/
def execQueueMoveComplete (f : FloeId) (i : BitVec 2) (ok : Bool) (s : State) : Out :=
  .next (if (s.floe f).ffault != 0 || (s.queue f i).move.isNone then s
    else if ok then s.endMove f i else s.floeFault f 3)

/-- `qreset` (R310): bank and ring empty, a new generation, RESIDENT. -/
def State.resetQueue (s : State) (f : FloeId) (i : BitVec 2) : State :=
  let q := s.queue f i
  (s.setQueue f i { q with bank := [], ringAt := 0, ringLen := 0, gen := q.gen + 1, spilled := false, move := none }).enterAll f i

/-- ENQUEUE_WITHOUT_HANDLE (R312): a `suspend` record reaches the floe its header names. -/
def execEnqueueWithoutHandle (p : Nat) (s : State) : Out :=
  .next (match s.atUnit p with
    | some (.floe f, .enqueue none record none) => (s.takePacket p).enqueue f ⟨record, none, .quiet⟩
    | _ => s)

/-- ENQUEUE_WITH_HANDLE (R312): a `spawn` reaches its dispenser. -/
def execEnqueueWithHandle (p : Nat) (s : State) : Out :=
  .next (match s.atUnit p with
    | some (.floe f, .enqueue (some o) record (some h)) => (s.takePacket p).enqueue f ⟨record, some h, .spawn o⟩
    | _ => s)

/-- TASK_REQUEST (R312): a record from the host's launch ring. -/
def execTaskRequest (p : Nat) (s : State) : Out :=
  .next (match s.atUnit p with
    | some (.floe f, .task e gen host record h) => (s.takePacket p).enqueue f ⟨record, some h, .task e gen host⟩
    | _ => s)

/-- ENQUEUE_ACK_ARRIVAL (R315): a NACK is a deferred fault with ADDR = the handle and DETAIL 0 (R312). -/
def execEnqueueAckArrival (p : Nat) (s : State) : Out :=
  .next (match s.atUnit p with
    | some (.core _, .enqueueAck o ok h) => (s.takePacket p).finishOp o (if ok then none else some (cNACK, 0, h))
    | _ => s)

end Sys2Proof.Machine
end

