-- ==== Sys2Proof/Machine/Tile.lean ====
section
/-! DEFINITION. The matrix engine: tile state, TZERO, TSTAT, TMMA, TDRAIN, and the steps and drains of scheduled
tasks (R57 to R60, R266 to R276, R328, R330). -/

namespace Sys2Proof.Machine

/-! ### Formats and shapes (Tables 11.6, 11.9, 11.10) -/

/-- The element code of a tile format. -/
def tileCode (fmt : BitVec 2) : Nat := match fmt.toNat with | 0 => 2 | 1 => 0xB | _ => 1

/-- Rows and columns of a tile. -/
def tileSide (fmt : BitVec 2) : Nat := if fmt = 2 then 16 else 32

/-- K of a legal combination of tile and operand formats (Table 11.9). -/
def tileDepth (fmt : BitVec 2) (af bf : Nat) : Option Nat :=
  let int := fun n => n == 7 || n == 8 || n == 15
  let fp8 := fun n => n == 5 || n == 6
  match fmt.toNat with
  | 2 => if af = 1 && bf = 1 then some 16 else none
  | 0 =>
    if af = 2 && bf = 2 then some 8
    else if af = bf && (af = 3 || af = 4) then some 32
    else if (fp8 af && fp8 bf) || (int af && int bf) then some 64
    else none
  | _ => if int af && int bf then some 64 else none

/-- Whether a drain of a tile format may convert into a code (Table 11.10). -/
def drainOk (fmt : BitVec 2) (df : Nat) : Bool :=
  match fmt.toNat with
  | 2 => df == 1 || df == 2
  | 0 => decide (2 ≤ df ∧ df ≤ 6)
  | _ => df == 0xB || df == 7

/-- Bytes of an element of a tile, and its offset within the tile (R266). -/
def tileSize (fmt : BitVec 2) : Nat := if fmt = 2 then 8 else 4
def tileAt (fmt : BitVec 2) (r c : Nat) : Nat := tileSize fmt * (tileSide fmt * r + c)

/-- The key of element (r, c) of a tile of a core. -/
def State.tileKey (s : State) (c : CoreId) (t : BitVec 6) (fmt : BitVec 2) (r k : Nat) : Nat :=
  poolKey c (tileOff (s.core c).part t.toNat + tileAt fmt r k)

def Core.tile (x : Core) (t : BitVec 6) : Tile := x.tiles.look {} t.toNat

def State.mapTile (s : State) (c : CoreId) (t : BitVec 6) (f : Tile → Tile) : State :=
  s.mapCore c fun x => { x with tiles := x.tiles.put t.toNat (f (x.tile t)) }

/-- Every outstanding operation of a core's matrix engine, in order. -/
def Core.tileOps (x : Core) : List TileOp :=
  x.drains ++ (match x.mrun with | some r => [r.op] | none => []) ++ x.mqueue

/-- FMT of a tile with the operations queued ahead taken into account (R271). -/
def Core.fmtAhead (x : Core) (t : BitVec 6) : BitVec 2 :=
  x.tileOps.foldl (fun f o => match o.kind with | .zero g => if o.tile = t then g else f | _ => f) (x.tile t).fmt

/-- Table 11.6 as `tstat` and `gstat` read it. -/
def Core.tileWord (x : Core) (t : BitVec 6) : W :=
  let i := x.tile t
  mkW [(b2n (x.tileOps.any fun o => o.tile == t), 4), (b2n i.poison, 3), (b2n i.sat, 2), (i.fmt.toNat, 0)]

/-! ### Issue (R269) -/

/-- An instruction that names tile t: it must exist (R266). -/
def State.onTile (s : State) (t : BitVec 6) (k : Res State) : Res State :=
  if tileExists s.me.part t.toNat then k else .trap illOpnd

/-- A tile operation enters the engine's queue: eight may wait behind the one in progress (R269, R278). -/
def State.issueTile (s : State) (t : BitVec 6) (kind : TileKind) (ep : Option EpId) (k : State → State) : Res State :=
  let x := s.me
  if x.mqueue.length ≥ (if x.mrun.isSome then 8 else 9) then .block { kind := 2 } s
  else (s.classRoom .tile).bind fun _ =>
    let op : TileOp := ⟨s.origin, t, kind, none⟩
    .ok (k ((s.mapCtx fun c => c.launch .tile false ep).mapMe fun x => { x with mqueue := x.mqueue ++ [op] }))

def execTzero (f : BitVec 2) (t : BitVec 6) (s : State) : Out :=
  s.issue 4 [] [] [] fun _ u => u.onTile t (u.issueTile t (.zero f) none id)

def execTstat (d : BitVec 5) (t : BitVec 6) (s : State) : Out :=
  s.issue 4 [] [d] [] fun _ u => u.onTile t (.ok (u.setG d (u.me.tileWord t)))

/-- What is common to x6 and a task record (R271): KPL goes with a bit-plane operand. -/
def kplOk (af bf kpl : Nat) : Bool :=
  if af = 15 || bf = 15 then decide (2 ≤ kpl ∧ kpl ≤ 8) else kpl == 0

/-- The depth of a step whose x6 and tile combine legally (R271, Table 11.9): none where x6 is illegal. -/
def mmaDepth (fmt : BitVec 2) (x6 : W) : Option Nat :=
  let (af, bf, rm) := (wf x6 4 4, wf x6 8 4, wf x6 48 3)
  if wb x6 51 || wf x6 0 4 != 0 || wf x6 60 3 > 4 || (!wb x6 63 && wf x6 60 3 != 0) || rm = 5 || rm = 6 ||
      !kplOk af bf (wf x6 12 4) || wf x6 16 16 % 16 != 0 || wf x6 32 16 % 16 != 0 then none
  else tileDepth fmt af bf

def execTmma (a b : BitVec 5) (sg : BitVec 1) (t : BitVec 6) (s : State) : Out :=
  s.checked [a, b] [] [] (Res.check (tileExists s.me.part t.toNat && (mmaDepth (s.me.fmtAhead t) (s.ctx.rx 6)).isSome) illOpnd) <|
  s.issue 4 [a, b] [] [] fun l u =>
    let x6 := u.ctx.rx 6
    let fmt := u.me.fmtAhead t
    let align := fun (f : Nat) => if f = 15 then 64 else 16
    u.onTile t <|
    match mmaDepth fmt x6 with
    | none => .trap illOpnd
    | some deep =>
      if (nthD 0 l 0).toNat % align (wf x6 4 4) != 0 || (nthD 0 l 1).toNat % align (wf x6 8 4) != 0 then .trap illOpnd
      else u.issueTile t (.mma ⟨nthD 0 l 0, nthD 0 l 1, x6, rmOf u.ctx.fst (wf x6 48 3), tileSide fmt, tileSide fmt, deep,
          if sg = 1 then some (x6.extractLsb' 52 6) else none⟩) none id

/-- The core that a target word names in <47:37>. -/
def targetCore (w : W) : CoreId := w.extractLsb' 37 11

/-- Whether a wake record names its target (R274): ANY = 0 and the target's core. -/
def wakeOk (target : CoreId) (l : List W) : Bool := !wb (nthD 0 l 0) 36 && targetCore (nthD 0 l 0) == target

/-- x3 of `tdrain` is legal for a tile format (R274). -/
def drainX3 (fmt : BitVec 2) (x3 : W) : Bool :=
  wf x3 32 32 == 0 && wf x3 0 8 == 0 && wf x3 12 3 != 5 && wf x3 12 3 != 6 && drainOk fmt (wf x3 8 4) &&
  wf x3 16 16 % fmtSize (wf x3 8 4) == 0

def execTdrain (a b : BitVec 5) (t : BitVec 6) (e : BitVec 6) (s : State) : Out :=
  s.onEp e [a, b] [] []
    (Res.check (tileExists s.me.part t.toNat && drainX3 (s.me.fmtAhead t) (s.ctx.rx 3)) illOpnd) fun l u =>
    let x3 := u.ctx.rx 3
    let g := nthD 0 l 0
    let fmt := u.me.fmtAhead t
    let target := targetCore g
    u.onTile t <|
      if wf g 48 16 != 0 || wf g 22 15 != 0 then .trap illOpnd
      else (u.mayUse e 5 0).bind fun _ =>
        Res.refuseIf (peerDest (u.ep e).phw (u.ep e).paddr != .port target || unitKind (u.ep e).paddr != 2) e 0 <|
        let go := fun (wake : Option (List W)) (u : State) =>
          (u.underBound e).bind fun _ =>
            u.issueTile t (.drain ⟨target, wf g 0 22, some (e, (u.ep e).gen), x3, rmOf u.ctx.fst (wf x3 12 3), wake, tileSide fmt, tileSide fmt⟩) (some e)
              fun u => u.mapEp e Endpoint.addReq
        if b = 0 then go none u
        else
          let va := nthD 0 l 1
          (Res.check (va.toNat % 64 == 0) { cause := cMISALIGN, addr := va }).bind fun _ =>
          (u.localUnits va { r := true } 64).bind fun ks =>
            let rcd := (List.range 8).map fun i => BitVec.ofNat 64 (leNat ((u.readUnits ks 64).drop (8 * i) |>.take 8))
            if wakeOk target rcd then go (some rcd) (u.correctUnits ks) else .trap illOpnd

/-! ### Finishing an operation, and the next one of a task (R328) -/

/-- An operation of the scheduler enters a core's engine. -/
def State.pushTile (s : State) (c : CoreId) (o : TileOp) : State :=
  s.mapCore c fun x => { x with mqueue := x.mqueue ++ [o] }

/-- Step n of a task (R328, R330): ACQ on step 0 only, the SSEM post on the last, products beyond the depth
omitted. -/
def TaskRun.step (r : TaskRun) (n : Nat) : MmaArgs :=
  let m := r.first
  let k := (tileDepth r.fmt (wf m.x6 4 4) (wf m.x6 8 4)).getD 0
  { m with
    a := m.a + BitVec.ofNat 64 n * r.stepA, b := m.b + BitVec.ofNat 64 n * r.stepB
    x6 := if n = 0 then m.x6 else setField m.x6 63 1 0
    deep := Nat.min k (r.deep - n * k)
    sig := if n + 1 = r.steps then r.ssem else none }

def State.mapRun (s : State) (f : FloeId) (id : Nat) (g : TaskRun → TaskRun) : State :=
  s.mapFloe f fun x => { x with runs := x.runs.map fun r => if r.id = id then g r else r }

/-- A task goes on after one of its operations: the next step, the drain, or its end. A fault is deferred to the
issuer and skips what remains; the SSEM post is still made (R328). -/
def State.taskNext (s : State) (f : FloeId) (id : Nat) (drained : Bool) (fault : Option (Nat × Nat × W)) : State :=
  match (s.floe f).runs.find? fun r => r.id = id with
  | none => s
  | some r =>
    match fault with
    | some d =>
      let s1 := (s.deferFault r.org d).mapRun f id fun r => { r with failed := true, ended := true }
      match if r.at_ < r.steps then r.ssem else none with
      | some n => s1.postFsem f n 1
      | none => s1
    | none =>
      if drained then s.mapRun f id fun r => { r with ended := true }
      else if r.at_ < r.steps then
        (s.mapRun f id fun r => { r with at_ := r.at_ + 1 }).pushTile r.core ⟨r.org, r.tile, .mma (r.step r.at_), some id⟩
      else s.pushTile r.core ⟨r.org, r.tile, .drain r.drain, some id⟩

/-- A tile operation of core c is over: its operation finishes (R153), or its task goes on. -/
def State.tileDone (s : State) (c : CoreId) (o : TileOp) (fault : Option (Nat × Nat × W)) : State :=
  match o.task with
  | none => s.finishOp o.org fault
  | some id => s.taskNext (floeOf c) id (match o.kind with | .drain _ => true | _ => false) fault

/-- The engine is free for its next operation. -/
def State.freeEngine (s : State) (c : CoreId) : State := s.mapCore c fun x => { x with mrun := none }

/-- Whether an instruction that the Gaussian engine has taken holds the tile, as its block or by its memory operand (R284). -/
def State.gaussBars (s : State) (c : CoreId) (t : BitVec 6) : Bool :=
  let x := s.core c
  x.gqueue.any fun g => g.taken &&
    (g.tile == t || g.keys.any fun k => overlaps k 8 (poolKey c (tileOff x.part t.toNat)) 4096)

/-- TILE_OPERATION_START (R269): the engine takes the next operation, once the Gaussian engine does not hold its tile (R284). -/
def execTileOperationStart (c : CoreId) (s : State) : Out :=
  .next (match (s.core c).mrun, (s.core c).mqueue with
    | none, o :: l => if s.gaussBars c o.tile then s else s.mapCore c fun x => { x with mrun := some { op := o }, mqueue := l }
    | _, _ => s)

/-- TZERO_COMPLETE (R270, R283). -/
def execTzeroComplete (c : CoreId) (s : State) : Out :=
  .next (match (s.core c).mrun with
    | some ⟨⟨org, t, .zero fmt, task⟩, _, _, _, _, _, _⟩ =>
      let s1 := s.freeEngine c
      let s2 := s1.wr (s1.tileKey c t 0 0 0) (List.replicate 4096 0)
      (s2.mapTile c t fun _ => { fmt := fmt }).tileDone c ⟨org, t, .zero fmt, task⟩ none
    | _ => s)

/-! ### Operands of a step (R272, R273) -/

/-- An operand read of n bytes (R272): from a scratchpad of the floe of core `who`, its own or, under a window,
another's; a bit-plane operand needs a page of format 0xF. -/
def State.operandRead (s : State) (who : CoreId) (plane : Bool) (va : W) (n : Nat) : Eng Nat :=
  (s.engHome who va { r := true } (if plane then 15 else 0)).bind fun h s => match h with
    | .backing _ _ => .bad (copyErr va 0) s
    | .pool t o =>
      if floeOf t != floeOf who || !inScratch (s.core t).part o n then .bad (copyErr va 0) s
      else s.engReadAt who h va n

/-- One operand of a step: its base, byte stride, code, planes, half, and whether it is A. -/
structure Operand where
  base  : W
  ld    : Nat
  code  : Nat
  kpl   : Nat
  half  : Bool
  isA   : Bool

/-- Element (i, k) of A or (k, j) of B, as (row, column) of the operand: its value as stored, and its block's
scale (R272). `geo` is the geometry of a bit-plane operand. -/
def State.operandElem (s : State) (who : CoreId) (o : Operand) (geo : Nat) (p : Nat × Nat) : Eng (Nat × Nat) :=
  let (r, c) := p
  if o.code = 15 then
    let k := if o.isA then c else r
    let h := if o.half then 32 else 0
    let block := if geo = 64 then o.base else o.base + BitVec.ofNat 64 (k / 32 * o.ld)
    let (i, j) := if geo = 64 then (if o.isA then (r + h, c) else (r, c + h)) else if o.isA then (r, c % 32) else (r % 32, c)
    (s.bitPlane (fun t va n => t.operandRead who true va n) block geo i j o.kpl 0 0).bind fun (v, sc) t => .ok (bitsOf 8 v, sc) t
  else
    (s.operandRead who false (o.base + BitVec.ofNat 64 (r * o.ld + c * fmtSize o.code)) (fmtSize o.code)).bind fun v t =>
      .ok (v, 0) t

/-- A whole operand: rows of stored values, and the scales of its blocks along k. -/
def State.operandAll (s : State) (who : CoreId) (o : Operand) (rows cols : Nat) : Eng (List (List Nat) × List Nat) :=
  (if o.code = 15 then (s.engLeaf who (s.core who).xroot o.base).bind fun e t => .ok (if e.geom = 1 then 64 else 32) t
    else .ok 32 s : Eng Nat).bind fun geo s =>
  if o.code = 15 && o.half && geo = 32 then .bad (copyErr o.base 0) s
  else
    let cells := fun r => (List.range cols).map fun c => (r, c)
    (EngOf.all (fun t r => EngOf.all (fun t p => t.operandElem who o geo p) (cells r) t) (List.range rows) s).bind fun m t =>
      let scale := fun i => if o.isA then (nthD (0, 0) (nthD [] m 0) (32 * i)).2 else (nthD (0, 0) (nthD [] m (32 * i)) 0).2
      .ok (m.map fun r => r.map fun p => p.1,
        if o.code = 15 then (List.range (((if o.isA then cols else rows) + 31) / 32)).map scale else []) t

/-- TMMA_OPERANDS_READ (R272, R273): every operand is read, or the first failure found; then the post of
`tmma.sig`. A poisoned tile's step reads nothing and posts. -/
def execTmmaOperandsRead (c : CoreId) (s : State) : Out :=
  .next (match (s.core c).mrun with
    | some run =>
      match run.op.kind with
      | .mma m =>
        let who := run.op.org.core
        let keep := fun (t : State) (r : TileRun) =>
          let t1 := t.mapCore c fun x => { x with mrun := some { r with gotten := true } }
          match m.sig with | some n => t1.postFsem (floeOf c) n 1 | none => t1
        if run.gotten || !s.acquired run.op.org (wb m.x6 63) (wf m.x6 60 3) then s
        else if ((s.core c).tile run.op.tile).poison then keep s run
        else
          let kpl := wf m.x6 12 4
          let oa : Operand := ⟨m.a, wf m.x6 16 16, wf m.x6 4 4, kpl, wb m.x6 58, true⟩
          let ob : Operand := ⟨m.b, wf m.x6 32 16, wf m.x6 8 4, kpl, wb m.x6 59, false⟩
          match (s.operandAll who oa m.rows m.deep).bind fun a t => (t.operandAll who ob m.deep m.cols).bind fun b t => .ok (a, b) t with
          | .held m => s.waitFor m
          | .bad f t => keep t { run with fail := some f }
          | .ok (a, b) t => keep t { run with opsA := a.1, opsB := b.1, scaleA := a.2, scaleB := b.2 }
      | _ => s
    | none => s)

/-! ### Accumulation (R57 to R60) -/

/-- Consecutive groups of n. -/
def groupsOf {α : Type} (n : Nat) : Nat → List α → List (List α)
  | 0, _ => []
  | _, [] => []
  | fuel + 1, l => l.take n :: groupsOf n fuel (l.drop n)

/-- The product of a group sum and two scales as a value: none when invalid (R39, R45, R60). -/
def scaledSum (g : Int) (a b : Val) : Option Val :=
  let neg := (decide (g < 0) != a.sign) != b.sign
  if a.isInf || b.isInf then (if g = 0 || a.isZero || b.isZero then none else some (.inf neg))
  else match a, b with
    | .fin _ m e, .fin _ n h => some (.fin neg (g.natAbs * m * n) (e + h))
    | _, _ => some (.fin neg 0 0)

/-- One group of integer products added into a tile element (R60): the element, exceptions, saturation. -/
def addGroup (fmt : BitVec 2) (rm c : Nat) (g : Int) (sa sb : Option Nat) : Nat × BitVec 5 × Bool :=
  if fmt = 1 then
    let x := intOf 32 true c + g
    let y := clampInt 32 true x
    (bitsOf 32 y, 0, y != x)
  else
    let one : Val := .fin false 1 0
    let va := (sa.map f16.decode).getD one
    let vb := (sb.map f16.decode).getD one
    let vc := f32.decode c
    match f32.propagate [vc, va, vb], scaledSum g va vb with
    | some r, some _ => (r.v, r.f, false)
    | some r, none => (r.v, r.f ||| xNV, false)
    | none, none => (f32.dnan, xNV, false)
    | none, some p =>
      let r := f32.fused rm [vc, va, vb] [] [vc, p]
      (r.v, r.f, false)

/-- Accumulate (R57 to R60): element c with products of a and b in increasing k. -/
def accumulate (fmt : BitVec 2) (rm af bf c : Nat) (a b : List Nat) (sa sb : List Nat) : Nat × BitVec 5 × Bool :=
  let ab := a.zip b
  if af = 1 || af = 2 then
    let r := ab.foldl (fun (r : Nat × BitVec 5) p =>
      let v := (codeFmt af).fma rm false false p.1 p.2 r.1
      (v.v, r.2 ||| v.f)) (c, 0)
    (r.1, r.2, false)
  else if codeIsFloat af then
    let r := (groupsOf (if af ≤ 4 then 4 else 16) 64 ab).foldl (fun (r : Nat × BitVec 5) g =>
      let as := g.map fun p => (codeFmt af).decode p.1
      let bs := g.map fun p => (codeFmt bf).decode p.2
      let vc := f32.decode r.1
      let v := f32.fused rm (vc :: as ++ bs) (as.zip bs) [vc]
      (v.v, r.2 ||| v.f)) (c, 0)
    (r.1, r.2, false)
  else
    let gs := groupsOf 16 64 ab
    ((List.range gs.length).zip gs).foldl (fun (r : Nat × BitVec 5 × Bool) (p : Nat × List (Nat × Nat)) =>
      let sum : Int := p.2.foldl (fun (t : Int) q =>
        t + intOf (codeInt af).1 (codeInt af).2 q.1 * intOf (codeInt bf).1 (codeInt bf).2 q.2) 0
      let v := addGroup fmt rm r.1 sum sa[p.1 / 2]? sb[p.1 / 2]?
      (v.1, r.2.1 ||| v.2.1, r.2.2 || v.2.2)) (c, 0, false)

/-- A step applied to the tile (R272): every element from its old value; the exceptions, and saturation. Errors corrected in what
it reads are counted (R184). -/
def State.tileStep (s : State) (c : CoreId) (t : BitVec 6) (m : MmaArgs) (run : TileRun) : State × BitVec 5 × Bool :=
  let fmt := ((s.core c).tile t).fmt
  let cells := (List.range m.rows).flatMap fun i => (List.range m.cols).map fun j => (i, j)
  cells.foldl (fun (r : State × BitVec 5 × Bool) p =>
    let k := s.tileKey c t fmt p.1 p.2
    let v := accumulate fmt m.rm (wf m.x6 4 4) (wf m.x6 8 4) (s.rd k (tileSize fmt)) (nthD [] run.opsA p.1)
      (run.opsB.map fun row => nthD 0 row p.2) run.scaleA run.scaleB
    ((r.1.correct c k (tileSize fmt)).wrN k (tileSize fmt) v.1, r.2.1 ||| v.2.1, r.2.2 || v.2.2)) (s, 0, false)

/-- TMMA_STEP_COMPLETE (R272, R48): the tile changes as one action; a poisoned tile's step is skipped (R273). -/
def execTmmaStepComplete (c : CoreId) (s : State) : Out :=
  .next (match (s.core c).mrun with
    | some run =>
      match run.op.kind with
      | .mma m =>
        if !run.gotten || run.fail.isSome then s
        else
          let s1 := s.freeEngine c
          if ((s.core c).tile run.op.tile).poison then s1.tileDone c run.op none
          else
            let (t, f, sat) := s1.tileStep c run.op.tile m run
            ((t.mapTile c run.op.tile fun i => { i with sat := i.sat || sat }).orFlags run.op.org.core run.op.org.ctx f).tileDone
              c run.op none
      | _ => s
    | none => s)

/-- DETAIL of a tile fault (R273). -/
def tileDetail (t : BitVec 6) (extra : Nat) : Nat := 0x800 + t.toNat + extra

/-- TMMA_OPERAND_FAILURE (R273): the tile is poisoned, and the fault deferred. -/
def execTmmaOperandFailure (c : CoreId) (s : State) : Out :=
  .next (match (s.core c).mrun with
    | some run =>
      match run.fail with
      | some f =>
        ((s.freeEngine c).mapTile c run.op.tile fun i => { i with poison := true }).tileDone c run.op
          (some (f.cause, tileDetail run.op.tile f.detail, f.addr))
      | none => s
    | none => s)

/-! ### Drains (R274, R275) -/

/-- A drain's rows, converted, and the exceptions (R275). -/
def State.drainRows (s : State) (c : CoreId) (t : BitVec 6) (d : DrainArgs) : List (List Byte) × BitVec 5 :=
  let fmt := ((s.core c).tile t).fmt
  let df := wf d.x3 8 4
  let cell := fun r k => convCode (tileCode fmt) df d.rm (wb d.x3 15) (s.rd (s.tileKey c t fmt r k) (tileSize fmt))
  ((List.range d.rows).map fun r => (List.range d.cols).flatMap fun k => leBytes (fmtSize df) (cell r k).1,
   (List.range d.rows).foldl (fun f r => (List.range d.cols).foldl (fun f k => f ||| (cell r k).2) f) 0)

/-- The errors corrected as a drain reads its tile are counted (R184). -/
def State.drainRead (s : State) (c : CoreId) (t : BitVec 6) (d : DrainArgs) : State :=
  let fmt := ((s.core c).tile t).fmt
  (List.range d.rows).foldl (fun u r => u.correct c (s.tileKey c t fmt r 0) (d.cols * tileSize fmt)) s

/-- A drain goes in packets of at most 512 bytes of rows (R354); one without rows in one packet. -/
def drainPackets (d : DrainPkt) : List DrainPkt :=
  let per := Nat.max 1 (512 / Nat.max 1 (nthD [] d.rows 0).length)
  let n := d.rows.length
  let ps := groupsOf per (n + 1) d.rows
  if ps.isEmpty then [{ d with first := 0, total := 0 }]
  else ((List.range ps.length).zip ps).map fun e => { d with rows := e.2, first := e.1 * per, total := n }

/-- A drain leaves in its packets. -/
def State.sendDrain (s : State) (c : CoreId) (d : DrainPkt) : State :=
  (drainPackets d).foldl (fun s k =>
    s.sendCore c (.port d.target) false (k.rows.foldl (fun n r => n + r.length) 0) (.rows k)) s

/-- A drain that ends without reaching its target returns its endpoint's request. -/
def State.unask (s : State) (c : CoreId) (e : Option (EpId × BitVec 16)) : State :=
  match e with
  | some (e, _) => s.mapEpAt c e Endpoint.endCredit
  | none => s

/-- TDRAIN_TILE_READ (R275): the tile is read and the engine free; a poisoned tile is not drained. One whose endpoint is bound no
more has failed already (R432). -/
def execTdrainTileRead (c : CoreId) (s : State) : Out :=
  .next (match (s.core c).mrun with
    | some run =>
      match run.op.kind with
      | .drain d =>
        let s1 := s.freeEngine c
        let t := run.op.tile
        if d.ep.any fun p => !s.bears c p.1 p.2 then s1
        else if ((s.core c).tile t).poison then (s1.unask c d.ep).tileDone c run.op (some (cCOPYERR, tileDetail t 0, 0))
        else
          let (rows, f) := s.drainRows c t d
          let pk : DrainPkt := ⟨run.op.org, c, d.ep, t, d.target, d.off, wf d.x3 16 16, rows, f, d.wake, run.op.task, 0, rows.length⟩
          ((s1.drainRead c t d).mapCore c fun x => { x with drains := x.drains ++ [run.op] }).sendDrain c pk
      | _ => s
    | none => s)

/-- Bytes from the first to the last byte of a drain (R275). -/
def drainSpan (d : DrainPkt) : Nat := (d.rows.length - 1) * d.ldd + (nthD [] d.rows 0).length

/-- A packet of the same drain that has reached the same port. -/
def drainPart (pk : Packet) (d : DrainPkt) (q : Packet) : Bool :=
  q.place == .arrived && q.dst == pk.dst &&
    match q.body with
    | .rows k => k.org == d.org && k.src == d.src && k.tile == d.tile && k.task == d.task && k.ep == d.ep
    | _ => false

/-- The rows of a drain, in order, once all of its packets have come (R275). -/
def State.drainWhole (s : State) (pk : Packet) (d : DrainPkt) : Option (List (List Byte)) :=
  let parts := s.net.filterMap fun q => if drainPart pk d q then (match q.body with | .rows k => some k | _ => none) else none
  if (parts.map fun k => k.rows.length).sum < d.total then none
  else some ((List.range d.total).flatMap fun i => ((parts.find? fun k => k.first == i).map fun k => k.rows).getD [])

/-- DRAIN_ROWS_ARRIVAL (R275): once every packet of the drain has come its span is checked, the rows written, the wake taken by
the dispenser, and the drain acknowledged, on a channel by a credit (R198). Rows of an endpoint bound no more are not written
(R432). -/
def execDrainRowsArrival (p : Nat) (s : State) : Out :=
  .next (match s.arrived p with
    | none => s
    | some pk =>
      match pk.dst, pk.body with
      | .port c, .rows d0 =>
        match s.drainWhole pk d0 with
        | none => s
        | some rows =>
        let d := { d0 with rows := rows }
        let n := drainSpan d
        let ok := pk.parked || s.granted c 61 d.src d.off n
        if ok && s.held c d.off n true then
          { s with net := s.net.map fun q => if drainPart pk d q then { q with parked := true } else q }
        else
          let s0 : State := { s with net := s.net.filter fun q => !drainPart pk d q }
          let s1 := match d.ep with | some (e, g) => s0.hwTakes d.src e g | none => s0
          let back := fun (v : Verdict) => Body.rowsAck { d with rows := [], wake := none } v
          let reply := fun (t : State) (v : Verdict) =>
            match d.ep with
            | some (e, g) => t.hwReply (floeOf c) 0 d.src e g false 0 (back v) c
            | none => t.send (floeOf c) (.core d.src) none 0 (back v) none c
          let items := (List.range d.rows.length).zip d.rows
          let at_ := fun (i : Nat) => poolKey c (d.off + i * d.ldd)
          if !ok then reply (s1.nack c) .nack
          else if d.ep.any fun p => !s1.bears d.src p.1 p.2 then reply s1 .ok
          else if items.any fun (i, r) => (at_ i + r.length) % 8 != 0 && (s.badIn (at_ i) r.length).isSome then
            reply s1 (.dataErr (BitVec.ofNat 64 d.off))
          else
            let t := items.foldl (fun t (i, r) => t.wr (at_ i) r) s1
            reply (match d.wake with
              | some l => t.enqueue (floeOf c) ⟨l, none, .quiet⟩
              | none => t) .ok
      | _, _ => s)

/-- A drain finishes at its core; its flags enter the issuer's `fst`. -/
def State.drainEnd (s : State) (c : CoreId) (d : DrainPkt) (v : Verdict) : State :=
  match (s.core c).drains.find? fun (o : TileOp) => o.org == d.org && o.tile == d.tile && o.task == d.task with
  | none => s
  | some o =>
    (((s.mapCore c fun x => { x with drains := x.drains.erase o }).orFlags o.org.core o.org.ctx d.flags)).tileDone c o (match v with
      | .ok => none
      | .nack => some (cNACK, tileDetail d.tile 0, BitVec.ofNat 64 d.off)
      | .dataErr a => some (cDATAERR, tileDetail d.tile 0, a))

/-- DRAIN_ACK_ARRIVAL (R275): on the drain's channel, or on the scheduler's own path. -/
def execDrainAckArrival (p : Nat) (s : State) : Out :=
  match s.atUnit p with
  | some (.core c, .rowsAck d v) => .next ((s.takePacket p).drainEnd c d v)
  | _ => s.replyArrival p (fun b => match b with | .rowsAck _ _ => true | _ => false) fun c _ b s =>
      match b with
      | .rowsAck d v => some (s.drainEnd c d v)
      | _ => none

end Sys2Proof.Machine
end

