-- ==== Sys2Proof/Machine/Waits.lean ====
section
/-! DEFINITION. Waiting on outstanding operations: WAITC, WAITANY, WAITALL, FFR, WAITCH (R152, R260, R278, R279). -/

namespace Sys2Proof.Machine

/-- The first source of an instruction, or 0 where its operands trap or wait: what its coverage depends on. -/
def State.peek (s : State) (src dst : List Reg) (i : Nat) : W :=
  match s.operands src dst [] with
  | .ok l => nthD 0 l i
  | _ => 0

/-- A fault of a copy whose tag a mask includes (R152). -/
def tagIn (mask : W) (d : Deferred) : Bool := d.tag.any fun t => mask.getLsbD t.toNat

/-- Limits of WAITC: loads, stores, copies, tile operations. -/
def waitLimit (l s c t : BitVec 5) : Cls → Nat
  | .gload => l.toNat
  | .gstore => s.toNat
  | .copy => c.toNat
  | .tile => t.toNat

/-- WAITC: covers, in each class, all but the most recent limit operations. -/
def execWaitc (t c st l : BitVec 5) (s : State) : Out :=
  let lim := waitLimit l st c t
  s.covering (fun d => d.op.any fun o => decide (o.2 + lim o.1 ≤ s.ctx.issued[o.1.idx])) <|
  s.issue 4 [] [] [] fun _ u =>
    if [Cls.gload, .gstore, .copy, .tile].all fun k => u.ctx.count k ≤ lim k then .ok u else .block { kind := 5 } u

def execWaitany (d a : BitVec 5) (s : State) : Out :=
  s.covering (tagIn (s.peek [a] [d] 0)) <|
  s.issue 4 [a] [d] [] fun l t =>
    let m := nthD 0 l 0
    if m = 0 then .trap illOpnd
    else if t.me.cbm &&& m = 0 then .block { kind := 5 } t
    else .ok (t.setG d (t.me.cbm &&& m))

def execWaitall (a : BitVec 5) (s : State) : Out :=
  s.covering (tagIn (s.peek [a] [] 0)) <|
  s.issue 4 [a] [] [] fun l t =>
    let m := nthD 0 l 0
    if t.me.cbm &&& m = m then .ok t else .block { kind := 5 } t

def execFfr (d a : BitVec 5) (s : State) : Out :=
  s.covering (tagIn (s.peek [a] [d] 0)) <|
  s.issue 4 [a] [d] [] fun l t => .ok (t.setG d (BitVec.ofNat 64 (lowestBit (t.me.cbm &&& nthD 0 l 0) 64)))

def execFfrClr (d a : BitVec 5) (s : State) : Out :=
  s.covering (tagIn (s.peek [a] [d] 0)) <|
  s.issue 4 [a] [d] [] fun l t =>
    let i := lowestBit (t.me.cbm &&& nthD 0 l 0) 64
    .ok ((t.mapMe fun x => { x with cbm := if i = 64 then x.cbm else x.cbm &&& ~~~(1#64 <<< i) }).setG d (BitVec.ofNat 64 i))

/-- WAITCH: tag a<5:0>, mask b. -/
def State.waitch (s : State) (d a b : Reg) (all : Bool) : Out :=
  let tag := s.peek [a, b] [d] 0
  s.covering (fun f => tag.toNat < 64 && s.peek [a, b] [d] 1 != 0 && f.tag == some (tag.truncate 6)) <|
  s.issue 4 [a, b] [d] [] fun l t =>
    let tag := nthD 0 l 0
    let m := nthD 0 l 1
    let hit := t.me.chunks[((tag.truncate 6 : BitVec 6).toNat)]'(by omega) &&& m
    if wf tag 6 58 != 0 || m = 0 then .trap illOpnd
    else if (if all then hit == m else hit != 0) then .ok (t.setG d hit)
    else .block { kind := 5 } t

def execWaitchAny (d a b : BitVec 5) (s : State) : Out := s.waitch d a b false
def execWaitchAll (d a b : BitVec 5) (s : State) : Out := s.waitch d a b true

end Sys2Proof.Machine
end

