-- ==== Sys2Proof/Machine/Floe.lean ====
section
/-! DEFINITION. The floe: floe registers, dispensing, continuations, queues, deques and the drift unit, the tile
scheduler, gangs, the flag union (R22 to R27, R308 to R335). -/

namespace Sys2Proof.Machine

/-! ### Floe registers (R308, R309, R325, R382) -/

/-- Floe register n as `rdfloe` reads it: none where it is not listed (Tables 14.1, 16.4). -/
def Floe.readReg (x : Floe) (n : Nat) : Option W :=
  match n with
  | 0x000 => some x.qring[0]
  | 0x008 => some x.qring[1]
  | 0x010 => some x.qring[2]
  | 0x018 => some x.qring[3]
  | 0x020 => some x.drift
  | 0x028 => some (x.dmoves.zeroExtend 64)
  | 0x030 => some x.tsc
  | 0x038 => some x.ffault
  | 0x040 => some (x.rdup.zeroExtend 64)
  | 0x048 => some (x.rstale.zeroExtend 64)
  | 0x050 => some (x.rdrop.zeroExtend 64)
  | 0x058 => some (x.rlink.zeroExtend 64)
  | _ => none

/-- A ring descriptor is written (Table 14.2); `root` is the floe supervisor's xroot (R309). -/
def Floe.writeRing (x : Floe) (i : BitVec 2) (root v : W) : Option Floe :=
  let n := wf v 0 5
  let q := x.queues[i.toNat]
  if (1 ≤ n ∧ n ≤ 5) ∨ n > 20 ∨ q.ringLen ≠ 0 ∨ q.move.isSome then none
  else some { x with
    qring := x.qring.set i.toNat (setField v 5 7 0)
    queues := x.queues.set i.toNat { q with root := root, ringAt := 0 } }

/-- The drift register (Table 14.1). -/
def Floe.writeDrift (x : Floe) (v : W) : Option Floe :=
  if wf v 0 32 ≠ 0 ∧ (wf v 32 8 = 0 ∨ wf v 40 8 = 0) then none else some { x with drift := setField v 48 16 0 }

/-- The tile-scheduler register (Table 14.1). -/
def Floe.writeTsc (x : Floe) (v : W) : Option Floe :=
  if wf v 0 6 + wf v 6 6 > 64 then none else some { x with tsc := BitVec.ofNat 64 (wf v 0 12) }

/-- A `wrfloe` of register n: none where it traps. A write to the read-only ffault has no effect (R9). -/
def Floe.writeReg (x : Floe) (n : Nat) (root v : W) : Option Floe :=
  match n with
  | 0x000 => x.writeRing 0 root v
  | 0x008 => x.writeRing 1 root v
  | 0x010 => x.writeRing 2 root v
  | 0x018 => x.writeRing 3 root v
  | 0x020 => x.writeDrift v
  | 0x028 => some { x with dmoves := v.truncate 32 }
  | 0x030 => x.writeTsc v
  | 0x038 => some x
  | 0x040 => some { x with rdup := v.truncate 32 }
  | 0x048 => some { x with rstale := v.truncate 32 }
  | 0x050 => some { x with rdrop := v.truncate 32 }
  | 0x058 => some { x with rlink := v.truncate 32 }
  | _ => none

/-- An instruction reserved to the floe supervisor (R308). -/
def State.supervisorOnly (s : State) (k : Res State) : Res State := if s.isSupervisor then k else .trap illOpnd

/-- A write of floe register n by the issuing context. -/
def State.writeFloe (s : State) (n : Nat) (v : W) : Res State :=
  s.supervisorOnly (match (s.floe s.myFloe).writeReg n s.me.xroot v with
    | some x => .ok (s.setFloe s.myFloe x)
    | none => .trap illOpnd)

def execRdfloe (d a : BitVec 5) (s : State) : Out :=
  s.issue 4 [a] [d] [] fun l t =>
    match (t.floe t.myFloe).readReg (wf (nthD 0 l 0) 0 12) with
    | some v => .ok (t.setG d v)
    | none => .trap illOpnd

def execWrfloe (a b : BitVec 5) (s : State) : Out :=
  s.issueIf s.isSupervisor 4 [a, b] [] [] fun l t => t.writeFloe (wf (nthD 0 l 0) 0 12) (nthD 0 l 1)

/-! The register writes as events: the write that `wrfloe` makes, by the context at hand. -/

def execQringWrite (n : BitVec 2) (v : W) (s : State) : Out := s.finishJump (s.writeFloe (8 * n.toNat) v)
def execDriftWrite (v : W) (s : State) : Out := s.finishJump (s.writeFloe 0x020 v)
def execTscWrite (v : W) (s : State) : Out := s.finishJump (s.writeFloe 0x030 v)

/-- FUNION (R325): a flag enters four cycles after it is set. -/
def execFunion (d : BitVec 5) (s : State) : Out :=
  s.issueIf s.isSupervisor 4 [] [d] [] fun _ t =>
    let flags := (coresOf t.myFloe).map fun c => nthD 0 (t.core c).fhist 3
    let any : BitVec 5 := flags.foldl (fun a f => a ||| f) 0
    let who := (List.range 8).map fun i => (b2n (nthD 0 flags i != 0), 8 + i)
    .ok (t.setG d (mkW ((any.toNat, 0) :: who)))

/-! ### Dispensing (R22 to R25, R313) -/

/-- The contexts that wait and are eligible for a record (R22), in core and context order. -/
def State.eligibleFor (s : State) (f : FloeId) (w : W) : List (CoreId × CtxId) :=
  let cores := if wb w 36 then coresOf f else [coreAt f (wf w 37 3)]
  let ctxs : List CtxId := if wb w 28 then [15] else allCtx.filter fun k => k != 0 && k != 15
  (cores.flatMap fun c => ctxs.map fun k => (c, k)).filter fun p => (s.ctxAt p.1 p.2).life == .waiting

/-- The one that entered WAITING earliest; ties: lower core, then lower context. -/
def State.earliest (s : State) (l : List (CoreId × CtxId)) : Option (CoreId × CtxId) :=
  l.foldl (fun b p =>
    match b with
    | none => some p
    | some q => if (s.ctxAt p.1 p.2).waitingAt < (s.ctxAt q.1 q.2).waitingAt then some p else b) none

/-- ClearContext (R24). -/
def Ctx.clear (c : Ctx) (part : W) : Ctx :=
  { c with
    g := Vector.ofFn fun i => if i.val < gcapOf part then 0 else c.g[i]
    v := Vector.ofFn fun i => if i.val < vcapOf part then 0 else c.v[i]
    x := Vector.replicate 8 0
    q := Vector.replicate 4 (BitVec.allOnes 64)
    lc := Vector.replicate 3 0
    lb := Vector.replicate 3 0
    le := Vector.replicate 3 0
    fst := 0
    slim := 0 }

/-- Deliver (R24): a record is loaded into a waiting context, which becomes RUNNABLE. -/
def Ctx.load (c : Ctx) (part : W) (r : List W) : Ctx :=
  let w := nthD 0 r 0
  let c1 := (if wb w 29 then c.clear part else c).wg 3 w
  let c2 := [0, 1, 2, 3, 4, 5].foldl (fun c i => c.wg (BitVec.ofNat 5 (4 + i)) (nthD 0 r (2 + i))) c1
  { c2.jump (nthD 0 r 1) with p := w.extractLsb' 16 8, life := .runnable, wasWaiting := false }

/-- The first of the 8 records at the head of a bank that a waiting context can take: its place and context. -/
def State.match8 (s : State) (f : FloeId) : List (List W) → Nat → Option (Nat × CoreId × CtxId)
  | [], _ => none
  | r :: l, n =>
    if n ≥ 8 then none
    else match s.earliest (s.eligibleFor f (nthD 0 r 0)) with
      | some p => some (n, p)
      | none => s.match8 f l (n + 1)

/-- The delivery that the dispenser makes next: queue, place in the bank, context (R313). -/
def State.nextDelivery (s : State) (f : FloeId) : Option (BitVec 2 × Nat × CoreId × CtxId) :=
  ([0, 1, 2, 3] : List (BitVec 2)).findSome? fun i => (s.match8 f (s.queue f i).bank 0).map fun m => (i, m)

/-- DISPENSER_DELIVERY (R24, R25, R313): at most one; `bad` says that the record read has an uncorrectable error
(R335). -/
def execDispenserDelivery (f : FloeId) (bad : Bool) (s : State) : Out :=
  .next (if (s.floe f).ffault != 0 then s
    else match s.nextDelivery f with
      | none => s
      | some (i, n, c, k) =>
        if bad then s.floeFault f 1
        else
          let q := s.queue f i
          let r := nthD [] q.bank n
          ((s.setQueue f i { q with bank := q.bank.eraseIdx n }).mapCtxAt c k
            fun x => x.load (s.core c).part r).refill f i)

/-! ### Continuations (R26, R27, R314, R315) -/

/-- The context is WAITING; its PC stays at the instruction (R29, R453). -/
def Ctx.toWaiting (c : Ctx) (now : Nat) : Ctx := { c.settle with life := .waiting, waitingAt := now, leaving := none }

/-- What `waitw`, `suspend` and `retire` share (R314): none for c0 or within a gang, deferred faults first, then the
wait for every outstanding operation, then WAITING. -/
def State.endTurn (s : State) (src : List Reg) (bad : Bool) (k : List W → State → State) : Out :=
  s.checked src [] [] (Res.check (!(s.cur.ctx == 0 || s.ctx.gang.isSome || bad)) illOpnd) <|
    s.covering (fun _ => true) <|
    s.issueJump src [] [] fun l t =>
      if !t.ctx.ops.isEmpty then .block { kind := 5 } t
      else .ok ((k l t).mapCtx fun c => c.toWaiting t.me.cycle)

def execWaitw (s : State) : Out := s.endTurn [] false fun _ t => t

/-- The record that `suspend` builds (R26). -/
def Ctx.suspendRecord (c : Ctx) (pc : W) : List W :=
  let w := setField (setField (setField (setField (c.rg 3) 32 4 0) 24 4 0) 0 16 0) 16 8 c.p.toNat
  [w, pc, c.rg 4, c.rg 5, c.rg 6, c.rg 7, c.rg 8, c.rg 9]

/-- The floe that a header or a handle names. -/
def targetFloe (w : W) : FloeId := w.extractLsb' 40 8

def execSuspend (a : BitVec 5) (s : State) : Out :=
  s.endTurn [a] (wb (s.peek [a] [] 0) 0) fun l t =>
    let r := t.ctx.suspendRecord (nthD 0 l 0)
    t.sendCore t.cur.core (.floe (targetFloe (nthD 0 r 0))) false 64 (.enqueue none r none)

def execRetire (s : State) : Out := s.endTurn [] false fun _ t => t

/-- A 64-byte record at va, 64-aligned, read by R136: its dwords, and its pieces. -/
def State.readRecord (s : State) (va : W) : Res (List W × List Nat) :=
  if va.toNat % 64 != 0 then .trap { cause := cMISALIGN, addr := va }
  else (s.localUnits va { r := true } 64).bind fun ks =>
    let b := s.readUnits ks 64
    .ok ((List.range 8).map fun i => BitVec.ofNat 64 (leNat ((b.drop (8 * i)).take 8)), ks)

/-- Reserved fields of a handle (Table 14.4). -/
def handleReserved (h : W) : Bool := wf h 48 16 != 0 || wf h 36 4 != 0 || wf h 2 22 != 0

/-- SPAWN (R315): it counts in the global-store class until its answer. -/
def execSpawn (a b : BitVec 5) (s : State) : Out :=
  s.issue 4 [a, b] [] [] fun l t =>
    let h := nthD 0 l 1
    if handleReserved h then .trap illOpnd
    else (t.readRecord (nthD 0 l 0)).bind fun (r, ks) =>
      let w := nthD 0 r 0
      if targetFloe w != targetFloe h || wf w 30 2 != wf h 0 2 then .trap illOpnd
      else (t.classRoom .gstore).bind fun _ =>
        .ok (((t.correctUnits ks).mapCtx fun c => c.launch .gstore false none).sendCore t.cur.core (.floe (targetFloe h)) false 72
          (.enqueue (some t.origin) r (some h)))

/-! ### Queue instructions (R316) -/

/-- A request that blocks until its answer, a STOP being held meanwhile (R31, R316, R319). -/
def State.awaitHeld (s : State) (dst : Dest) (b : Issuer → Body) (done : W → Res State) : Res State :=
  match s.ctx.req with
  | none =>
    let (_, txn, t) := s.newTxn
    let t1 := t.mapCtx fun c => { c with req := some ⟨txn, none⟩ }
    .block { kind := 1, hold := true } (t1.sendCore s.cur.core dst false 8 (b ⟨s.cur.core, s.cur.ctx, txn⟩))
  | some ⟨_, some (.value w _)⟩ => done w
  | some _ => .block { kind := 1, hold := true } s

def execQhandle (d a : BitVec 5) (s : State) : Out :=
  s.issue 4 [a] [d] [] fun l t =>
    let h := nthD 0 l 0
    let i : BitVec 2 := h.truncate 2
    if targetFloe h == t.myFloe then .ok (t.setG d (t.handleOf t.myFloe i))
    else t.awaitHeld (.floe (targetFloe h)) (fun i => .handleReq i (wf h 0 2)) fun w => .ok (t.setG d w)

/-- QHANDLE_REPLY_ARRIVAL (R316): the remote dispenser answers a request, or its answer reaches the issuer. -/
def execQhandleReplyArrival (p : Nat) (s : State) : Out :=
  .next (match s.atUnit p with
    | some (.floe f, .handleReq i n) =>
      (s.takePacket p).send f (.core i.core) none 8 (.handleReply i (s.handleOf f (BitVec.ofNat 2 n)))
    | some (.core _, .handleReply i h) => (s.takePacket p).give i.core i.ctx i.txn (.value h 0)
    | _ => s)

def execQreset (a : BitVec 5) (s : State) : Out :=
  s.issueIf s.isSupervisor 4 [a] [] [] fun l t =>
    if wf (nthD 0 l 0) 2 62 != 0 then .trap illOpnd else .ok (t.resetQueue t.myFloe ((nthD 0 l 0).truncate 2))

def execQstat (d a : BitVec 5) (s : State) : Out :=
  s.issue 4 [a] [d] [] fun l t =>
    let q := t.queue t.myFloe ((nthD 0 l 0).truncate 2)
    if wf (nthD 0 l 0) 2 62 != 0 then .trap illOpnd
    else .ok (t.setG d (mkW [(b2n q.spilled, 63), (q.ringLen, 36), (q.gen.toNat, 24), (q.bank.length, 0)]))

/-! ### Deques (R317 to R321) -/

def Core.dqCap (x : Core) : Nat := (x.dqlim.toNat - x.dqbase.toNat) / 8

def Core.dqCount (x : Core) : Nat := x.bot - x.top

/-- The key of entry j of core c's deque. A launch image may place a deque outside the scratchpad (R317, R424), where no rule says what
its entries are: they are then those at the same offsets modulo the pool's 2^22 (log 47). -/
def Core.dqKey (x : Core) (c : CoreId) (j : Nat) : Nat := poolKey c ((x.dqbase.toNat + 8 * (j % x.dqCap)) % 2 ^ 22)

/-- push (R318): whether there was room. -/
def State.dqPush (s : State) (c : CoreId) (v : W) : Bool × State :=
  let x := s.core c
  if x.dqCap = 0 || x.dqCount ≥ x.dqCap then (false, s)
  else (true, (s.wr8 (x.dqKey c x.bot) v).mapCore c fun x => { x with bot := x.bot + 1 })

/-- pop (R318). -/
def State.dqPop (s : State) (c : CoreId) : W × State :=
  let x := s.core c
  if x.dqCount = 0 then (0, s)
  else (s.rd8 (x.dqKey c (x.bot - 1)), s.mapCore c fun x => { x with bot := x.bot - 1 })

/-- steal (R318). -/
def State.dqSteal (s : State) (c : CoreId) : W × State :=
  let x := s.core c
  if x.dqCount = 0 then (0, s)
  else (s.rd8 (x.dqKey c x.top), s.mapCore c fun x => { x with top := x.top + 1 })

/-- Whether a push, a pop or a steal on core c's deque waits for an engine that holds the entry (R284). -/
def State.pushHeld (s : State) (c : CoreId) : Bool :=
  let x := s.core c
  decide (x.dqCount < x.dqCap) && s.heldAt c (x.dqKey c x.bot) 8 true
def State.popHeld (s : State) (c : CoreId) : Bool :=
  let x := s.core c
  x.dqCount != 0 && s.heldAt c (x.dqKey c (x.bot - 1)) 8 false
def State.stealHeld (s : State) (c : CoreId) : Bool :=
  let x := s.core c
  x.dqCount != 0 && s.heldAt c (x.dqKey c x.top) 8 false

def execDqpush (d a : BitVec 5) (s : State) : Out :=
  s.issue 4 [a] [d] [] fun l t =>
    if nthD 0 l 0 = 0 then .trap illOpnd
    else if t.pushHeld t.cur.core then .block { kind := 5 } t
    else
      let r := t.dqPush t.cur.core (nthD 0 l 0)
      .ok (r.2.setG d (b2w r.1))

def execDqpop (d : BitVec 5) (s : State) : Out :=
  s.issue 4 [] [d] [] fun _ t =>
    if t.popHeld t.cur.core then .block { kind := 5 } t
    else .ok ((t.dqPop t.cur.core).2.setG d (t.dqPop t.cur.core).1)

def execDqsteal (d a : BitVec 5) (s : State) : Out :=
  s.issue 4 [a] [d] [] fun l t =>
    let g := nthD 0 l 0
    if wf g 48 16 != 0 || wf g 0 37 != 0 then .trap illOpnd
    else t.awaitHeld (.core (targetCore g)) .stealReq fun w => .ok (t.setG d w)

def execDqcount (d : BitVec 5) (s : State) : Out :=
  s.issue 4 [] [d] [] fun _ t => .ok (t.setG d (BitVec.ofNat 64 t.me.dqCount))

/-- STEAL_REQUEST_ARRIVAL (R318, R319); it waits for an engine that holds the entry (R284). -/
def execStealRequestArrival (p : Nat) (s : State) : Out :=
  .next (match s.atUnit p with
    | some (.core c, .stealReq i) =>
      if s.stealHeld c then s.park p else
      let r := (s.takePacket p).dqSteal c
      r.2.sendCore c (.core i.core) false 8 (.stealReply i r.1)
    | _ => s)

/-- STEAL_REPLY_ARRIVAL (R319). -/
def execStealReplyArrival (p : Nat) (s : State) : Out :=
  .next (match s.atUnit p with
    | some (.core _, .stealReply i v) => (s.takePacket p).give i.core i.ctx i.txn (.value v 0)
    | _ => s)

/-- A visit of core i begins (R321): the neighbour and the moves, by the counts as they stand. -/
def State.driftVisit (s : State) (f : FloeId) (i : Nat) : Visit :=
  let count := fun (j : Nat) => (s.core (coreAt f (j % 8))).dqCount
  let j := if count (i + 7) < count (i + 1) then (i + 7) % 8 else (i + 1) % 8
  let x := s.core (coreAt f j)
  let d := (s.floe f).drift
  let n := if count j ≤ count i && count i - count j ≥ wf d 32 8 then
      Nat.min (Nat.min ((count i - count j) / 2) (wf d 40 8)) (x.dqCap - x.dqCount)
    else 0
  ⟨i, j, n, n⟩

/-- Whether there is a task to move from core i and room for it at core j. -/
def State.moves (s : State) (i j : CoreId) : Bool :=
  (s.core i).dqCount != 0 && decide ((s.core j).dqCount < (s.core j).dqCap)

/-- One move (R321): a steal on core i and a push on core j, or nothing once the one is empty or the other full (log 37). -/
def State.driftMove (s : State) (i j : CoreId) : State :=
  if s.moves i j then
    let r := s.dqSteal i
    (r.2.dqPush j r.1).2
  else s

/-- DRIFT_INTERVAL (R321): the drift unit begins at core 0, unless it is still under way (log 37). -/
def execDriftInterval (f : FloeId) (s : State) : Out :=
  .next (if wf (s.floe f).drift 0 32 = 0 || (s.floe f).ffault != 0 || (s.floe f).visit.isSome then s
    else s.mapFloe f fun x => { x with visit := some (s.driftVisit f 0) })

/-- What the drift unit does next (R321): a move of its visit; or the visit ends, and the next core's begins. Other operations on
the deques fall between (R318); a move waits for an engine that holds one of its entries (R284). -/
def State.driftOn (s : State) (f : FloeId) : State :=
  match (s.floe f).visit with
  | none => s
  | some v =>
    let i := coreAt f v.core
    let j := coreAt f v.nbr
    if (s.floe f).ffault != 0 || (v.left != 0 && s.moves i j && (s.stealHeld i || s.pushHeld j)) then s
    else if v.left = 0 then
      s.mapFloe f fun x =>
        { x with
          dmoves := BitVec.ofNat 32 (satAdd x.dmoves.toNat v.n 32)
          visit := if v.core + 1 < 8 then some (s.driftVisit f (v.core + 1)) else none }
    else (s.driftMove i j).mapFloe f fun x => { x with visit := some { v with left := v.left - 1 } }

/-! ### The tile scheduler (R326 to R330) -/

/-- What a task record and a template share (R327, R330): reserved fields, CFMT, DFMT, RM, SCOPE. -/
def recordOk (r : List W) : Bool :=
  let d4 := nthD 0 r 4
  let d5 := nthD 0 r 5
  wf d4 0 15 == 0 && wf d5 48 16 == 0 && wf d5 22 15 == 0 && nthD 0 r 7 == 0 && wf d4 46 2 != 3 &&
  drainOk (d4.extractLsb' 46 2) (wf d4 42 4) && wf d4 49 3 != 5 && wf d4 49 3 != 6 && decide (wf d4 38 3 ≤ 4) &&
  (wb d4 41 || wf d4 38 3 == 0)

/-- A record with RM resolved to the mode that it names at issue. -/
def Ctx.resolve (c : Ctx) (r : List W) : List W :=
  let d4 := nthD 0 r 4
  r.set 4 (setField d4 49 3 (rmOf c.fst (wf d4 49 3)))

/-- TTASK (R327): KPL is held to Table 11.8 (R39). -/
def execTtask (a : BitVec 5) (s : State) : Out :=
  s.issue 4 [a] [] [] fun l t =>
    (t.readRecord (nthD 0 l 0)).bind fun (r, ks) =>
      let d4 := nthD 0 r 4
      let fl := t.floe t.myFloe
      if !recordOk r || wf (nthD 0 r 3) 0 16 = 0 || !kplOk (wf d4 60 4) (wf d4 56 4) (wf d4 52 4) || (tileDepth (d4.extractLsb' 46 2) (wf d4 60 4) (wf d4 56 4)).isNone ||
          wf fl.tsc 6 6 = 0 then .trap illOpnd
      else
        let go := fun (wake : Option (List W)) (u : State) =>
          if fl.tasks.length ≥ 64 then .block { kind := 2 } u
          else (u.classRoom .tile).bind fun _ =>
            let task : Task := ⟨fl.nextTask, u.origin, u.ctx.resolve r, wake⟩
            .ok (((u.correctUnits ks).mapCtx fun c => c.launch .tile false none).mapFloe u.myFloe fun x =>
              { x with tasks := x.tasks ++ [task], nextTask := x.nextTask + 1 })
        let wake := nthD 0 r 6
        if wake = 0 then go none t
        else if wake.toNat % 64 != 0 then .trap illOpnd
        else (t.readRecord wake).bind fun (w, ks2) =>
          if wakeOk (targetCore (nthD 0 r 5)) w then go (some w) (t.correctUnits ks2) else .trap illOpnd

/-- TGROUP (R330): of a template KPL alone is left of the operand formats' fields, and is 0, since no group's format is
a bit-plane one. -/
def execTgroup (a b : BitVec 5) (s : State) : Out :=
  let x5 := s.ctx.rx 5
  s.checked [a, b] [] [] (Res.check (wf x5 12 52 == 0) illOpnd) <|
  s.issue 4 [a, b] [] [] fun l t =>
    let fl := t.floe t.myFloe
    (t.readRecord (nthD 0 l 0)).bind fun (r, ks) =>
      if !recordOk r || wb (nthD 0 r 4) 35 || wf (nthD 0 r 4) 52 4 != 0 || wf fl.tsc 6 6 = 0 then .trap illOpnd
      else if fl.groups.length ≥ 4 then .block { kind := 2 } t
      else (t.classRoom .tile).bind fun _ =>
        let w : GroupWalk := ⟨fl.nextTask, t.origin, t.ctx.resolve r, nthD 0 l 1, wf x5 0 12 + 1, 0, 0, false⟩
        .ok (((t.correctUnits ks).mapCtx fun c => c.launch .tile false none).mapFloe t.myFloe fun x =>
          { x with groups := x.groups ++ [w], nextTask := x.nextTask + 1 })

/-- A core of the floe with an idle matrix engine and a scheduler tile not in use: the lowest core, its lowest such
tile (R326, R328). -/
def State.freeTile (s : State) (f : FloeId) : Option (CoreId × BitVec 6) :=
  let fl := s.floe f
  (coresOf f).findSome? fun c =>
    let x := s.core c
    if x.mrun.isSome || !x.mqueue.isEmpty then none
    else (((List.range (wf fl.tsc 6 6)).map fun i => wf fl.tsc 0 6 + i).find? fun t =>
      tileExists x.part t && !fl.runs.any fun r => r.core == c && r.tile.toNat == t).map fun t => (c, BitVec.ofNat 6 t)

/-- x6 of a task's steps (Table 11.8). -/
def taskX6 (d4 : W) (lda ldb af bf : Nat) : W :=
  mkW [(wf d4 41 1, 63), (wf d4 38 3, 60), (wf d4 36 1, 59), (wf d4 37 1, 58), (wf d4 49 3, 48), (ldb, 32), (lda, 16),
    (wf d4 52 4, 12), (bf, 8), (af, 4)]

/-- x3 of a task's drain (Table 11.10). -/
def taskX3 (d4 : W) (ldd : Nat) : W := mkW [(ldd, 16), (wf d4 48 1, 15), (wf d4 49 3, 12), (wf d4 42 4, 8)]

/-- A signed 32-bit field as a word. -/
def signed32 (n : Nat) : W := (BitVec.ofNat 32 n).signExtend 64

/-- A task as it starts on a core and tile (R328). -/
def taskRun (t : Task) (c : CoreId) (tile : BitVec 6) : TaskRun :=
  let d := fun i => nthD 0 t.record i
  let d4 := d 4
  let fmt : BitVec 2 := d4.extractLsb' 46 2
  let side := tileSide fmt
  let steps := wf (d 3) 0 16
  let k := (tileDepth fmt (wf d4 60 4) (wf d4 56 4)).getD 0
  { id := t.id, org := t.org, core := c, tile := tile, fmt := fmt
    first := ⟨d 0, d 1, taskX6 d4 (wf (d 3) 48 16) (wf (d 3) 32 16) (wf d4 60 4) (wf d4 56 4), wf d4 49 3, side, side, k, none⟩
    stepA := signed32 (wf (d 2) 32 32), stepB := signed32 (wf (d 2) 0 32), steps := steps, at_ := 0, deep := steps * k
    drain := ⟨targetCore (d 5), wf (d 5) 0 22, none, taskX3 d4 (wf (d 3) 16 16), wf d4 49 3, t.wake, side, side⟩
    ssem := if wb d4 28 then some (d4.extractLsb' 22 6) else none
    dsem := if wb d4 21 then some (d4.extractLsb' 15 6) else none
    walk := none, failed := false, ended := false }

/-- A run begins with `tzero` of its tile (R328). -/
def State.startRun (s : State) (f : FloeId) (r : TaskRun) : State :=
  (s.mapFloe f fun x => { x with runs := x.runs ++ [r] }).pushTile r.core ⟨r.org, r.tile, .zero r.fmt, some r.id⟩

/-- Whether a pending task is ready (R328). -/
def Floe.taskReady (x : Floe) (t : Task) : Bool :=
  let d4 := nthD 0 t.record 4
  !wb d4 35 || x.fsems[wf d4 29 6 % 64]'(Nat.mod_lt _ (by decide)) != 0

/-- TILE_TASK_ISSUE (R328): the oldest ready task goes to the lowest core that can take it. -/
def execTileTaskIssue (f : FloeId) (s : State) : Out :=
  .next (match if (s.floe f).ffault != 0 then none else (s.floe f).tasks.find? (s.floe f).taskReady, s.freeTile f with
    | some t, some (c, tile) =>
      let d4 := nthD 0 t.record 4
      let n : BitVec 6 := d4.extractLsb' 29 6
      let s1 := s.mapFloe f fun x =>
        { x with
          tasks := x.tasks.erase t
          fsems := if wb d4 35 then x.fsems.set n.toNat (x.fsems[n.toNat] - 1) else x.fsems }
      s1.startRun f (taskRun t c tile)
    | _, _ => s)

/-- A walk ends when it issues no more and every tile it issued has finished: its operation finishes (R330). -/
def State.walkDone (s : State) (f : FloeId) (n : Nat) : State :=
  match (s.floe f).groups.find? fun w => w.id = n with
  | none => s
  | some w =>
    if (w.stopped || w.at_ ≥ w.count) && !(s.floe f).runs.any fun r => r.walk == some n then
      (s.mapFloe f fun x => { x with groups := x.groups.filter fun w => w.id != n }).finishOp w.org none
    else s

/-- TILE_TASK_FINISH (R328, R330): the tile is released, DSEM posted, and the operation finishes, or the walk goes
on. -/
def execTileTaskFinish (f : FloeId) (n : Nat) (s : State) : Out :=
  .next (match (s.floe f).runs.find? fun r => r.id = n with
    | none => s
    | some r =>
      if !r.ended then s
      else
        let s1 := s.mapFloe f fun x => { x with runs := x.runs.filter fun r => r.id != n }
        let s2 := match r.dsem with | some d => s1.postFsem f d 1 | none => s1
        match r.walk with
        | none => s2.finishOp r.org none
        | some w => s2.walkDone f w)

/-- A walk stops: the failure is deferred to the issuer (R330). -/
def State.stopWalk (s : State) (f : FloeId) (w : GroupWalk) (d : CopyFail) : State :=
  ((s.mapFloe f fun x => { x with groups := x.groups.map fun v => if v.id = w.id then { v with stopped := true } else v }).deferFault
    w.org (d.cause, d.detail, d.addr)).walkDone f w.id

/-- A walk stands at tile n of group g. -/
def State.walkTo (s : State) (f : FloeId) (w : GroupWalk) (g n : Nat) : State :=
  s.mapFloe f fun x => { x with groups := x.groups.map fun v => if v.id = w.id then { v with at_ := g, tile := n } else v }

/-- Reserved fields and FMT of a group record (Table 14.12, R330): none when it stops the walk, else the depth of a
step. -/
def groupDepth (fmt : BitVec 2) (r : List W) : Option Nat :=
  let d5 := nthD 0 r 5
  let d2 := nthD 0 r 2
  let f := wf d5 0 4
  if wf (nthD 0 r 4) 0 32 != 0 || wf d5 4 12 != 0 || nthD 0 r 6 != 0 || nthD 0 r 7 != 0 || wf d2 48 16 != 0 ||
      wf d2 22 15 != 0 || f = 0 || f > 8 then none
  else tileDepth fmt f f

/-- Tile (mt, nt) of a group as a task (R330). -/
def groupRun (w : GroupWalk) (id : Nat) (r : List W) (k mt nt : Nat) (c : CoreId) (tile : BitVec 6) : TaskRun :=
  let d := fun i => nthD 0 r i
  let d4 := nthD 0 w.tmpl 4
  let fmt : BitVec 2 := d4.extractLsb' 46 2
  let side := tileSide fmt
  let f := wf (d 5) 0 4
  let (lda, ldb, ldc) := (wf (d 5) 48 16, wf (d 5) 32 16, wf (d 5) 16 16)
  let (m, n, kk) := (wf (d 3) 32 32, wf (d 3) 0 32, wf (d 4) 32 32)
  let rows := Nat.min side (m - mt * side)
  let cols := Nat.min side (n - nt * side)
  let at_ := fun (base : W) (o : Nat) => base + BitVec.ofNat 64 o
  { id := id, org := w.org, core := c, tile := tile, fmt := fmt
    first := ⟨at_ (d 0) (mt * side * lda), at_ (d 1) (nt * side * fmtSize f), taskX6 d4 lda ldb f f, wf d4 49 3, rows, cols, k, none⟩
    stepA := BitVec.ofNat 64 (k * fmtSize f), stepB := BitVec.ofNat 64 (k * ldb), steps := (kk + k - 1) / k, at_ := 0, deep := kk
    drain := ⟨targetCore (d 2), wf (d 2) 0 22 + mt * side * ldc + nt * side * fmtSize (wf d4 42 4), none, taskX3 d4 ldc,
      wf d4 49 3, none, rows, cols⟩
    ssem := if wb d4 28 then some (d4.extractLsb' 22 6) else none
    dsem := if wb d4 21 then some (d4.extractLsb' 15 6) else none
    walk := some w.id, failed := false, ended := false }

/-- GROUP_WALK_TILE_ISSUE (R330): walk n issues its next tile, passes an empty group, or stops. -/
def execGroupWalkTileIssue (f : FloeId) (n : Nat) (s : State) : Out :=
  .next (match if (s.floe f).ffault != 0 then none else (s.floe f).groups.find? fun w => w.id = n with
    | none => s
    | some w =>
      if w.stopped || w.at_ ≥ w.count then s
      else
        let va := w.array + BitVec.ofNat 64 (64 * w.at_)
        let fmt : BitVec 2 := (nthD 0 w.tmpl 4).extractLsb' 46 2
        match if va.toNat % 64 != 0 then .bad (copyErr va 0) s else s.engRead w.org.core va 64 0 with
        | .held m => s.waitFor m
        | .bad e t => t.stopWalk f w e
        | .ok v t =>
          let r := (List.range 8).map fun i => BitVec.ofNat 64 (v / 2 ^ (64 * i))
          match groupDepth fmt r with
          | none => t.stopWalk f w (copyErr va 0)
          | some k =>
            let side := tileSide fmt
            let (m, nn, kk) := (wf (nthD 0 r 3) 32 32, wf (nthD 0 r 3) 0 32, wf (nthD 0 r 4) 32 32)
            let across := (nn + side - 1) / side
            let tiles := (m + side - 1) / side * across
            if m = 0 || nn = 0 || kk = 0 then (t.walkTo f w (w.at_ + 1) 0).walkDone f w.id
            else match t.freeTile f with
              | none => s
              | some (c, tile) =>
                let run := groupRun w (t.floe f).nextTask r k (w.tile / across) (w.tile % across) c tile
                let t1 := (t.mapFloe f fun x => { x with nextTask := x.nextTask + 1 }).startRun f run
                if w.tile + 1 < tiles then t1.walkTo f w w.at_ (w.tile + 1) else t1.walkTo f w (w.at_ + 1) 0)

/-! ### Gangs (R331 to R333) -/

/-- A follower as the gang begins (R331): a copy of the leader's registers, loop registers, `fst`, `slim`, tvec, PC. -/
def Ctx.follow (c l : Ctx) (g : Gang) : Ctx :=
  { c with
    g := l.g, v := l.v, p := l.p, q := l.q, x := l.x, lc := l.lc, lb := l.lb, le := l.le
    fst := l.fst, slim := l.slim, tvec := l.tvec, pc := l.pc, oddPc := l.oddPc
    life := .runnable, gang := some g }

/-- GANG (R331). A follower core whose frames are all held first spills its victim (R171). -/
def execGang (d : BitVec 5) (n : BitVec 2) (s : State) : Out :=
  s.issueJump [] [d] [] fun _ t =>
    let k := t.cur.ctx
    let c := t.cur.core
    let size := 2 ^ n.toNat
    let g : Gang := ⟨size, BitVec.ofNat 11 (c.toNat / size * size), c⟩
    let others := ((List.range size).map fun i => g.first + BitVec.ofNat 11 i).filter fun m => m != c
    let usable := fun (m : CoreId) =>
      let x := t.core m
      (x.ctx k).life == .free && x.part == t.me.part && (x.frameFree || x.victim.isSome || x.spill.isSome)
    if k = 0 || k = 15 || t.ctx.gang.isSome then .trap illOpnd
    else if !others.all usable then .ok ((t.setG d 0).complete 4)
    else if others.all fun m => (t.core m).frameFree then
      let t1 := ((t.setG d (BitVec.ofNat 64 size)).mapCtx fun c => { c with gang := some g }).complete 4
      .ok (others.foldl (fun t m =>
        (t.takeFrame m k).mapCtxAt m k fun f => (f.follow t1.ctx g).wg d (BitVec.ofNat 64 size)) t1)
    else
      .block { kind := 5 } (others.foldl (fun t m => t.mapCore m fun x =>
        match x.frameFree, x.spill, x.victim with
        | false, none, some v => { x with spill := some (v, k) }
        | _, _, _ => x) t)

/-- DISBAND (R333): in a gang the followers leave, each by `retire`, and the leader goes on once all have; outside a
gang it is `retire`. -/
def execDisband (s : State) : Out :=
  let wait := fun (t : State) => (.block { kind := 5 } t : Res State)
  match s.ctx.gang, s.ctx.leaving with
  | some g, _ =>
    s.finish 4 (wait ((gangOf g).foldl (fun t c => t.mapCtxAt c s.cur.ctx fun x => { x with gang := none, leaving := some g }) s))
  | none, some g =>
    if g.leader == s.cur.core then
      s.finish 4 (
        if (gangOf g).any fun c => c != g.leader && (s.ctxAt c s.cur.ctx).leaving == some g then wait s
        else .ok (s.mapCtx fun c => { c with leaving := none }))
    else s.endTurn [] false fun _ t => t
  | none, none => s.endTurn [] false fun _ t => t
where
  /-- The cores of a gang. -/
  gangOf (g : Gang) : List CoreId := (List.range g.n).map fun i => g.first + BitVec.ofNat 11 i

end Sys2Proof.Machine
end

