-- ==== Sys2Proof/Machine/Gauss.lean ====
section
/-! DEFINITION. The Gaussian message engine: blocks, slots, factor records, the GAUSS instructions and mailboxes
(R61, R281 to R302). -/

namespace Sys2Proof.Machine

/-! ### Issue (R281, R288) -/

/-- A dword operand of the engine (R136): translation, permission, locality. Answers its key. -/
def State.localDword (s : State) (va : W) (need : Need) : Res Nat :=
  (s.xlate va cXLATE).bind fun e =>
    if !need.granted e.pte then .trap { cause := cPROT, detail := e.level * 256 + 4, addr := va }
    else match e.home va.toNat with
      | .backing _ _ => .trap { cause := cNONLOCAL, addr := va }
      | .pool c o =>
        if c == s.cur.core && inPool s.me.part o 8 then .ok (poolKey c o) else .trap { cause := cNONLOCAL, addr := va }

def State.localDwords (s : State) (va : W) (need : Need) : Nat → Res (List Nat)
  | 0 => .ok []
  | n + 1 => (s.localDword va need).bind fun k => (s.localDwords (va + 8) need n).bind fun l => .ok (k :: l)

/-- Dwords of a message of dimension n in a slot, U(n) / 8, or of a factor record (R285, R286). -/
def slotDwords (n : Nat) : Nat := 2 + n + n * (n + 1) / 2

/-- What an instruction of the engine needs of its memory operand (R288). -/
def GaussKind.need : GaussKind → Need
  | .loadf => { r := true }
  | .add _ _ _ => { r := true }
  | .solve _ => { w := true }
  | .damp _ => { r := true, w := true }
  | .store => { r := true, w := true }
  | _ => {}

/-- Dwords of its memory operand, by the header d0 found there or the block's dimension. -/
def GaussKind.span (k : GaussKind) (d0 : W) (dim : Nat) : Nat :=
  match k with
  | .loadf => slotDwords (Nat.min 16 (Nat.max 1 (wf d0 0 5)))
  | .add _ _ _ => slotDwords (Nat.min 8 (wf d0 0 4))
  | .solve _ => Nat.max 1 dim
  | .damp _ => slotDwords (Nat.min 8 dim)
  | .store => slotDwords (Nat.min 8 dim)
  | _ => 0

/-- Whether the length of its memory operand stands in the operand's header (R285, R286). -/
def GaussKind.sized : GaussKind → Bool
  | .loadf => true
  | .add _ _ _ => true
  | _ => false

/-- An instruction enters the engine's queue, and its context is BLOCKED, a STOP being held, until the engine has
finished it (R281); then it completes by `done` or traps. -/
def State.gaussWait (s : State) (first : Res GaussOp) (done : W → State → State) : Res State :=
  match s.ctx.req with
  | none => first.bind fun o =>
      let (_, txn, t) := s.newTxn
      .block { kind := 5, hold := true } ((t.mapCtx fun c => { c with req := some ⟨txn, none⟩ }).mapMe fun x =>
        { x with gqueue := x.gqueue ++ [{ o with txn := txn }] })
  | some ⟨_, some (.value w f)⟩ => .ok (done w (s.orFlags s.cur.core s.cur.ctx f))
  | some ⟨_, some (.trapped cause detail addr exc)⟩ =>
    .trap { cause := cause, detail := detail, addr := addr, exc := exc }
  | some _ => .block { kind := 5, hold := true } s

/-- The operation of an instruction with its memory operand at va, checked at issue over all its bytes (R288); a header that says
how many they are is read once no engine holds it (R267, R284). -/
def State.gaussOp (s : State) (t : BitVec 6) (kind : GaussKind) (va : W) (align rm : Nat) : Res GaussOp :=
  let need := kind.need
  let op := fun ks => (⟨s.cur.ctx, 0, t, kind, va, ks, rmOf s.ctx.fst rm, false⟩ : GaussOp)
  if va.toNat % align != 0 then .trap { cause := cMISALIGN, addr := va }
  else (s.localDword va need).bind fun k => (s.unheld k (if kind.sized then 8 else 0) false (.ok ())).bind fun _ =>
    (s.localDwords va need (kind.span (s.rd8 k) (s.me.tile t).dim)).bind fun ks => .ok (op ks)

/-- An instruction of the engine without a memory operand. -/
def State.gaussBare (s : State) (t : BitVec 6) (kind : GaussKind) (rm : Nat) : Res GaussOp :=
  .ok ⟨s.cur.ctx, 0, t, kind, 0, [], rmOf s.ctx.fst rm, false⟩

/-- Block t exists (R282). -/
def State.blockOk (s : State) (t : BitVec 6) (k : Res GaussOp) : Res GaussOp :=
  if tileExists s.me.part t.toNat then k else .trap illOpnd

/-- ±0 or positive, and not a NaN (R293, R295). -/
def nonNeg (w : W) : Bool := match f64.decode w.toNat with
  | .nan _ _ _ => false
  | v => !v.sign || v.isZero

def execGzero (t : BitVec 6) (n : BitVec 5) (s : State) : Out :=
  s.issue 4 [] [] [] fun _ u => u.gaussWait (u.blockOk t (u.gaussBare t (.zero n.toNat) 0)) fun _ v => v

def execGloadf (a : BitVec 5) (t : BitVec 6) (s : State) : Out :=
  s.issue 4 [a] [] [] fun l u =>
    u.gaussWait (u.blockOk t (u.gaussOp t .loadf (nthD 0 l 0) 64 0)) fun _ v => v

/-- The mailbox slot that a slot address names (R292, R297). -/
def Core.mailSlot (x : Core) (o : Nat) : Option Nat :=
  let b := wf x.gmbox 0 22
  let n := (o - b) / 512
  if wb x.gmbox 63 && decide (b ≤ o) && (o - b) % 512 == 0 && decide (n < wf x.gmbox 22 7) then some n else none

/-- GADD, GSUB and their consuming forms (R292). -/
def State.gaussAdd (s : State) (a b : Reg) (r : BitVec 3) (c : BitVec 1) (t : BitVec 6) (sub : Bool) : Out :=
  s.issue 4 [a, b] [] [] fun l u =>
    u.gaussWait (u.blockOk t ((u.gaussOp t (.add sub (nthD 0 l 1) none) (nthD 0 l 0) 64 r.toNat).bind fun o =>
      if c = 0 then .ok o
      else match u.me.mailSlot (nthD 0 o.keys 0 - poolKey u.cur.core 0) with
        | some n => .ok { o with kind := .add sub (nthD 0 l 1) (some n) }
        | none => .trap illOpnd)) fun _ v => v

def execGadd (a b : BitVec 5) (r : BitVec 3) (c : BitVec 1) (t : BitVec 6) (s : State) : Out :=
  s.gaussAdd a b r c t false
def execGsub (a b : BitVec 5) (r : BitVec 3) (c : BitVec 1) (t : BitVec 6) (s : State) : Out :=
  s.gaussAdd a b r c t true

def execGschur (a : BitVec 5) (r : BitVec 3) (t : BitVec 6) (s : State) : Out :=
  s.checked [a] [] [] (Res.check (nonNeg (s.ctx.rx 7)) illOpnd) <| s.issue 4 [a] [] [] fun l u =>
    u.gaussWait (u.blockOk t (if nthD 0 l 0 = 0 then .trap illOpnd
      else u.gaussBare t (.schur (nthD 0 l 0) (u.ctx.rx 7)) r.toNat)) fun _ v => v

def execGsolve (a : BitVec 5) (r : BitVec 3) (t : BitVec 6) (s : State) : Out :=
  s.checked [a] [] [] (Res.check (nonNeg (s.ctx.rx 7)) illOpnd) <| s.issue 4 [a] [] [] fun l u =>
    u.gaussWait (u.blockOk t (u.gaussOp t (.solve (u.ctx.rx 7)) (nthD 0 l 0) 8 r.toNat)) fun _ v => v

def execGdamp (d a : BitVec 5) (r : BitVec 3) (t : BitVec 6) (s : State) : Out :=
  s.checked [a] [d] [] (Res.check (nonNeg (s.ctx.rx 4)) illOpnd) <| s.issue 4 [a] [d] [] fun l u =>
    u.gaussWait (u.blockOk t (u.gaussOp t (.damp (u.ctx.rx 4)) (nthD 0 l 0) 64 r.toNat)) fun w v => v.setG d w

def execGstorm (a : BitVec 5) (t : BitVec 6) (s : State) : Out :=
  s.issue 4 [a] [] [] fun l u =>
    u.gaussWait (u.blockOk t (u.gaussOp t .store (nthD 0 l 0) 64 0)) fun _ v => v

/-- GSTAT (R290, Table 12.1). -/
def execGstat (d : BitVec 5) (t : BitVec 6) (s : State) : Out :=
  s.issue 4 [] [d] [] fun _ u =>
    u.onTile t (.ok (u.setG d (mkW [((u.me.tile t).dim, 8), (wf (u.me.tileWord t) 0 5, 0)])))

/-! ### Blocks (R282) -/

/-- The 272 dwords of a block as the engine works on them, and those that it has written. -/
structure Blk where
  d : List Nat
  w : List Nat
  deriving DecidableEq, Repr

/-- Λ is read where r ≤ c. -/
def Blk.lam (b : Blk) (r c : Nat) : Nat := nthD 0 b.d (16 * Nat.min r c + Nat.max r c)
def Blk.eta (b : Blk) (i : Nat) : Nat := nthD 0 b.d (256 + i)
def Blk.put (b : Blk) (i v : Nat) : Blk := ⟨b.d.set i v, i :: b.w⟩

/-- A write of Λ[r][c] writes Λ[c][r] too. -/
def Blk.setLam (b : Blk) (r c v : Nat) : Blk := (b.put (16 * r + c) v).put (16 * c + r) v
def Blk.setEta (b : Blk) (i v : Nat) : Blk := b.put (256 + i) v

/-- A block of zeros. -/
def Blk.zero : Blk := ⟨List.replicate 272 0, List.range 272⟩

/-- Whether dword i of a block has an index of n or more (R283). -/
def beyond (n i : Nat) : Bool := if i < 256 then decide (i / 16 ≥ n ∨ i % 16 ≥ n) else decide (i - 256 ≥ n)

/-- The index pairs (i, j) with i ≤ j < n, row by row: the packed upper triangle (R285). -/
def upper (n : Nat) : List (Nat × Nat) := (List.range n).flatMap fun i => (List.range (n - i)).map fun j => (i, i + j)

def State.blockKey (s : State) (c : CoreId) (t : BitVec 6) : Nat := poolKey c (tileOff (s.core c).part t.toNat)

def State.readBlk (s : State) (c : CoreId) (t : BitVec 6) : Blk :=
  ⟨(List.range 272).map fun i => s.rd (s.blockKey c t + 8 * i) 8, []⟩

/-- What the engine has written of the block, with dimension n: +0 in every entry whose index is n or more (R283). -/
def State.writeBlk (s : State) (c : CoreId) (t : BitVec 6) (b : Blk) (n : Nat) : State :=
  ((List.range 272).foldl (fun s i =>
    if beyond n i then s.wrN (s.blockKey c t + 8 * i) 8 0
    else if b.w.contains i then s.wrN (s.blockKey c t + 8 * i) 8 (nthD 0 b.d i) else s) s).mapTile c t
      fun x => { x with dim := n }

/-! ### Arithmetic of one instruction (R287) -/

/-- A computation of the engine over the exceptions raised so far, which stops at a trap. -/
abbrev Gc (α : Type) := BitVec 5 → Except Trap (α × BitVec 5)

def Gc.bind {α β : Type} (x : Gc α) (f : α → Gc β) : Gc β := fun u =>
  match x u with
  | .ok (a, v) => f a v
  | .error t => .error t

def Gc.pure {α : Type} (a : α) : Gc α := fun u => .ok (a, u)

def Gc.fold {α β : Type} (f : β → α → Gc β) : List α → β → Gc β
  | [], b => Gc.pure b
  | a :: l, b => (f b a).bind fun c => Gc.fold f l c

/-- What the arithmetic depends on: the enables, the block number, the mode. -/
structure GEnv where
  en   : BitVec 5
  tile : Nat
  mode : Nat

/-- An operation, which stops when it raises an enabled exception. -/
def GEnv.op (e : GEnv) (r : FRes) : Gc Nat := fun u =>
  if r.f &&& e.en != 0 then .error { cause := cFP, detail := e.tile * 64, exc := u ||| r.f } else .ok (r.v, u ||| r.f)

/-- FFma(-a, b, c). A NaN keeps its sign (R117). -/
def GEnv.fnma (e : GEnv) (a b c : Nat) : Gc Nat := e.op (f64.fma e.mode true false a b c)

def GEnv.quot (e : GEnv) (a b : Nat) : Gc Nat := e.op (f64.div e.mode a b)

/-- a > b; false for NaNs. -/
def above (a b : Nat) : Bool := (f64.compare 1 b a).1

/-- A pivot check of column k: v > φ. -/
def GEnv.pivot (e : GEnv) (k v : Nat) (floor : W) : Gc Unit := fun u =>
  if above v floor.toNat then .ok ((), u)
  else .error { cause := cSINGULAR, detail := e.tile * 64 + k, addr := BitVec.ofNat 64 v, exc := u }

/-- The sums of `gadd` and `gsub` (R292): message m, dimension n, at offset o. -/
def GEnv.sums (e : GEnv) (sub : Bool) (o n : Nat) (m : List Nat) (b : Blk) : Gc Blk :=
  let f := fun (x y : Nat) => e.op (if sub then f64.sub e.mode x y else f64.add e.mode x y)
  (Gc.fold (fun b i => (f (b.eta (o + i)) (nthD 0 m i)).bind fun v => Gc.pure (b.setEta (o + i) v)) (List.range n) b).bind
    fun b => Gc.fold (fun b (p : Nat × Nat × Nat) =>
      (f (b.lam (o + p.2.1) (o + p.2.2)) (nthD 0 m (n + p.1))).bind fun v => Gc.pure (b.setLam (o + p.2.1) (o + p.2.2) v))
      ((List.range (upper n).length).zip (upper n)) b

/-- One column of `gschur` (R293). -/
def GEnv.column (e : GEnv) (floor : W) (a n : Nat) (b : Blk) (k : Nat) : Gc Blk :=
  (e.pivot k (b.lam k k) floor).bind fun _ =>
  (e.op (f64.sqrt e.mode (b.lam k k))).bind fun r =>
  let rk := List.range a ++ (List.range (n - k - 1)).map fun i => k + 1 + i
  (Gc.fold (fun w i => (e.quot (b.lam i k) r).bind fun v => Gc.pure (w.set i v)) rk (List.replicate 16 0)).bind fun w =>
  (e.quot (b.eta k) r).bind fun h =>
  (Gc.fold (fun b (p : Nat × Nat) =>
    (e.fnma (nthD 0 w p.1) (nthD 0 w p.2) (b.lam p.1 p.2)).bind fun v => Gc.pure (b.setLam p.1 p.2 v))
    (rk.flatMap fun i => (rk.filter fun j => i ≤ j).map fun j => (i, j)) b).bind fun b =>
  Gc.fold (fun b i => (e.fnma (nthD 0 w i) h (b.eta i)).bind fun v => Gc.pure (b.setEta i v)) rk b

/-- `gschur` (R293). -/
def GEnv.schur (e : GEnv) (floor : W) (a n : Nat) (b : Blk) : Gc Blk :=
  Gc.fold (e.column floor a n) ((List.range (n - a)).map fun i => a + i) b

/-- A running sum less products of pairs, in order. -/
def GEnv.less (e : GEnv) (x : Nat) (l : List (Nat × Nat)) : Gc Nat := Gc.fold (fun x p => e.fnma p.1 p.2 x) l x

/-- `gsolve` (R294): Cholesky, forward, back. The factor's entry (i, j) is at 16i + j. -/
def GEnv.solve (e : GEnv) (floor : W) (n : Nat) (b : Blk) : Gc (List Nat) :=
  let at_ := fun (l : List Nat) (i j : Nat) => nthD 0 l (16 * i + j)
  let col := fun (l : List Nat) (k : Nat) =>
    (e.less (b.lam k k) ((List.range k).map fun j => (at_ l k j, at_ l k j))).bind fun d =>
    (e.pivot k d floor).bind fun _ =>
    (e.op (f64.sqrt e.mode d)).bind fun r =>
    Gc.fold (fun l i =>
      (e.less (b.lam k i) ((List.range k).map fun j => (at_ l i j, at_ l k j))).bind fun t =>
      (e.quot t (at_ l k k)).bind fun v => Gc.pure (l.set (16 * i + k) v))
      ((List.range (n - k - 1)).map fun i => k + 1 + i) (l.set (16 * k + k) r)
  (Gc.fold col (List.range n) (List.replicate 256 0)).bind fun l =>
  (Gc.fold (fun y i =>
    (e.less (b.eta i) ((List.range i).map fun j => (at_ l i j, nthD 0 y j))).bind fun t =>
    (e.quot t (at_ l i i)).bind fun v => Gc.pure (y.set i v)) (List.range n) (List.replicate 16 0)).bind fun y =>
  (Gc.fold (fun m i =>
    (e.less (nthD 0 y i) ((List.range (n - i - 1)).map fun j => (at_ l (i + 1 + j) i, nthD 0 m (i + 1 + j)))).bind fun t =>
    (e.quot t (at_ l i i)).bind fun v => Gc.pure (m.set i v)) (List.range n).reverse (List.replicate 16 0)).bind fun m =>
  Gc.pure (m.take n)

/-- β as weights: 1 - β and β (R295). -/
def weights (beta : Nat) : Val × Val :=
  match f64.decode beta with
  | .fin _ m e =>
    let e0 := if e < 0 then e else 0
    let w := m * 2 ^ (e - e0).toNat
    (.fin false (2 ^ (-e0).toNat - w) e0, .fin false w e0)
  | v => (v, v)

/-- The damping sum (R295): a term of weight zero takes no part. -/
def GEnv.mix (e : GEnv) (w : Val × Val) (new old : Nat) : Gc Nat :=
  if w.2.isZero then Gc.pure new
  else if w.1.isZero then Gc.pure old
  else
    let x := f64.decode new
    let y := f64.decode old
    e.op (f64.fused e.mode [x, y] [(w.1, x), (w.2, y)] [])

/-- |x - old| rounded toward +∞, raising nothing (R295). -/
def distance (x old : Nat) : Nat :=
  let a := f64.decode x
  let b := f64.decode old
  if a.isNan || b.isNan then f64.dnan
  else match a, b with
    | .inf s, .inf t => if s == t then f64.dnan else f64.inf false
    | .inf _, _ => f64.inf false
    | _, .inf _ => f64.inf false
    | _, _ =>
      let (_, m, e) := exactSum 0 ([a, b.neg].filterMap addFin)
      (f64.roundTo 2 false m e).v

/-- The running maximum of the residual. -/
def maxNorm (r t : Nat) : Nat :=
  if (f64.decode r).isNan || (f64.decode t).isNan then f64.dnan else if above t r then t else r

/-- `gdamp` (R295): the new entries and the residual. `old` is the slot's message, when it holds one. -/
def GEnv.damp (e : GEnv) (beta : Nat) (old : Option (List Nat)) (new : List Nat) : Gc (List Nat × Nat) :=
  Gc.fold (fun (r : List Nat × Nat) (p : Nat × Nat) =>
    match old with
    | none => Gc.pure (r.1 ++ [p.2], maxNorm r.2 (f64.inf false))
    | some l =>
      (e.mix (weights beta) p.2 (nthD 0 l p.1)).bind fun x =>
        Gc.pure (r.1 ++ [x], maxNorm r.2 (distance x (nthD 0 l p.1)))) ((List.range new.length).zip new) ([], 0)

/-! ### The engine takes and finishes an instruction (R281, R283, R284, R288) -/

/-- A slot header keeps R285: its reserved field, and DIM when V = 1. -/
def slotOk (d0 : W) : Bool := wf d0 4 4 == 0 && (!wb d0 8 || decide (1 ≤ wf d0 0 4 ∧ wf d0 0 4 ≤ 8))

/-- The header of a slot written by the engine (R295, R296). -/
def newHeader (d0 : W) (n : Nat) (wake : Bool) : W :=
  mkW [((wf d0 32 32 + 1) % 2 ^ 32, 32), (wf d0 10 22, 10), (b2n wake, 9), (1, 8), (n, 0)]

/-- A block's message of dimension n: η, then the packed upper triangle. -/
def Blk.message (b : Blk) (n : Nat) : List Nat :=
  (List.range n).map b.eta ++ (upper n).map fun p => b.lam p.1 p.2

/-- The first dword with an uncorrectable error, as the engine reads. -/
def State.badDword (s : State) (ks : List (Nat × W)) : Option W :=
  (ks.find? fun k => (s.badIn k.1 8).isSome).map fun k => k.2

def dataTrap (a : W) : Trap := { cause := cDATAERR, addr := a }

/-- The dwords of a block that are read, with their pool offsets. -/
def State.blockDwords (s : State) (c : CoreId) (t : BitVec 6) (n : Nat) : List (Nat × W) :=
  let k := s.blockKey c t
  let read := (upper n).map (fun p => 16 * p.1 + p.2) ++ (List.range n).map fun i => 256 + i
  read.map fun i => (k + 8 * i, BitVec.ofNat 64 (k + 8 * i - poolKey c 0))

/-- Corrected errors of the dwords read are counted (R137). -/
def State.correctAll (s : State) (c : CoreId) (l : List (Nat × W)) : State := l.foldl (fun s k => s.correct c k.1 8) s

/-- Dwords written at keys. -/
def State.writeKeys (s : State) (l : List (Nat × W)) : State := l.foldl (fun s p => s.wr8 p.1 p.2) s

/-- A block of fresh contents (R290, R291): FMT is binary64, POISON and SAT are clear. -/
def State.freshBlk (s : State) (c : CoreId) (t : BitVec 6) (b : Blk) (n : Nat) : State :=
  (s.writeBlk c t b n).mapTile c t fun x => { x with fmt := 2, sat := false, poison := false }

/-- A factor record as a block (R291). -/
def loadedBlk (m : Nat) (l : List Nat) : Blk :=
  let b := (List.range m).foldl (fun (b : Blk) i => b.setEta i (nthD 0 l i)) Blk.zero
  let put := fun (b : Blk) (p : Nat × Nat × Nat) => b.setLam p.2.1 p.2.2 (nthD 0 l (m + p.1))
  ((List.range (upper m).length).zip (upper m)).foldl put b

/-- The instruction at its turn, on the values found (R281): the state, the result and the exceptions, or the trap. -/
def State.gaussRun (s : State) (c : CoreId) (o : GaussOp) : Except Trap (State × W × BitVec 5) :=
  let x := s.core c
  let t := o.tile
  let i := x.tile t
  let n := i.dim
  let e : GEnv := ⟨(x.ctx o.ctx).fst.extractLsb' 8 5, t.toNat, o.mode⟩
  let opnd := (List.range o.keys.length).zip o.keys |>.map fun p => (p.2, o.va + BitVec.ofNat 64 (8 * p.1))
  let at_ := fun (j : Nat) => s.rd8 (nthD 0 o.keys j)
  let d0 := at_ 0
  let vals := (o.keys.drop 2).map fun k => s.rd k 8
  let ill : Trap := { cause := cILLOPND }
  let illAt : Trap := { cause := cILLOPND, addr := o.va }
  -- the block that the instruction reads, checked (R283, R288); `l` are the operand dwords read
  let onBlock := fun (l : List (Nat × W)) (k : Blk → State → Except Trap (State × W × BitVec 5)) =>
    if n = 0 || i.fmt != 2 || i.poison then .error ill
    else match s.badDword (l ++ s.blockDwords c t n) with
      | some a => .error (dataTrap a)
      | none => k (s.readBlk c t) (s.correctAll c (l ++ s.blockDwords c t n))
  match o.kind with
  | .zero m => .ok (s.freshBlk c t Blk.zero m, 0, 0)
  | .loadf =>
    match s.badDword opnd with
    | some a => .error (dataTrap a)
    | none =>
      let m := wf d0 0 5
      if wf d0 5 59 != 0 || at_ 1 != 0 || m = 0 || m > 16 then .error illAt
      else .ok ((s.correctAll c opnd).freshBlk c t (loadedBlk m vals) m, 0, 0)
  | .add sub off slot => onBlock opnd fun b s1 =>
      let m := wf d0 0 4
      if !slotOk d0 || !wb d0 8 then .error illAt
      else if off.toNat + m > n then .error ill
      else match e.sums sub off.toNat m vals b 0 with
        | .error t => .error t
        | .ok (b', f) =>
          let s2 := match slot with
            | some j => s1.mapCore c fun x => { x with mab := x.mab &&& ~~~(1#64 <<< j) }
            | none => s1
          .ok (s2.writeBlk c t b' n, 0, f)
  | .schur keep floor => onBlock [] fun b s1 =>
      if keep.toNat ≥ n then .error ill
      else match e.schur floor keep.toNat n b 0 with
        | .error t => .error t
        | .ok (b', f) => .ok (s1.writeBlk c t b' keep.toNat, 0, f)
  | .solve floor => onBlock [] fun b s1 =>
      match e.solve floor n b 0 with
      | .error t => .error t
      | .ok (l, f) => .ok (s1.writeKeys (o.keys.zip (l.map (BitVec.ofNat 64))), 0, f)
  | .damp theta => onBlock opnd fun b s1 =>
      let beta := (at_ 1).toNat
      if !slotOk d0 then .error illAt
      else if n > 8 || (wb d0 8 && wf d0 0 4 != n) || !nonNeg (at_ 1) || above beta 0x3FF0000000000000 then .error ill
      else match e.damp beta (if wb d0 8 then some vals else none) (b.message n) 0 with
        | .error t => .error t
        | .ok ((l, r), f) =>
          let wake := (f64.decode r).isNan || above r theta.toNat
          .ok ((s1.writeBlk c t b n).writeKeys ((nthD 0 o.keys 0, newHeader d0 n wake) :: (o.keys.drop 2).zip (l.map (BitVec.ofNat 64))),
            BitVec.ofNat 64 r, f)
  | .store => onBlock (opnd.take 1) fun b s1 =>
      if !slotOk d0 then .error illAt
      else if n > 8 then .error ill
      else .ok ((s1.writeBlk c t b n).writeKeys ((nthD 0 o.keys 0, newHeader d0 n false) ::
          (o.keys.drop 2).zip ((b.message n).map (BitVec.ofNat 64))), 0, 0)

/-- The keys of the memory operand when the engine takes the instruction: those checked at issue, and by the same
checks those that the contents have added since. -/
def State.gaussKeys (s : State) (c : CoreId) (o : GaussOp) : EngOf Trap (List Nat) :=
  let n := o.kind.span (s.rd8 (nthD 0 o.keys 0)) ((s.core c).tile o.tile).dim
  EngOf.all (fun s i =>
    match o.keys[i]? with
    | some k => .ok k s
    | none =>
      let va := o.va + BitVec.ofNat 64 (8 * i)
      match s.engineXlate c (s.core c).xroot va with
      | .held m => .held m
      | .bad d s => .bad { cause := cXLATE, detail := d, addr := va } s
      | .ok e s =>
        if !o.kind.need.granted e.pte then .bad { cause := cPROT, detail := e.level * 256 + 4, addr := va } s
        else match e.home va.toNat with
          | .pool p q =>
            if p == c && inPool (s.core c).part q 8 then .ok (poolKey p q) s
            else .bad { cause := cNONLOCAL, addr := va } s
          | .backing _ _ => .bad { cause := cNONLOCAL, addr := va } s) (List.range n) s

/-- The head of the engine's queue has ended: its context finds the answer at its next issue. -/
def State.gaussEnd (s : State) (c : CoreId) (o : GaussOp) (a : Answer) : State :=
  (s.mapCore c fun x => { x with gqueue := x.gqueue.drop 1 }).give c o.ctx o.txn a

def Trap.asAnswer (t : Trap) : Answer := .trapped t.cause t.detail t.addr t.exc

/-- GAUSS_ENGINE_TAKE (R281, R284): the oldest instruction, once no tile operation is outstanding on its tile, nor holds the
bytes of its memory operand (R267). -/
def execGaussEngineTake (c : CoreId) (s : State) : Out :=
  .next (match (s.core c).gqueue with
    | [] => s
    | o :: l =>
      if o.taken || ((s.core c).tileOps.any fun t => t.tile == o.tile) ||
          o.keys.any fun k => (s.core c).excluded (k - poolKey c 0) 8 o.kind.need.w then s
      else match s.gaussKeys c o with
        | .held m => s.waitFor m
        | .bad t s => s.gaussEnd c o t.asAnswer
        | .ok ks t =>
          if ks.any fun k => (t.core c).excluded (k - poolKey c 0) 8 o.kind.need.w then s
          else t.mapCore c fun x => { x with gqueue := { o with taken := true, keys := ks } :: l })

/-- GAUSS_ENGINE_FINISH (R281, R287): all results are written as one action, or the instruction traps. -/
def execGaussEngineFinish (c : CoreId) (s : State) : Out :=
  .next (match (s.core c).gqueue with
    | [] => s
    | o :: _ =>
      if !o.taken then s
      else match s.gaussRun c o with
        | .ok (t, w, f) => t.gaussEnd c o (.value w f)
        | .error t => s.gaussEnd c o t.asAnswer)

/-! ### Mailboxes (R297 to R302) -/

/-- The dwords of a slot from va on, as an access reads them. -/
def dwordsAt (va : W) (n : Nat) : List (W × Nat) := (List.range n).map fun i => (va + BitVec.ofNat 64 (8 * i), 8)

/-- GSTORM.SEND (R288, R298): the header says how many bytes the operand has; all of them pass their address checks before any
other is read (R136). -/
def execGstormSend (a : BitVec 5) (e : BitVec 6) (s : State) : Out :=
  s.onEp e [a] [] [] (.ok ()) fun l t =>
    let va := nthD 0 l 0
    (t.mayUse e 6 0).bind fun _ =>
    if va.toNat % 64 != 0 then .trap { cause := cMISALIGN, addr := va }
    else (t.access va 8 8 { r := true }).bind fun k =>
      let d0 := t.rd8 k
      if !slotOk d0 || !wb d0 8 then .trap { cause := cILLOPND, addr := va }
      else (t.accessAll 8 { r := true } (dwordsAt va (slotDwords (wf d0 0 4)))).bind fun ks =>
        (t.underBound e).bind fun _ =>
        (t.classRoom .gstore).bind fun _ =>
          let bytes := ks.flatMap fun k => memReads t.mem k 8
          let g : GbpPkt := ⟨t.origin, e, (t.ep e).gen, wf d0 10 6, bytes, none⟩
          let t1 := ks.foldl (fun t k => t.correct t.cur.core k 8) t
          let c := t.cur.core
          .ok (((t1.mapCtx fun c => c.launch .gstore false (some e)).mapEp e Endpoint.addReq).send (floeOf c)
            (peerDest (t.ep e).phw (t.ep e).paddr) (some (2097152 + c.toNat * 64 + e.toNat)) bytes.length (.gbp g) none c)

/-- A wake (R300): a push at the owner's end of the core's deque, or one more lost. -/
def State.wakeNode (s : State) (c : CoreId) (node : Nat) : State :=
  let r := s.dqPush c (mkW [(1, 63), (node, 0)])
  if r.1 then r.2
  else s.mapCore c fun x => { x with gwake := BitVec.ofNat 16 (satAdd x.gwake.toNat 1 16) }

/-- The contexts in `gwait` whose mask has a mailbox slot become RUNNABLE and will complete (R299, R301); one whose word is being
fetched again issues when it has it. -/
def Core.wakeSlot (x : Core) (n : Nat) : Core :=
  allCtx.foldl (fun x k =>
    let c := x.ctx k
    if c.mailMask.getLsbD n && c.req == some ⟨3, none⟩ then
      x.mapCtx k fun c =>
        let c := { c with req := some ⟨3, some (.value 0 0)⟩ }
        if c.life == .blocked && c.wait.any fun w => w.kind == 1 then c.unblock x.cycle else c
    else x) x

/-- GBP_ARRIVAL (R299). Once accepted, into the slot that gmbox then gives it (R297), it may have to wait for an engine that holds
the slot or, where it wakes a node, the deque's next entry (R284). An uncorrectable error that it meets in the slot is
reported, and nothing written (log 34); nor is a message of an endpoint bound no more (R432). -/
def execGbpArrival (p : Nat) (s : State) : Out :=
  .next (match s.arrived p with
    | none => s
    | some pk =>
      match pk.dst, pk.body with
      | .port c, .gbp g =>
        let x := s.core c
        let o := s.mailOff c g
        let k := poolKey c o
        let ok := g.slot.isSome || (wb x.gmbox 63 && decide (g.mslot < wf x.gmbox 22 7))
        let d0 := BitVec.ofNat 64 (leNat (g.bytes.take 8))
        if ok && (s.held c o g.bytes.length true || (wb d0 9 && s.pushHeld c)) then s.parkAs p (.gbp { g with slot := some o })
        else
          let s1 := (s.takePacket p).hwTakes g.org.core g.ep g.gen
          let reply := fun (t : State) (v : Verdict) =>
            t.hwReply (floeOf c) 0 g.org.core g.ep g.gen false 0 (.gbpCredit g v) c
          if !ok then reply (s1.nack c) .nack
          else if !s1.bears g.org.core g.ep g.gen then reply s1 .ok
          else match s1.badIn k g.bytes.length with
            | some d => reply s1 (.dataErr (BitVec.ofNat 64 (d - poolKey c 0)))
            | none =>
              let t := (s1.wr k g.bytes).mapCore c fun x => { x with mab := x.mab ||| (1#64 <<< g.mslot) }
              let t1 := if wb d0 9 then t.wakeNode c (wf d0 16 16) else t
              reply (t1.mapCore c fun x => x.wakeSlot g.mslot) .ok
      | _, _ => s)

/-- GBP_CREDIT_ARRIVAL (R298, R299). -/
def execGbpCreditArrival (p : Nat) (s : State) : Out :=
  s.replyArrival p (fun b => match b with | .gbpCredit _ _ => true | _ => false) fun _ _ b s =>
    match b with
    | .gbpCredit g v => some (s.finishOp g.org (match v with
        | .ok => none
        | .nack => some (cNACK, g.ep.toNat, BitVec.ofNat 64 g.mslot)
        | .dataErr a => some (cDATAERR, g.ep.toNat, a)))
    | _ => none

/-- GWAIT (R301): once an arrival has met its mask (R299) it completes, with the bits set at its issue. -/
def execGwait (d a : BitVec 5) (s : State) : Out :=
  s.issue 4 [a] [d] [] fun l t =>
    let m := nthD 0 l 0
    if m = 0 then .trap illOpnd
    else if t.me.mab &&& m != 0 || (t.ctx.req == some ⟨3, some (.value 0 0)⟩) then .ok (t.setG d (t.me.mab &&& m))
    else .block { kind := 1, slots := m } (t.mapCtx fun c => { c with req := some ⟨3, none⟩ })

/-- GMAB (R301): read and clear as one step. -/
def execGmab (d a : BitVec 5) (s : State) : Out :=
  s.issue 4 [a] [d] [] fun l t =>
    .ok ((t.mapMe fun x => { x with mab := x.mab &&& ~~~(nthD 0 l 0) }).setG d t.me.mab)

end Sys2Proof.Machine
end

