-- ==== Sys2Proof/Machine/Network.lean ====
section
/-! DEFINITION. The die network: routers, lanes, routes of unicast packets, virtual streams and markers (R353 to
R364, R416). -/

namespace Sys2Proof

/-! ### The flits of a packet (R355, R356) -/

/-- Whether flits of a packet are still to come where element i of its chain stands. -/
def Packet.open_ (pk : Packet) (i : Nat) : Bool := decide (i + 1 < pk.chain.length) || pk.rest != 0

/-- The lanes that a head has left, without those that its tail has left too. -/
def trimBehind (rest : Nat) (l : List Held) : List Held :=
  if rest = 0 then (l.reverse.dropWhile fun h => h.flits == 0).reverse else l

/-- The head of a packet goes on to a place, its first flit with it. -/
def Packet.advance (pk : Packet) (dst : Place) : Packet :=
  match pk.place with
  | .standing r port lane =>
    { pk with place := dst, here := 1, behind := trimBehind pk.rest (⟨r, port, lane, pk.here - 1⟩ :: pk.behind) }
  | _ => { pk with place := dst, here := 1, rest := pk.rest - 1 }

/-- Adds d to the flits of element i of a list of lanes. -/
def addFlits (l : List Held) (i : Nat) (add : Bool) : List Held :=
  (List.range l.length).zip l |>.map fun e =>
    if e.1 = i then { e.2 with flits := if add then e.2.flits + 1 else e.2.flits - 1 } else e.2

/-- One flit of a packet follows: from lane i of those that its head has left, or, past the last, from its source, to the
lane before (R356). None when there is none to send. -/
def Packet.follow (pk : Packet) (i : Nat) : Option Packet :=
  let from_ := if i < pk.behind.length then (pk.behind[i]?.elim 0 fun h => h.flits) else if i = pk.behind.length then pk.rest else 0
  let moving := match pk.place with | .standing _ _ _ => true | .leaving _ _ _ => true | _ => false
  if from_ = 0 || !moving || (i = pk.behind.length && pk.awaits.isSome) then none
  else
    let b1 := addFlits pk.behind i false
    let b2 := if i = 0 then b1 else addFlits b1 (i - 1) true
    let rest := if i = pk.behind.length then pk.rest - 1 else pk.rest
    some { pk with here := if i = 0 then pk.here + 1 else pk.here, rest := rest, behind := trimBehind rest b2 }

end Sys2Proof

namespace Sys2Proof.Machine

/-! ### Routers and links (R353, R416) -/

def colOf (r : FloeId) : Nat := bits r.toNat 0 3
def rowOf (r : FloeId) : Nat := bits r.toNat 3 3

/-- The router of a die at a column and row. -/
def routerAt (die : BitVec 2) (x y : Nat) : FloeId := BitVec.ofNat 8 (die.toNat * 64 + y % 8 * 8 + x % 8)

/-- The die behind port A of a router that carries a lane of a die-to-die link (R415, R416). -/
def linkDie (r : FloeId) : Option (BitVec 2) :=
  match r.toNat % 64 with
  | 7 => some (dieOf r ^^^ 1)
  | 39 => some (dieOf r ^^^ 1)
  | 56 => some (dieOf r ^^^ 2)
  | 60 => some (dieOf r ^^^ 2)
  | _ => none

/-- The router and input port that an output port leads to (R353, R416); none for L, and for a port A that carries
no link to another die. -/
def linkEnd (r : FloeId) (port : Nat) : Option (FloeId × Nat) :=
  match port with
  | 1 => some (routerAt (dieOf r) (colOf r + 1) (rowOf r), 2)
  | 2 => some (routerAt (dieOf r) (colOf r + 7) (rowOf r), 1)
  | 3 => some (routerAt (dieOf r) (colOf r) (rowOf r + 1), 4)
  | 4 => some (routerAt (dieOf r) (colOf r) (rowOf r + 7), 3)
  | 5 => (linkDie r).map fun d => (BitVec.ofNat 8 (d.toNat * 64 + r.toNat % 64), 5)
  | _ => none

/-- Flits free in a lane (R355). -/
def State.laneFree (s : State) (r : FloeId) (port : Nat) (lane : Lane) : Nat :=
  (match lane with | .shared => 12 | .escape _ => 2 | .fabric _ => 8) - s.laneHeld r port lane

/-- Whether a lane has room for a flit of a packet that uses it: a shared lane is reserved as its packet starts; an escape lane
takes its two flits and one more, which stands in the skid buffer, where the lane shows a count of 0 (R355, R356, log 40). -/
def State.flitRoom (s : State) (r : FloeId) (port : Nat) (lane : Lane) : Bool :=
  match lane with
  | .shared => true
  | .escape _ => decide (s.laneHeld r port lane < 3)
  | .fabric _ => true

/-- Whether a lane at the far side of an output belongs to a packet whose head has been sent and whose tail has not
(R359). -/
def State.owned (s : State) (r : FloeId) (port : Nat) (lane : Lane) : Bool :=
  s.net.any fun q => (List.range q.chain.length).any fun i =>
    (q.chain[i]?.any fun h => h.router == r && h.port == port && h.lane == lane) && q.open_ i

/-- The lane in which a packet leaves the network: the shared one, or, for a packet of the escape lanes, that of its class
(R358). -/
def exitLane (pk : Packet) : Lane := if pk.kind != 0 || (pk.adapt && !pk.esc) then .shared else .escape pk.vc

/-- The same for a lane of an output that leaves the network. -/
def State.ownedOut (s : State) (r : FloeId) (out : Nat) (lane : Lane) : Bool :=
  s.net.any fun q => match q.place with
    | .leaving r' out' l => r' == r && out' == out && l == lane
    | _ => false

/-- The router from which a packet leaves this die, and the output port there (R354, R416, R443). -/
def State.exitOf (_s : State) (r : FloeId) (pk : Packet) : FloeId × Nat :=
  let goal := match pk.via with
    | some n => (portFloe n, 5)
    | none => (destFloe pk.dst, destPort pk.dst)
  let x := dieOf r ^^^ dieOf goal.1
  if x = 0 then goal
  else
    let lane := b2n (goal.1.getLsbD 5)
    (BitVec.ofNat 8 ((dieOf r).toNat * 64 + (if x.getLsbD 0 then 7 + 32 * lane else 56 + 4 * lane)), 5)

/-- Productive outputs towards a router of the same die, X first (R357): the + direction at distance 4. -/
def ways (r t : FloeId) : List Nat :=
  let dx := (colOf t + 8 - colOf r) % 8
  let dy := (rowOf t + 8 - rowOf r) % 8
  (if dx = 0 then [] else [if dx ≤ 4 then 1 else 2]) ++ (if dy = 0 then [] else [if dy ≤ 4 then 3 else 4])

/-- The class of a packet sent out of a port (R357): class 0 where it enters a ring, 1 past the dateline. -/
def classOut (r : FloeId) (inp out : Nat) (vc : Bool) : Bool :=
  let same := decide ((1 ≤ inp ∧ inp ≤ 2 ∧ 1 ≤ out ∧ out ≤ 2) ∨ (3 ≤ inp ∧ inp ≤ 4 ∧ 3 ≤ out ∧ out ≤ 4))
  let crosses := match out with
    | 1 => colOf r == 7
    | 2 => colOf r == 0
    | 3 => rowOf r == 7
    | 4 => rowOf r == 0
    | _ => false
  (same && vc) || crosses

/-- The number of packets the shared lane behind an output has room for. -/
def State.sharedFree (s : State) (r : FloeId) (out : Nat) : Nat :=
  match linkEnd r out with
  | some (r', q) => s.laneFree r' q .shared
  | none => 0

/-- The output and lane of a packet's next hop on the die, whether it may start there now (R356, R358, R359): a packet in
shared lanes waits for the owner of the shared lane it would take (R400). -/
def State.hop (s : State) (r : FloeId) (inp : Nat) (pk : Packet) (outs : List Nat) : Nat × Lane × Bool :=
  let best := match outs with
    | [a, b] => if s.sharedFree r b > s.sharedFree r a then b else a
    | a :: _ => a
    | [] => 0
  let taken := fun (out : Nat) (lane : Lane) => match linkEnd r out with | some (r', q) => s.owned r' q lane | none => false
  if pk.adapt && !pk.esc && taken best .shared then (best, .shared, false)
  else if pk.adapt && !pk.esc && decide (s.sharedFree r best ≥ pk.len) then (best, .shared, true)
  else
    let out := outs.headD 0
    let lane := Lane.escape (classOut r inp out pk.vc)
    (out, lane, !taken out lane && match linkEnd r out with | some (r', q) => decide (s.laneFree r' q lane ≥ 1) | none => true)

/-! ### Streams at a router (R362 to R364) -/

/-- The entry of a stream at a router. -/
def State.entry (s : State) (r : FloeId) (n : BitVec 12) : StreamEnt := (s.floe r).streams.look ⟨0, 0, 0⟩ n.toNat

def State.setEntry (s : State) (r : FloeId) (n : BitVec 12) (e : StreamEnt) : State :=
  s.mapFloe r fun f => { f with streams := f.streams.put n.toNat e }

/-- The stream of a packet. -/
def streamOf (pk : Packet) : Option (BitVec 12) :=
  match pk.body with
  | .marker n => some n
  | .red r => some r.stream
  | _ => none

/-- The entry that a stream packet uses at a router: the one it found there, should a load have replaced that (R424). -/
def State.entryFor (s : State) (r : FloeId) (n : BitVec 12) (pk : Packet) : StreamEnt :=
  match pk.ent with
  | some (d0, d1) => { s.entry r n with d0 := d0, d1 := d1 }
  | none => s.entry r n

/-- The ports of a mask. -/
def portsOf (mask : Nat) : List Nat := (List.range 6).filter fun i => mask.testBit i

/-- A node of the stream, which absorbs what it receives (R363). -/
def entRed (e : StreamEnt) : Bool := wb e.d0 58

/-- The output ports that a stream packet in the lanes of input `inp` still has to leave by, as its router has it or would
now. One that waits for the step (R364) has none yet. -/
def State.maskOf (s : State) (r : FloeId) (inp : Nat) (pk : Packet) : Nat :=
  if pk.mask != 0 then pk.mask
  else match pk.body with
    | .red k =>
      let e := s.entryFor r k.stream pk
      if !entV e.d0 || e.marks.getLsbD inp then 0
      else if k.ptype = 4 || k.ptype = 5 then entIn e.d0
      else if entRed e then 0 else entOut e.d0
    | _ => 0

/-! ### Granting heads (R356 to R360, R400) -/

/-- The outputs that a packet standing at a router would leave by now. -/
def State.waysOut (s : State) (r : FloeId) (inp : Nat) (pk : Packet) : List Nat :=
  if pk.kind != 0 then portsOf (s.maskOf r inp pk)
  else
    let (t, port) := s.exitOf r pk
    if t = r then [port] else [(s.hop r inp pk (ways r t)).1]

/-- A packet with its fabric port, if it leaves the module (R443, R444): none when there is no way. -/
def State.bound (s : State) (pk : Packet) : Option Packet :=
  if pk.dmod == s.address || pk.kind != 0 then some { pk with via := if pk.kind != 0 then pk.via else none }
  else if s.noModule pk then none
  else if pk.via.any fun n => !s.portDown n then some pk
  else (s.nextPort pk).map fun (n, rev) => { pk with via := some n, rev := rev }

/-- Whether packet pk is a marker that its router sends on (R364). -/
def stepping (pk : Packet) : Bool := pk.kind == 1 && pk.mask != 0

/-- Whether a packet of the same lane that arrived earlier is to leave by output `out` (R359, R400); for a packet that is
still in the crossbar, one of its source to its destination is before it (R360, log 40). A marker that its router sends on
waits for every packet of its stream there that is to leave by that output, and what the router forms after it waits for the
marker (R360, R364). -/
def State.behind (s : State) (p : Nat) (pk : Packet) (out : Nat) : Bool :=
  let before := (s.net.take p).any fun q =>
    match q.place with
    | .standing r inp _ =>
      (q.place == pk.place && ((s.bound q).any fun q => (s.waysOut r inp q).contains out)) ||
        (pk.place == .formed r && stepping q && streamOf q == streamOf pk && q.mask.testBit out)
    | .queued _ _ =>
      q.place == pk.place && ((q.flow.isSome && q.flow == pk.flow) ||
        (q.kind == 0 && pk.kind == 0 && q.src == pk.src && q.dst == pk.dst && q.dmod == pk.dmod && s.noticeGoes q))
    | .formed r =>
      (q.place == pk.place || (match pk.place with | .standing r' _ _ => r' == r && stepping pk | _ => false)) &&
        streamOf q == streamOf pk && q.mask.testBit out
    | _ => false
  before || (stepping pk && s.net.any fun q =>
    q.kind == 2 && streamOf q == streamOf pk && q.mask.testBit out &&
      match q.place, pk.place with
      | .standing r _ _, .standing r' _ _ => r == r'
      | _, _ => false)

/-- Packet p goes on as `pk`, the last to arrive where it now stands. -/
def State.moveOn (s : State) (p : Nat) (pk : Packet) : State := { s with net := s.net.eraseIdx p ++ [pk] }

/-- The output that admits a packet of this module now (R356, R358, R359); none when it may not start there. -/
def State.admits (s : State) (r : FloeId) (inp : Nat) (pk : Packet) : Option Nat :=
  let (t, port) := s.exitOf r pk
  let take := fun (outs : List Nat) =>
    match s.hop r inp pk outs with
    | (out, _, ok) => if ok then some out else none
  if t != r then take (ways r t)
  else if port = 5 && (linkEnd r 5).isSome then take [5]
  else if s.ownedOut r port (exitLane pk) then none
  else match if port = 5 then pk.via else none with
    | some n => if (s.leave n pk).isSome then some port else none
    | none => some port

/-- Whether an output port can take a stream packet of n flits now (R363): it waits for whole-packet space in the shared
lane and for the lane's owner; L and ports without a unit always can. -/
def State.canTake (s : State) (r : FloeId) (n port : Nat) : Bool :=
  match linkEnd r port with
  | some (r', q) => decide (s.laneFree r' q .shared ≥ n) && !s.owned r' q .shared
  | none =>
    match if port = 5 then fabricPortOf r else none with
    | some m => !s.portUp m || decide (s.fabCount m 0 ≥ n)
    | none => !s.ownedOut r port .shared

/-- Whether an input of a router has a head that an output admits now (R359). -/
def State.wants (s : State) (r : FloeId) (out inp : Nat) : Bool :=
  (List.range s.net.length).any fun i =>
    match s.net[i]? with
    | none => false
    | some q =>
      match q.place with
      | .standing r' j _ =>
        r' == r && j == inp &&
        (s.bound q).any fun q => !s.behind i q out &&
          (if q.kind != 0 then q.mask.testBit out && s.canTake r q.len out else s.admits r inp q == some out)
      | _ => false

/-- Whether it is the turn of an input at an output (R359): of the inputs after the one granted last, it is the
first with a head for that output. -/
def State.turn (s : State) (r : FloeId) (out inp : Nat) : Bool :=
  let last := (s.floe r).granted.look 5 out
  (((List.range 6).map fun k => (last + 1 + k) % 6).takeWhile fun j => j != inp).all fun j => !s.wants r out j

/-- The output has granted a head of that input. -/
def State.grant (s : State) (r : FloeId) (out inp : Nat) : State :=
  s.mapFloe r fun f => { f with granted := f.granted.put out inp }

/-- Packet p, as `pk`, has been sent whole to the place it leaves the network by: it arrives at its unit, or goes out of
its fabric port (R354, R443). -/
def State.land (s : State) (p : Nat) (pk : Packet) : State :=
  if pk.here < pk.len then s.moveOn p pk
  else match pk.via with
    | some n => ((s.takePacket p).leave n pk).getD (s.moveOn p pk)
    | none => s.moveOn p { pk with place := .arrived }

/-- A packet on its way out of a fabric port whose direction has no port left is routed anew from there (R444): by another
direction, or it is discarded at its source's port and counted (R437). -/
def State.turnBack (s : State) (p : Nat) (r : FloeId) (pk : Packet) : State :=
  match s.bound pk with
  | none => (s.takePacket p).fdropOne
  | some pk' => s.moveOn p { pk' with place := .queued r 5, here := 0, behind := [], rest := pk.len }

/-- Packet p crosses to the next router, its head first (R356 to R358). -/
def State.cross (s : State) (p : Nat) (r : FloeId) (inp : Nat) (pk : Packet) (outs : List Nat) : State :=
  match s.hop r inp pk outs with
  | (out, lane, true) =>
    (match linkEnd r out with
    | some (r', q) =>
      (s.moveOn p { pk.advance (.standing r' q lane) with
        vc := classOut r inp out pk.vc && out != 5
        esc := pk.esc || lane != .shared }).grant r out inp
    | none => s)
  | _ => s

/-- Packet p, of this module, is granted (R354, R357 to R359, R416, R443). -/
def State.route (s : State) (p : Nat) (r : FloeId) (inp : Nat) (pk : Packet) : State :=
  match s.admits r inp pk with
  | none => s
  | some out =>
    if s.behind p pk out || !s.turn r out inp then s
    else
      let (t, port) := s.exitOf r pk
      if t != r then s.cross p r inp pk (ways r t)
      else if port = 5 && (linkEnd r 5).isSome then s.cross p r inp pk [5]
      else (s.land p (pk.advance (.leaving r port (exitLane pk)))).grant r port inp

/-- A packet leaves its source: over the crossbar for a unit of its own floe, which it reaches last of all; else into a lane
of port L or A (R355, R400), whole into the shared lane, from which an ADAPT = 0 packet goes on in escape lanes (R358); only a
message longer than that lane enters flit by flit, by the escape lane of class 0 (log 40). -/
def State.inject (s : State) (p : Nat) (r : FloeId) (inp : Nat) (pk : Packet) : State :=
  if pk.kind = 0 && inp = 0 && pk.dmod == s.address && destFloe pk.dst == r && destPort pk.dst == 0 then
    if s.behind p pk 0 then s else s.moveOn p { pk with place := .arrived, here := pk.len, rest := 0 }
  else
  let lane : Lane := if pk.len ≤ 12 then .shared else .escape false
  let room := match lane with | .shared => decide (s.laneFree r inp lane ≥ pk.len) | _ => decide (s.laneFree r inp lane ≥ 1)
  if room && !s.owned r inp lane && !s.behind p pk 0 then
    s.moveOn p (match lane with
      | .shared => { pk with place := .standing r inp lane, here := pk.len, rest := 0 }
      | _ => { pk.advance (.standing r inp lane) with esc := true })
  else s

/-- FLIT: a further flit of packet p follows the one before it (R356). -/
def State.flit (s : State) (p i : Nat) : State :=
  match s.net[p]? with
  | none => s
  | some pk =>
    let room := match (if i = 0 then (if pk.chain.length = pk.behind.length then none else pk.chain.head?) else pk.behind[i - 1]?) with
      | some h => s.flitRoom h.router h.port h.lane
      | none => true
    match if room then pk.follow i else none with
    | none => s
    | some pk' =>
      match pk'.place with
      | .leaving _ _ _ => if pk'.here < pk'.len then { s with net := s.net.set p pk' } else s.land p pk'
      | _ => { s with net := s.net.set p pk' }

/-! ### Stream packets leave (R363) -/

/-- A stream packet goes out of one port (R363). Out of L a result reaches the floe's endpoints; nothing else has a
unit there. -/
def State.sendPort (s : State) (r : FloeId) (pk : Packet) (port : Nat) : State :=
  let pk := { pk with mask := 0, ent := none, here := pk.len, behind := [], rest := 0 }
  match linkEnd r port with
  | some (r', q) => { s with net := s.net ++ [{ pk with place := .standing r' q .shared }] }
  | none =>
    if port = 0 then
      match pk.body with
      | .red x =>
        if x.ptype = 4 || x.ptype = 5 then
          let flow := (4194304 + r.toNat) * 16384
          { s with net := s.net ++ [{ pk with place := .arrived, dst := .floe r, body := .redResult x, flow := some flow }] }
        else s.rdropOne r
      | _ => s
    else
      match fabricPortOf r with
      | some m => if s.portUp m then (s.leave m pk).getD s else s.rdropOne r
      | none => s.rdropOne r

/-- Stream packet p goes out of every port of its mask that grants it now, each port on its own (R359, R363); it leaves
its lane, or the router that formed it, with the last. -/
def State.sendPorts (s : State) (p : Nat) (r : FloeId) (inp : Option Nat) : State :=
  match s.net[p]? with
  | none => s
  | some pk =>
    let go := fun (st : State × Nat) (port : Nat) =>
      let (s, left) := st
      let pk' := { pk with mask := left }
      if s.canTake r pk.len port && !s.behind p pk' port && (inp.all fun j => s.turn r port j) then
        ((match inp with | some j => s.grant r port j | none => s).sendPort r pk' port, left &&& (63 - 2 ^ port))
      else st
    let (s1, left) := (portsOf pk.mask).foldl go (s, pk.mask)
    if left = 0 then s1.takePacket p else { s1 with net := s1.net.set p { pk with mask := left } }

/-- The router takes stream packet p, as `pk`, to be sent by the ports of a mask; with none it is gone. -/
def State.direct (s : State) (p : Nat) (r : FloeId) (inp : Nat) (pk : Packet) (mask : Nat) : State :=
  if mask % 64 = 0 then s.takePacket p
  else ({ s with net := s.net.set p { pk with mask := mask % 64 } } : State).sendPorts p r (some inp)

/-- A packet that a router forms goes out by the ports of a mask, as each grants it. -/
def State.formPacket (s : State) (r : FloeId) (pk : Packet) (mask : Nat) : State :=
  if mask % 64 = 0 then s
  else ({ s with net := s.net ++ [{ pk with place := .formed r, mask := mask % 64 }] } : State).sendPorts s.net.length r none

/-- PACKET_HEAD_GRANT (R358): the router grants packet p an output and a lane, if it may go now. A packet for
another module is first given its fabric port (R444). -/
def execPacketHeadGrant (p : Nat) (s : State) : Out :=
  .next (match s.net[p]? with
    | none => s
    | some pk =>
      match pk.place with
      | .queued r j => if s.noticeGoes pk then s.inject p r j pk else s
      | .formed r => s.sendPorts p r none
      | .standing r inp _ =>
        if pk.kind ≥ 3 then (if pk.awaits.isSome then s else (s.takePacket p).rdropOne r)
        else if pk.kind != 0 then (if pk.mask = 0 then s else s.sendPorts p r (some inp))
        else match s.bound pk with
          | none => if pk.awaits.isSome then s else (s.takePacket p).fdropOne
          | some pk => s.route p r inp pk
      | .leaving r out _ =>
        if out = 5 && pk.awaits.isNone && pk.via.any fun n => s.portDown n && s.portDown (partner n) then s.turnBack p r pk
        else if pk.here < pk.len then s else s.land p pk
      | .arrived => s)

/-- LINK_UNCORRECTABLE_ERROR (R361): the router that receives the flit faults; by port A, that is a lane of
a die-to-die link (R416, R454). -/
def execLinkUncorrectableError (x : RouterPort) (s : State) : Out :=
  .next (s.routerFault x.floe (x.port == 5 && (linkDie x.floe).isSome))

/-- A link or lane of a router has corrected an error (R361, R416): rlink counts it, saturating (R382). -/
def State.linkCorrected (s : State) (f : FloeId) : State :=
  s.mapFloe f fun x => { x with rlink := BitVec.ofNat 32 (satAdd x.rlink.toNat 1 32) }

/-- LANE_BLOCKED_TIMEOUT (R361): a flit blocked for 2^24 cycles. -/
def execLaneBlockedTimeout (f : FloeId) (s : State) : Out := .next (s.routerFault f false)

/-! ### Arrivals of streams (R363, R364) -/

/-- A result packet (R366). -/
def isResult (pk : Packet) : Bool := match pk.body with | .red k => k.ptype == 4 || k.ptype == 5 | _ => false

/-- Packet p of a stream at a router, not yet taken by it: its router, port and packet, when no earlier packet of the
stream that the router has not taken stands before it in the lane (R360), and no marker of the stream is still on its way out
of the router, but for a result, which goes the other way. -/
def State.streamHead (s : State) (p : Nat) : Option (FloeId × Nat × Packet) :=
  match s.net[p]? with
  | none => none
  | some pk =>
    match pk.place with
    | .standing r port _ =>
      if (streamOf pk).isNone || pk.mask != 0 then none
      else if pk.awaits.isSome then none
      else if (s.net.take p).any fun q => q.place == pk.place && streamOf q == streamOf pk && q.mask == 0 then none
      else if !isResult pk && s.net.any fun q =>
          stepping q && streamOf q == streamOf pk && (match q.place with | .standing r' _ _ => r' == r | _ => false) then none
      else some (r, port, pk)
    | _ => none

/-- The same for a marker that comes after its port L has delivered one for the round (R364): it waits for none of the
packets that stand before it. -/
def State.lateMarker (s : State) (p : Nat) : Option FloeId :=
  match s.net[p]? with
  | none => none
  | some pk =>
    match pk.place, pk.body with
    | .standing r 0 _, .marker n => if (s.entry r n).marks.getLsbD 0 then some r else none
    | _, _ => none

/-- A new stream packet of a router, in the crossbar of its floe. -/
def streamPacket (r : FloeId) (len : Nat) (kind : Nat) (body : Body) (src : CoreId := coreAt r 0) : Packet :=
  { src := src, kind := kind, adapt := false, esc := false, vc := false, len := len, dmod := 0
    dst := .floe r, rev := 0, fcls := 0, fin := none, via := none, place := .queued r 0, flow := some (src.toNat * 16384 + 16383)
    body := body, rest := len }

/-- Markers of a stream that stand at port L as its router steps, where L is a port of the set: they came after that of the
round, and are absorbed into it (R364). -/
def State.absorbMarkers (s : State) (r : FloeId) (n : BitVec 12) (inn : Nat) : State :=
  if !inn.testBit 0 then s
  else { s with net := s.net.filter fun q =>
      !(q.body == .marker n && q.mask == 0 && match q.place with | .standing r' 0 _ => r' == r | _ => false) }

/-- What a router has formed of a stream goes before the marker that steps its set (R360): it stands first. Answers the place
of packet p then. -/
def State.formedFirst (s : State) (r : FloeId) (n : BitVec 12) (p : Nat) : State × Nat :=
  let own := fun (q : Packet) => q.place == .formed r && streamOf q == some n
  ({ s with net := s.net.filter own ++ s.net.filter fun q => !own q }, p + ((s.net.drop p).filter own).length)

/-- The last marker of a round, packet p, steps the router (R364): it goes on by the OUT ports, in its place of its lane, and
CUR goes to the next set. -/
def State.stepSet (s : State) (p : Nat) (r : FloeId) (port : Nat) (n : BitVec 12) (pk : Packet) (d0 : W) : State :=
  let (s1, p1) := s.formedFirst r n p
  let s2 := s1.setEntry r n
    { s1.entry r n with d0 := setField (s1.entry r n).d0 61 2 ((entCur d0 + 1) % (entNset d0 + 1)), marks := 0 }
  (s2.direct p1 r port pk (entOut d0)).absorbMarkers r n (entIn d0)

/-- STREAM_MARKER_ARRIVAL (R363, R364): a marker counts for its port, and the last one steps the current set. -/
def execStreamMarkerArrival (p : Nat) (s : State) : Out :=
  .next (match s.lateMarker p with
    | some _ => s.takePacket p
    | none =>
      match s.streamHead p with
      | some (r, port, pk) =>
        (match pk.body with
        | .marker n =>
          let e := s.entryFor r n pk
          let inn := if entV e.d0 then entIn e.d0 else 0
          if !inn.testBit port then (s.takePacket p).rdropOne r
          else if e.marks.getLsbD port then s
          else
            let marks := e.marks ||| (1#6 <<< port)
            if (portsOf inn).all fun i => marks.getLsbD i then s.stepSet p r port n pk e.d0
            else (s.takePacket p).setEntry r n { s.entry r n with marks := marks }
        | _ => s)
      | none => s)

/-- Stream packets in the lanes of routers keep the entry they found there when a load replaces it (R424). -/
def State.keepEntries (s : State) : State :=
  { s with net := s.net.map fun q =>
      match q.place, streamOf q with
      | .standing r _ _, some n =>
        if q.ent.isSome then q else { q with ent := some ((s.entry r n).d0, (s.entry r n).d1) }
      | _, _ => q }

end Sys2Proof.Machine
end

