-- ==== Sys2Proof/Machine/Reduce.lean ====
section
/-! DEFINITION. Deadline reductions: exact sums, top-k lists, reduction nodes, the slots of RED endpoints, and the
RED instructions (R62, R63, R365 to R382). -/

namespace Sys2Proof.Machine

/-! ### Values (R62, R63, R366, R373) -/

/-- AccAdd into an empty state (R62). -/
def accOf (f : Fmt) (b : Nat) : RedVal :=
  match f.decode b with
  | .fin s m e =>
    let v : Int := m * 2 ^ (e + 1074).toNat
    .exact (if s then -v else v) (m != 0 || !s) false false false false
  | .inf s => .exact 0 true false false s (!s)
  | v => .exact 0 true v.isSig true false false

/-- Two accumulator states merged: V added, flags ORed (R367). -/
def accMerge : RedVal → RedVal → RedVal
  | .exact v a b c d e, .exact v' a' b' c' d' e' => .exact (v + v') (a || a') (b || b') (c || c') (d || d') (e || e')
  | x, _ => x

/-- AccRound (R63) in RNE; `any` says that there is at least one contribution. -/
def accRound (f : Fmt) (any : Bool) : RedVal → Nat × BitVec 5
  | .exact v nz snan nan ninf pinf =>
    if nan then (f.dnan, if snan then xNV else 0)
    else if pinf && ninf then (f.dnan, xNV)
    else if pinf then (f.inf false, 0)
    else if ninf then (f.inf true, 0)
    else if v ≠ 0 then
      let r := f.roundTo 0 (decide (v < 0)) v.natAbs (-1074)
      (r.v, r.f)
    else (f.signed (any && !nz) 0, 0)
  | .scalar w => (w.toNat, 0)
  | .top _ => (0, 0)

/-- Whether entry a stands before b in a top-k list (R373). -/
def topBefore (a b : W) : Bool :=
  let x := f32.decode (wf a 0 32)
  let y := f32.decode (wf b 0 32)
  let c := cmpVal x y
  if c ≠ 0 then c > 0
  else if wf a 32 32 ≠ wf b 32 32 then wf a 32 32 < wf b 32 32
  else !x.sign && y.sign

/-- An entry takes its place in a list. -/
def topInsert (a : W) : List W → List W
  | [] => [a]
  | b :: l => if topBefore a b then a :: b :: l else b :: topInsert a l

/-- Whether a list may be contributed (R380): no score is a NaN, and the order is that of R373. -/
def topOk : List W → Bool
  | [] => true
  | a :: l => !(f32.decode (wf a 0 32)).isNan && (match l with | [] => true | b :: _ => !topBefore b a) && topOk l

def topEntries : RedVal → List W
  | .top l => l
  | _ => []

/-- The record of a packet (R378): header, value dword, list, bitmap. -/
def redRecord (r : RedPkt) : List Byte :=
  let v : W := match r.val with | .scalar w => w | .top l => BitVec.ofNat 64 l.length | _ => 0
  (redHeader r :: v :: topEntries r.val).flatMap (fun w => leBytes 8 w.toNat) ++ leBytes (64 * r.nbf) r.bits

/-! ### Nodes (R367 to R371) -/

/-- Fields of an entry (Table 16.2). -/
def entKm1 (e : StreamEnt) : Nat := wf e.d0 53 5
def entLo (e : StreamEnt) : Nat := wf e.d1 52 12
def entHi (e : StreamEnt) : Nat := wf e.d1 40 12
def entOp (e : StreamEnt) : Nat := wf e.d1 38 2
def entFmt (e : StreamEnt) : Nat := wf e.d1 36 2
def entDl (e : StreamEnt) : Nat := wf e.d1 0 32

/-- The operation of the tree (R367). -/
def redOp (e : StreamEnt) (a b : Nat) : FRes :=
  if entFmt e = 2 then
    let x := intOf 64 true a
    let y := intOf 64 true b
    match entOp e with
    | 0 => ⟨(a + b) % 2 ^ 64, 0, false⟩
    | 2 => ⟨if x ≤ y then a else b, 0, false⟩
    | _ => ⟨if x ≤ y then b else a, 0, false⟩
  else
    let f := fpFmt (entFmt e)
    match entOp e with
    | 0 => f.add 0 a b
    | 2 => f.minmax false false a b
    | _ => f.minmax true false a b

def scalarOf : RedVal → Nat
  | .scalar w => w.toNat
  | _ => 0

/-- The terms at one position combined, foreign ones last (log 31). -/
def atPosition (e : StreamEnt) (l : List Term) : Option Nat × BitVec 5 :=
  ((l.filter fun t => !t.foreign) ++ l.filter fun t => t.foreign).foldl (fun st t =>
    match st.1 with
    | none => (some (scalarOf t.val), st.2)
    | some a => let r := redOp e a (scalarOf t.val)
      (some r.v, st.2 ||| r.f)) (none, 0)

/-- The value of a node and the exceptions of forming it (R367). -/
def nodeValue (e : StreamEnt) (terms : List Term) : RedVal × BitVec 5 :=
  let exc := orAll (terms.map fun t => t.exc)
  if entFmt e = 3 then
    let all := terms.foldl (fun l t => (topEntries t.val).foldl (fun l a => topInsert a l) l) []
    (.top (all.take (entKm1 e + 1)), exc)
  else if entOp e = 1 then
    (terms.foldl (fun v t => accMerge v t.val) (.exact 0 false false false false false), exc)
  else
    let pos := (List.range (entHi e + 1 - entLo e)).map fun i =>
      (i, atPosition e (terms.filter fun t => t.pos == entLo e + i))
    let leaves : List Leaf := pos.map fun p => p.2.1.map fun v => (p.1, v)
    let (v, ops, _) := tree (redOp e) leaves
    (.scalar (BitVec.ofNat 64 v), exc ||| orAll (pos.map fun p => p.2.2) ||| orAll (ops.map fun o => o.f))

/-- The bitmap of a node over contributor indices. -/
def nodeBits (terms : List Term) : Nat := terms.foldl (fun n t => n ||| t.bits) 0

/-- The bitmap covers [LO, HI]. -/
def nodeFull (e : StreamEnt) (terms : List Term) : Bool :=
  (List.range (entHi e + 1 - entLo e)).all fun i => (nodeBits terms).testBit (entLo e + i)

def State.node (s : State) (r : FloeId) (n : BitVec 12) : Node := (s.floe r).nodes.look {} n.toNat

def State.setNode (s : State) (r : FloeId) (n : BitVec 12) (x : Node) : State :=
  s.mapFloe r fun f => { f with nodes := f.nodes.put n.toNat x }

/-- What a node sends (R365, R369, R371): partial or correction, at the root a result. -/
def nodePacket (n : BitVec 12) (e : StreamEnt) (x : Node) (first : Bool) : RedPkt :=
  let root := entOut e.d0 == 0
  let (v, exc) := nodeValue e x.terms
  let (v, exc) := if root && entOp e == 1 && entFmt e != 3 then
      let (w, f) := accRound (fpFmt (entFmt e)) (!x.terms.isEmpty) v
      (RedVal.scalar (BitVec.ofNat 64 w), exc ||| f)
    else (v, exc)
  { stream := n, ptype := (if root then 4 else 2) + (if first then 0 else 1), epoch := x.epoch, idx := entLo e, exc := exc
    rsh := entCur e.d0 != 0 || x.used != 0 || x.terms.any fun t => t.foreign || t.rsh
    set := (x.terms.map fun t => t.set).foldl Nat.max (Nat.max x.used (entCur e.d0))
    fmt := entFmt e, op := entOp e, km1 := entKm1 e
    seq := if root && !first then x.seq + 1 else 0
    nbf := (entHi e - entLo e + 512) / 512
    bits := nodeBits x.terms / 2 ^ entLo e, val := v }

/-- A node forwards by its entry e (R369): what it sends leaves by each port as that grants it. -/
def State.nodeForward (s : State) (r : FloeId) (n : BitVec 12) (e : StreamEnt) (first : Bool) : State :=
  let x := s.node r n
  let k := nodePacket n e x first
  (s.setNode r n { x with fwd := some true, seq := k.seq, used := Nat.max x.used (entCur e.d0) }).formPacket r
    (streamPacket r (redLen k) 2 (.red k)) (if entOut e.d0 = 0 then entIn e.d0 else entOut e.d0)

/-- A packet that goes on through a router uses its current port set (SET, Table 16.3). -/
def redThrough (k : RedPkt) (e : StreamEnt) : RedPkt := { k with set := Nat.max k.set (entCur e.d0) }

/-- An arrival passed up; at the root it is discarded (R367, R368). -/
def State.passUp (s : State) (r : FloeId) (e : StreamEnt) (pk : Packet) (k : RedPkt) : State :=
  if entOut e.d0 = 0 then s.rdropOne r
  else s.formPacket r { streamPacket r (redLen k) 2 (.red (redThrough k e)) pk.src with fin := pk.fin } (entOut e.d0)

/-- The ports by which the links of port set 0 bring a contribution of index i from input `inp` of router f to router r,
past no other node whose range holds i. -/
def State.bringsTo (s : State) (r : FloeId) (n : BitVec 12) (i : Nat) : Nat → FloeId → Nat → List Nat
  | 0, _, _ => []
  | fuel + 1, f, inp =>
    let e := s.entry f n
    if f = r then [inp]
    else if !entV e.d0 || (entRed e && decide (entLo e ≤ i ∧ i ≤ entHi e)) then []
    else (portsOf (entSet e.d0 0 % 64)).flatMap fun p =>
      match linkEnd f p with
      | some (g, q) => s.bringsTo r n i fuel g q
      | none => []

/-- Where a contribution enters this module: at port L of its contributor's floe, or at port A of the router of the fabric port
by which it came, where port set 0 takes the stream in there. -/
def State.entersAt (s : State) (n : BitVec 12) (src : CoreId) (fin : Option (BitVec 5)) : Option (FloeId × Nat) :=
  match fin with
  | none => some (floeOf src, 0)
  | some m => if (entSet (s.entry (portFloe m) n).d0 0).testBit 11 then some (portFloe m, 5) else none

/-- Whether a contribution of index i comes to node r by the port it belongs to: the one by which port set 0 brings it, from
its contributor's floe or from the fabric port it came by, to a node of which no child of this module owns the index. One that
comes another way is a foreign term (R367, log 31). -/
def State.belongs (s : State) (r : FloeId) (n : BitVec 12) (i port : Nat) (pk : Packet) : Bool :=
  (s.entersAt n pk.src pk.fin).any fun a => (s.bringsTo r n i 256 a.1 a.2).contains port

/-- What R367 and R368 make of an arrival within [LO, HI]: discarded as held already, over the limit of 64 terms, or
taken with the node's new terms. -/
inductive Admit where
  | dup
  | up
  | ok (terms : List Term)

/-- The value of a term: a contribution or supply to an exact sum becomes an accumulator state. -/
def termVal (e : StreamEnt) (k : RedPkt) : RedVal :=
  if k.ptype < 2 && entOp e == 1 && entFmt e != 3 then accOf (fpFmt (entFmt e)) (scalarOf k.val) else k.val

/-- R367 and R368. A child's terms are replaced by one whose bitmap holds theirs, be it of a child at another position;
an arrival that shares only some of a child's bits is discarded, so that no index counts twice (R370, log 31). -/
def takeIn (e : StreamEnt) (terms : List Term) (k : RedPkt) (foreign : Bool) : Admit :=
  if k.ptype < 2 then
    if (nodeBits terms).testBit k.idx then .dup
    else if terms.length ≥ 64 then .up
    else .ok (terms ++ [⟨k.idx, 2 ^ k.idx, termVal e k, k.exc, k.rsh, k.set, foreign, false⟩])
  else
    let bits := k.bits * 2 ^ k.idx
    let new : Term := ⟨k.idx, bits, k.val, k.exc, k.rsh, k.set, false, true⟩
    let met := terms.filter fun t => t.child && (t.bits &&& bits != 0 || t.pos == k.idx)
    if !met.all fun t => t.bits &&& bits == t.bits && t.bits != bits then .dup
    else
      let kept := terms.filter fun t => !met.contains t && t.bits &&& bits == 0
      if kept.length ≥ 64 then .up else .ok (kept ++ [new])

/-- An arrival `pk` of the node's current epoch, by a port, with the entry e that it found there (R368, R424, Table 16.4a). -/
def State.nodeTake (s : State) (r : FloeId) (n : BitVec 12) (e : StreamEnt) (pk : Packet) (port : Nat) (k : RedPkt) : State :=
  let x := s.node r n
  if k.idx < entLo e || entHi e < k.idx then s.passUp r e pk k
  else match takeIn e x.terms k (k.ptype = 1 || (k.ptype = 0 && !s.belongs r n k.idx port pk)) with
  | .dup => s.mapFloe r fun f => { f with rdup := BitVec.ofNat 32 (satAdd f.rdup.toNat 1 32) }
  | .up => s.passUp r e pk k
  | .ok terms =>
    let s1 := s.setNode r n { x with terms := terms }
    if x.fwd == some true then s1.nodeForward r n e false
    else if nodeFull e terms then s1.nodeForward r n e true
    else s1

/-- An arrival at a node (R368, R369, Table 16.4a). -/
def State.nodeArrive (s : State) (r : FloeId) (n : BitVec 12) (e : StreamEnt) (pk : Packet) (port : Nat) (k : RedPkt) : State :=
  let x := s.node r n
  let fresh := fun (s : State) => (s.setNode r n { fwd := some false, epoch := k.epoch }).nodeTake r n e pk port k
  let d := (k.epoch - x.epoch).toNat
  match x.fwd with
  | none => fresh s
  | some fwd =>
    if d = 0 then s.nodeTake r n e pk port k
    else if d ≥ 32768 then s.mapFloe r fun f => { f with rstale := BitVec.ofNat 32 (satAdd f.rstale.toNat 1 32) }
    else if fwd then fresh s
    else fresh (s.nodeForward r n e true)

/-- REDUCTION_PACKET_ARRIVAL (R363, R364, R369): at a node it is admitted or discarded; elsewhere it follows the
stream; a result that came by the OUT port goes down the IN ports. -/
def execReductionPacketArrival (p : Nat) (s : State) : Out :=
  .next (match s.streamHead p with
    | some (r, port, pk) =>
      (match pk.body with
      | .red k =>
        let e := s.entryFor r k.stream pk
        let drop := (s.takePacket p).rdropOne r
        if !entV e.d0 then drop
        else if k.ptype = 4 || k.ptype = 5 then
          if (entOut e.d0).testBit port then s.direct p r port pk (entIn e.d0) else drop
        else if k.ptype ≥ 6 || !(entIn e.d0).testBit port then drop
        else if e.marks.getLsbD port then s
        else if entRed e then (s.takePacket p).nodeArrive r k.stream e pk port k
        else s.direct p r port { pk with body := .red (redThrough k e) } (entOut e.d0)
      | _ => s)
    | none => s)

/-- REDUCTION_DEADLINE (R369): the timer of an OPEN node reaches DL. -/
def execReductionDeadline (f : FloeId) (stream : BitVec 12) (s : State) : Out :=
  .next (let e := s.entry f stream
    if entV e.d0 && entRed e && entDl e != 0 && (s.node f stream).fwd == some false then
      s.nodeForward f stream e true
    else s)

/-! ### Slots of RED endpoints (R378) -/

/-- The join of a RED endpoint (R376). -/
def Endpoint.redStream (ep : Endpoint) : BitVec 12 := ep.paddr.extractLsb' 0 12
def Endpoint.redIndex (ep : Endpoint) : Nat := (ep.pgen.extractLsb' 4 12).toNat
def Endpoint.redFmt (ep : Endpoint) : Nat := (ep.pgen.extractLsb' 0 2).toNat

def Endpoint.isRed (ep : Endpoint) : Bool := ep.st == .open && ep.proto == 7

/-- The outstanding epochs (R378). -/
def Endpoint.outEpochs (ep : Endpoint) : List (BitVec 16) :=
  (List.range ep.state.toNat).map fun i => ep.sseq - 1 - BitVec.ofNat 16 i

/-- Slots reserved for first results (R378). -/
def Endpoint.reservedSlots (ep : Endpoint) : Nat := (ep.outEpochs.filter fun q => !ep.inSlots.contains q).length

/-- Slots that hold a message. -/
def State.usedSlots (s : State) (c : CoreId) (e : EpId) : Nat :=
  ((List.range (s.epAt c e).slots).filter fun i => hdrF (s.slotHeader c e i)).length

/-- A record reaches a RED endpoint: a first result of an outstanding epoch has its slot; any other takes a free slot
that is not reserved, or is dropped (R378). -/
def State.placeRed (s : State) (c : CoreId) (e : EpId) (k : RedPkt) : State :=
  let ep := s.epAt c e
  let used := s.usedSlots c e
  let first := k.ptype == 4 && ep.outEpochs.contains k.epoch && !ep.inSlots.contains k.epoch
  if used ≥ ep.slots || (!first && used + ep.reservedSlots ≥ ep.slots) then s.rdropOne (floeOf c)
  else
    let s1 := s.fillSlot c e (ep.slotOf used) 4 k.ptype (ep.rseq + BitVec.ofNat 16 used)
      ((redRecord k).take (ep.slotu.toNat * 16 - 16))
    (s1.mapEpAt c e fun ep => if k.ptype == 4 then { ep with inSlots := k.epoch :: ep.inSlots } else ep).msgEvent c e true

/-- REDUCTION_RESULT_ARRIVAL (R378): a result at the RED endpoints of the floe that joined its stream, or a buddy copy
at its endpoint, once no engine holds bytes of their slots (R267, R284). -/
def execReductionResultArrival (p : Nat) (s : State) : Out :=
  let joined := fun (c : CoreId) (e : EpId) (k : RedPkt) => (s.epAt c e).isRed && (s.epAt c e).redStream == k.stream
  .next (match s.atUnit p with
    | some (.floe f, .redResult k) =>
      if (coresOf f).any fun c => allEps.any fun e => joined c e k && s.slotsHeld c e true then s.park p
      else (coresOf f).foldl (fun s c =>
        allEps.foldl (fun s e =>
          let ep := s.epAt c e
          if ep.isRed && ep.redStream == k.stream then s.placeRed c e k else s) s) (s.takePacket p)
    | some (.core c, .buddy e gen k) =>
      let ep := s.epAt c e
      let s1 := s.takePacket p
      if ep.gen == gen && ep.isRed && s.slotsHeld c e true then s.park p
      else if ep.gen == gen && ep.isRed then s1.placeRed c e { k with ptype := 6 } else s1
    | _ => s)

/-! ### Instructions (R374 to R380) -/

/-- SMARK (R375). -/
def execSmark (a : BitVec 5) (s : State) : Out :=
  s.issue 4 [a] [] [] fun l t =>
    let v := nthD 0 l 0
    if wf v 12 52 != 0 then .trap illOpnd
    else .ok { t with net := t.net ++ [streamPacket t.myFloe 1 1 (.marker (v.truncate 12)) t.cur.core] }

/-- The words that `rjoin` consumes are well formed (R74, R224, R376). -/
def joinWordsOk (x1 x2 : W) : Bool := wf x1 37 27 == 0 && decide (1 ≤ wf x1 28 9 ∧ wf x1 28 9 ≤ 257) && wf x2 0 12 == 0

/-- RJOIN (R376). -/
def execRjoin (a : BitVec 5) (e : BitVec 6) (s : State) : Out :=
  s.onEp e [a] [] [] (Res.check (joinWordsOk (s.ctx.rx 1) (s.ctx.rx 2)) illOpnd) fun l t =>
    let j := nthD 0 l 0
    let x1 := t.ctx.rx 1
    let x2 := t.ctx.rx 2
    let c := t.cur.core
    let stream : BitVec 12 := j.extractLsb' 52 12
    let ent := t.entry t.myFloe stream
    let b : Binding := ⟨7, 0, wf x1 0 22, wf x1 28 9, wf x1 22 6⟩
    if wf j 0 22 != 0 then .trap illOpnd
    else if (t.ep e).st == .lost then .trap (peerLost e)
    else Res.refuseIf ((t.ep e).st != .unbound) e 11 <|
      Res.refuseIf (b.slotu < 34 || b.depth > 3 || !t.me.bufferFits b) e 10 <|
      Res.refuseIf (!entV ent.d0 || !(entIn ent.d0).testBit 0 ||
        (entRed ent && (wf j 40 12 < entLo ent || entHi ent < wf j 40 12 || entFmt ent != wf j 38 2))) e 9 <|
      let peer := mkW [(t.address.toNat, 45), ((dieOf t.myFloe).toNat, 43), (5, 40), (stream.toNat, 28),
        (wf j 40 12, 16), (wf j 38 2, 12), (1, 0)]
      let recov := if x2 = 0 then 0 else (x2 &&& ~~~(0xFFF#64)) ||| 0x800
      if (t.mapEp e fun ep => ep.bindTo b .open).slotsHeld c e true then .block { kind := 5 } t else
      let t1 := (((t.refuseAsked c e).mapEp e fun ep => ep.bindTo b .open).openEp c e peer 0 recov false)
      .ok (t1.mapEp e fun ep => { ep with sseq := j.extractLsb' 22 16, inSlots := [] })

/-- A contribution or supply of an endpoint (R377, R379); OP and KM1 are those of the floe router's entry (log 31). -/
def State.contribution (s : State) (e : EpId) (ptype : Nat) (epoch : BitVec 16) (idx : Nat) (v : RedVal) : RedPkt :=
  let ep := s.ep e
  let ent := s.entry s.myFloe ep.redStream
  { stream := ep.redStream, ptype := ptype, epoch := epoch, idx := idx, exc := 0, rsh := false, set := 0
    fmt := ep.redFmt, op := entOp ent, km1 := entKm1 ent, seq := 0, nbf := 0, bits := 0, val := v }

/-- The packet leaves from port L of the floe's router (R377). -/
def State.sendRed (s : State) (k : RedPkt) : State :=
  { s with net := s.net ++ [streamPacket s.myFloe (redLen k) 2 (.red k) s.cur.core] }

/-- A scalar as the format of an endpoint holds it (R377). -/
def Endpoint.redScalar (ep : Endpoint) (w : W) : RedVal := .scalar (if ep.redFmt = 1 then w &&& 0xFFFFFFFF else w)

/-- Contributes a value for the epoch SSEQ, waiting for a slot (R377). -/
def State.putRed (s : State) (e : EpId) (v : RedVal) : Res State :=
  let ep := s.ep e
  let c := s.cur.core
  if s.slotsHeld c e false then .block { kind := 5 } s
  else if ep.state.toNat ≥ Nat.min 4 ep.slots || s.usedSlots c e + ep.reservedSlots ≥ ep.slots then
    .block { kind := 2, ep := e.toNat } s
  else
    let k := s.contribution e 0 ep.sseq ep.redIndex v
    let s1 := s.sendRed k
    let s2 :=
      if ep.rv then
        s1.send s.myFloe (.core (locCore ep.raddr)) (some (3145728 + c.toNat * 64 + e.toNat)) (64 * redLen k - 64)
          (.buddy (locEp ep.raddr) ep.rgen { k with ptype := 6 }) (some (locMod ep.raddr)) c
      else s1
    .ok (s2.mapEp e fun ep => { ep with sseq := ep.sseq + 1, state := ep.state + 1, lacnt := ep.lacnt + 1 })

/-- RPUT (R377). -/
def execRput (a : BitVec 5) (e : BitVec 6) (s : State) : Out :=
  s.onEp e [a] [] [] (.ok ()) fun l t =>
    (t.mayUse e 7 0).bind fun _ =>
      Res.refuseIf ((t.ep e).redFmt = 3) e 0 <| t.putRed e ((t.ep e).redScalar (nthD 0 l 0))

/-- RGET (R378). -/
def execRget (d : BitVec 5) (a : BitVec 5) (e : BitVec 6) (s : State) : Out :=
  s.onEp e [a] [d] [] (.ok ()) fun l t =>
    (t.mayUse e 7 0).bind fun _ =>
      let ep := t.ep e
      let c := t.cur.core
      let h := t.slotHeader c e 0
      t.unheld (t.headKey e) 16 true <|
      if !hdrF h then .block { kind := 1, ep := e.toNat } t
      else
        t.unheld (t.headKey e + 16) (hdrLen h) false <|
        let k := ep.slotKey c ep.head.toNat + 16
        let n := hdrLen h
        let r := t.rd8 k
        (if a = 0 then .ok [] else t.localUnits (nthD 0 l 0) { w := true } n).bind fun ks =>
          let pt := wf r 29 3
          let exc : BitVec 5 := if pt = 4 || pt = 5 then r.extractLsb' 24 5 else 0
          t.fpDone exc 0 0 fun t =>
            let epoch : BitVec 16 := r.extractLsb' 48 16
            let counted := pt == 4 && ep.outEpochs.contains epoch
            let t1 := ((t.writeUnits ks (memReads t.mem k n)).setG d (t.rd8 (k + 8))).freeSlot c e
            t1.mapEp e fun ep =>
              { ep with
                owed := 0, inSlots := if pt = 4 then ep.inSlots.erase epoch else ep.inSlots
                state := if counted then ep.state - 1 else ep.state, lacnt := if counted then ep.lacnt - 1 else ep.lacnt }

/-- RCORR (R379). -/
def execRcorr (a b : BitVec 5) (e : BitVec 6) (s : State) : Out :=
  s.onEp e [a, b] [] [] (.ok ()) fun l t =>
    let g := nthD 0 l 1
    (t.mayUse e 7 0).bind fun _ =>
      Res.refuseIf ((t.ep e).redFmt = 3) e 0 <|
      if wf g 12 36 != 0 then .trap illOpnd
      else .ok (t.sendRed (t.contribution e 1 (g.extractLsb' 48 16) (wf g 0 12) ((t.ep e).redScalar (nthD 0 l 0))))

/-- RTOPK (R380). -/
def execRtopk (a b : BitVec 5) (e : BitVec 6) (s : State) : Out :=
  s.onEp e [a, b] [] [] (.ok ()) fun l t =>
    let n := (nthD 0 l 1).toNat
    (t.mayUse e 7 0).bind fun _ =>
      Res.refuseIf ((t.ep e).redFmt != 3) e 0 <|
      if n = 0 || n > entKm1 (t.entry t.myFloe (t.ep e).redStream) + 1 then .trap illOpnd
      else (t.accessAll 8 { r := true } (dwordsAt (nthD 0 l 0) n)).bind fun ks =>
        let list := ks.map t.rd8
        if !topOk list then .trap illOpnd else (ks.foldl (fun t k => t.correct t.cur.core k 8) t).putRed e (.top list)

end Sys2Proof.Machine
end

