-- ==== Sys2Proof/Machine/Package.lean ====
section
/-! DEFINITION. The module: controller and walker faults, configuration images, key slots, attestation, launch, reset,
alarms, the host endpoint, management registers (R398, R415 to R430, R454). -/

namespace Sys2Proof.Machine

/-! ### Faults of controllers and walkers (R398) -/

/-- A controller faults: the module fails (R398, R427, Table 21.8). -/
def State.ctrlFault (s : State) (m : BitVec 5) : State := s.fail 1 4 (coreAt (ctrlFloe m) 0)

/-- INTERFACE_TRAINING_LOSS (R398). -/
def execInterfaceTrainingLoss (m : BitVec 5) (s : State) : Out := .next (s.ctrlFault m)

/-- FORWARDING_LANE_TIMEOUT (R398). -/
def execForwardingLaneTimeout (m : BitVec 5) (s : State) : Out := .next (s.ctrlFault m)

/-- WALKER_STATE_ERROR (R398). -/
def execWalkerStateError (die : BitVec 2) (s : State) : Out :=
  .next (s.fail 1 5 (coreAt (BitVec.ofNat 8 (die.toNat * 64)) 0))

/-! ### Alarms (R426, Table 21.7) -/

/-- The module as a whole (Table 21.8): D0.F32, core 0. -/
def moduleLoc : CoreId := 0x100

/-- The action of apol for a cause. -/
def State.action (s : State) (cause : Nat) : Nat := wf s.apol (2 * cause) 2

/-- ZEROISE (R426). -/
def State.zeroise (s : State) : State := { s with keys := [], ctrlKeys := [], keyWrites := [] }

/-- A halting alarm fails the module (R427), once for all the alarms of one clock cycle, which act together (R426). -/
def State.haltAlarm (s : State) : State :=
  if s.failing = some true then s else { s.fail 2 6 moduleLoc with failing := if s.failed then s.failing.map fun _ => true else some true }

/-- An alarm (R426): alog and MSI-X vector 0, then what apol says: log, halt, or halt and zeroise. While the loader writes
an image it halts whatever apol says. The host endpoint of a module that has failed has stopped (R427). -/
def State.alarm (s : State) (cause : Nat) : State :=
  let s1 : State :=
    { s with
      alog := s.alog ||| (1#6 <<< cause)
      hostOut := if s.failed && s.failing.isNone then s.hostOut else s.hostOut ++ [.msix 0] }
  match s.action cause with
  | 1 => s1.haltAlarm
  | 2 => s1.zeroise.haltAlarm
  | _ => if s.loading then s1.haltAlarm else s1

def execTamperDetector (s : State) : Out := .next (s.alarm 0)
def execVoltageDetector (s : State) : Out := .next (s.alarm 1)
def execClockDetector (s : State) : Out := .next (s.alarm 2)
def execFaultInjectionDetector (s : State) : Out := .next (s.alarm 3)

/-- POWER_THERMAL_TRIP (R427, R429). -/
def execPowerThermalTrip (s : State) : Out := .next (s.fail 3 6 moduleLoc)

/-! ### Configuration images (R423, R424) -/

/-- What the security controller answers to a command (R424, R425). -/
def State.status (s : State) (cmd st : Nat) : State := { s with hostOut := s.hostOut ++ [.status cmd st] }

def Image.dword (i : Image) (n : Nat) : W := nthD 0 i.header n
def imageType (i : Image) : Nat := wf (Image.dword i 0) 40 8
def imageKey (i : Image) : Nat := wf (Image.dword i 3) 0 1
def imageRollback (i : Image) : Nat := wf (Image.dword i 2) 0 32
def imageTarget (i : Image) : CoreId := (Image.dword i 1).extractLsb' 37 11

/-- What the body's bytes hold (Table 21.6, log 47). -/
def imageBody (i : Image) : Option ImageBody := Config.imageBody (imageType i) i.bytes

/-- TYPE of a body (Table 21.6). -/
def bodyType : ImageBody → Nat
  | .firmware _ => 1
  | .protocols _ => 2
  | .streams _ => 3
  | .routing _ => 4
  | .launchWords _ _ _ _ _ _ _ => 5
  | .policy _ => 6

/-- Check 1 (R424): MAGIC, VERSION, TYPE with its KEYID, LEN, reserved fields. -/
def imageWellFormed (i : Image) : Bool :=
  let d := Image.dword i
  i.header.length == 8 && wf (d 0) 48 16 == 0x5C1F && wf (d 0) 32 8 == 1 && decide (1 ≤ imageType i ∧ imageType i ≤ 6) &&
  wf (d 0) 0 32 == i.bytes.length && i.bytes.length % 64 == 0 && !(imageType i == 1 && imageKey i != 0) &&
  wf (d 1) 48 16 == 0 && wf (d 1) 0 37 == 0 && wf (d 2) 32 32 == 0 && wf (d 3) 1 63 == 0 &&
  d 4 == 0 && d 5 == 0 && d 6 == 0 && d 7 == 0

/-- Check 2 (R423, R424): the 1,280-byte signature over header and body. -/
def imageSigned (i : Image) : Bool :=
  i.sig.length == 1280 && Config.verifyImage (imageKey i) i.header i.bytes i.sig

/-- Check 4 (R424): the configuration region of the target, and writes on the target's die for streams. -/
def imageInRegion (i : Image) : Bool :=
  Config.inRegion (imageType i) (imageTarget i) &&
  match imageBody i with
  | some (.streams l) => l.all fun e => dieOf e.1 == dieOf (floeOf (imageTarget i))
  | _ => true

/-- The stream entries of a module once a table is written. -/
def State.withStreams (s : State) (l : List (FloeId × BitVec 12 × W × W)) : State :=
  l.foldl (fun s e => s.setEntry e.1 e.2.1 ⟨e.2.2.1, e.2.2.2, 0⟩) s

/-- The ports that any set of an entry sends to. -/
def allOut (e : StreamEnt) : List Nat :=
  if entV e.d0 then
    (List.range 6).filter fun p => (List.range (entNset e.d0 + 1)).any fun i => (entSet e.d0 i % 64).testBit p
  else []

/-- The routers that a stream reaches from a router in one hop. -/
def State.streamNext (s : State) (n : BitVec 12) (r : FloeId) : List FloeId :=
  (allOut (s.entry r n)).filterMap fun p => (linkEnd r p).map fun x => x.1

/-- The routers that a stream reaches from routers in at most k hops. -/
def State.streamReach (s : State) (n : BitVec 12) : Nat → List FloeId → List FloeId
  | 0, l => l
  | k + 1, l => s.streamReach n k (l ++ (l.flatMap (s.streamNext n)).eraseDups.filter fun r => !l.contains r)

/-- Whether the links of a stream's sets form a cycle through a router. -/
def State.streamCycle (s : State) (n : BitVec 12) (r : FloeId) : Bool :=
  (s.streamReach n 256 (s.streamNext n r)).contains r

/-- The range of an entry is nested in those of the nodes it reaches. -/
def State.nested (s : State) (n : BitVec 12) (r : FloeId) (e : StreamEnt) : Bool :=
  (s.streamReach n 256 (s.streamNext n r)).all fun q =>
    let p := s.entry q n
    !(entV p.d0 && entRed p) || (entLo p ≤ entLo e && entHi e ≤ entHi p)

/-- Whether a router has a port A (R415). -/
def hasPortA (r : FloeId) : Bool :=
  (linkEnd r 5).isSome || (fabricPortOf r).isSome || r.toNat % 64 % 9 == 0 || r == 32

/-- The loader's checks of one stream entry, in the table as it would stand (R362, R363). -/
def State.streamOk (s : State) (r : FloeId) (n : BitVec 12) : Bool :=
  let e := s.entry r n
  let sets := (List.range (entNset e.d0 + 1)).map (entSet e.d0)
  let size := entHi e + 1 - entLo e
  let root := sets.all fun x => x % 64 == 0
  !entV e.d0 ||
  (!(s.streamCycle n r) && (hasPortA r || sets.all fun x => !setNamesA x) &&
    (!entRed e ||
      (decide (entLo e ≤ entHi e) && (List.range 13).any (fun m => size == 2 ^ m) && entLo e % size == 0 &&
        s.nested n r e && sets.all (fun x => decide ((portsOf (x % 64)).length ≤ 1)) &&
        !(entOp e == 1 && entFmt e ≥ 2) && !(!root && size > 2048 && (entOp e == 1 || entFmt e == 3)) &&
        !(root && size > 2048 && entFmt e == 3) &&
        decide (((s.floe r).streams.filter fun x => entV x.2.d0 && entRed x.2).length ≤ 16))))

/-- Check 5 (R424): the content checks of the target; xroot by R388; an alarm policy lowers no field and holds no 3. A
stream is checked at every router that has an entry of it, in the tables as they would stand (R362). A body that holds
no content of its type fails (log 47). -/
def State.contentOk (s : State) (i : Image) : Bool :=
  let x := s.core (imageTarget i)
  (imageBody i).any fun b => bodyType b == imageType i &&
  match b with
  | .firmware _ => true
  | .protocols l => (l.all fun p => (checkImage p).isNone) &&
      (l.foldl (fun (st : Option Core) p => st.bind fun x => (x.protoSlot p).map fun n => x.install n p true) (some x)).isSome
  | .streams l =>
    let t := s.withStreams l
    l.all fun e => t.streamOk e.1 e.2.1 && t.floes.all fun f => t.streamOk (BitVec.ofNat 8 f.1) e.2.1
  | .routing l => l.length == 16
  | .launchWords part xroot _ _ _ _ _ =>
    !x.launched && wf xroot 48 8 == 0 && wf xroot 1 15 == 0 && wf xroot 40 8 == 0 && wf part 42 2 != 3 && wf part 40 2 != 3 &&
      wf part 44 6 != 0 && decide (wf part 44 6 + wf part 50 6 ≤ 48)
  | .policy v => (List.range 6).all fun k => wf v (2 * k) 2 != 3 && decide (wf s.apol (2 * k) 2 ≤ wf v (2 * k) 2)

/-- The loader writes a body into its target core, or into the floe or the die of it (Table 21.6). A reserved bit of a
launch word is ignored (R8). -/
def State.writeBody (s : State) (c : CoreId) (b : ImageBody) : State :=
  match b with
  | .firmware code => { s with firmware := some code }
  | .protocols l => s.mapCore c fun x => l.foldl (fun x p =>
      match x.protoSlot p with
      | some n =>
        let y := x.install n p true
        { y with protos := y.protos.map fun e => if e.1 = n then (n, { e.2 with pinned := true }) else e }
      | none => x) x
  | .streams l => s.keepEntries.withStreams l
  | .routing l => s.mapFloe (floeOf c) fun f => { f with routes := l }
  | .launchWords part xroot gmbox dqbase dqlim jdom pc =>
    s.mapCore c fun x =>
      { x with
        part := part &&& 0x00FFFF0000000000, xroot := xroot, tlb := []
        gmbox := mkW [(wf gmbox 63 1, 63), (wf gmbox 22 7, 22), (wf gmbox 9 13 * 512, 0)]
        dqbase := setField dqbase 0 3 0, dqlim := setField dqlim 0 3 0, top := 0, bot := 0
        jdom := jdom.truncate 32, launchPc := some (even pc) }
  | .policy v => { s with apol := v &&& 0xFFF }

/-- The loader writes an image (Table 21.6). -/
def State.writeImage (s : State) (i : Image) : State :=
  match imageBody i with
  | some b => s.writeBody (imageTarget i) b
  | none => s

/-- The measurement of a type after an image (R425). -/
def State.measure (s : State) (i : Image) : State :=
  let t := imageType i
  let all := (i.header.flatMap fun w => leBytes 8 w.toNat) ++ i.bytes ++ i.sig
  let old := s.measures.look (List.replicate 64 0) t
  { s with measures := s.measures.put t (shake256 (old ++ shake256 all 64) 64) }

/-- The alarm that an image raises (R424, Table 21.7): by its signature or rollback counter, or by its region. -/
def State.imageAlarm (s : State) (i : Image) : Option Nat :=
  if !imageWellFormed i then none
  else if !imageSigned i || imageRollback i < (s.rollback.look 0 (imageType i)).toNat then some 4
  else if !imageInRegion i then some 5
  else none

/-- An image under the checks of R424, in their order: refused with a status, an alarm, or written, measured and its
counter raised (R424, R425). The second part is the status, where there is one. -/
def State.takeImage (s : State) (i : Image) : State × Option Nat :=
  let t := imageType i
  let s := { s with loading := false }
  if !imageWellFormed i then (s, some 1)
  else match s.imageAlarm i with
    | some k => (s.alarm k, none)
    | none =>
      if !s.contentOk i then (s, some 5)
      else
        let s1 := (s.writeImage i).measure i
        ({ s1 with rollback := s1.rollback.put t (BitVec.ofNat 32 (imageRollback i)), loading := true }, some 0)

/-- Security command 1 (R424, R425). -/
def State.loadConfig (s : State) (i : Image) : State :=
  match s.takeImage i with
  | (t, some st) => t.status 1 st
  | (t, none) => t

/-- What an image does in the cycle in which the module has failed: nothing is written any more (R427), but its alarm still acts,
which ends what the loader was writing (R424, R426). -/
def State.alarmedBy (s : State) (i : Image) : State :=
  match s.imageAlarm i with
  | some k => ({ s with loading := false } : State).alarm k
  | none => s

/-- LOAD_CONFIGURATION_IMAGE (R424). -/
def execLoadConfigurationImage (i : Image) (s : State) : Out := .next (s.loadConfig i)

/-! ### Key slots (R418 to R420) -/

/-- The security controller writes a key slot; the write is on its way to each controller (R419). -/
def State.writeSlot (s : State) (slot : BitVec 7) (k : Option (List Byte)) : State :=
  { s with
    keys := match k with | some k => s.keys.put slot.toNat k | none => s.keys.drop slot.toNat
    keyWrites := s.keyWrites ++ (List.range 32).map fun m => (m, slot.toNat, k) }

/-- A key pair unwrapped under the fused owner wrapping key (Table 21.3). -/
def unwrapKey (wrapped : List Byte) : Option (List Byte) := kwUnwrap Config.wrappingKey wrapped

/-- LOAD_KEY_SLOT (Table 21.3): a key that fails unwrapping is refused with status 2. -/
def execLoadKeySlot (slot : BitVec 7) (wrapped : List Byte) (s : State) : Out :=
  .next (match unwrapKey wrapped with
    | some k => (s.writeSlot slot (some k)).status 2 0
    | none => s.status 2 2)

/-- INVALIDATE_KEY_SLOT (Table 21.3). -/
def execInvalidateKeySlot (slot : BitVec 7) (s : State) : Out := .next ((s.writeSlot slot none).status 3 0)

/-- KEY_SLOT_UPDATE_ARRIVAL (R419): the oldest write of a slot on its way to the controller reaches it. -/
def execKeySlotUpdateArrival (x : SlotCopy) (s : State) : Out :=
  .next (match s.keyWrites.find? fun w => w.1 == x.ctrl.toNat && w.2.1 == x.slot.toNat with
    | none => s
    | some w =>
      let n := x.ctrl.toNat * 128 + x.slot.toNat
      { s with
        keyWrites := s.keyWrites.erase w
        ctrlKeys := match w.2.2 with | some k => s.ctrlKeys.put n k | none => s.ctrlKeys.drop n })

/-! ### Attestation, launch, reset, bring-up (R420, R425, R427, R428) -/

/-- Valid bits of 64 key slots from n on (Table 21.4, keyv0 and keyv1). -/
def State.keyValid (s : State) (n : Nat) : W :=
  mkW ((List.range 64).map fun i => (b2n (s.keys.find (n + i)).isSome, i))

/-- What an attestation report holds (R425). -/
def State.reportBytes (s : State) (nonce : List Byte) : List Byte :=
  nonce ++ Config.serial ++ ((List.range 6).flatMap fun t => s.measures.look (List.replicate 64 0) (t + 1)) ++
  ((List.range 6).flatMap fun t => leBytes 4 (s.rollback.look 0 (t + 1)).toNat) ++
  leBytes 8 (s.keyValid 0).toNat ++ leBytes 8 (s.keyValid 64).toNat ++ [s.alog.zeroExtend 8]

/-- ATTESTATION_REPORT (R425): the report and its signature are written to the host. -/
def execAttestationReport (nonce : List Byte) (addr : W) (s : State) : Out :=
  .next (let r := s.reportBytes nonce
    ({ s with hostOut := s.hostOut ++ [.report addr (r ++ Config.signReport r)] } : State).status 4 0)

/-- A core with a type 5 image begins to issue at its c0, which holds a frame from then on (R28, R170, R171, Table 21.3): `w` is
the core's choice of it. -/
def Core.launch (x : Core) (w : W) : Core :=
  match x.launchPc with
  | some pc =>
    if x.launched then x
    else { (x.mapCtx 0 fun c =>
      { c with pc := pc, oddPc := none, life := .runnable, frame := w.toNat % frameCount x.part }) with launched := true }
  | none => x

/-- LAUNCH (R420, Table 21.3). -/
def execLaunch (s : State) : Out :=
  .next (if (s.keys.find 0).isNone then s.status 5 3
    else ({ s with
      cores := s.cores.map fun e => (e.1, e.2.launch (Config.freeWord (s.free + e.1 % 2048))), free := s.free + 2048 } : State).status 5 0)

/-- The module after module reset (R427): fused values, the flash, rollback counters and alog stay; so do what the host has been
told and the model's own account of what comes next (log 1). -/
def State.afterReset (s : State) : State :=
  { State.reset with
    flash := s.flash, rollback := s.rollback, alog := s.alog, hostOut := s.hostOut, agenda := s.agenda, free := s.free }

/-- MODULE_RESET (R427). -/
def execModuleReset (s : State) : Out := .next s.afterReset

/-- BRING_UP (R428): the module as power-on leaves it, its firmware taken from the module flash under the checks of R424,
before the host loads keys and images (log 50). -/
def execBringUp (s : State) : Out :=
  let t : State := { s.afterReset with alog := 0 }
  .next (match s.flash with
    | some fw => if imageType fw = 1 then (t.takeImage fw).1 else t
    | none => t)

/-! ### The host endpoint (R422) -/

/-- The one physical function that the module presents over PCI Express (R421). -/
structure PciFunction where
  classCode : BitVec 24
  functions : Nat
  virtualFunctions : Nat
  bar0Bytes : Nat
  bar0Wide  : Bool
  vectors   : Nat
  deriving DecidableEq, Repr

def pciFunction : PciFunction :=
  { classCode := 0x120000, functions := 1, virtualFunctions := 0, bar0Bytes := 2 ^ 20, bar0Wide := true, vectors := 64 }

/-- The stride of a channel ring's entries in bytes, and how many a ring has (R422). -/
def entryStride : Nat := 4160
def chanRing : Nat := 32
def launchRing : Nat := 256

/-- The host closes a channel at its end (R211, R422), which is gone: a close goes to the core endpoint. -/
def State.hostClose (s : State) (n : Nat) : State :=
  match s.chans.find n with
  | none => s
  | some ch =>
    ({ s with
      hwEnds := s.hwEnds.filter fun h => !h.isFor ch.core ch.ep ch.gen
      chans := if ch.cmod == s.address then s.chans else s.chans.drop n } : State).send 32 (.core ch.core) none 0
      (.close ch.ep ch.gen) (some ch.cmod) (coreAt 32 0) 5

/-- HOST_CHANNEL_DOORBELL (R422): host entries of a channel are taken, of the 32 that its ring holds. -/
def execHostChannelDoorbell (ch : BitVec 10) (l : List HostEntry) (s : State) : Out :=
  .next (match s.chans.find ch.toNat with
    | none => s
    | some c =>
      ({ s with chans := s.chans.put ch.toNat { c with ring := (c.ring ++ l).take chanRing } } : State).hostPump ch.toNat)

/-- LAUNCH_RING_DOORBELL (R422): TASK requests of the ring's 256 entries, each a handle and a record, go to the dispensers the handles name. -/
def execLaunchRingDoorbell (l : List (W × List W)) (s : State) : Out :=
  .next ((l.take launchRing).foldl (fun s e =>
    s.send 32 (.floe (BitVec.ofNat 8 (wf e.1 40 8))) none 128 (.task 0 0 true e.2 e.1) none (coreAt 32 0) 5) s)

/-- The event of a security command (Table 21.3). -/
def secEvent : SecCmd → Option Instr
  | .image i => some (.loadConfigurationImage i)
  | .loadKey n k => some (.loadKeySlot n k)
  | .dropKey n => some (.invalidateKeySlot n)
  | .attest n a => some (.attestationReport n a)
  | .launch => some .launch
  | .reset => some .moduleReset
  | .unknown _ => none

/-- SECURITY_RING_DOORBELL (R422): the security controller takes the next command. -/
def execSecurityRingDoorbell (cmd : SecCmd) (s : State) : Out :=
  .next (match secEvent cmd with
    | some e => { s with agenda := .event e :: s.agenda }
    | none => s)

/-- HOST_CHANNEL_MESSAGE (R422): a message of a core is written into its channel's receive ring, then vector 2 is
signalled; the host returns its credit (R208). -/
def execHostChannelMessage (p : Nat) (s : State) : Out :=
  .next (match s.arrived p with
    | none => s
    | some pk =>
      match pk.body, pk.dst with
      | .msg e g cls typ seq n payload, .host =>
        let s1 := (s.takePacket p).hwTakes pk.src e g
        match s1.chanOf pk.src e g with
        | none => s1
        | some h =>
          let s2 : State :=
            { s1 with
              chans := s1.chans.put h.1 { h.2 with rx := h.2.rx + 1 }
              hostOut := s1.hostOut ++ [.message h.1 h.2.rx (h.2.rx.toNat * entryStride) cls typ seq payload, .msix 2] }
          (s2.hostCredit pk.src e g n).send 32 (.core h.2.core) none 0 (.credit h.2.ep h.2.gen 1) (some h.2.cmod) (coreAt 32 0) 5
      | _, _ => s)

/-! ### Management registers (R430, Tables 21.4 and 23.5) -/

/-- The static I3C address (R430). -/
def i3cStatic : BitVec 7 := 0x3A

/-- Whether the management registers answer an access: over BAR0 (`via` none) until the host endpoint has stopped (R427),
at the static or the dynamic I3C address always (R430, log 50). -/
def State.reachable (s : State) (via : Option (BitVec 7)) : Bool :=
  match via with
  | none => !(s.failed && s.failing.isNone)
  | some a => a == i3cStatic || s.i3c == some a

/-- Register n of Table 21.4, and over BAR0 those of Table 23.5; an unlisted number reads 0 (log 50). -/
def State.register (s : State) (n : BitVec 12) : W :=
  let i := n.toNat
  if i = 0x000 then s.mfault
  else if i = 0x008 then s.apol
  else if i = 0x010 then s.alog.zeroExtend 64
  else if i = 0x018 then s.pcap.zeroExtend 64
  else if i = 0x020 then s.tmax.zeroExtend 64
  else if i = 0x028 then s.pwr.zeroExtend 64
  else if 0x040 ≤ i ∧ i < 0x140 ∧ i % 8 = 0 then s.mecc.look 0 ((i - 0x040) / 8)
  else if i = 0x140 then s.keyValid 0
  else if i = 0x148 then s.keyValid 64
  else if i = 0x200 then s.fid
  else if i = 0x208 then s.fstat
  else if i = 0x210 then s.fretry.zeroExtend 64
  else if i = 0x218 then s.fdrop.zeroExtend 64
  else if i = 0x220 then s.flost
  else 0

/-- A read of a management register answers its reader (R430). -/
def State.readRegister (s : State) (via : Option (BitVec 7)) (n : BitVec 12) : State :=
  if s.reachable via then { s with hostOut := s.hostOut ++ [.register n (s.register n)] } else s

/-- MANAGEMENT_REGISTER_WRITE (R430): a write over BAR0 or I3C. Read-only registers and unlisted numbers keep theirs. -/
def execManagementRegisterWrite (reg : RegAccess) (v : W) (s : State) : Out :=
  .next (let i := reg.num.toNat
    if !s.reachable reg.via then s
    else if i = 0x010 then { s with alog := s.alog &&& v.truncate 6 }
    else if i = 0x018 then
      (if 600 ≤ wf v 0 16 ∧ wf v 0 16 ≤ 2400 then { s with pcap := v.truncate 16 } else s)
    else if 0x040 ≤ i ∧ i < 0x140 ∧ i % 8 = 0 then { s with mecc := s.mecc.put ((i - 0x040) / 8) v }
    else if i = 0x200 then s.writeFid v
    else if i = 0x210 then { s with fretry := v.truncate 32 }
    else if i = 0x218 then { s with fdrop := v.truncate 32 }
    else if i = 0x220 then s.writeFlost v
    else s)

/-- I3C_DYNAMIC_ADDRESS_ASSIGNMENT (R430). -/
def execI3cDynamicAddressAssignment (a : BitVec 7) (s : State) : Out := .next { s with i3c := some a }

end Sys2Proof.Machine
end

