-- ==== Sys2Proof/Machine/Vector.lean ====
section
/-! DEFINITION. Vector instructions: floating-point and integer lanes, reductions, masks, permutes and vector
memory (R14, R47, R122 to R133). -/

namespace Sys2Proof.Machine

/-! ### Lanes (R14, R122) -/

def lanesOf (w : Nat) (v : V) : List Nat := (List.range (1024 / w)).map fun i => bits v.toNat (w * i) w

def ofLanes (w : Nat) (l : List Nat) : V := BitVec.ofNat 1024 (l.foldr (fun x acc => x % 2 ^ w + acc * 2 ^ w) 0)

/-- Whether a mask governs lane i as active. -/
def active (q : W) (w i : Nat) : Bool := q.getLsbD (if w = 8 then i / 2 else i)

/-- Lanes with their index. -/
def indexed {α : Type} (l : List α) : List (Nat × α) := (List.range l.length).zip l

/-- The new lanes where active, else the old. -/
def mergeLanes (q : W) (w : Nat) (old new : List Nat) : List Nat :=
  (indexed (old.zip new)).map fun p => if active q w p.1 then p.2.2 else p.2.1

/-- The lanes of several registers, side by side. -/
def rowsOf (l : List (List Nat)) (n : Nat) : List (List Nat) := (List.range n).map fun i => l.map fun r => nthD 0 r i

/-- The trap decision of a vector instruction on the exceptions of its active lanes (R47). -/
def State.vecDone (s : State) (lanes : List (Nat × BitVec 5)) (turns : Nat) (k : State → State) : Res State :=
  let lane := ((lanes.find? fun p => p.2 &&& s.ctx.enables != 0).map fun p => p.1).getD 0
  s.fpDone (orAll (lanes.map fun p => p.2)) lane turns k

/-! ### Floating-point lanes (Table 5.7) -/

/-- The lane results of the active lanes, with whether the normaliser serves one: `sub` tells a subnormal
source. -/
def fpLanes (f : Fmt) (sub : Nat → Bool) (q : W) (rows : List (List Nat)) (op : List Nat → FRes) :
    List (Nat × Option FRes) × Bool :=
  let rs := (indexed rows).map fun p => (p.1, if active q f.width p.1 then some (op p.2) else none)
  (rs, ((indexed rows).zip rs).any fun p =>
    match p.2.2 with
    | some r => r.slow || p.1.2.any sub
    | none => false)

/-- vD := op on lanes of the registers `src`, under the mask. -/
def State.vecF (s : State) (l : BitVec 2) (m : BitVec 2) (d : Reg) (src : List Reg) (turns : Nat)
    (op : Fmt → Nat → List Nat → FRes) (sub : Fmt → Nat → Bool := Fmt.isSub) : Out :=
  s.issue 4 [] [] (d :: src) fun _ t =>
    let f := fpFmt l.toNat
    let q := t.ctx.rq m
    let mode := rmOf t.ctx.fst 7
    let rows := rowsOf (src.map fun r => lanesOf f.width (t.ctx.rv r)) (1024 / f.width)
    let (rs, slow) := fpLanes f (sub f) q rows (op f mode)
    t.vecDone (rs.filterMap fun p => p.2.map fun r => (p.1, r.f)) (turns + slowTurns 4 slow) fun t =>
      t.setV d (ofLanes f.width (((lanesOf f.width (t.ctx.rv d)).zip rs).map fun p =>
        match p.2.2 with | some r => r.v | none => p.1))

/-- qD from a lane test (R124): bits at or above the lane count are 0, masked-off lanes keep theirs. -/
def cmpMask (old q : W) (w n : Nat) (test : Nat → Bool) : W :=
  BitVec.ofNat 64 (place ((List.range n).map fun i =>
    (b2n (if active q w i then test i else old.getLsbD i), i)))

/-- A floating-point lane compare. -/
def State.vecCmpF (s : State) (l m : BitVec 2) (d : BitVec 2) (a b : Reg) (op : Nat) : Out :=
  s.issue 4 [] [] [a, b] fun _ t =>
    let f := fpFmt l.toNat
    let q := t.ctx.rq m
    let n := 1024 / f.width
    let rows := (lanesOf f.width (t.ctx.rv a)).zip (lanesOf f.width (t.ctx.rv b))
    let rs := rows.map fun p => f.compare op p.1 p.2
    let act := (List.range n).filter fun i => active q f.width i
    let slow := (indexed rows).any fun p => active q f.width p.1 && (f.isSub p.2.1 || f.isSub p.2.2)
    t.vecDone (act.map fun i => (i, (nthD (false, 0) rs i).2)) (slowTurns 4 slow) fun t =>
      t.setQ d (cmpMask (t.ctx.rq d) q f.width n fun i => (nthD (false, 0) rs i).1)

/-- A scalar reduction over a tree whose first operations may be given (R127). -/
def State.redDone (s : State) (d : Reg) (v : Nat) (ops : List TreeOp) (slow : Bool) : Res State :=
  s.vecDone (ops.map fun o => (o.lane, o.f)) (slowTurns 4 slow) fun t => t.setG d (BitVec.ofNat 64 v)

/-- Present lanes as the terms of a tree. -/
def leaves (q : W) (w : Nat) (l : List Nat) : List Leaf :=
  (indexed l).map fun p => if active q w p.1 then some p else none

/-- vredsum, vredmin, vredmax in floating-point lanes. -/
def State.vecRedF (s : State) (l m : BitVec 2) (d a : Reg) (op : Fmt → Nat → Nat → Nat → FRes) : Out :=
  s.issue 4 [] [d] [a] fun _ t =>
    let f := fpFmt l.toNat
    let q := t.ctx.rq m
    let ls := lanesOf f.width (t.ctx.rv a)
    let (v, ops, slow) := tree (op f (rmOf t.ctx.fst 7)) (leaves q f.width ls)
    let subIn := (indexed ls).any fun p => active q f.width p.1 && f.isSub p.2
    t.redDone d v ops (slow || subIn)

/-- The first level of vdot: pairs of lanes (R56, R127). -/
def dotLevel (f : Fmt) (mode : Nat) (q : W) : List (Nat × Nat × Nat) → List Leaf × List TreeOp × Bool
  | (i, a, b) :: (j, c, e) :: l =>
    let (r, ops, slow) := dotLevel f mode q l
    let add := fun (lane : Nat) (v : FRes) => ((some (lane, v.v) :: r, ⟨lane, v.f⟩ :: ops, v.slow || slow) :
      List Leaf × List TreeOp × Bool)
    match active q f.width i, active q f.width j with
    | true, true =>
      let x := f.decode a
      let y := f.decode b
      let z := f.decode c
      let w := f.decode e
      add i (f.fused mode [x, z, y, w] [(x, y), (z, w)] [])
    | true, false => add i (f.mul mode a b)
    | false, true => add j (f.mul mode c e)
    | false, false => (none :: r, ops, slow)
  | _ => ([], [], false)

/-- vsel (R125). -/
def State.vecSel (s : State) (w : Nat) (m : BitVec 2) (d a b : Reg) (sub : Nat → Bool) : Out :=
  s.issue 4 [] [] [d, a, b] fun _ t =>
    let q := t.ctx.rq m
    let l := mergeLanes q w (lanesOf w (t.ctx.rv b)) (lanesOf w (t.ctx.rv a))
    .ok ((t.setV d (ofLanes w l)).forfeits (slowTurns 4 (l.any sub)))

def execVaddFp (d a b : BitVec 5) (m l : BitVec 2) (s : State) : Out :=
  s.vecF l m d [a, b] 0 fun f mode x => f.add mode (nthD 0 x 0) (nthD 0 x 1)

def execVsubFp (d a b : BitVec 5) (m l : BitVec 2) (s : State) : Out :=
  s.vecF l m d [a, b] 0 fun f mode x => f.sub mode (nthD 0 x 0) (nthD 0 x 1)

def execVmulFp (d a b : BitVec 5) (m l : BitVec 2) (s : State) : Out :=
  s.vecF l m d [a, b] 0 fun f mode x => f.mul mode (nthD 0 x 0) (nthD 0 x 1)

def execVdiv (d a b : BitVec 5) (m l : BitVec 2) (s : State) : Out :=
  s.vecF l m d [a, b] 8 fun f mode x => f.div mode (nthD 0 x 0) (nthD 0 x 1)

def execVsqrt (d a : BitVec 5) (m l : BitVec 2) (s : State) : Out :=
  s.vecF l m d [a] 8 fun f mode x => f.sqrt mode (nthD 0 x 0)

def execVminFp (d a b : BitVec 5) (m l : BitVec 2) (s : State) : Out :=
  s.vecF l m d [a, b] 0 fun f _ x => (f.minmax false false (nthD 0 x 0) (nthD 0 x 1))

def execVmaxFp (d a b : BitVec 5) (m l : BitVec 2) (s : State) : Out :=
  s.vecF l m d [a, b] 0 fun f _ x => f.minmax true false (nthD 0 x 0) (nthD 0 x 1)

def execVfmadd (d a b : BitVec 5) (m l : BitVec 2) (s : State) : Out :=
  s.vecF l m d [a, b, d] 0 fun f mode x => f.fma mode false false (nthD 0 x 0) (nthD 0 x 1) (nthD 0 x 2)

def execVfmsub (d a b : BitVec 5) (m l : BitVec 2) (s : State) : Out :=
  s.vecF l m d [a, b, d] 0 fun f mode x => f.fma mode false true (nthD 0 x 0) (nthD 0 x 1) (nthD 0 x 2)

def execVfnmadd (d a b : BitVec 5) (m l : BitVec 2) (s : State) : Out :=
  s.vecF l m d [a, b, d] 0 fun f mode x => f.fma mode true false (nthD 0 x 0) (nthD 0 x 1) (nthD 0 x 2)

def execVsgnj (d a b : BitVec 5) (m l : BitVec 2) (s : State) : Out :=
  s.vecF l m d [a, b] 0 fun f _ x => ⟨f.signInject 0 (nthD 0 x 0) (nthD 0 x 1), 0, false⟩

def execVsgnjn (d a b : BitVec 5) (m l : BitVec 2) (s : State) : Out :=
  s.vecF l m d [a, b] 0 fun f _ x => ⟨f.signInject 1 (nthD 0 x 0) (nthD 0 x 1), 0, false⟩

def execVsgnjx (d a b : BitVec 5) (m l : BitVec 2) (s : State) : Out :=
  s.vecF l m d [a, b] 0 fun f _ x => ⟨f.signInject 2 (nthD 0 x 0) (nthD 0 x 1), 0, false⟩

def execVcmpeqFp (q : BitVec 2) (a b : BitVec 5) (m l : BitVec 2) (s : State) : Out := s.vecCmpF l m q a b 0

def execVcmpltFp (q : BitVec 2) (a b : BitVec 5) (m l : BitVec 2) (s : State) : Out := s.vecCmpF l m q a b 1

def execVcmple (q : BitVec 2) (a b : BitVec 5) (m l : BitVec 2) (s : State) : Out := s.vecCmpF l m q a b 2

def execVcmpun (q : BitVec 2) (a b : BitVec 5) (m l : BitVec 2) (s : State) : Out := s.vecCmpF l m q a b 3

def execVcvti (d a : BitVec 5) (m l : BitVec 2) (s : State) : Out :=
  s.vecF l m d [a] 0 fun f mode x =>
    let (v, fl) := toInt f.width true mode (f.decode (nthD 0 x 0))
    ⟨bitsOf f.width v, fl, false⟩

def execVredsumFp (d a : BitVec 5) (m l : BitVec 2) (s : State) : Out := s.vecRedF l m d a fun f mode => f.add mode
def execVredminFp (d a : BitVec 5) (m l : BitVec 2) (s : State) : Out := s.vecRedF l m d a fun f _ => f.minmax false false
def execVredmaxFp (d a : BitVec 5) (m l : BitVec 2) (s : State) : Out := s.vecRedF l m d a fun f _ => f.minmax true false

def execVdot (d a b : BitVec 5) (m l : BitVec 2) (s : State) : Out :=
  s.issue 4 [] [d] [a, b] fun _ t =>
    let f := fpFmt l.toNat
    let q := t.ctx.rq m
    let mode := rmOf t.ctx.fst 7
    let rows := indexed ((lanesOf f.width (t.ctx.rv a)).zip (lanesOf f.width (t.ctx.rv b)))
    let (first, ops, slow) := dotLevel f mode q rows
    let (v, ops1, slow1) := tree (f.add mode) first
    let subIn := rows.any fun p => active q f.width p.1 && (f.isSub p.2.1 || f.isSub p.2.2)
    t.redDone d v (ops ++ ops1) (slow || slow1 || subIn)

def execVselFp (d a b : BitVec 5) (m l : BitVec 2) (s : State) : Out :=
  s.vecSel (fpFmt l.toNat).width m d a b (fpFmt l.toNat).isSub

/-! ### Integer lanes (Table 5.8) -/

/-- The lane width of integer lane formats and of permutes: 64, 32, 16, 8. -/
def laneW (l : BitVec 2) : Nat := 64 / 2 ^ l.toNat

/-- vD := op on integer lanes, under the mask. -/
def State.vecI (s : State) (l m : BitVec 2) (d : Reg) (src : List Reg) (op : Nat → List Nat → Nat) : Out :=
  s.issue 4 [] [] (d :: src) fun _ t =>
    let w := laneW l
    let rows := rowsOf (src.map fun r => lanesOf w (t.ctx.rv r)) (1024 / w)
    .ok (t.setV d (ofLanes w (mergeLanes (t.ctx.rq m) w (lanesOf w (t.ctx.rv d)) (rows.map (op w)))))

/-- An integer lane compare. -/
def State.vecCmpI (s : State) (l m d : BitVec 2) (a b : Reg) (op : Nat → Nat → Nat → Bool) : Out :=
  s.issue 4 [] [] [a, b] fun _ t =>
    let w := laneW l
    let x := lanesOf w (t.ctx.rv a)
    let y := lanesOf w (t.ctx.rv b)
    .ok (t.setQ d (cmpMask (t.ctx.rq d) (t.ctx.rq m) w (1024 / w) fun i => op w (nthD 0 x i) (nthD 0 y i)))

/-- A reduction of the present lanes as integers; 0 with none (R127). -/
def State.vecRedI (s : State) (l m : BitVec 2) (d a : Reg) (op : Int → Int → Int) : Out :=
  s.issue 4 [] [d] [a] fun _ t =>
    let w := laneW l
    let xs := (indexed (lanesOf w (t.ctx.rv a))).filterMap fun p =>
      if active (t.ctx.rq m) w p.1 then some (intOf w true p.2) else none
    let v := match xs with | [] => 0 | x :: l => l.foldl op x
    .ok (t.setG d (BitVec.ofInt 64 (intOf w true (bitsOf w v))))

/-- Signed lane values. -/
def sL (w : Nat) (x : Nat) : Int := intOf w true x

def execVaddInt (d a b : BitVec 5) (m l : BitVec 2) (s : State) : Out := s.vecI l m d [a, b] fun _ x => (nthD 0 x 0) + (nthD 0 x 1)
def execVsubInt (d a b : BitVec 5) (m l : BitVec 2) (s : State) : Out := s.vecI l m d [a, b] fun w x => (nthD 0 x 0) + 2 ^ w - (nthD 0 x 1)
def execVmulInt (d a b : BitVec 5) (m l : BitVec 2) (s : State) : Out := s.vecI l m d [a, b] fun _ x => (nthD 0 x 0) * (nthD 0 x 1)
def execVmulh (d a b : BitVec 5) (m l : BitVec 2) (s : State) : Out := s.vecI l m d [a, b] fun w x => bitsOf w (sL w (nthD 0 x 0) * sL w (nthD 0 x 1) / 2 ^ w)
def execVminInt (d a b : BitVec 5) (m l : BitVec 2) (s : State) : Out := s.vecI l m d [a, b] fun w x => if sL w (nthD 0 x 0) ≤ sL w (nthD 0 x 1) then (nthD 0 x 0) else (nthD 0 x 1)
def execVmaxInt (d a b : BitVec 5) (m l : BitVec 2) (s : State) : Out := s.vecI l m d [a, b] fun w x => if sL w (nthD 0 x 0) ≤ sL w (nthD 0 x 1) then (nthD 0 x 1) else (nthD 0 x 0)
def execVminu (d a b : BitVec 5) (m l : BitVec 2) (s : State) : Out := s.vecI l m d [a, b] fun _ x => Nat.min (nthD 0 x 0) (nthD 0 x 1)
def execVmaxu (d a b : BitVec 5) (m l : BitVec 2) (s : State) : Out := s.vecI l m d [a, b] fun _ x => Nat.max (nthD 0 x 0) (nthD 0 x 1)
def execVaddss (d a b : BitVec 5) (m l : BitVec 2) (s : State) : Out := s.vecI l m d [a, b] fun w x => bitsOf w (clampInt w true (sL w (nthD 0 x 0) + sL w (nthD 0 x 1)))
def execVsubss (d a b : BitVec 5) (m l : BitVec 2) (s : State) : Out := s.vecI l m d [a, b] fun w x => bitsOf w (clampInt w true (sL w (nthD 0 x 0) - sL w (nthD 0 x 1)))
def execVaddus (d a b : BitVec 5) (m l : BitVec 2) (s : State) : Out := s.vecI l m d [a, b] fun w x => Nat.min ((nthD 0 x 0) + (nthD 0 x 1)) (2 ^ w - 1)
def execVsubus (d a b : BitVec 5) (m l : BitVec 2) (s : State) : Out := s.vecI l m d [a, b] fun _ x => (nthD 0 x 0) - (nthD 0 x 1)
def execVand (d a b : BitVec 5) (m l : BitVec 2) (s : State) : Out := s.vecI l m d [a, b] fun _ x => (nthD 0 x 0) &&& (nthD 0 x 1)
def execVor (d a b : BitVec 5) (m l : BitVec 2) (s : State) : Out := s.vecI l m d [a, b] fun _ x => (nthD 0 x 0) ||| (nthD 0 x 1)
def execVxor (d a b : BitVec 5) (m l : BitVec 2) (s : State) : Out := s.vecI l m d [a, b] fun _ x => (nthD 0 x 0) ^^^ (nthD 0 x 1)
def execVandn (d a b : BitVec 5) (m l : BitVec 2) (s : State) : Out := s.vecI l m d [a, b] fun w x => (nthD 0 x 0) &&& ((nthD 0 x 1) ^^^ (2 ^ w - 1))
def execVsll (d a b : BitVec 5) (m l : BitVec 2) (s : State) : Out := s.vecI l m d [a, b] fun w x => (nthD 0 x 0) * 2 ^ ((nthD 0 x 1) % w)
def execVsrl (d a b : BitVec 5) (m l : BitVec 2) (s : State) : Out := s.vecI l m d [a, b] fun w x => (nthD 0 x 0) / 2 ^ ((nthD 0 x 1) % w)
def execVsra (d a b : BitVec 5) (m l : BitVec 2) (s : State) : Out := s.vecI l m d [a, b] fun w x => bitsOf w (sL w (nthD 0 x 0) / 2 ^ ((nthD 0 x 1) % w))
def execVmla (d a b : BitVec 5) (m l : BitVec 2) (s : State) : Out := s.vecI l m d [a, b, d] fun _ x => (nthD 0 x 2) + (nthD 0 x 0) * (nthD 0 x 1)
def execVcmpeqInt (q : BitVec 2) (a b : BitVec 5) (m l : BitVec 2) (s : State) : Out := s.vecCmpI l m q a b fun _ x y => x == y
def execVcmpltInt (q : BitVec 2) (a b : BitVec 5) (m l : BitVec 2) (s : State) : Out := s.vecCmpI l m q a b fun w x y => decide (sL w x < sL w y)
def execVcmpltu (q : BitVec 2) (a b : BitVec 5) (m l : BitVec 2) (s : State) : Out := s.vecCmpI l m q a b fun _ x y => decide (x < y)

/-- vcvtf (Table 5.8): the floating format of the lane's width; an integer source is never subnormal. -/
def execVcvtf (d a : BitVec 5) (m l : BitVec 2) (s : State) : Out :=
  s.vecF l m d [a] 0 (fun f mode x => f.convert mode false (.ofInt (intOf f.width true (nthD 0 x 0)))) fun _ _ => false

def execVredsumInt (d a : BitVec 5) (m l : BitVec 2) (s : State) : Out := s.vecRedI l m d a fun x y => x + y
def execVredminInt (d a : BitVec 5) (m l : BitVec 2) (s : State) : Out := s.vecRedI l m d a fun x y => if x ≤ y then x else y
def execVredmaxInt (d a : BitVec 5) (m l : BitVec 2) (s : State) : Out := s.vecRedI l m d a fun x y => if x ≤ y then y else x
def execVselInt (d a b : BitVec 5) (m l : BitVec 2) (s : State) : Out := s.vecSel (laneW l) m d a b fun _ => false

/-! ### Masks (Table 5.9) -/

def execQand (d a b : BitVec 2) (s : State) : Out := s.finish 4 (.ok (s.setQ d (s.ctx.rq a &&& s.ctx.rq b)))
def execQor (d a b : BitVec 2) (s : State) : Out := s.finish 4 (.ok (s.setQ d (s.ctx.rq a ||| s.ctx.rq b)))
def execQxor (d a b : BitVec 2) (s : State) : Out := s.finish 4 (.ok (s.setQ d (s.ctx.rq a ^^^ s.ctx.rq b)))
def execQandn (d a b : BitVec 2) (s : State) : Out := s.finish 4 (.ok (s.setQ d (s.ctx.rq a &&& ~~~s.ctx.rq b)))
def execQget (d : BitVec 5) (a : BitVec 2) (s : State) : Out :=
  s.issue 4 [] [d] [] fun _ t => .ok (t.setG d (t.ctx.rq a))
def execQput (d : BitVec 2) (a : BitVec 5) (s : State) : Out :=
  s.issue 4 [a] [] [] fun l t => .ok (t.setQ d (nthD 0 l 0))

/-! ### Permutes (Table 5.10) -/

/-- vD := the lanes that `op` makes of the lanes of vA (and vB), under the mask. -/
def State.permute (s : State) (w : BitVec 2) (m : BitVec 2) (d : Reg) (src : List Reg) (g : List Reg)
    (op : Nat → List (List Nat) → List W → List Nat) : Out :=
  s.issue 4 g [] (d :: src) fun l t =>
    let w := laneW w
    let new := op w (src.map fun r => lanesOf w (t.ctx.rv r)) l
    .ok (t.setV d (ofLanes w (mergeLanes (t.ctx.rq m) w (lanesOf w (t.ctx.rv d)) new)))

/-- Lanes by index. -/
def build (w : Nat) (f : Nat → Nat) : List Nat := (List.range (1024 / w)).map f

def execVperm (d a b : BitVec 5) (m w : BitVec 2) (s : State) : Out :=
  s.permute w m d [a, b] [] fun w r _ =>
    build w fun i => nthD 0 (nthD [] r 0) (nthD 0 (nthD [] r 1) i % (1024 / w))

/-- Lanes of two registers interleaved, from lane `lo` up. -/
def zipFrom (lo : Nat) (r : List (List Nat)) (i : Nat) : Nat := nthD 0 (nthD [] r (i % 2)) (lo + i / 2)

def execVzip (d a b : BitVec 5) (m w : BitVec 2) (s : State) : Out :=
  s.permute w m d [a, b] [] fun w r _ => build w (zipFrom 0 r)

def execVziph (d a b : BitVec 5) (m w : BitVec 2) (s : State) : Out :=
  s.permute w m d [a, b] [] fun w r _ => build w (zipFrom (1024 / w / 2) r)

def execVslideup (d a b : BitVec 5) (m w : BitVec 2) (s : State) : Out :=
  s.permute w m d [a] [b] fun w r l =>
    let k := (nthD 0 l 0).toNat
    build w fun i => if i ≥ k then nthD 0 (nthD [] r 0) (i - k) else 0

def execVslidedn (d a b : BitVec 5) (m w : BitVec 2) (s : State) : Out :=
  s.permute w m d [a] [b] fun w r l =>
    let k := (nthD 0 l 0).toNat
    build w fun i => if k < 1024 / w - i then nthD 0 (nthD [] r 0) (i + k) else 0

def execVins (d a b : BitVec 5) (w : BitVec 2) (s : State) : Out :=
  s.issue 4 [a, b] [] [d] fun l t =>
    let w := laneW w
    let k := (nthD 0 l 1).toNat
    let old := lanesOf w (t.ctx.rv d)
    .ok (if k < 1024 / w then t.setV d (ofLanes w (old.set k ((nthD 0 l 0).toNat % 2 ^ w))) else t)

def execVext (d a b : BitVec 5) (w : BitVec 2) (s : State) : Out :=
  s.issue 4 [b] [d] [a] fun l t =>
    let w := laneW w
    let k := (nthD 0 l 0).toNat
    .ok (t.setG d (if k < 1024 / w then BitVec.ofNat 64 (nthD 0 (lanesOf w (t.ctx.rv a)) k) else 0))

def execVbcast (d a : BitVec 5) (m w : BitVec 2) (s : State) : Out :=
  s.permute w m d [] [a] fun w _ l => build w fun _ => (nthD 0 l 0).toNat % 2 ^ w

/-- VCOMPRESS (R130). -/
def execVcompress (d a : BitVec 5) (m w : BitVec 2) (s : State) : Out :=
  s.issue 4 [] [] [d, a] fun _ t =>
    let w := laneW w
    let kept := (indexed (lanesOf w (t.ctx.rv a))).filterMap fun p =>
      if active (t.ctx.rq m) w p.1 then some p.2 else none
    .ok (t.setV d (ofLanes w (build w fun i => nthD 0 kept i)))

/-! ### Vector memory (R131, R132) -/

def execVld (d a : BitVec 5) (o : BitVec 12) (s : State) : Out :=
  s.issue 4 [a] [] [d] fun l t =>
    (t.access (nthD 0 l 0 + offM o 128) 128 128 { r := true }).bind fun k =>
      let (v, t1) := t.loadAt k 128
      .ok (t1.setV d (BitVec.ofNat 1024 v))

def execVst (d a : BitVec 5) (o : BitVec 12) (s : State) : Out :=
  s.issue 4 [a] [] [d] fun l t =>
    (t.access (nthD 0 l 0 + offM o 128) 128 128 { w := true }).bind fun k =>
      .ok (t.wrN k 128 (t.ctx.rv d).toNat)

/-- A check at an active lane: its trap names the lane. -/
def Res.atLane {α : Type} (r : Res α) (i : Nat) : Res α :=
  match r with
  | .trap t => .trap { t with lane := i }
  | r => r

/-- The keys of the active lanes' elements, their addresses all checked before any is accessed (R132): the lowest failing lane
is reported. -/
def State.elementKeys (s : State) (n : Nat) (need : Need) : List (Nat × W) → Res (List (Nat × Nat))
  | [] => .ok []
  | (i, va) :: l => ((s.reach va n n need).atLane i).bind fun k =>
      (s.elementKeys n need l).bind fun r => .ok ((i, k) :: r)

/-- What follows the address checks, element by element. LANE of a data error is the lane that met it: R132 names the lane only of
a failed address check (DESIGN CHOICE, log 64). -/
def State.elementsFree (s : State) (n : Nat) (need : Need) : List (Nat × W) → List (Nat × Nat) → Res Unit
  | (i, va) :: l, (_, k) :: ks => ((s.pass va k n need).atLane i).bind fun _ => s.elementsFree n need l ks
  | _, _ => .ok ()

/-- The elements of an instruction, checked (R132, R136). -/
def State.elements (s : State) (n : Nat) (need : Need) (l : List (Nat × W)) : Res (List (Nat × Nat)) :=
  (s.elementKeys n need l).bind fun ks => (s.elementsFree n need l ks).bind fun _ => .ok ks

/-- The active lanes with the addresses that `addr` gives. -/
def activeAt (q : W) (w : Nat) (addr : Nat → W) : List (Nat × W) :=
  ((List.range (1024 / w)).filter (active q w)).map fun i => (i, addr i)

/-- A vector load of elements. -/
def State.loadElems (s : State) (w : Nat) (d : Reg) (l : List (Nat × W)) : Res State :=
  (s.elements (w / 8) { r := true } l).bind fun ks =>
    let s1 := ks.foldl (fun t p => t.correct t.cur.core p.2 (w / 8)) s
    .ok (s1.setV d (ofLanes w (ks.foldl (fun r p => r.set p.1 (s.rd p.2 (w / 8))) (lanesOf w (s.ctx.rv d)))))

/-- A vector store of elements, in lane order; every party sees them at once, since R133 orders them for the issuing context alone
(DESIGN CHOICE, log 64). -/
def State.storeElems (s : State) (w : Nat) (d : Reg) (l : List (Nat × W)) : Res State :=
  (s.elements (w / 8) { w := true } l).bind fun ks =>
    let data := lanesOf w (s.ctx.rv d)
    .ok (ks.foldl (fun t p =>
      (if w = 64 then t else t.correct t.cur.core p.2 (w / 8)).wrN p.2 (w / 8) (nthD 0 data p.1)) s)

/-- Strided and indexed addresses. -/
def strided (base step : W) (i : Nat) : W := base + BitVec.ofNat 64 i * step
def gathered (base : W) (idx : List Nat) (i : Nat) : W := base + BitVec.ofNat 64 (nthD 0 idx i)

def execVlds (d a b : BitVec 5) (m w : BitVec 2) (s : State) : Out :=
  s.issue 4 [a, b] [] [d] fun l t =>
    t.loadElems (laneW w) d (activeAt (t.ctx.rq m) (laneW w) (strided (nthD 0 l 0) (nthD 0 l 1)))

def execVsts (d a b : BitVec 5) (m w : BitVec 2) (s : State) : Out :=
  s.issue 4 [a, b] [] [d] fun l t =>
    t.storeElems (laneW w) d (activeAt (t.ctx.rq m) (laneW w) (strided (nthD 0 l 0) (nthD 0 l 1)))

def execVgather (d a b : BitVec 5) (m w : BitVec 2) (s : State) : Out :=
  s.issue 4 [a] [] [d, b] fun l t =>
    let idx := lanesOf (laneW w) (t.ctx.rv b)
    t.loadElems (laneW w) d (activeAt (t.ctx.rq m) (laneW w) (gathered (nthD 0 l 0) idx))

def execVscatter (d a b : BitVec 5) (m w : BitVec 2) (s : State) : Out :=
  s.issue 4 [a] [] [d, b] fun l t =>
    let idx := lanesOf (laneW w) (t.ctx.rv b)
    t.storeElems (laneW w) d (activeAt (t.ctx.rq m) (laneW w) (gathered (nthD 0 l 0) idx))

/-- VLDB: one element, read once, for every active lane. -/
def execVldb (d a : BitVec 5) (m w : BitVec 2) (s : State) : Out :=
  s.issue 4 [a] [] [d] fun l t =>
    t.loadElems (laneW w) d (activeAt (t.ctx.rq m) (laneW w) fun _ => nthD 0 l 0)

end Sys2Proof.Machine
end

