-- ==== Sys2Proof/Machine/Walk.lean ====
section
/-! DEFINITION. The translation walkers of a die (R389 to R395). -/

namespace Sys2Proof.Machine

/-- The floes of a die. -/
def floesOf (d : BitVec 2) : List FloeId := (List.range 64).map fun i => d ++ BitVec.ofNat 6 i

/-- The walks that walkers of a die perform, with their floes. -/
def State.walking (s : State) (d : BitVec 2) : List (FloeId × Walk) :=
  (floesOf d).flatMap fun f => ((s.floe f).walks.filter fun w => w.started).map fun w => (f, w)

/-- The next walk of a floe: of its 64 oldest pages, the first without a walker (R394). -/
def Floe.nextWalk (x : Floe) : Option Walk := (x.walks.take 64).find? fun w => !w.started

/-- A walk of a floe replaced: one page of an address space is walked once at a time. -/
def State.setWalk (s : State) (f : FloeId) (w w' : Walk) : State :=
  s.mapFloe f fun x => { x with walks := x.walks.map fun v => if v = w then w' else v }

/-- TRANSLATION_WALK_START (R393, R394): one of the die's 16 walkers takes a walk, floes in turn. -/
def execTranslationWalkStart (d : BitVec 2) (s : State) : Out :=
  let turn := s.walkTurn.look 0 d.toNat
  let order := (List.range 64).map fun i => d ++ BitVec.ofNat 6 (turn + i)
  .next (if (s.walking d).length ≥ 16 then s
    else match order.findSome? fun f => (s.floe f).nextWalk.map fun w => (f, w) with
      | none => s
      | some (f, w) =>
        { s.setWalk f w { w with started := true } with walkTurn := s.walkTurn.put d.toNat ((f.toNat % 64 + 1) % 64) })

/-- A walk ends: every context that waits on it becomes RUNNABLE; where the walk failed at `fail`, it and the engines that
wait find that. -/
def State.endWalk (s : State) (f : FloeId) (w : Walk) (fail : Option Nat) : State :=
  let s1 := w.waiters.foldl (fun s p => s.mapCtxAt p.1 p.2 fun c =>
      if c.life == .blocked then
        ({ c with walkFail := fail.map fun d => ⟨w.page, d⟩ } : Ctx).unblock (s.core p.1).cycle
      else c)
    (s.mapFloe f fun x => { x with walks := x.walks.filter fun v => v != w })
  match fail with
  | none => s1
  | some d => w.engines.foldl (fun s c => s.mapCore c fun x => { x with engFails := x.engFails ++ [(w.root, w.page, d)] }) s1

/-- A walk's result fills the floe cache and the micro-TLB of every core that waits (R394), an engine's only where the core
translates by the walk's root (R309). -/
def State.fillWalk (s : State) (f : FloeId) (w : Walk) (e : TlbEnt) : State :=
  (w.waiters.map (fun p => p.1) ++ w.engines.filter fun c => (s.core c).xroot == w.root).eraseDups.foldl
    (fun s c => s.fillTlb c e) (s.fillFloe f e)

/-- A walk has its result, a leaf or a failure. One that a drop has reached installs nothing, and those who wait walk again
(R395). -/
def State.tableWalked (s : State) (f : FloeId) (w : Walk) (r : Except Nat TlbEnt) : State :=
  if w.dead then s.endWalk f w none
  else match r with
    | .ok e => (s.fillWalk f w e).endWalk f w none
    | .error d => s.endWalk f w (some d)

/-- WALK_TABLE_READ_REPLY (R389 to R391, R396): walk n of the die's walkers reads its next entry. -/
def execWalkTableReadReply (d : BitVec 2) (n : Nat) (s : State) : Out :=
  .next (match (s.walking d)[n]? with
    | none => s
    | some (f, w) =>
      match s.readEntry (entryAddr w.level w.table w.page) with
      | none => s.tableWalked f w (.error (w.level * 256 + 3))
      | some e =>
        let s1 := s.correctMem (entryAddr w.level w.table w.page) 8
        match walkEntry w.level e with
        | .next t => s1.setWalk f w { w with level := w.level - 1, table := t }
        | .bad c => s1.tableWalked f w (.error (w.level * 256 + c))
        | .leaf n => s1.tableWalked f w (.ok ⟨rootAsid w.root, w.page / n * n, n, e⟩))

end Sys2Proof.Machine
end

