-- ==== Sys2Proof/Machine/Dispatch.lean ====
section
/-! DEFINITION. One arm per constructor of Instr: the call of its meaning. -/

namespace Sys2Proof.Machine

/-- The effect of an instruction or event. -/
def exec (instr : Instr) (state : State) : Host.Outcome State Fault Refusal :=
  match instr with
  | .illegalInstruction => Sys2Proof.Machine.execIllegalInstruction state
  | .forfeitedTurn => Sys2Proof.Machine.execForfeitedTurn state
  | .dispenserDelivery f bad => Sys2Proof.Machine.execDispenserDelivery f bad state
  | .timerExpiry c => Sys2Proof.Machine.execTimerExpiry c state
  | .watchdogExpiry c k => Sys2Proof.Machine.execWatchdogExpiry c k state
  | .spillWriteComplete c ok => Sys2Proof.Machine.execSpillWriteComplete c ok state
  | .spillReloadComplete c err => Sys2Proof.Machine.execSpillReloadComplete c err state
  | .frameDataError c k off => Sys2Proof.Machine.execFrameDataError c k off state
  | .fetchFillComplete c k => Sys2Proof.Machine.execFetchFillComplete c k state
  | .translationWalkStart die => Sys2Proof.Machine.execTranslationWalkStart die state
  | .walkTableReadReply die n => Sys2Proof.Machine.execWalkTableReadReply die n state
  | .xrootWrite v => Sys2Proof.Machine.execXrootWrite v state
  | .tlbinvWrite v => Sys2Proof.Machine.execTlbinvWrite v state
  | .tlbinvDropComplete c => Sys2Proof.Machine.execTlbinvDropComplete c state
  | .dqbaseWrite v => Sys2Proof.Machine.execDqbaseWrite v state
  | .dqlimWrite v => Sys2Proof.Machine.execDqlimWrite v state
  | .gmboxWrite v => Sys2Proof.Machine.execGmboxWrite v state
  | .epownWrite n v => Sys2Proof.Machine.execEpownWrite n v state
  | .jdomWrite v => Sys2Proof.Machine.execJdomWrite v state
  | .windowRegisterWrite n v => Sys2Proof.Machine.execWindowRegisterWrite n v state
  | .fstWrite v => Sys2Proof.Machine.execFstWrite v state
  | .frec0Write v => Sys2Proof.Machine.execFrec0Write v state
  | .qringWrite n v => Sys2Proof.Machine.execQringWrite n v state
  | .driftWrite v => Sys2Proof.Machine.execDriftWrite v state
  | .tscWrite v => Sys2Proof.Machine.execTscWrite v state
  | .protocolImageLoad c k => Sys2Proof.Machine.execProtocolImageLoad c k state
  | .connectionRequestArrival p => Sys2Proof.Machine.execConnectionRequestArrival p state
  | .connectionResultArrival p => Sys2Proof.Machine.execConnectionResultArrival p state
  | .connectWithdrawal p => Sys2Proof.Machine.execConnectWithdrawal p state
  | .messageArrival p => Sys2Proof.Machine.execMessageArrival p state
  | .creditPacketArrival p => Sys2Proof.Machine.execCreditPacketArrival p state
  | .closePacketArrival p => Sys2Proof.Machine.execClosePacketArrival p state
  | .lossPacketArrival p => Sys2Proof.Machine.execLossPacketArrival p state
  | .boundArrival p => Sys2Proof.Machine.execBoundArrival p state
  | .redirectArrival p => Sys2Proof.Machine.execRedirectArrival p state
  | .redirectAckArrival p => Sys2Proof.Machine.execRedirectAckArrival p state
  | .memrdRequest p => Sys2Proof.Machine.execMemrdRequest p state
  | .memwrRequest p => Sys2Proof.Machine.execMemwrRequest p state
  | .requestForward p => Sys2Proof.Machine.execRequestForward p state
  | .memrdReplyArrival p => Sys2Proof.Machine.execMemrdReplyArrival p state
  | .memwrAckArrival p => Sys2Proof.Machine.execMemwrAckArrival p state
  | .windowAccessArrival p => Sys2Proof.Machine.execWindowAccessArrival p state
  | .wpmArrival p => Sys2Proof.Machine.execWpmArrival p state
  | .windowReplyArrival p => Sys2Proof.Machine.execWindowReplyArrival p state
  | .negativeAcknowledgement p => Sys2Proof.Machine.execNegativeAcknowledgement p state
  | .copyChunkDone c tag chunk => Sys2Proof.Machine.execCopyChunkDone c tag chunk state
  | .copyComplete c tag => Sys2Proof.Machine.execCopyComplete c tag state
  | .copyFailure c tag => Sys2Proof.Machine.execCopyFailure c tag state
  | .copyRequestArrival p => Sys2Proof.Machine.execCopyRequestArrival p state
  | .copyAnswerArrival p => Sys2Proof.Machine.execCopyAnswerArrival p state
  | .reduceChunkArrival p => Sys2Proof.Machine.execReduceChunkArrival p state
  | .keyRetirementArrival p => Sys2Proof.Machine.execKeyRetirementArrival p state
  | .tileOperationStart c => Sys2Proof.Machine.execTileOperationStart c state
  | .tzeroComplete c => Sys2Proof.Machine.execTzeroComplete c state
  | .tmmaOperandsRead c => Sys2Proof.Machine.execTmmaOperandsRead c state
  | .tmmaStepComplete c => Sys2Proof.Machine.execTmmaStepComplete c state
  | .tmmaOperandFailure c => Sys2Proof.Machine.execTmmaOperandFailure c state
  | .tdrainTileRead c => Sys2Proof.Machine.execTdrainTileRead c state
  | .drainRowsArrival p => Sys2Proof.Machine.execDrainRowsArrival p state
  | .drainAckArrival p => Sys2Proof.Machine.execDrainAckArrival p state
  | .gaussEngineTake c => Sys2Proof.Machine.execGaussEngineTake c state
  | .gaussEngineFinish c => Sys2Proof.Machine.execGaussEngineFinish c state
  | .gbpArrival p => Sys2Proof.Machine.execGbpArrival p state
  | .gbpCreditArrival p => Sys2Proof.Machine.execGbpCreditArrival p state
  | .enqueueWithHandle p => Sys2Proof.Machine.execEnqueueWithHandle p state
  | .enqueueWithoutHandle p => Sys2Proof.Machine.execEnqueueWithoutHandle p state
  | .taskRequest p => Sys2Proof.Machine.execTaskRequest p state
  | .queueMoveComplete f i ok => Sys2Proof.Machine.execQueueMoveComplete f i ok state
  | .enqueueAckArrival p => Sys2Proof.Machine.execEnqueueAckArrival p state
  | .qhandleReplyArrival p => Sys2Proof.Machine.execQhandleReplyArrival p state
  | .stealRequestArrival p => Sys2Proof.Machine.execStealRequestArrival p state
  | .stealReplyArrival p => Sys2Proof.Machine.execStealReplyArrival p state
  | .driftInterval f => Sys2Proof.Machine.execDriftInterval f state
  | .tileTaskIssue f => Sys2Proof.Machine.execTileTaskIssue f state
  | .tileTaskFinish f n => Sys2Proof.Machine.execTileTaskFinish f n state
  | .groupWalkTileIssue f n => Sys2Proof.Machine.execGroupWalkTileIssue f n state
  | .packetHeadGrant p => Sys2Proof.Machine.execPacketHeadGrant p state
  | .linkUncorrectableError f => Sys2Proof.Machine.execLinkUncorrectableError f state
  | .laneBlockedTimeout f => Sys2Proof.Machine.execLaneBlockedTimeout f state
  | .streamMarkerArrival p => Sys2Proof.Machine.execStreamMarkerArrival p state
  | .reductionPacketArrival p => Sys2Proof.Machine.execReductionPacketArrival p state
  | .reductionDeadline f stream => Sys2Proof.Machine.execReductionDeadline f stream state
  | .reductionResultArrival p => Sys2Proof.Machine.execReductionResultArrival p state
  | .interfaceTrainingLoss m => Sys2Proof.Machine.execInterfaceTrainingLoss m state
  | .forwardingLaneTimeout m => Sys2Proof.Machine.execForwardingLaneTimeout m state
  | .walkerStateError die => Sys2Proof.Machine.execWalkerStateError die state
  | .keySlotUpdateArrival m => Sys2Proof.Machine.execKeySlotUpdateArrival m state
  | .loadConfigurationImage i => Sys2Proof.Machine.execLoadConfigurationImage i state
  | .loadKeySlot slot wrapped => Sys2Proof.Machine.execLoadKeySlot slot wrapped state
  | .invalidateKeySlot slot => Sys2Proof.Machine.execInvalidateKeySlot slot state
  | .attestationReport nonce addr => Sys2Proof.Machine.execAttestationReport nonce addr state
  | .launch => Sys2Proof.Machine.execLaunch state
  | .moduleReset => Sys2Proof.Machine.execModuleReset state
  | .hostChannelDoorbell ch l => Sys2Proof.Machine.execHostChannelDoorbell ch l state
  | .launchRingDoorbell l => Sys2Proof.Machine.execLaunchRingDoorbell l state
  | .securityRingDoorbell cmd => Sys2Proof.Machine.execSecurityRingDoorbell cmd state
  | .tamperDetector => Sys2Proof.Machine.execTamperDetector state
  | .voltageDetector => Sys2Proof.Machine.execVoltageDetector state
  | .clockDetector => Sys2Proof.Machine.execClockDetector state
  | .faultInjectionDetector => Sys2Proof.Machine.execFaultInjectionDetector state
  | .powerThermalTrip => Sys2Proof.Machine.execPowerThermalTrip state
  | .bringUp => Sys2Proof.Machine.execBringUp state
  | .managementRegisterWrite n v => Sys2Proof.Machine.execManagementRegisterWrite n v state
  | .fidWrite v => Sys2Proof.Machine.execFidWrite v state
  | .flostWrite v => Sys2Proof.Machine.execFlostWrite v state
  | .dataFrameArrival port fr => Sys2Proof.Machine.execDataFrameArrival port fr state
  | .nakArrival port fr => Sys2Proof.Machine.execNakArrival port fr state
  | .controlFrameArrival port fr => Sys2Proof.Machine.execControlFrameArrival port fr state
  | .retryTimeout port rail => Sys2Proof.Machine.execRetryTimeout port rail state
  | .controlFrameInterval port => Sys2Proof.Machine.execControlFrameInterval port state
  | .portSilenceTimeout port => Sys2Proof.Machine.execPortSilenceTimeout port state
  | .resyncArrival port fr => Sys2Proof.Machine.execResyncArrival port fr state
  | .resyncAnswerArrival port fr => Sys2Proof.Machine.execResyncAnswerArrival port fr state
  | .resyncTimeout port => Sys2Proof.Machine.execResyncTimeout port state
  | .lostModuleFrameArrival port addr ttl => Sys2Proof.Machine.execLostModuleFrameArrival port addr ttl state
  | .hostChannelMessage p => Sys2Proof.Machine.execHostChannelMessage p state
  | .keyRetirementAcknowledgement p => Sys2Proof.Machine.execKeyRetirementAcknowledgement p state
  | .i3cDynamicAddressAssignment a => Sys2Proof.Machine.execI3cDynamicAddressAssignment a state
  | .add d a b => Sys2Proof.Machine.execAdd d a b state
  | .sub d a b => Sys2Proof.Machine.execSub d a b state
  | .addw d a b => Sys2Proof.Machine.execAddw d a b state
  | .subw d a b => Sys2Proof.Machine.execSubw d a b state
  | .and d a b => Sys2Proof.Machine.execAnd d a b state
  | .or d a b => Sys2Proof.Machine.execOr d a b state
  | .xor d a b => Sys2Proof.Machine.execXor d a b state
  | .andn d a b => Sys2Proof.Machine.execAndn d a b state
  | .orn d a b => Sys2Proof.Machine.execOrn d a b state
  | .xnor d a b => Sys2Proof.Machine.execXnor d a b state
  | .seq d a b => Sys2Proof.Machine.execSeq d a b state
  | .sne d a b => Sys2Proof.Machine.execSne d a b state
  | .slt d a b => Sys2Proof.Machine.execSlt d a b state
  | .sltu d a b => Sys2Proof.Machine.execSltu d a b state
  | .min d a b => Sys2Proof.Machine.execMin d a b state
  | .max d a b => Sys2Proof.Machine.execMax d a b state
  | .minu d a b => Sys2Proof.Machine.execMinu d a b state
  | .maxu d a b => Sys2Proof.Machine.execMaxu d a b state
  | .addss d a b => Sys2Proof.Machine.execAddss d a b state
  | .subss d a b => Sys2Proof.Machine.execSubss d a b state
  | .addus d a b => Sys2Proof.Machine.execAddus d a b state
  | .subus d a b => Sys2Proof.Machine.execSubus d a b state
  | .sel d a b n => Sys2Proof.Machine.execSel d a b n state
  | .addsl d a b s => Sys2Proof.Machine.execAddsl d a b s state
  | .addi d a i => Sys2Proof.Machine.execAddi d a i state
  | .andi d a i => Sys2Proof.Machine.execAndi d a i state
  | .ori d a i => Sys2Proof.Machine.execOri d a i state
  | .xori d a i => Sys2Proof.Machine.execXori d a i state
  | .slti d a i => Sys2Proof.Machine.execSlti d a i state
  | .sltiu d a i => Sys2Proof.Machine.execSltiu d a i state
  | .addhi d a i => Sys2Proof.Machine.execAddhi d a i state
  | .sll d a b => Sys2Proof.Machine.execSll d a b state
  | .srl d a b => Sys2Proof.Machine.execSrl d a b state
  | .sra d a b => Sys2Proof.Machine.execSra d a b state
  | .rol d a b => Sys2Proof.Machine.execRol d a b state
  | .ror d a b => Sys2Proof.Machine.execRor d a b state
  | .extur d a b => Sys2Proof.Machine.execExtur d a b state
  | .extsr d a b => Sys2Proof.Machine.execExtsr d a b state
  | .insr d a b => Sys2Proof.Machine.execInsr d a b state
  | .slli d a n => Sys2Proof.Machine.execSlli d a n state
  | .srli d a n => Sys2Proof.Machine.execSrli d a n state
  | .srai d a n => Sys2Proof.Machine.execSrai d a n state
  | .rori d a n => Sys2Proof.Machine.execRori d a n state
  | .extu d a w o => Sys2Proof.Machine.execExtu d a w o state
  | .exts d a w o => Sys2Proof.Machine.execExts d a w o state
  | .ins d a w o => Sys2Proof.Machine.execIns d a w o state
  | .clz d a => Sys2Proof.Machine.execClz d a state
  | .ctz d a => Sys2Proof.Machine.execCtz d a state
  | .popc d a => Sys2Proof.Machine.execPopc d a state
  | .rev8 d a => Sys2Proof.Machine.execRev8 d a state
  | .brev d a => Sys2Proof.Machine.execBrev d a state
  | .msghPack d a lay => Sys2Proof.Machine.execMsghPack d a lay state
  | .msghUnpk d a lay => Sys2Proof.Machine.execMsghUnpk d a lay state
  | .msghLoad a lay => Sys2Proof.Machine.execMsghLoad a lay state
  | .msghRead d lay => Sys2Proof.Machine.execMsghRead d lay state
  | .mul d a b => Sys2Proof.Machine.execMul d a b state
  | .mulw d a b => Sys2Proof.Machine.execMulw d a b state
  | .mulh d a b => Sys2Proof.Machine.execMulh d a b state
  | .mulhu d a b => Sys2Proof.Machine.execMulhu d a b state
  | .mulhsu d a b => Sys2Proof.Machine.execMulhsu d a b state
  | .div d a b => Sys2Proof.Machine.execDiv d a b state
  | .divu d a b => Sys2Proof.Machine.execDivu d a b state
  | .rem d a b => Sys2Proof.Machine.execRem d a b state
  | .remu d a b => Sys2Proof.Machine.execRemu d a b state
  | .beq a b o => Sys2Proof.Machine.execBeq a b o state
  | .bne a b o => Sys2Proof.Machine.execBne a b o state
  | .blt a b o => Sys2Proof.Machine.execBlt a b o state
  | .bge a b o => Sys2Proof.Machine.execBge a b o state
  | .bltu a b o => Sys2Proof.Machine.execBltu a b o state
  | .bgeu a b o => Sys2Proof.Machine.execBgeu a b o state
  | .bpt p o => Sys2Proof.Machine.execBpt p o state
  | .bpf p o => Sys2Proof.Machine.execBpf p o state
  | .jal d o => Sys2Proof.Machine.execJal d o state
  | .jalr d a i => Sys2Proof.Machine.execJalr d a i state
  | .loop a n o => Sys2Proof.Machine.execLoop a n o state
  | .loopi n o c => Sys2Proof.Machine.execLoopi n o c state
  | .pand d a b => Sys2Proof.Machine.execPand d a b state
  | .por d a b => Sys2Proof.Machine.execPor d a b state
  | .pxor d a b => Sys2Proof.Machine.execPxor d a b state
  | .pandn d a b => Sys2Proof.Machine.execPandn d a b state
  | .porn d a b => Sys2Proof.Machine.execPorn d a b state
  | .pnot d a => Sys2Proof.Machine.execPnot d a state
  | .pmov d a => Sys2Proof.Machine.execPmov d a state
  | .peq d a b => Sys2Proof.Machine.execPeq d a b state
  | .pne d a b => Sys2Proof.Machine.execPne d a b state
  | .plt d a b => Sys2Proof.Machine.execPlt d a b state
  | .pge d a b => Sys2Proof.Machine.execPge d a b state
  | .pltu d a b => Sys2Proof.Machine.execPltu d a b state
  | .pgeu d a b => Sys2Proof.Machine.execPgeu d a b state
  | .pget d => Sys2Proof.Machine.execPget d state
  | .pput a => Sys2Proof.Machine.execPput a state
  | .ldB d a o => Sys2Proof.Machine.execLdB d a o state
  | .ldH d a o => Sys2Proof.Machine.execLdH d a o state
  | .ldW d a o => Sys2Proof.Machine.execLdW d a o state
  | .ldD d a o => Sys2Proof.Machine.execLdD d a o state
  | .ldBu d a o => Sys2Proof.Machine.execLdBu d a o state
  | .ldHu d a o => Sys2Proof.Machine.execLdHu d a o state
  | .ldWu d a o => Sys2Proof.Machine.execLdWu d a o state
  | .stB d a o => Sys2Proof.Machine.execStB d a o state
  | .stH d a o => Sys2Proof.Machine.execStH d a o state
  | .stW d a o => Sys2Proof.Machine.execStW d a o state
  | .stD d a o => Sys2Proof.Machine.execStD d a o state
  | .enter d n => Sys2Proof.Machine.execEnter d n state
  | .leave d n => Sys2Proof.Machine.execLeave d n state
  | .gld d a u e s => Sys2Proof.Machine.execGld d a u e s state
  | .gst d a e s => Sys2Proof.Machine.execGst d a e s state
  | .gvld d a e => Sys2Proof.Machine.execGvld d a e state
  | .gvst d a e => Sys2Proof.Machine.execGvst d a e state
  | .wrd d a u e s => Sys2Proof.Machine.execWrd d a u e s state
  | .wwr d a e s => Sys2Proof.Machine.execWwr d a e s state
  | .wamo d a e o => Sys2Proof.Machine.execWamo d a e o state
  | .wpm d a b e => Sys2Proof.Machine.execWpm d a b e state
  | .amoadd d a b s o => Sys2Proof.Machine.execAmoadd d a b s o state
  | .amofaddD d a b s o => Sys2Proof.Machine.execAmofaddD d a b s o state
  | .amofaddS d a b s o => Sys2Proof.Machine.execAmofaddS d a b s o state
  | .amomin d a b s o => Sys2Proof.Machine.execAmomin d a b s o state
  | .amomax d a b s o => Sys2Proof.Machine.execAmomax d a b s o state
  | .amominu d a b s o => Sys2Proof.Machine.execAmominu d a b s o state
  | .amomaxu d a b s o => Sys2Proof.Machine.execAmomaxu d a b s o state
  | .amoswap d a b s o => Sys2Proof.Machine.execAmoswap d a b s o state
  | .amocas d a b s o => Sys2Proof.Machine.execAmocas d a b s o state
  | .amoand d a b s o => Sys2Proof.Machine.execAmoand d a b s o state
  | .amoor d a b s o => Sys2Proof.Machine.execAmoor d a b s o state
  | .amoxor d a b s o => Sys2Proof.Machine.execAmoxor d a b s o state
  | .nwait d a b s o t => Sys2Proof.Machine.execNwait d a b s o t state
  | .fence s => Sys2Proof.Machine.execFence s state
  | .lda d a u z s => Sys2Proof.Machine.execLda d a u z s state
  | .stl a b z s => Sys2Proof.Machine.execStl a b z s state
  | .ifence => Sys2Proof.Machine.execIfence state
  | .waitc t c s l => Sys2Proof.Machine.execWaitc t c s l state
  | .waitany d a => Sys2Proof.Machine.execWaitany d a state
  | .waitall a => Sys2Proof.Machine.execWaitall a state
  | .ffr d a => Sys2Proof.Machine.execFfr d a state
  | .ffrClr d a => Sys2Proof.Machine.execFfrClr d a state
  | .waitchAny d a b => Sys2Proof.Machine.execWaitchAny d a b state
  | .waitchAll d a b => Sys2Proof.Machine.execWaitchAll d a b state
  | .fadd d a b r f => Sys2Proof.Machine.execFadd d a b r f state
  | .fsub d a b r f => Sys2Proof.Machine.execFsub d a b r f state
  | .fmul d a b r f => Sys2Proof.Machine.execFmul d a b r f state
  | .fdiv d a b r f => Sys2Proof.Machine.execFdiv d a b r f state
  | .fsqrt d a r f => Sys2Proof.Machine.execFsqrt d a r f state
  | .fmin d a b f => Sys2Proof.Machine.execFmin d a b f state
  | .fmax d a b f => Sys2Proof.Machine.execFmax d a b f state
  | .fminp d a b f => Sys2Proof.Machine.execFminp d a b f state
  | .fmaxp d a b f => Sys2Proof.Machine.execFmaxp d a b f state
  | .feq p a b f => Sys2Proof.Machine.execFeq p a b f state
  | .flt p a b f => Sys2Proof.Machine.execFlt p a b f state
  | .fle p a b f => Sys2Proof.Machine.execFle p a b f state
  | .funord p a b f => Sys2Proof.Machine.execFunord p a b f state
  | .fclass d a f => Sys2Proof.Machine.execFclass d a f state
  | .fsgnj d a b f => Sys2Proof.Machine.execFsgnj d a b f state
  | .fsgnjn d a b f => Sys2Proof.Machine.execFsgnjn d a b f state
  | .fsgnjx d a b f => Sys2Proof.Machine.execFsgnjx d a b f state
  | .fmadd d a b r f => Sys2Proof.Machine.execFmadd d a b r f state
  | .fmsub d a b r f => Sys2Proof.Machine.execFmsub d a b r f state
  | .fnmadd d a b r f => Sys2Proof.Machine.execFnmadd d a b r f state
  | .fnmsub d a b r f => Sys2Proof.Machine.execFnmsub d a b r f state
  | .fcvt d a t s x r => Sys2Proof.Machine.execFcvt d a t s x r state
  | .fround d a t s r => Sys2Proof.Machine.execFround d a t s r state
  | .vaddFp d a b m l => Sys2Proof.Machine.execVaddFp d a b m l state
  | .vsubFp d a b m l => Sys2Proof.Machine.execVsubFp d a b m l state
  | .vmulFp d a b m l => Sys2Proof.Machine.execVmulFp d a b m l state
  | .vdiv d a b m l => Sys2Proof.Machine.execVdiv d a b m l state
  | .vsqrt d a m l => Sys2Proof.Machine.execVsqrt d a m l state
  | .vminFp d a b m l => Sys2Proof.Machine.execVminFp d a b m l state
  | .vmaxFp d a b m l => Sys2Proof.Machine.execVmaxFp d a b m l state
  | .vfmadd d a b m l => Sys2Proof.Machine.execVfmadd d a b m l state
  | .vfmsub d a b m l => Sys2Proof.Machine.execVfmsub d a b m l state
  | .vfnmadd d a b m l => Sys2Proof.Machine.execVfnmadd d a b m l state
  | .vsgnj d a b m l => Sys2Proof.Machine.execVsgnj d a b m l state
  | .vsgnjn d a b m l => Sys2Proof.Machine.execVsgnjn d a b m l state
  | .vsgnjx d a b m l => Sys2Proof.Machine.execVsgnjx d a b m l state
  | .vcmpeqFp q a b m l => Sys2Proof.Machine.execVcmpeqFp q a b m l state
  | .vcmpltFp q a b m l => Sys2Proof.Machine.execVcmpltFp q a b m l state
  | .vcmple q a b m l => Sys2Proof.Machine.execVcmple q a b m l state
  | .vcmpun q a b m l => Sys2Proof.Machine.execVcmpun q a b m l state
  | .vcvti d a m l => Sys2Proof.Machine.execVcvti d a m l state
  | .vredsumFp d a m l => Sys2Proof.Machine.execVredsumFp d a m l state
  | .vredminFp d a m l => Sys2Proof.Machine.execVredminFp d a m l state
  | .vredmaxFp d a m l => Sys2Proof.Machine.execVredmaxFp d a m l state
  | .vdot d a b m l => Sys2Proof.Machine.execVdot d a b m l state
  | .vselFp d a b m l => Sys2Proof.Machine.execVselFp d a b m l state
  | .vaddInt d a b m l => Sys2Proof.Machine.execVaddInt d a b m l state
  | .vsubInt d a b m l => Sys2Proof.Machine.execVsubInt d a b m l state
  | .vmulInt d a b m l => Sys2Proof.Machine.execVmulInt d a b m l state
  | .vmulh d a b m l => Sys2Proof.Machine.execVmulh d a b m l state
  | .vminInt d a b m l => Sys2Proof.Machine.execVminInt d a b m l state
  | .vmaxInt d a b m l => Sys2Proof.Machine.execVmaxInt d a b m l state
  | .vminu d a b m l => Sys2Proof.Machine.execVminu d a b m l state
  | .vmaxu d a b m l => Sys2Proof.Machine.execVmaxu d a b m l state
  | .vaddss d a b m l => Sys2Proof.Machine.execVaddss d a b m l state
  | .vsubss d a b m l => Sys2Proof.Machine.execVsubss d a b m l state
  | .vaddus d a b m l => Sys2Proof.Machine.execVaddus d a b m l state
  | .vsubus d a b m l => Sys2Proof.Machine.execVsubus d a b m l state
  | .vand d a b m l => Sys2Proof.Machine.execVand d a b m l state
  | .vor d a b m l => Sys2Proof.Machine.execVor d a b m l state
  | .vxor d a b m l => Sys2Proof.Machine.execVxor d a b m l state
  | .vandn d a b m l => Sys2Proof.Machine.execVandn d a b m l state
  | .vsll d a b m l => Sys2Proof.Machine.execVsll d a b m l state
  | .vsrl d a b m l => Sys2Proof.Machine.execVsrl d a b m l state
  | .vsra d a b m l => Sys2Proof.Machine.execVsra d a b m l state
  | .vcmpeqInt q a b m l => Sys2Proof.Machine.execVcmpeqInt q a b m l state
  | .vcmpltInt q a b m l => Sys2Proof.Machine.execVcmpltInt q a b m l state
  | .vcmpltu q a b m l => Sys2Proof.Machine.execVcmpltu q a b m l state
  | .vcvtf d a m l => Sys2Proof.Machine.execVcvtf d a m l state
  | .vredsumInt d a m l => Sys2Proof.Machine.execVredsumInt d a m l state
  | .vredminInt d a m l => Sys2Proof.Machine.execVredminInt d a m l state
  | .vredmaxInt d a m l => Sys2Proof.Machine.execVredmaxInt d a m l state
  | .vmla d a b m l => Sys2Proof.Machine.execVmla d a b m l state
  | .vselInt d a b m l => Sys2Proof.Machine.execVselInt d a b m l state
  | .qand d a b => Sys2Proof.Machine.execQand d a b state
  | .qor d a b => Sys2Proof.Machine.execQor d a b state
  | .qxor d a b => Sys2Proof.Machine.execQxor d a b state
  | .qandn d a b => Sys2Proof.Machine.execQandn d a b state
  | .qget d a => Sys2Proof.Machine.execQget d a state
  | .qput d a => Sys2Proof.Machine.execQput d a state
  | .vld d a o => Sys2Proof.Machine.execVld d a o state
  | .vst d a o => Sys2Proof.Machine.execVst d a o state
  | .vlds d a b m w => Sys2Proof.Machine.execVlds d a b m w state
  | .vsts d a b m w => Sys2Proof.Machine.execVsts d a b m w state
  | .vgather d a b m w => Sys2Proof.Machine.execVgather d a b m w state
  | .vscatter d a b m w => Sys2Proof.Machine.execVscatter d a b m w state
  | .vldb d a m w => Sys2Proof.Machine.execVldb d a m w state
  | .vperm d a b m w => Sys2Proof.Machine.execVperm d a b m w state
  | .vzip d a b m w => Sys2Proof.Machine.execVzip d a b m w state
  | .vziph d a b m w => Sys2Proof.Machine.execVziph d a b m w state
  | .vslideup d a b m w => Sys2Proof.Machine.execVslideup d a b m w state
  | .vslidedn d a b m w => Sys2Proof.Machine.execVslidedn d a b m w state
  | .vins d a b w => Sys2Proof.Machine.execVins d a b w state
  | .vext d a b w => Sys2Proof.Machine.execVext d a b w state
  | .vbcast d a m w => Sys2Proof.Machine.execVbcast d a m w state
  | .vcompress d a m w => Sys2Proof.Machine.execVcompress d a m w state
  | .send d c l e => Sys2Proof.Machine.execSend d c l e state
  | .recv d c l e => Sys2Proof.Machine.execRecv d c l e state
  | .offer d e => Sys2Proof.Machine.execOffer d e state
  | .select l e => Sys2Proof.Machine.execSelect l e state
  | .connect d e => Sys2Proof.Machine.execConnect d e state
  | .accept e => Sys2Proof.Machine.execAccept e state
  | .delegate d l e => Sys2Proof.Machine.execDelegate d l e state
  | .delegateRx d l e => Sys2Proof.Machine.execDelegateRx d l e state
  | .close e => Sys2Proof.Machine.execClose e state
  | .probe d l e => Sys2Proof.Machine.execProbe d l e state
  | .sbindG30 e => Sys2Proof.Machine.execSbindG30 e state
  | .sbindG31 e => Sys2Proof.Machine.execSbindG31 e state
  | .sbindOff e => Sys2Proof.Machine.execSbindOff e state
  | .waite d => Sys2Proof.Machine.execWaite d state
  | .cpwr a n => Sys2Proof.Machine.execCpwr a n state
  | .cprd d n => Sys2Proof.Machine.execCprd d n state
  | .cpgo d => Sys2Proof.Machine.execCpgo d state
  | .cpgoRemote d e => Sys2Proof.Machine.execCpgoRemote d e state
  | .cpret a b => Sys2Proof.Machine.execCpret a b state
  | .tzero f t => Sys2Proof.Machine.execTzero f t state
  | .tstat d t => Sys2Proof.Machine.execTstat d t state
  | .tmma a b s t => Sys2Proof.Machine.execTmma a b s t state
  | .tdrain a b t e => Sys2Proof.Machine.execTdrain a b t e state
  | .gzero t n => Sys2Proof.Machine.execGzero t n state
  | .gstat d t => Sys2Proof.Machine.execGstat d t state
  | .gwait d a => Sys2Proof.Machine.execGwait d a state
  | .gmab d a => Sys2Proof.Machine.execGmab d a state
  | .gloadf a t => Sys2Proof.Machine.execGloadf a t state
  | .gadd a b r c t => Sys2Proof.Machine.execGadd a b r c t state
  | .gsub a b r c t => Sys2Proof.Machine.execGsub a b r c t state
  | .gschur a r t => Sys2Proof.Machine.execGschur a r t state
  | .gsolve a r t => Sys2Proof.Machine.execGsolve a r t state
  | .gdamp d a r t => Sys2Proof.Machine.execGdamp d a r t state
  | .gstorm a t => Sys2Proof.Machine.execGstorm a t state
  | .gstormSend a e => Sys2Proof.Machine.execGstormSend a e state
  | .smark a => Sys2Proof.Machine.execSmark a state
  | .rjoin a e => Sys2Proof.Machine.execRjoin a e state
  | .rput a e => Sys2Proof.Machine.execRput a e state
  | .rget d a e => Sys2Proof.Machine.execRget d a e state
  | .rcorr a b e => Sys2Proof.Machine.execRcorr a b e state
  | .rtopk a b e => Sys2Proof.Machine.execRtopk a b e state
  | .waitw => Sys2Proof.Machine.execWaitw state
  | .suspend a => Sys2Proof.Machine.execSuspend a state
  | .retire => Sys2Proof.Machine.execRetire state
  | .spawn a b => Sys2Proof.Machine.execSpawn a b state
  | .qhandle d a => Sys2Proof.Machine.execQhandle d a state
  | .qreset a => Sys2Proof.Machine.execQreset a state
  | .qstat d a => Sys2Proof.Machine.execQstat d a state
  | .dqpush d a => Sys2Proof.Machine.execDqpush d a state
  | .dqpop d => Sys2Proof.Machine.execDqpop d state
  | .dqsteal d a => Sys2Proof.Machine.execDqsteal d a state
  | .dqcount d => Sys2Proof.Machine.execDqcount d state
  | .ttask a => Sys2Proof.Machine.execTtask a state
  | .tgroup a b => Sys2Proof.Machine.execTgroup a b state
  | .gang d n => Sys2Proof.Machine.execGang d n state
  | .disband => Sys2Proof.Machine.execDisband state
  | .start d a => Sys2Proof.Machine.execStart d a state
  | .startPc d a b => Sys2Proof.Machine.execStartPc d a b state
  | .stop d a => Sys2Proof.Machine.execStop d a state
  | .reap d a => Sys2Proof.Machine.execReap d a state
  | .rdctx d a => Sys2Proof.Machine.execRdctx d a state
  | .wrctx a b => Sys2Proof.Machine.execWrctx a b state
  | .rdcore d a => Sys2Proof.Machine.execRdcore d a state
  | .wrcore a b => Sys2Proof.Machine.execWrcore a b state
  | .yield n => Sys2Proof.Machine.execYield n state
  | .semwait s => Sys2Proof.Machine.execSemwait s state
  | .sempost b s => Sys2Proof.Machine.execSempost b s state
  | .semget d s => Sys2Proof.Machine.execSemget d s state
  | .semset b s => Sys2Proof.Machine.execSemset b s state
  | .fswait s => Sys2Proof.Machine.execFswait s state
  | .fspost b s => Sys2Proof.Machine.execFspost b s state
  | .fsget d s => Sys2Proof.Machine.execFsget d s state
  | .fsset b s => Sys2Proof.Machine.execFsset b s state
  | .fbar b s => Sys2Proof.Machine.execFbar b s state
  | .funion d => Sys2Proof.Machine.execFunion d state
  | .rdfloe d a => Sys2Proof.Machine.execRdfloe d a state
  | .wrfloe a b => Sys2Proof.Machine.execWrfloe a b state
  | .xset x a => Sys2Proof.Machine.execXset x a state
  | .xld x a o => Sys2Proof.Machine.execXld x a o state
  | .xget d x => Sys2Proof.Machine.execXget d x state
  | .mfs d n => Sys2Proof.Machine.execMfs d n state
  | .mts a n => Sys2Proof.Machine.execMts a n state
  | .eret => Sys2Proof.Machine.execEret state
  | .trap c => Sys2Proof.Machine.execTrap c state
  | .brk => Sys2Proof.Machine.execBrk state
  | .evwait d => Sys2Proof.Machine.execEvwait d state
  | .evget d => Sys2Proof.Machine.execEvget d state
  | .evpost a => Sys2Proof.Machine.execEvpost a state
  | .evstat d => Sys2Proof.Machine.execEvstat d state
  | .tmset a => Sys2Proof.Machine.execTmset a state
  | .tmget d => Sys2Proof.Machine.execTmget d state
  | .cAddi d i => Sys2Proof.Machine.execCAddi d i state
  | .cLi d i => Sys2Proof.Machine.execCLi d i state
  | .cMv d b => Sys2Proof.Machine.execCMv d b state
  | .cAdd d b => Sys2Proof.Machine.execCAdd d b state
  | .cSub d b => Sys2Proof.Machine.execCSub d b state
  | .cLdD d u => Sys2Proof.Machine.execCLdD d u state
  | .cStD d u => Sys2Proof.Machine.execCStD d u state
  | .cSlli d n => Sys2Proof.Machine.execCSlli d n state
  | .cBeqz d o => Sys2Proof.Machine.execCBeqz d o state
  | .cBnez d o => Sys2Proof.Machine.execCBnez d o state
  | .cJ o => Sys2Proof.Machine.execCJ o state
  | .cJal o => Sys2Proof.Machine.execCJal o state
  | .cJr d => Sys2Proof.Machine.execCJr d state
  | .cAnd d b => Sys2Proof.Machine.execCAnd d b state
  | .cOr d b => Sys2Proof.Machine.execCOr d b state
  | .cXor d b => Sys2Proof.Machine.execCXor d b state
  | .cLdW d u => Sys2Proof.Machine.execCLdW d u state
  | .cStW d u => Sys2Proof.Machine.execCStW d u state
  | .cSrai d n => Sys2Proof.Machine.execCSrai d n state
  | .cSrli d n => Sys2Proof.Machine.execCSrli d n state
  | .cAndi d i => Sys2Proof.Machine.execCAndi d i state
  | .cNop => Sys2Proof.Machine.execCNop state

end Sys2Proof.Machine
end

