-- ==== Sys2Proof/Machine/Issue.lean ====
section
/-! DEFINITION. The issue rotation (R157 to R159), gangs at issue (R332, R333) and the passing of a core's
time (R168, R169). Step.lean calls these. -/

namespace Sys2Proof.Machine

/-- A fetch at an odd PC (R23, R102, R146): FPC and ADDR hold the odd address and INSN 0. -/
def oddTrap (a : W) : Trap := { cause := cFETCHALIGN, addr := a, fpc := some a, insn := some 0 }

/-- The cursor at a context. -/
def State.setCursor (s : State) (c : CoreId) (k : CtxId) : State := { s with cur := ⟨c, k, 0⟩ }

/-- The issue at hand is this context's last (R157). -/
def State.markIssue (s : State) : State := s.mapCtx fun c => { c with lastIssue := some s.me.cycle }

/-- The cycle of a core that is slot k of the cycle in which another core has reached its own: the nearest to where it stands, since
the cores of a floe take each cycle in some order (log 1). -/
def slotAt (cycle k : Nat) : Nat :=
  let d := (k + 16 - cycle % 16) % 16
  if d ≤ 8 then cycle + d else cycle + d - 16

/-- The gang's issue is each member's last, in slot k of its own core (R157, R332). -/
def State.markTurn (s : State) (k : CtxId) : State := s.mapCtx fun c => { c with lastIssue := some (slotAt s.me.cycle k.toNat) }

/-- Eligible in cycle t (R157). -/
def Ctx.eligible (c : Ctx) (t : Nat) : Bool :=
  c.life == .runnable && (match c.lastIssue with | none => true | some l => decide (l + 4 ≤ t))

/-- Whether every member of a gang is eligible at slot k, with F = 0 (R157, R332). -/
def State.gangReady (s : State) (g : Gang) (k : CtxId) : Bool :=
  (gangCores g).all fun c =>
    let x := s.core c
    (x.ctx k).forfeit == 0 && (x.ctx k).eligible (slotAt x.cycle k.toNat)

/-- Members of a gang with F > 0 forfeit at the gang's slot (R332). -/
def State.gangForfeit (s : State) (g : Gang) (k : CtxId) : State :=
  (gangCores g).foldl (fun s c => s.mapCtxAt c k fun x => { x with forfeit := x.forfeit - 1 }) s

/-- A gang has had its turn: it is every member core's slot k, once (R332). -/
def State.gangMark (s : State) (g : Gang) (k : CtxId) (issued : Bool) : State :=
  (gangCores g).foldl (fun s c => s.mapCore c fun x =>
    x.mapCtx k fun m => { m with gangSlot := some (slotAt x.cycle k.toNat, issued) }) s

/-- Whether the gang cannot issue in this cycle at all: a member core has not yet reached the slot at which the gang has had its
turn, or its member has issued in this cycle before there was the gang. -/
def State.gangDue (s : State) (g : Gang) (k : CtxId) : Bool :=
  (gangCores g).any fun c =>
    let x := s.core c
    ((x.ctx k).gangSlot.any fun m => decide (x.cycle ≤ m.1)) ||
      (x.ctx k).lastIssue.any fun l => decide (slotAt x.cycle k.toNat ≤ l)

/-- Whether a context that was BLOCKED as `old` has left that wait: it waits no longer, or for another thing. -/
def Ctx.goesOn (c old : Ctx) : Bool :=
  c.life != .blocked || c.req != old.req || c.fill != old.fill ||
    c.wait.map (fun w => (w.kind, w.ep)) != old.wait.map (fun w => (w.kind, w.ep))

/-- The candidates of cycle t in order (R157, R158). Gang members take no given-away cycle (R332). -/
def Core.candidates (x : Core) (t : Nat) : List CtxId :=
  let k := t % 16
  let own : CtxId := BitVec.ofNat 4 k
  let ok := fun (m : CtxId) => (x.ctx m).eligible t && (x.ctx m).gang.isNone
  (if ok own then [own] else []) ++
  (if k = 15 then [] else
    ((List.range 12).map fun j => BitVec.ofNat 4 (k + j + 4)).filter ok)

/-- Candidates in order: one with turns to forfeit forfeits one, the first without issues (R157). -/
def State.pick (s : State) : List CtxId → State × Option CtxId
  | [] => (s, none)
  | m :: l =>
    if (s.me.ctx m).forfeit > 0 then
      (s.mapCtxAt s.cur.core m fun c => { c with forfeit := c.forfeit - 1 }).pick l
    else (s, some m)

/-- The context that issues in this cycle, if one does (R157, R332). The first member core to reach slot k of a cycle decides for
the gang, also where that issue disbands it; where the gang does not issue, each member core gives the slot away. -/
def State.choose (s : State) : State × Option CtxId :=
  let t := s.me.cycle
  let own : CtxId := BitVec.ofNat 4 (t % 16)
  match (s.me.ctx own).gangSlot.filter fun m => m.1 == t, (s.me.ctx own).gang with
  | some m, _ => if m.2 then (s, none) else s.pick (s.me.candidates t)
  | none, some g =>
    if s.gangDue g own then s.pick (s.me.candidates t)
    else if s.gangReady g own then (s.gangMark g own true, some own)
    else ((s.gangForfeit g own).gangMark g own false).pick (s.me.candidates t)
  | none, none => s.pick (s.me.candidates t)

/-- The members that issue at a gang's turn, the leader first: those that have not completed the current
instruction while others have, else all. -/
def State.gangTurn (s : State) (g : Gang) (k : CtxId) : List CoreId :=
  let all := g.leader :: (gangCores g).filter fun c => c != g.leader
  let late := all.filter fun c => (s.ctxAt c k).gangLate.isSome
  if late.isEmpty then all else late

/-- A member is handed the word that its gang issues: its own fetch is switched off (R332). -/
def State.handWord (s : State) (c : CoreId) (k : CtxId) (w : BitVec 32) : State :=
  s.mapCtxAt c k fun x => { x with gangLate := some w }

/-- After a gang's issue of word w (R332, R333): when a member trapped, every member goes on alone; else a
BLOCKED member keeps the word, and once none is left, followers take the leader's PC and loop registers. -/
def State.syncGang (s : State) (g : Gang) (k : CtxId) (w : BitVec 32) : State :=
  let members := gangCores g
  if members.any fun c => (s.ctxAt c k).gang.isNone then
    members.foldl (fun s c => s.mapCtxAt c k fun x => { x with gang := none, gangLate := none }) s
  else
    let blocked := members.filter fun c => (s.ctxAt c k).life == .blocked
    if blocked.isEmpty then
      let l := s.ctxAt g.leader k
      members.foldl (fun s c => s.mapCtxAt c k fun x =>
        { x with pc := l.pc, oddPc := l.oddPc, lc := l.lc, lb := l.lb, le := l.le, gangLate := none }) s
    else members.foldl (fun s c => s.mapCtxAt c k fun x =>
        { x with gangLate := if blocked.contains c && w != 0 then some w else none }) s

/-- Flags of a core's contexts, as funion takes them (R325): FREE contexts contribute 0. -/
def Core.flagsNow (x : Core) : BitVec 5 :=
  (allCtx.filter fun k => (x.ctx k).life != .free).foldl (fun f k => f ||| (x.ctx k).fst.truncate 5) 0

/-- One cycle passes (R168, R169): the timer and the stall counters count; expiries happen next, as does the
drift unit's turn, by C0's cycles (R321). A stall counter expires as it comes to equal wdlim: one that is already past a lowered
limit runs on until its context is BLOCKED anew (DESIGN CHOICE, log 68). -/
def State.tick (s : State) : State :=
  let c := s.cur.core
  let x := s.me
  let stalled := allCtx.filter fun k => k != 0 && (x.ctx k).life == .blocked
  let out := stalled.filter fun k => x.wdlim != 0 && (x.ctx k).stall + 1 == x.wdlim.toNat
  let x1 := stalled.foldl (fun x k => x.mapCtx k fun c => { c with stall := c.stall + 1 }) x
  let x2 := { x1 with
    cycle := x.cycle + 1
    timer := if x.timer = 0 then 0 else x.timer - 1
    fhist := (x.flagsNow :: x.fhist).take 4 }
  let int := wf (s.floe (floeOf c)).drift 0 32
  let acts := (if x.timer = 1 then [Act.event (.timerExpiry c)] else []) ++
    (out.map fun k => Act.event (.watchdogExpiry c k)) ++
    (if c.extractLsb' 0 3 = 0 && int != 0 && (x.cycle + 1) % int = 0 then [Act.event (.driftInterval (floeOf c))] else [])
  { s.setCore c x2 with agenda := acts ++ s.agenda }

end Sys2Proof.Machine
end

