-- ==== Sys2Proof/Machine/Step.lean ====
section
/-! DEFINITION. One step: an event of the agenda, or one cycle of a core (R157 to R159, R168, R169, R332). -/

namespace Sys2Proof.Machine

/-- The word w as the context of the cursor executes it (R73). -/
noncomputable def State.execWord (s : State) (w : BitVec 32) : Out :=
  let t : State := { s with cur := { s.cur with insn := w } }
  match decodeWord w.toNat with
  | some i => exec i t
  | none => exec .illegalInstruction t

/-- A context that waited for the endpoint under a stream alias takes a fault of that endpoint first, which is bound to the alias
no more once LOST (R213). -/
def State.aliasFirst (s : State) (k : Out) : Out :=
  match s.ctx.wait.filter fun w => w.alias_ with
  | some w => s.covering (fun d => d.ep == some (BitVec.ofNat 6 w.ep)) k
  | none => k

/-- One issue by the context of the cursor: fetch, decode, execute (R74). A gang member that holds the gang's
word does not fetch (R332). -/
noncomputable def State.issueOnce (s : State) : Out :=
  match s.ctx.gangLate with
  | some w => s.execWord w
  | none =>
    match s.ctx.oddPc with
    | some a => .next (s.trap (oddTrap a))
    | none =>
      match s.fetch with
      | .trap t => .next (s.trap t)
      | .block w t => .next (t.block w)
      | .ok (w, t) => t.aliasFirst (t.execWord w)

/-- Whether a BLOCKED context would go on if it issued now, to its end or to a wait for another thing (R29). -/
noncomputable def State.ready (s : State) (k : CtxId) : Bool :=
  match ({ s with cur := { s.cur with ctx := k } } : State).issueOnce with
  | .next t => (t.ctxAt s.cur.core k).goesOn (s.ctxAt s.cur.core k)
  | _ => true

/-- BLOCKED contexts whose condition holds become RUNNABLE (R29, R31). -/
noncomputable def State.wakeAll (s : State) : State :=
  allCtx.foldl (fun s k =>
    if (s.ctxAt s.cur.core k).life == .blocked && s.ready k then
      s.mapCtxAt s.cur.core k fun c => c.unblock s.me.cycle
    else s) s

/-- The members of a gang issue the same word, each on its own registers and pool (R332, R333). -/
noncomputable def State.issueGang (s : State) (g : Gang) (k : CtxId) (w : BitVec 32) : List CoreId → Out
  | [] => .next (s.syncGang g k w)
  | c :: l =>
    let s1 := (if w = 0 then s else s.handWord c k w).setCursor c k
    match (s1.markTurn k).issueOnce with
    | .next t =>
      if t.cur.insn = 0 then .next (t.syncGang g k 0) else t.issueGang g k t.cur.insn l
    | r => r

/-- One issue of context k of the core at hand, alone or for its gang. -/
noncomputable def State.issueCtx (s : State) (k : CtxId) : Out :=
  match (s.ctxAt s.cur.core k).gang with
  | none => ((s.setCursor s.cur.core k).markIssue).issueOnce
  | some g => s.issueGang g k 0 (s.gangTurn g k)

/-- One cycle of the core at hand: blocked contexts wake, one context issues, time passes. -/
noncomputable def State.cycleCore (s : State) : Out :=
  let s1 := (s.mapMe fun x => { x with newEvents := 0 }).wakeAll
  if !s1.me.launched then .next s1.tick
  else
    let (s2, pick) := s1.choose
    let r : Out := match pick with
      | none => .next s2
      | some k => s2.issueCtx k
    match r with
    | .next t => .next ((t.setCursor s.cur.core t.cur.ctx).tick)
    | r => r

/-- What an act of the agenda does (log 1). -/
noncomputable def State.act (s : State) : Act → Out
  | .event e => if e.isEvent then exec e s else .next s
  | .cycle c => ({ s with cur := { s.cur with core := c } } : State).cycleCore
  | .failureEnd => .next s
  | .imageWritten => .next { s with loading := false }
  | .frameCorrected c => .next (s.mapCore c Core.countEcc)
  | .spillAccess c => .next (s.spillAccess c)
  | .drift f => .next (s.driftOn f)
  | .linkCorrected f => .next (s.linkCorrected f)
  | .flit p i => .next (s.flit p i)
  | .hostClose n => .next (s.hostClose n.toNat)
  | .ringWrite n v => .next { s with rings := s.rings.set n v }
  | .registerRead via n => .next (s.readRegister via n)

/-- What a module that has failed still does (R427): module reset and bring-up; the detectors, the trips and the management
registers, which no rule stops. Every core, engine, dispenser, router and controller has stopped, the fabric ports and the
host endpoint too. -/
def Act.outlives : Act → Bool
  | .event .moduleReset => true
  | .event .bringUp => true
  | .event .tamperDetector => true
  | .event .voltageDetector => true
  | .event .clockDetector => true
  | .event .faultInjectionDetector => true
  | .event .powerThermalTrip => true
  | .event (.managementRegisterWrite _ _) => true
  | .event (.i3cDynamicAddressAssignment _) => true
  | .registerRead _ _ => true
  | _ => false

/-- What remains of an act in the cycle in which the module fails: its failure alone (R427), in mfault and in the fault
register of its unit. -/
def State.failuresOf (s t : State) : State :=
  let s1 := t.cores.foldl (fun (s : State) e =>
    if e.2.cfault = 0 then s else s.mapCore (BitVec.ofNat 11 e.1) fun x => { x with cfault := e.2.cfault }) s
  let s2 := t.floes.foldl (fun (s : State) e =>
    if e.2.ffault = 0 then s else s.mapFloe (BitVec.ofNat 8 e.1) fun x => { x with ffault := e.2.ffault }) s1
  { s2 with mfault := t.mfault }

/-- The clock cycle in which the module failed ends: the host endpoint writes mfault, signals vector 1 and stops (R427). -/
def State.reportFailure (s : State) : State :=
  if s.failing.isSome then { s with failing := none, hostOut := s.hostOut ++ [.fault s.mfault, .msix 1] } else s

/-- An act of a module that has failed (R427): in the cycle of its failure another failure still counts, and an alarm acts
(R426). -/
noncomputable def State.actFailed (s : State) (a : Act) : Out :=
  if a.outlives then s.act a
  else match a with
    | .failureEnd => .next s.reportFailure
    | .event (.loadConfigurationImage i) => .next (if s.failing.isSome then s.alarmedBy i else s)
    | a =>
      if s.failing.isNone then .next s
      else match s.act a with
        | .next t => .next (s.failuresOf t)
        | r => r

/-- One step of the module: the first act of the agenda, else a cycle of the core at hand (log 1). A module that has
failed stays so until module reset (R427). -/
noncomputable def step (s : State) : Host.Outcome State Fault Refusal :=
  match s.agenda with
  | a :: l =>
    let t : State := { s with agenda := l }
    if s.failed then t.actFailed a else t.act a
  | [] => if s.failed then .next s.reportFailure else s.cycleCore

/-- The virtual address at which `withFetchWord` lays its instruction. -/
def fetchBase : Nat := 0x30000

/-- The leaf that maps it: the issuing core's own pool at the same offset, R, W and X. -/
def fetchLeaf : W := mkW [(1, 63), (1, 61), (0x30, 12), (1, 11), (7, 6)]

/-- The module with one instruction stored where the next step fetches it, c0 of core 0 launched there
(log 11). -/
def State.withFetchWord (s : State) (nbits w : Nat) : State :=
  let c : CoreId := 0
  let k := poolKey c fetchBase
  let s1 : State :=
    { s with
      agenda := []
      failed := false
      failing := none
      cur := ⟨c, 0, 0⟩
      bad := []
      mem := memWrites s.mem k (leBytes 4 (w % 2 ^ nbits)) }
  s1.mapCore c fun x =>
    { x with
      launched := true
      cycle := 0
      xroot := 1
      part := 0x00003A0000000000
      tlb := [⟨0, fetchBase / 4096, 1, fetchLeaf⟩]
      lbuf := []
      ctxs := [(0, { x.ctx 0 with
        pc := BitVec.ofNat 64 fetchBase, oddPc := none, life := .runnable, forfeit := 0, lastIssue := none,
        fbuf := [], fill := none, wait := none, req := none, walkFail := none, gang := none, pend := []
        lc := Vector.replicate 3 0 })] }

end Sys2Proof.Machine
end

