-- ==== Sys2Proof/Safety.lean ====
section
/-! DEFINITION. What counts as a safe run: memory in canonical form, and the terms in which the claims speak of
the state after an instruction. -/

namespace Sys2Proof.Machine

/-- Memory is in its canonical form. -/
def State.memOk (s : State) : Prop := Memory.wf s.mem = true

/-- A run of n steps stays safe: no step stops, and memory stays canonical. -/
def SafeRun (n : Nat) (s : State) : Prop :=
  ∃ t, Host.Core.run ⟨State, Fault, Refusal, step, State.reset⟩ n s = .next t ∧ t.memOk

/-! ### The state after an instruction -/

/-- An instruction of `len` bytes with sources `src` has completed, its effect on the rest of the state being t. -/
def State.done (t : State) (len : Nat) (src : List Reg) : State := (t.takeWords src).complete len

/-- The same with result w for register d. -/
def State.doneG (s : State) (len : Nat) (src : List Reg) (d : Reg) (w : W) : State := (s.setG d w).done len src

/-- The same with results for a vector register, a mask register, a predicate. -/
def State.doneV (s : State) (src : List Reg) (d : Reg) (x : V) : State := (s.setV d x).done 4 src
def State.doneQ (s : State) (src : List Reg) (d : BitVec 2) (w : W) : State := (s.setQ d w).done 4 src
def State.doneP (s : State) (src : List Reg) (d : BitVec 3) (b : Bool) : State := (s.setP d b).done 4 src

/-- A jump has completed. -/
def State.doneTo (t : State) (src : List Reg) (target : W) : State := (t.completeTo target).takeWords src

/-- Register names below the general cap, none of them bound as an endpoint's name (R15, R220). -/
def State.plain (s : State) (rs : List Reg) : Prop :=
  ∀ r ∈ rs, r.toNat < gcapOf s.me.part ∧ (r = 30 → s.aliasOf 1 = none) ∧ (r = 31 → s.aliasOf 2 = none)

/-- Lane i of a vector register, in lanes of w bits (R14). -/
def laneAt (w : Nat) (x : V) (i : Nat) : Nat := x.toNat / 2 ^ (w * i) % 2 ^ w

/-- Whether mask register m governs lane i as active: q0 reads all ones, and a bit governs a pair of 8-bit
lanes (R13, R14). -/
def State.laneOn (s : State) (m : BitVec 2) (w i : Nat) : Bool :=
  m == 0 || s.ctx.q[m.toNat].getLsbD (if w = 8 then i / 2 else i)

/-! ### Rounding, in whole numbers (R40 to R42) -/

/-- The magnitude that an encoding without its sign stands for, in units of 2^-n. -/
def Fmt.mag (f : Fmt) (n : Int) (k : Nat) : Nat :=
  match f.decode k with
  | .fin _ m e => m * 2 ^ (e + n).toNat
  | _ => 0

/-- Whether a magnitude between two neighbours rounds to the upper one (R40): `mid` compares the midpoint with it, `odd` is the
parity of the lower. -/
def roundsUp (mode : Nat) (neg odd : Bool) (mid : Ordering) : Bool :=
  match mode with
  | 0 => mid == .lt || (mid == .eq && odd)
  | 1 => false
  | 2 => !neg
  | 3 => neg
  | _ => mid != .gt

/-- r is a value of sign `neg` rounded once into f (R41, R42, Tables 2.4, 2.5): `c t` compares t with twice the magnitude, both in
units of 2^-n. It is exact; or the neighbour that the mode chooses, inexact, with UF when the value rounded at full precision
is below the smallest normal; or an overflow. -/
def Fmt.RoundsOnce (f : Fmt) (mode : Nat) (neg sat : Bool) (n : Int) (c : Nat → Ordering) (r : FRes) : Prop :=
  let v := f.mag n
  let top := f.largest
  let beyond := 2 * v top - v (top - 1)
  let small := v (2 ^ f.fb)
  let below := small - v 1 / 2
  let tiny := c (2 * small) = .gt ∧ ¬ (c (2 * below) = .lt ∧ roundsUp mode neg true (c (below + small)) = true)
  let beyondTop := c (2 * beyond) ≠ .gt ∨ roundsUp mode neg (top % 2 == 1) (c (v top + beyond)) = true
  let big := sat || mode == 1 || (mode == 2 && neg) || (mode == 3 && !neg)
  (∀ k, k ≤ top → c (2 * v k) = .eq → r = ⟨f.signed neg k, 0, c (2 * small) == .gt⟩) ∧
  (∀ k, k < top → c (2 * v k) = .lt → c (2 * v (k + 1)) = .gt →
    r.v = f.signed neg (if roundsUp mode neg (k % 2 == 1) (c (v k + v (k + 1))) then k + 1 else k) ∧
    (tiny → r.f = 3) ∧ (¬ tiny → r.f = 1) ∧ r.slow = (c (2 * small) == .gt)) ∧
  (c (2 * v top) = .lt →
    (¬ beyondTop → r = ⟨f.signed neg top, 1, false⟩) ∧
    (beyondTop → r = ⟨f.signed neg (if big then top else if f.e4m3 then 0x7F else (2 ^ f.eb - 1) * 2 ^ f.fb), 5, false⟩))

/-- A signed magnitude m * 2^e as an integer in units of 2^-n. -/
def scaled (s : Bool) (m : Nat) (e n : Int) : Int :=
  if s then -((m * 2 ^ (e + n).toNat : Nat) : Int) else ((m * 2 ^ (e + n).toNat : Nat) : Int)

/-- An exact sum of signed terms, in units of 2^-n, rounded once; a zero sum has the sign of its terms when they agree, else R43's. -/
def Fmt.SumRounds (f : Fmt) (mode : Nat) (n : Int) (terms : List (Bool × Int)) (r : FRes) : Prop :=
  let v := (terms.map fun t => t.2).sum
  (v ≠ 0 → f.RoundsOnce mode (decide (v < 0)) false n (fun t => Ord.compare t (2 * v.natAbs)) r) ∧
  (v = 0 → r = ⟨f.signed (if terms.all fun t => t.1 then true else if terms.all fun t => !t.1 then false else mode == 3) 0, 0,
    false⟩)

/-- One level of PairwiseSum (R55): terms 2i and 2i+1 joined into term i, the operations made, and whether one was slow. -/
def pairUp (op : Nat → Nat → FRes) (l : List Leaf) : List Leaf × List TreeOp × Bool :=
  let at_ := fun j => l.getD j none
  let is := List.range ((l.length + 1) / 2)
  let made := is.filterMap fun i => match at_ (2 * i), at_ (2 * i + 1) with
    | some (j, a), some (_, b) => some (j, op a b)
    | _, _ => none
  (is.map fun i => match at_ (2 * i), at_ (2 * i + 1) with
      | some (j, a), some (_, b) => some (j, (op a b).v)
      | some t, none => some t
      | none, u => u,
   made.map fun t => ⟨t.1, t.2.f⟩, made.any fun t => t.2.slow)

/-- a is below b, or equal to it: two values that are no NaNs. -/
def Val.Ordered (a b : Val) (lt eq : Bool) : Prop :=
  match a, b with
  | .inf s, .inf t => lt = (s && !t) ∧ eq = (s == t)
  | .inf s, .fin _ _ _ => lt = s ∧ eq = false
  | .fin _ _ _, .inf t => lt = !t ∧ eq = false
  | .fin s m e, .fin t k g => ∀ n : Int, 0 ≤ e + n → 0 ≤ g + n →
      (lt = true ↔ scaled s m e n < scaled t k g n) ∧ (eq = true ↔ scaled s m e n = scaled t k g n)
  | _, _ => False

/-! ### The arithmetic of the Gaussian engine, step by step (R287, R292 to R295) -/

/-- What an instruction of the engine does in order: an operation, or the pivot check of column k on value v. -/
inductive GStep where
  | op (r : FRes)
  | pivot (k v : Nat)

/-- A step at which the instruction stops: an enabled exception, or a pivot that is not above the floor. -/
def GStep.stops (en : BitVec 5) (floor : W) : GStep → Bool
  | .op r => r.f &&& en != 0
  | .pivot _ v => !(f64.compare 1 floor.toNat v).1

def GStep.flags : GStep → BitVec 5
  | .op r => r.f
  | .pivot _ _ => 0

/-- The union of the exceptions raised. -/
def unionOf (l : List GStep) : BitVec 5 := l.foldl (fun f x => f ||| x.flags) 0

/-- A joint: Λ, of which the entries with i ≤ j count, and η. -/
structure Joint where
  lam : Nat → Nat → Nat
  eta : Nat → Nat

/-- The index pairs of a packed upper triangle, and the place of a pair in it (R285). -/
def pairsOf (n : Nat) : List (Nat × Nat) := (List.range n).flatMap fun i => (List.range (n - i)).map fun j => (i, i + j)
def packedAt (n i j : Nat) : Nat := i * n - i * (i - 1) / 2 + (j - i)

/-- Column k of `gschur` (R293): the joint that it leaves, and its steps. -/
def Joint.eliminate (mode a n : Nat) (p : Joint × List GStep) (k : Nat) : Joint × List GStep :=
  let b := p.1
  let r := f64.sqrt mode (b.lam k k)
  let rk := (List.range n).filter fun i => decide (i < a ∨ k < i)
  let w := fun i => f64.div mode (b.lam (Nat.min i k) (Nat.max i k)) r.v
  let h := f64.div mode (b.eta k) r.v
  let lam := fun i j => f64.fma mode true false (w i).v (w j).v (b.lam i j)
  let eta := fun i => f64.fma mode true false (w i).v h.v (b.eta i)
  (⟨fun i j => if rk.contains i && rk.contains j then (lam i j).v else b.lam i j,
    fun i => if rk.contains i then (eta i).v else b.eta i⟩,
   p.2 ++ [.pivot k (b.lam k k), .op r] ++ rk.map (fun i => .op (w i)) ++ [.op h] ++
     (rk.flatMap fun i => (rk.filter fun j => decide (i ≤ j)).map fun j => .op (lam i j)) ++ rk.map fun i => .op (eta i))

/-- x less the products of pairs, one after another. -/
def chainOf (mode : Nat) : Nat → List (Nat × Nat) → Nat × List GStep
  | x, [] => (x, [])
  | x, (a, b) :: l =>
    let r := f64.fma mode true false a b x
    ((chainOf mode r.v l).1, .op r :: (chainOf mode r.v l).2)

/-- Column k of the factor in `gsolve` (R294). -/
def Joint.factor (mode n : Nat) (b : Joint) (p : (Nat → Nat → Nat) × List GStep) (k : Nat) : (Nat → Nat → Nat) × List GStep :=
  let l := p.1
  let d := chainOf mode (b.lam k k) ((List.range k).map fun j => (l k j, l k j))
  let r := f64.sqrt mode d.1
  let t := fun i => chainOf mode (b.lam k i) ((List.range k).map fun j => (l i j, l k j))
  let q := fun i => f64.div mode (t i).1 r.v
  let below := (List.range n).filter fun i => decide (k < i)
  (fun i j => if j = k then (if i = k then r.v else if below.contains i then (q i).v else l i j) else l i j,
   p.2 ++ d.2 ++ [.pivot k d.1, .op r] ++ below.flatMap fun i => (t i).2 ++ [.op (q i)])

/-- Entry i of a triangular solution: what the entries before it leave of x, by the diagonal (R294). -/
def substitute (mode : Nat) (x : Nat → Nat) (l : Nat → Nat → Nat) (before : Nat → List Nat) (p : (Nat → Nat) × List GStep)
    (i : Nat) : (Nat → Nat) × List GStep :=
  let t := chainOf mode (x i) ((before i).map fun j => (l i j, p.1 j))
  let q := f64.div mode t.1 (l i i)
  (fun m => if m = i then q.v else p.1 m, p.2 ++ t.2 ++ [.op q])

/-- The mean that `gsolve` writes (R294). -/
def Joint.mean (mode n : Nat) (b : Joint) : (Nat → Nat) × List GStep :=
  let l := (List.range n).foldl (Joint.factor mode n b) (fun _ _ => 0, [])
  let y := (List.range n).foldl (substitute mode b.eta l.1 List.range) (fun _ => 0, l.2)
  (List.range n).reverse.foldl
    (substitute mode y.1 (fun i j => l.1 j i) fun i => (List.range n).filter fun j => decide (i < j)) (fun _ => 0, y.2)

/-- One entry of `gdamp` (R295), with `v` whether the slot holds a message: the value written, its step, and its distance. -/
def dampEntry (mode : Nat) (v : Bool) (beta new old : Nat) : Nat × List GStep × Nat :=
  let x := f64.fused mode [f64.decode new, f64.decode old]
    [((weights beta).1, f64.decode new), ((weights beta).2, f64.decode old)] []
  if !v then (new, [], f64.inf false)
  else if (f64.decode beta).isZero then (new, [], distance new old)
  else if beta = 0x3FF0000000000000 then (old, [], distance old old)
  else (x.v, [.op x], distance x.v old)

end Sys2Proof.Machine
end

