-- ==== Sys2Proof/Certificates/Slice0/Obligations.lean ====
section
/-! DEFINITION. The statements for the provers. Each says what the manual's rules say of the machine; where one
rests on a choice of this model its docstring names the log entry. -/

open Sys2Proof Sys2Proof.Machine

/-! ### Operands and register instructions -/

/-- Names below the caps, none bound: an instruction's operands are the contents of its registers (R13, R15, R74).

A name that does not exist is an illegal operand (R15, R74, R220), and an instruction that names it takes that trap. -/
def Obligations.RegisterOperands : Prop :=
  (∀ (s : State) (src dst vec : List Reg),
    s.plain src → s.plain dst → (∀ r ∈ vec, r.toNat < vcapOf s.me.part) →
    s.operands src dst vec = .ok (src.map fun (r : Reg) => if r = 0 then (0 : W) else s.ctx.g[r.toNat])) ∧
  (∀ (s : State) (src dst vec : List Reg),
    ((∃ r ∈ src, gcapOf s.me.part ≤ r.toNat ∧ ¬ (r = 30 ∧ (s.aliasOf 1).isSome)) ∨
     (31 ∈ src ∧ (s.aliasOf 2).isSome) ∨
     (∃ r ∈ dst, gcapOf s.me.part ≤ r.toNat ∧ ¬ (r = 31 ∧ (s.aliasOf 2).isSome)) ∨
     (30 ∈ dst ∧ (s.aliasOf 1).isSome) ∨
     (∃ r ∈ vec, vcapOf s.me.part ≤ r.toNat)) →
    s.operands src dst vec = .trap { cause := 0x02 } ∧
    ∀ d a b, src = [a, b] → dst = [d] → vec = [] → exec (.add d a b) s = .next (s.trap { cause := 0x02 }))

/-- The stream names (R220), for the operands of every instruction: what fields that name the bound g30 read, and when the
instruction waits, or is refused, for words or for the credit of g31; the words are taken, and the result sent, as it
completes; and `add g31, g30, g30`, on each of its ways. That a wait takes no word, and that a status other than OPEN refuses,
are log 54; the wait for an engine that holds a slot is log 37. -/
def Obligations.StreamNamesPopAndPush : Prop :=
  (∀ (s : State) (rx : EpId) (src dst vec : List Reg), s.aliasOf 1 = some rx → s.legalNames src dst vec = true →
    let ep := s.ep rx
    let names := fun (l : List Reg) => (l.filter fun r => r == 30).length
    let n := names src
    let full := fun i => hdrF (s.slotHeader s.cur.core rx i) = true
    let word := fun i => hdrCls (s.slotHeader s.cur.core rx i) = 1 ∧ hdrTyp (s.slotHeader s.cur.core rx i) = 0
    let held := fun i => s.heldAt s.cur.core (ep.slotKey s.cur.core (ep.slotOf i)) 24 true = true
    let x := fun i => s.rd8 (ep.slotKey s.cur.core (ep.slotOf i) + 16)
    let waits := fun (k : Nat) (e : EpId) => s.operands src dst vec = .block { kind := k, ep := e.toNat, alias_ := true } s
    let refused := fun (e : EpId) => s.operands src dst vec = .trap { cause := 0x06, detail := e.toNat }
    0 < n →
    ((∃ i, i < n ∧ held i) → waits 5 rx) ∧
    ((∀ i, i < n → ¬ held i) →
      ((∃ i, i < n ∧ (¬ full i ∨ ep.slots ≤ i)) →
        (ep.st ≠ .peerClosed → waits 1 rx) ∧ (ep.st = .peerClosed → refused rx)) ∧
      ((∀ i, i < n → full i ∧ i < ep.slots) →
        ((∃ i, i < n ∧ ¬ word i) → refused rx) ∧
        ((∀ i, i < n → word i) →
          (∀ tx, 31 ∈ dst → s.aliasOf 2 = some tx → (s.ep tx).st ≠ .open → refused tx) ∧
          (∀ tx, 31 ∈ dst → s.aliasOf 2 = some tx → (s.ep tx).st = .open → (s.ep tx).full = true → waits 2 tx) ∧
          ((31 ∉ dst ∨ s.aliasOf 2 = none ∨ ∃ tx, s.aliasOf 2 = some tx ∧ (s.ep tx).st = .open ∧ (s.ep tx).full = false) →
            ∃ l, s.operands src dst vec = .ok l ∧ l.length = src.length ∧
              ∀ j (r : Reg), src[j]? = some r → l[j]? = some (if r = 30 then x (names (src.take j))
                else if r = 0 then 0 else s.ctx.g[r.toNat])))))) ∧
  (∀ (s : State) (rx : EpId) (src : List Reg), s.aliasOf 1 = some rx →
    s.takeWords src = (List.replicate (src.filter fun r => r == 30).length ()).foldl (fun t _ => t.freeSlot t.cur.core rx) s) ∧
  (∀ (s : State) (tx : EpId) (w : W), s.aliasOf 2 = some tx →
    s.setG 31 w = s.transmit s.cur.core tx 1 0 (leBytes 8 w.toNat)) ∧
  ∀ (s : State) (rx tx : EpId), s.aliasOf 1 = some rx → s.aliasOf 2 = some tx →
    let full := fun i => hdrF (s.slotHeader s.cur.core rx i) = true
    let word := fun i => hdrCls (s.slotHeader s.cur.core rx i) = 1 ∧ hdrTyp (s.slotHeader s.cur.core rx i) = 0
    let x := fun i => s.rd8 ((s.ep rx).slotKey s.cur.core ((s.ep rx).slotOf i) + 16)
    let sum : W := x 0 + x 1
    (∀ i, i < 2 → s.heldAt s.cur.core ((s.ep rx).slotKey s.cur.core ((s.ep rx).slotOf i)) 24 true = false) →
    (full 0 → full 1 → word 0 → word 1 → 2 ≤ (s.ep rx).slots → (s.ep tx).st = .open → (s.ep tx).full = false →
      exec (.add 31 30 30) s =
        .next (((s.transmit s.cur.core tx 1 0 (leBytes 8 sum.toNat)).takeWords [30, 30]).complete 4)) ∧
    (full 0 → full 1 → word 0 → word 1 → 2 ≤ (s.ep rx).slots → (s.ep tx).st = .open → (s.ep tx).full = true →
      exec (.add 31 30 30) s = .next (s.block { kind := 2, ep := tx.toNat, alias_ := true })) ∧
    ((¬ full 0 ∨ ¬ full 1 ∨ (s.ep rx).slots < 2) → (s.ep rx).st ≠ .peerClosed →
      exec (.add 31 30 30) s = .next (s.block { kind := 1, ep := rx.toNat, alias_ := true })) ∧
    ((¬ full 0 ∨ ¬ full 1 ∨ (s.ep rx).slots < 2) → (s.ep rx).st = .peerClosed →
      exec (.add 31 30 30) s = .next (s.trap { cause := 0x06, detail := rx.toNat }))

/-- Table 4.1 (R89), with SatS and SatU written out. -/
def Obligations.IntegerRegisterResults : Prop :=
  ∀ (s : State) (d a b : Reg) (n : BitVec 3) (k : BitVec 2) (x y : W), s.operands [a, b] [d] [] = .ok [x, y] →
    let gives := fun (i : Instr) (w : W) => exec i s = .next (s.doneG 4 [a, b] d w)
    let flag := fun (c : Bool) => if c then (1 : W) else 0
    let low32 := fun (w : W) => (w.extractLsb' 0 32).signExtend 64
    gives (.add d a b) (x + y) ∧ gives (.sub d a b) (x - y) ∧
    gives (.addw d a b) (low32 (x + y)) ∧ gives (.subw d a b) (low32 (x - y)) ∧
    gives (.and d a b) (x &&& y) ∧ gives (.or d a b) (x ||| y) ∧ gives (.xor d a b) (x ^^^ y) ∧
    gives (.andn d a b) (x &&& ~~~y) ∧ gives (.orn d a b) (x ||| ~~~y) ∧ gives (.xnor d a b) (~~~(x ^^^ y)) ∧
    gives (.seq d a b) (flag (x == y)) ∧ gives (.sne d a b) (flag (x != y)) ∧
    gives (.slt d a b) (flag (decide (x.toInt < y.toInt))) ∧
    gives (.sltu d a b) (flag (decide (x.toNat < y.toNat))) ∧
    gives (.min d a b) (if x.toInt < y.toInt then x else y) ∧
    gives (.max d a b) (if x.toInt < y.toInt then y else x) ∧
    gives (.minu d a b) (if x.toNat < y.toNat then x else y) ∧
    gives (.maxu d a b) (if x.toNat < y.toNat then y else x) ∧
    gives (.addss d a b) (BitVec.ofInt 64 (max (-2 ^ 63) (min (2 ^ 63 - 1) (x.toInt + y.toInt)))) ∧
    gives (.subss d a b) (BitVec.ofInt 64 (max (-2 ^ 63) (min (2 ^ 63 - 1) (x.toInt - y.toInt)))) ∧
    gives (.addus d a b) (BitVec.ofNat 64 (min (2 ^ 64 - 1) (x.toNat + y.toNat))) ∧
    gives (.subus d a b) (BitVec.ofNat 64 (x.toNat - y.toNat)) ∧
    gives (.sel d a b n) (if s.ctx.p.getLsbD n.toNat then x else y) ∧
    gives (.addsl d a b k) (x + (y <<< k.toNat))

/-- Tables 4.2 and 4.4, and the compact forms of Table 3.7: an immediate is sign-extended, a register's shift amount is
its low 6 bits.

Tables 4.3 and 4.5, R92 and R93. -/
def Obligations.ImmediateMultiplyAndFieldResults : Prop :=
  (∀ (s : State) (d a b : Reg) (i : BitVec 12) (n : BitVec 6) (x y : W),
    let gives := fun (len : Nat) (src : List Reg) (i : Instr) (w : W) => exec i s = .next (s.doneG len src d w)
    let flag := fun (c : Bool) => if c then (1 : W) else 0
    let imm : W := i.signExtend 64
    let cimm : W := n.signExtend 64
    (s.operands [a] [d] [] = .ok [x] →
      gives 4 [a] (.addi d a i) (x + imm) ∧ gives 4 [a] (.andi d a i) (x &&& imm) ∧
      gives 4 [a] (.ori d a i) (x ||| imm) ∧ gives 4 [a] (.xori d a i) (x ^^^ imm) ∧
      gives 4 [a] (.slti d a i) (flag (decide (x.toInt < imm.toInt))) ∧
      gives 4 [a] (.sltiu d a i) (flag (decide (x.toNat < imm.toNat))) ∧
      gives 4 [a] (.addhi d a i) (x + (imm <<< 12)) ∧
      gives 4 [a] (.slli d a n) (x <<< n.toNat) ∧ gives 4 [a] (.srli d a n) (x >>> n.toNat) ∧
      gives 4 [a] (.srai d a n) (x.sshiftRight n.toNat) ∧ gives 4 [a] (.rori d a n) (x.rotateRight n.toNat) ∧
      (∃ w, gives 4 [a] (.clz d a) (BitVec.ofNat 64 w) ∧
        (∀ j, j < w → x.getLsbD (63 - j) = false) ∧ (w = 64 ∨ w < 64 ∧ x.getLsbD (63 - w) = true)) ∧
      (∃ w, gives 4 [a] (.ctz d a) (BitVec.ofNat 64 w) ∧
        (∀ j, j < w → x.getLsbD j = false) ∧ (w = 64 ∨ w < 64 ∧ x.getLsbD w = true)) ∧
      gives 4 [a] (.popc d a) (BitVec.ofNat 64 ((List.range 64).filter fun j => x.getLsbD j).length) ∧
      (∃ w : W, gives 4 [a] (.rev8 d a) w ∧ ∀ j, j < 8 → w.extractLsb' (8 * j) 8 = x.extractLsb' (8 * (7 - j)) 8) ∧
      (∃ w : W, gives 4 [a] (.brev d a) w ∧ ∀ j, j < 64 → w.getLsbD j = x.getLsbD (63 - j))) ∧
    (s.operands [a, b] [d] [] = .ok [x, y] →
      gives 4 [a, b] (.sll d a b) (x <<< (y.toNat % 64)) ∧ gives 4 [a, b] (.srl d a b) (x >>> (y.toNat % 64)) ∧
      gives 4 [a, b] (.sra d a b) (x.sshiftRight (y.toNat % 64)) ∧
      gives 4 [a, b] (.rol d a b) (x.rotateLeft (y.toNat % 64)) ∧
      gives 4 [a, b] (.ror d a b) (x.rotateRight (y.toNat % 64))) ∧
    (s.operands [d] [d] [] = .ok [x] →
      gives 2 [d] (.cAddi d n) (x + cimm) ∧ gives 2 [d] (.cAndi d n) (x &&& cimm) ∧
      gives 2 [d] (.cSlli d n) (x <<< n.toNat) ∧ gives 2 [d] (.cSrli d n) (x >>> n.toNat) ∧
      gives 2 [d] (.cSrai d n) (x.sshiftRight n.toNat)) ∧
    (s.operands [0] [d] [] = .ok [x] → gives 2 [0] (.cLi d n) cimm) ∧
    (s.operands [0, b] [d] [] = .ok [x, y] → gives 2 [0, b] (.cMv d b) y) ∧
    (s.operands [d, b] [d] [] = .ok [x, y] →
      gives 2 [d, b] (.cAdd d b) (x + y) ∧ gives 2 [d, b] (.cSub d b) (x - y) ∧
      gives 2 [d, b] (.cAnd d b) (x &&& y) ∧ gives 2 [d, b] (.cOr d b) (x ||| y) ∧
      gives 2 [d, b] (.cXor d b) (x ^^^ y)) ∧
    exec .cNop s = .next (s.doneG 2 [0] 0 0)) ∧
  (∀ (s : State) (d a b : Reg) (wd off : BitVec 6) (x y z : W),
    let len := fun (off w : Nat) => if w = 0 ∨ 64 ≤ off then 0 else min w (64 - off)
    let extU := fun (off w : Nat) => BitVec.ofNat 64 (x.toNat / 2 ^ off % 2 ^ len off w)
    let extS := fun (off w : Nat) =>
      if len off w = 0 then (0 : W) else (BitVec.ofNat (len off w) (x.toNat / 2 ^ off)).signExtend 64
    let insert := fun (old : W) (off w : Nat) => BitVec.ofNat 64
      (old.toNat % 2 ^ off + x.toNat % 2 ^ len off w * 2 ^ off + old.toNat / 2 ^ (off + len off w) * 2 ^ (off + len off w))
    (s.operands [a, b] [d] [] = .ok [x, y] →
      let gives := fun (i : Instr) (w : W) => exec i s = .next (s.doneG 4 [a, b] d w)
      let divides := fun (i : Instr) (w : W) => exec i s = .next (((s.setG d w).forfeits 4).done 4 [a, b])
      gives (.mul d a b) (x * y) ∧
      gives (.mulw d a b) (((x * y).extractLsb' 0 32).signExtend 64) ∧
      gives (.mulh d a b) (BitVec.ofInt 64 (x.toInt * y.toInt / 2 ^ 64)) ∧
      gives (.mulhu d a b) (BitVec.ofNat 64 (x.toNat * y.toNat / 2 ^ 64)) ∧
      gives (.mulhsu d a b) (BitVec.ofInt 64 (x.toInt * y.toNat / 2 ^ 64)) ∧
      divides (.div d a b) (if y = 0 then -1 else BitVec.ofInt 64 (x.toInt.tdiv y.toInt)) ∧
      divides (.divu d a b) (if y = 0 then -1 else BitVec.ofNat 64 (x.toNat / y.toNat)) ∧
      divides (.rem d a b) (if y = 0 then x else BitVec.ofInt 64 (x.toInt.tmod y.toInt)) ∧
      divides (.remu d a b) (if y = 0 then x else BitVec.ofNat 64 (x.toNat % y.toNat)) ∧
      gives (.extur d a b) (extU (y.toNat % 2 ^ 32) (y.toNat / 2 ^ 32)) ∧
      gives (.extsr d a b) (extS (y.toNat % 2 ^ 32) (y.toNat / 2 ^ 32))) ∧
    (s.operands [a, b, d] [d] [] = .ok [x, y, z] → 
      exec (.insr d a b) s =
        .next (s.doneG 4 [a, b, d] d (insert z (y.toNat % 2 ^ 32) (y.toNat / 2 ^ 32)))) ∧
    (s.operands [a] [d] [] = .ok [x] →
      exec (.extu d a wd off) s = .next (s.doneG 4 [a] d (extU off.toNat wd.toNat)) ∧
      exec (.exts d a wd off) s = .next (s.doneG 4 [a] d (extS off.toNat wd.toNat))) ∧
    (s.operands [a, d] [d] [] = .ok [x, z] →
      exec (.ins d a wd off) s = .next (s.doneG 4 [a, d] d (insert z off.toNat wd.toNat))))

/-- Division never traps, and the results recompose the dividend (R92). -/
def Obligations.DivisionRecomposes : Prop :=
  ∀ (s : State) (d a b : Reg) (x y : W), s.operands [a, b] [d] [] = .ok [x, y] →
    ∃ q r qu ru : W,
        exec (.div d a b) s = .next (((s.setG d q).forfeits 4).done 4 [a, b]) ∧
      exec (.rem d a b) s = .next (((s.setG d r).forfeits 4).done 4 [a, b]) ∧
      exec (.divu d a b) s = .next (((s.setG d qu).forfeits 4).done 4 [a, b]) ∧
      exec (.remu d a b) s = .next (((s.setG d ru).forfeits 4).done 4 [a, b]) ∧
      x = q * y + r ∧ x = qu * y + ru ∧
      (y = 0 → q = 0xFFFFFFFFFFFFFFFF ∧ qu = 0xFFFFFFFFFFFFFFFF ∧ r = x ∧ ru = x) ∧
      (x = 0x8000000000000000 ∧ y = -1 → q = x ∧ r = 0)

/-- The MSGH instructions (R96 to R98). That a range running past the cap into a bound g30 or g31 traps is log 33. -/
def Obligations.MessageHeaders : Prop :=
  ∀ (s : State) (d a : Reg) (lay : BitVec 4) (l : List W) (x : W),
    let e := s.me.layouts[lay.toNat]
    let n := e.toNat / 2 ^ 56 % 8 + 1
    let wide := fun (e : W) (i : Nat) => e.toNat / 2 ^ (6 * i) % 64 + 1
    let off := fun (e : W) (i : Nat) => ((List.range i).map (wide e)).sum
    let regs := fun (r : Reg) => (List.range n).map fun i => r + BitVec.ofNat 5 i
    (e.getLsbD 63 = true → a.toNat + n ≤ gcapOf s.me.part → s.operands (regs a) [d] [] = .ok l →
      ∃ h : W, exec (.msghPack d a lay) s = .next (s.doneG 4 (regs a) d h) ∧
        (off e n ≤ 64 → ∀ i, i < n → h.extractLsb' (off e i) (wide e i) = (l.getD i 0).extractLsb' 0 (wide e i)) ∧
        (off e n ≤ 64 → h.toNat < 2 ^ off e n)) ∧
    (e.getLsbD 63 = true → d.toNat + n ≤ gcapOf s.me.part → s.operands [a] (regs d) [] = .ok [x] →
      exec (.msghUnpk d a lay) s = .next (((List.range n).foldl (fun (t : State) i =>
        t.setG (d + BitVec.ofNat 5 i) (BitVec.ofNat 64 (x.toNat / 2 ^ off e i % 2 ^ wide e i))) s).done 4 [a])) ∧
    (e.getLsbD 63 = false →
      exec (.msghPack d a lay) s = .next (s.trap { cause := 0x02 }) ∧
      exec (.msghUnpk d a lay) s = .next (s.trap { cause := 0x02 })) ∧
    (gcapOf s.me.part < a.toNat + n → exec (.msghPack d a lay) s = .next (s.trap { cause := 0x02 })) ∧
    (gcapOf s.me.part < d.toNat + n → exec (.msghUnpk d a lay) s = .next (s.trap { cause := 0x02 })) ∧
    (s.cur.ctx ≠ 0 → exec (.msghLoad a lay) s = .next (s.trap { cause := 0x02 })) ∧
    (s.operands [a] [] [] = .ok [x] →
      let total := ((List.range (x.toNat / 2 ^ 56 % 8 + 1)).map (wide x)).sum
      (s.cur.ctx = 0 → x.getLsbD 63 = true → 64 < total → exec (.msghLoad a lay) s = .next (s.trap { cause := 0x02 })) ∧
      (s.cur.ctx = 0 → (x.getLsbD 63 = false ∨ total ≤ 64) →
        exec (.msghLoad a lay) s = .next ((s.mapMe fun c =>
          { c with layouts := c.layouts.set lay.toNat (x &&& 0x8700FFFFFFFFFFFF) }).done 4 [a]))) ∧
    (s.operands [] [d] [] = .ok [] → exec (.msghRead d lay) s = .next (s.doneG 4 [] d e))

/-! ### Branches, jumps, loops, predicates -/

/-- Conditional branches (R101), and the compact forms of R77 against 0.

Jumps (R102, R77), and what an odd target leaves behind (R23). -/
def Obligations.BranchesAndJumps : Prop :=
  (∀ (s : State) (a b : Reg) (p : BitVec 3) (o : BitVec 12) (oc : BitVec 6) (x y : W),
    let goes := fun (len : Nat) (src : List Reg) (i : Instr) (off : W) (taken : Bool) =>
      exec i s = .next ((if taken then s.completeTo (s.ctx.pc + off) else s.complete len).takeWords src)
    let by_ : W := o.signExtend 64 * 2
    let byC : W := oc.signExtend 64 * 2
    (s.operands [a, b] [] [] = .ok [x, y] →
      goes 4 [a, b] (.beq a b o) by_ (x == y) ∧ goes 4 [a, b] (.bne a b o) by_ (x != y) ∧
      goes 4 [a, b] (.blt a b o) by_ (decide (x.toInt < y.toInt)) ∧
      goes 4 [a, b] (.bge a b o) by_ (decide (y.toInt ≤ x.toInt)) ∧
      goes 4 [a, b] (.bltu a b o) by_ (decide (x.toNat < y.toNat)) ∧
      goes 4 [a, b] (.bgeu a b o) by_ (decide (y.toNat ≤ x.toNat))) ∧
    (s.operands [a, 0] [] [] = .ok [x, y] →
      goes 2 [a, 0] (.cBeqz a oc) byC (x == 0) ∧ goes 2 [a, 0] (.cBnez a oc) byC (x != 0)) ∧
    exec (.bpt p o) s =
      .next (if s.ctx.p.getLsbD p.toNat then s.completeTo (s.ctx.pc + by_) else s.complete 4) ∧
    exec (.bpf p o) s =
      .next (if s.ctx.p.getLsbD p.toNat then s.complete 4 else s.completeTo (s.ctx.pc + by_))) ∧
  (∀ (s : State) (d a : Reg) (o : BitVec 17) (oc : BitVec 11) (i : BitVec 12) (x : W),
    let pc := s.ctx.pc
    (s.operands [] [d] [] = .ok [] →
      exec (.jal d o) s = .next (((s.setG d (pc + 4)).completeTo (pc + o.signExtend 64 * 2)).takeWords [])) ∧
    (s.operands [a] [d] [] = .ok [x] →
      exec (.jalr d a i) s = .next (((s.setG d (pc + 4)).completeTo (x + i.signExtend 64)).takeWords [a])) ∧
    (s.operands [] [0] [] = .ok [] → exec (.cJ oc) s = .next (((s.setG 0 (pc + 2)).completeTo (pc + oc.signExtend 64 * 2)).takeWords [])) ∧
    (s.operands [] [1] [] = .ok [] →
      exec (.cJal oc) s = .next (((s.setG 1 (pc + 2)).completeTo (pc + oc.signExtend 64 * 2)).takeWords [])) ∧
    (s.operands [d] [0] [] = .ok [x] → exec (.cJr d) s = .next (((s.setG 0 (pc + 2)).completeTo x).takeWords [d])) ∧
    (∀ t : W, s.ctx.heldStop = false →
      (s.completeTo t).ctx.pc = t &&& 0xFFFFFFFFFFFFFFFE ∧
      (s.completeTo t).ctx.oddPc = (if t.getLsbD 0 then some t else none) ∧
      (s.completeTo t).ctx.life = .runnable) ∧
    (∀ t : W, s.ctx.oddPc = some t → s.ctx.gangLate = none →
      s.issueOnce = .next (s.trap { cause := 0x03, addr := t, fpc := some t, insn := some 0 })))

/-- LOOP and LOOPI (R106) at each level, by register with the count clamped to 32 bits. `lenAt` reads the length of the
body's last instruction. -/
def Obligations.LoopsStart : Prop :=
  ∀ (s : State) (n : Fin 3) (a : Reg) (ob : BitVec 15) (oi : BitVec 10) (cnt : BitVec 10) (x : W),
    let lev : BitVec 2 := BitVec.ofNat 2 n.val
    let pc := s.ctx.pc
    let stop := fun (off : Nat) => pc + BitVec.ofNat 64 (2 * off)
    let nested := fun (off : Nat) =>
      ∀ m : Fin 3, n.val < m.val → s.ctx.lc[m] = 0 ∨ (stop off).toNat ≤ s.ctx.le[m].toNat
    let started := fun (t : State) (off count : Nat) => t.mapCtx fun c =>
      { c with
        lc := Vector.ofFn fun m => if m.val < n.val then 0 else if m = n then BitVec.ofNat 32 count else c.lc[m]
        lb := c.lb.set n (c.pc + 4)
        le := c.le.set n (stop off) }
    let result := fun (out : Out) (src : List Reg) (off count : Nat) =>
      (¬ nested off → out = .next (s.trap { cause := 0x02 })) ∧
      (nested off → count ≠ 0 → out = .next ((started s off count).intoLoop.takeWords src)) ∧
      (nested off → count = 0 → ∀ (k : Nat) (t : State), s.lenAt (stop off) = .ok (k, t) →
        out = .next (((started t off 0).completeTo (stop off + BitVec.ofNat 64 k)).takeWords src))
    (s.operands [a] [] [] = .ok [x] → result (exec (.loop a lev ob) s) [a] ob.toNat (min x.toNat 0xFFFFFFFF)) ∧
    (∃ out, exec (.loopi lev oi cnt) s = out ∧
      (¬ nested oi.toNat → out = .next (s.trap { cause := 0x02 })) ∧
      (nested oi.toNat → cnt ≠ 0 → out = .next (started s oi.toNat cnt.toNat).intoLoop) ∧
      (nested oi.toNat → cnt = 0 → ∀ (k : Nat) (t : State), s.lenAt (stop oi.toNat) = .ok (k, t) →
        out = .next ((started t oi.toNat 0).completeTo (stop oi.toNat + BitVec.ofNat 64 k)))) ∧
    (s.ctx.heldStop = false → s.intoLoop.ctx.pc = pc + 4 ∧ s.intoLoop.ctx.life = .runnable ∧
      s.intoLoop.ctx.lc = s.ctx.lc)

/-- LOOP_END_ACTION (R107), in every case of its three levels.

Completion in sequence (R103, R107), with its frame; a STOP held pending takes effect instead (R31). -/
def Obligations.LoopEndAndCompletion : Prop :=
  (∀ (c : Ctx) (a : W) (len : Nat),
    let ends := fun (n : Fin 3) => c.lc[n] ≠ 0 ∧ c.le[n] = a
    let on := a + BitVec.ofNat 64 len
    (¬ ends 0 → ¬ ends 1 → ¬ ends 2 → c.loopNext a len = (c, on)) ∧
    (ends 0 → 1 < c.lc[0].toNat → c.loopNext a len = ({ c with lc := c.lc.set 0 (c.lc[0] - 1) }, c.lb[0])) ∧
    (¬ ends 0 → ends 1 → 1 < c.lc[1].toNat →
      c.loopNext a len = ({ c with lc := c.lc.set 1 (c.lc[1] - 1) }, c.lb[1])) ∧
    (¬ ends 0 → ¬ ends 1 → ends 2 → 1 < c.lc[2].toNat →
      c.loopNext a len = ({ c with lc := c.lc.set 2 (c.lc[2] - 1) }, c.lb[2])) ∧
    (ends 0 → c.lc[0] = 1 → ¬ ends 1 → ¬ ends 2 → c.loopNext a len = ({ c with lc := c.lc.set 0 0 }, on)) ∧
    (ends 0 → c.lc[0] = 1 → ends 1 → 1 < c.lc[1].toNat →
      c.loopNext a len = ({ c with lc := (c.lc.set 0 0).set 1 (c.lc[1] - 1) }, c.lb[1])) ∧
    (ends 0 → c.lc[0] = 1 → ends 1 → c.lc[1] = 1 → ends 2 → c.lc[2] = 1 →
      c.loopNext a len = ({ c with lc := ((c.lc.set 0 0).set 1 0).set 2 0 }, on)) ∧
    (ends 0 → c.lc[0] = 1 → ends 1 → c.lc[1] = 1 → ends 2 → 1 < c.lc[2].toNat →
      c.loopNext a len = ({ c with lc := ((c.lc.set 0 0).set 1 0).set 2 (c.lc[2] - 1) }, c.lb[2])) ∧
    (ends 0 → c.lc[0] = 1 → ends 1 → c.lc[1] = 1 → ¬ ends 2 →
      c.loopNext a len = ({ c with lc := (c.lc.set 0 0).set 1 0 }, on)) ∧
    (ends 0 → c.lc[0] = 1 → ¬ ends 1 → ends 2 → 1 < c.lc[2].toNat →
      c.loopNext a len = ({ c with lc := (c.lc.set 0 0).set 2 (c.lc[2] - 1) }, c.lb[2])) ∧
    (ends 0 → c.lc[0] = 1 → ¬ ends 1 → ends 2 → c.lc[2] = 1 →
      c.loopNext a len = ({ c with lc := (c.lc.set 0 0).set 2 0 }, on)) ∧
    (¬ ends 0 → ends 1 → c.lc[1] = 1 → ¬ ends 2 → c.loopNext a len = ({ c with lc := c.lc.set 1 0 }, on)) ∧
    (¬ ends 0 → ends 1 → c.lc[1] = 1 → ends 2 → 1 < c.lc[2].toNat →
      c.loopNext a len = ({ c with lc := (c.lc.set 1 0).set 2 (c.lc[2] - 1) }, c.lb[2])) ∧
    (¬ ends 0 → ends 1 → c.lc[1] = 1 → ends 2 → c.lc[2] = 1 →
      c.loopNext a len = ({ c with lc := (c.lc.set 1 0).set 2 0 }, on)) ∧
    (¬ ends 0 → ¬ ends 1 → ends 2 → c.lc[2] = 1 → c.loopNext a len = ({ c with lc := c.lc.set 2 0 }, on))) ∧
  (∀ (s : State) (len : Nat),
    (∀ n : Fin 3, s.ctx.lc[n] = 0 ∨ s.ctx.le[n] ≠ s.ctx.pc) →
    let t := s.complete len
    (s.ctx.heldStop = false → t.ctx = { s.ctx.settle with
      pc := (s.ctx.pc + BitVec.ofNat 64 len) &&& 0xFFFFFFFFFFFFFFFE, life := .runnable }) ∧
    (s.ctx.heldStop = true → t.ctx.life = .stopped ∧
      t.ctx.pc = (s.ctx.pc + BitVec.ofNat 64 len) &&& 0xFFFFFFFFFFFFFFFE) ∧
    t.ctx.g = s.ctx.g ∧ t.ctx.v = s.ctx.v ∧ t.ctx.p = s.ctx.p ∧ t.ctx.q = s.ctx.q ∧ t.ctx.x = s.ctx.x ∧
    t.ctx.fst = s.ctx.fst ∧ t.ctx.lc = s.ctx.lc ∧ t.mem = s.mem ∧
    (∀ (c : CoreId) (k : CtxId), ¬ (c = s.cur.core ∧ k = s.cur.ctx) → t.ctxAt c k = s.ctxAt c k))

/-- Table 4.8 (R100).

R73. -/
def Obligations.PredicatesAndIllegalInstructions : Prop :=
  (∀ (s : State) (d pa pb : BitVec 3) (a b g : Reg) (x y : W),
    let A := s.ctx.p.getLsbD pa.toNat
    let B := s.ctx.p.getLsbD pb.toNat
    let gives := fun (i : Instr) (v : Bool) => exec i s = .next ((s.setP d v).complete 4)
    gives (.pand d pa pb) (A && B) ∧ gives (.por d pa pb) (A || B) ∧ gives (.pxor d pa pb) (A != B) ∧
    gives (.pandn d pa pb) (A && !B) ∧ gives (.porn d pa pb) (A || !B) ∧ gives (.pnot d pa) (!A) ∧
    gives (.pmov d pa) A ∧
    (s.operands [a, b] [] [] = .ok [x, y] →
      let cmp := fun (i : Instr) (v : Bool) => exec i s = .next (s.doneP [a, b] d v)
      cmp (.peq d a b) (x == y) ∧ cmp (.pne d a b) (x != y) ∧
      cmp (.plt d a b) (decide (x.toInt < y.toInt)) ∧ cmp (.pge d a b) (decide (y.toInt ≤ x.toInt)) ∧
      cmp (.pltu d a b) (decide (x.toNat < y.toNat)) ∧ cmp (.pgeu d a b) (decide (y.toNat ≤ x.toNat))) ∧
    (s.operands [] [g] [] = .ok [] → exec (.pget g) s = .next (s.doneG 4 [] g (s.ctx.p.zeroExtend 64))) ∧
    (s.operands [a] [] [] = .ok [x] →
      exec (.pput a) s = .next ((s.mapCtx fun c => { c with p := x.extractLsb' 0 8 }).done 4 [a])) ∧
    (∀ v j, (s.setP d v).ctx.p.getLsbD j = if j = d.toNat then v else s.ctx.p.getLsbD j)) ∧
  (∀ (s : State),
    exec .illegalInstruction s = .next (s.trap { cause := 0x01 }) ∧
    ∀ w : BitVec 32, decodeWord w.toNat = none →
      s.execWord w = .next (({ s with cur := { s.cur with insn := w } } : State).trap { cause := 0x01 }))

/-! ### Local memory -/

/-- Memory (R5, R138): read after write, the frame of a write, the byte order, the canonical form. -/
def Obligations.ReadAfterWrite : Prop :=
  ∀ (s : State) (k : Nat) (l : List Byte),
    (s.memOk → ∀ i, i < l.length → memRead (s.wr k l).mem (k + i) = l.getD i 0) ∧
    (∀ a, a < k ∨ k + l.length ≤ a → memRead (s.wr k l).mem a = memRead s.mem a) ∧
    (s.memOk → ∀ n v, (s.wrN k n v).rd k n = v % 2 ^ (8 * n)) ∧
    (∀ n, s.rd k (n + 1) = (memRead s.mem k).toNat + 256 * s.rd (k + 1) n) ∧
    (Memory.wf s.mem = true → Memory.wf (s.wr k l).mem = true) ∧
    (∀ m : List Host.Cell, Memory.wf s.mem = true → Memory.wf m = true →
      (∀ a, memRead s.mem a = memRead m a) → s.mem = m)

/-- The checks of a local access (R135 to R137), each when all before it pass: on an address whose page is in the micro-TLB, in
none, or whose walk has failed (Table 17.6); the waits; and the access that passes. -/
def Obligations.LocalAccessChecks : Prop :=
  ∀ (s : State) (va : W) (n align : Nat) (r w : Bool) (e : TlbEnt) (c : CoreId) (o : Nat), 0 < align →
    let need : Need := { r := r, w := w }
    let root := s.me.xroot
    let found := root.getLsbD 0 = true ∧ va.toNat < 2 ^ 52 ∧ s.ctx.walkFail = none ∧
      s.me.tlb.find? (fun e => e.hits (root.extractLsb' 56 8) (va.toNat / 4096)) = some e
    let permitted := (r = true → e.pte.getLsbD 6 = true) ∧ (w = true → e.pte.getLsbD 7 = true)
    let local_ := e.home va.toNat = .pool c o ∧ c = s.cur.core ∧
      s.me.part.toNat / 2 ^ 44 % 64 * 65536 ≤ o ∧ o + n ≤ 0x300000
    let free := s.me.excluded o n w = false ∧ s.me.gaussHolds (poolKey s.cur.core o) n = false
    (¬ va.toNat % align = 0 → s.access va n align need = .trap { cause := 0x08, addr := va }) ∧
    (va.toNat % align = 0 → root.getLsbD 0 = false → va.toNat < 2 ^ 52 →
      s.access va n align need = .trap { cause := 0x09, detail := 0x301, addr := va }) ∧
    (va.toNat % align = 0 → 2 ^ 52 ≤ va.toNat →
      s.access va n align need = .trap { cause := 0x09, detail := 0x302, addr := va }) ∧
    (va.toNat % align = 0 → found → ¬ permitted →
      s.access va n align need = .trap { cause := 0x0A, detail := e.level * 256 + 4, addr := va }) ∧
    (va.toNat % align = 0 → found → permitted → e.pte.toNat / 2 ^ 61 % 4 ≠ 1 →
      s.access va n align need = .trap { cause := 0x0B, addr := va }) ∧
    (va.toNat % align = 0 → found → permitted → e.home va.toNat = .pool c o →
      ¬ (c = s.cur.core ∧ s.me.part.toNat / 2 ^ 44 % 64 * 65536 ≤ o ∧ o + n ≤ 0x300000) →
      s.access va n align need = .trap { cause := 0x0B, addr := va }) ∧
    (va.toNat % align = 0 → found → permitted → local_ → free →
      s.badIn (poolKey s.cur.core o) n = none → s.access va n align need = .ok (poolKey s.cur.core o)) ∧
    (va.toNat % align = 0 → found → permitted → local_ → free → r = true →
      ∀ d, s.badIn (poolKey s.cur.core o) n = some d →
        s.access va n align need =
          .trap { cause := 0x11, addr := va + BitVec.ofNat 64 d - BitVec.ofNat 64 (poolKey s.cur.core o) }) ∧
    (va.toNat % align = 0 → root.getLsbD 0 = true → va.toNat < 2 ^ 52 → ∀ f, s.ctx.walkFail = some f → f.page = va.toNat / 4096 →
      s.access va n align need = .trap { cause := 0x09, detail := f.detail, addr := va }) ∧
    (va.toNat % align = 0 → root.getLsbD 0 = true → va.toNat < 2 ^ 52 → s.ctx.walkFail = none →
      s.me.tlb.find? (fun e => e.hits (root.extractLsb' 56 8) (va.toNat / 4096)) = none →
      s.access va n align need = .block { kind := 6, hold := true } (s.requestWalk (va.toNat / 4096))) ∧
    (va.toNat % align = 0 → found → permitted → local_ → ¬ free → s.access va n align need = .block { kind := 5 } s) ∧
    (va.toNat % align = 0 → found → permitted → local_ → free → r = false → n % 8 ≠ 0 →
      ∀ d, s.badIn (poolKey s.cur.core o) n = some d →
        s.access va n align need =
          .trap { cause := 0x11, addr := va + BitVec.ofNat 64 d - BitVec.ofNat 64 (poolKey s.cur.core o) }) ∧
    (va.toNat % align = 0 → found → permitted → local_ → free → r = false → n % 8 = 0 →
      s.access va n align need = .ok (poolKey s.cur.core o))

/-- Loads (R139, R140, R131, R143, Table 3.7). A single-bit error met on the way is corrected and counted (R137). -/
def Obligations.LoadsReadMemory : Prop :=
  ∀ (s : State) (d a : Reg) (o : BitVec 12) (uo : BitVec 6) (u : BitVec 1) (z : BitVec 2) (sc : BitVec 3)
      (xr : BitVec 3) (x : W) (k : Nat),
    let reads := fun (i : Instr) (len : Nat) (base : Reg) (off : W) (n : Nat) (signed : Bool) =>
      s.operands [base] [d] [] = .ok [x] → s.access (x + off) n n { r := true } = .ok k →
      exec i s = .next (((s.correct s.cur.core k n).setG d
        (if signed then (BitVec.ofNat (8 * n) (s.rd k n)).signExtend 64 else BitVec.ofNat 64 (s.rd k n))).done len [base])
    let off := fun (n : Nat) => o.signExtend 64 * BitVec.ofNat 64 n
    reads (.ldB d a o) 4 a (off 1) 1 true ∧ reads (.ldH d a o) 4 a (off 2) 2 true ∧
    reads (.ldW d a o) 4 a (off 4) 4 true ∧ reads (.ldD d a o) 4 a (off 8) 8 false ∧
    reads (.ldBu d a o) 4 a (off 1) 1 false ∧ reads (.ldHu d a o) 4 a (off 2) 2 false ∧
    reads (.ldWu d a o) 4 a (off 4) 4 false ∧
    reads (.cLdD d uo) 2 2 (BitVec.ofNat 64 (uo.toNat * 8)) 8 false ∧
    reads (.cLdW d uo) 2 2 (BitVec.ofNat 64 (uo.toNat * 4)) 4 true ∧
    reads (.lda d a u z sc) 4 a 0 (2 ^ z.toNat) (u == 0) ∧
    (s.operands [a] [] [d] = .ok [x] → s.access (x + off 128) 128 128 { r := true } = .ok k →
      exec (.vld d a o) s = .next ((s.correct s.cur.core k 128).doneV [a] d (BitVec.ofNat 1024 (s.rd k 128)))) ∧
    (s.operands [a] [] [] = .ok [x] → s.access (x + off 8) 8 8 { r := true } = .ok k →
      exec (.xld xr a o) s = .next (((s.correct s.cur.core k 8).mapCtx fun c =>
        { c with x := c.x.set xr.toNat (BitVec.ofNat 64 (s.rd k 8)) }).done 4 [a]))

/-- Stores (R139, R131, Table 3.7), and the release store (R140), which waits while an earlier access that its scope
orders is outstanding. A store narrower than a dword corrects a single-bit error it merges with (R137). -/
def Obligations.StoresWriteMemory : Prop :=
  ∀ (s : State) (d a : Reg) (o : BitVec 12) (uo : BitVec 6) (z : BitVec 2) (sc : BitVec 3) (x y : W) (k : Nat),
    let merged := fun (n : Nat) => if n = 8 then s else s.correct s.cur.core k n
    let writes := fun (i : Instr) (len : Nat) (base : Reg) (off : W) (n : Nat) =>
      s.operands [base, d] [] [] = .ok [x, y] → s.access (x + off) n n { w := true } = .ok k →
      exec i s = .next (((merged n).wrN k n y.toNat).done len [base, d])
    let off := fun (n : Nat) => o.signExtend 64 * BitVec.ofNat 64 n
    writes (.stB d a o) 4 a (off 1) 1 ∧ writes (.stH d a o) 4 a (off 2) 2 ∧
    writes (.stW d a o) 4 a (off 4) 4 ∧ writes (.stD d a o) 4 a (off 8) 8 ∧
    writes (.cStD d uo) 2 2 (BitVec.ofNat 64 (uo.toNat * 8)) 8 ∧
    writes (.cStW d uo) 2 2 (BitVec.ofNat 64 (uo.toNat * 4)) 4 ∧
    (s.operands [a, d] [] [] = .ok [x, y] → s.access x (2 ^ z.toNat) (2 ^ z.toNat) { w := true } = .ok k →
      (s.unfenced sc = false → exec (.stl a d z sc) s =
        .next (((merged (2 ^ z.toNat)).wrN k (2 ^ z.toNat) y.toNat).done 4 [a, d])) ∧
      (s.unfenced sc = true → exec (.stl a d z sc) s = .next (s.block { kind := 5 }))) ∧
    (s.operands [a] [] [d] = .ok [x] → s.access (x + off 128) 128 128 { w := true } = .ok k →
      exec (.vst d a o) s = .next ((s.wrN k 128 (s.ctx.rv d).toNat).done 4 [a]))

/-- The frame of a load and of a store (R139, R13): of a sibling only a watch on the stored dword that the store satisfies changes, to
hold the value it latched (R175). The
memory shows no single-bit error, and the context is at no loop end and has no STOP held. -/
def Obligations.LoadAndStoreFrames : Prop :=
  ∀ (s : State) (d a : Reg) (o : BitVec 12) (x y : W) (k : Nat),
    s.memOk → s.plain [a, d] → s.weak = [] → s.ctx.heldStop = false → (∀ n : Fin 3, s.ctx.lc[n] = 0 ∨ s.ctx.le[n] ≠ s.ctx.pc) →
    let va := (if a = 0 then 0 else s.ctx.g[a.toNat]) + o.signExtend 64 * 8
    let same := fun (t : State) =>
      t.ctx.v = s.ctx.v ∧ t.ctx.p = s.ctx.p ∧ t.ctx.q = s.ctx.q ∧ t.ctx.x = s.ctx.x ∧ t.ctx.lc = s.ctx.lc ∧
      t.ctx.fst = s.ctx.fst ∧ t.ctx.slim = s.ctx.slim ∧ t.ctx.tvec = s.ctx.tvec ∧ t.ctx.epc = s.ctx.epc ∧
      t.ctx.skip = s.ctx.skip ∧ t.ctx.act = s.ctx.act ∧ t.ctx.frec0 = s.ctx.frec0 ∧ t.ctx.frec1 = s.ctx.frec1 ∧
      t.ctx.frec2 = s.ctx.frec2 ∧ t.ctx.frec3 = s.ctx.frec3 ∧ t.ctx.pend = s.ctx.pend ∧ t.ctx.ops = s.ctx.ops ∧
      t.ctx.pc = (s.ctx.pc + 4) &&& 0xFFFFFFFFFFFFFFFE ∧ t.floes = s.floes ∧ t.net = s.net ∧ t.keys = s.keys ∧
      (∀ c : CoreId, c ≠ s.cur.core → t.core c = s.core c) ∧
      t.ctx.lb = s.ctx.lb ∧ t.ctx.le = s.ctx.le ∧ t.ctx.shadow = s.ctx.shadow ∧ t.ctx.ovf = s.ctx.ovf ∧
      t.ctx.issued = s.ctx.issued ∧ t.ctx.forfeit = s.ctx.forfeit ∧ t.ctx.gang = s.ctx.gang ∧ t.ctx.frame = s.ctx.frame ∧
      { t.me with ctxs := [] } = { s.me with ctxs := [] } ∧
      { t with cores := [], mem := [], bad := [] } = { s with cores := [], mem := [], bad := [] } ∧
      ∀ j : CtxId, j ≠ s.cur.ctx → { t.me.ctx j with watch := none } = { s.me.ctx j with watch := none }
    (s.access va 8 8 { r := true } = .ok k →
      ∃ t, exec (.ldD d a o) s = .next t ∧ same t ∧ t.mem = s.mem ∧ t.bad = s.bad ∧
        (∀ j : CtxId, j ≠ s.cur.ctx → t.me.ctx j = s.me.ctx j) ∧
        (d ≠ 0 → t.ctx.g[d.toNat] = BitVec.ofNat 64 (s.rd k 8)) ∧
        (∀ j : Fin 32, (j.val ≠ d.toNat ∨ d = 0) → t.ctx.g[j] = s.ctx.g[j])) ∧
    (s.access va 8 8 { w := true } = .ok k →
      ∃ t, exec (.stD d a o) s = .next t ∧ same t ∧ t.ctx.g = s.ctx.g ∧
        t.rd8 k = (if d = 0 then 0 else s.ctx.g[d.toNat]) ∧
        (∀ j : CtxId, j ≠ s.cur.ctx → (t.me.ctx j).watch = (s.me.ctx j).watch.map fun w =>
          if w.got = none ∧ w.key < k + 8 ∧ k < w.key + 8 ∧ w.test (t.rd8 w.key) = true then
            { w with got := some (t.rd8 w.key) } else w) ∧
        ∀ j, j < k ∨ k + 8 ≤ j → memRead t.mem j = memRead s.mem j)

/-- Frames (R142). -/
def Obligations.FramesEnterAndLeave : Prop :=
  ∀ (s : State) (d : Reg) (n : BitVec 12) (y : W) (k : Nat),
    let g2 := s.ctx.g[2]
    let size : Nat := 16 * n.toNat
    let low := g2 - BitVec.ofNat 64 size
    let high := g2 + BitVec.ofNat 64 size
    let setSp := fun (t : State) (w : W) => t.mapCtx fun c => { c with g := c.g.set 2 w }
    let fits := size ≤ g2.toNat ∧ s.ctx.slim.toNat ≤ g2.toNat - size
    (s.operands [d] [] [] = .ok [y] →
      (g2.toNat % 16 ≠ 0 → exec (.enter d n) s = .next (s.trap { cause := 0x08, addr := g2 })) ∧
      (g2.toNat % 16 = 0 → ¬ fits → exec (.enter d n) s = .next (s.trap { cause := 0x0C, addr := low })) ∧
      (g2.toNat % 16 = 0 → fits → d = 0 → exec (.enter d n) s = .next ((setSp s low).done 4 [d])) ∧
      (g2.toNat % 16 = 0 → fits → d ≠ 0 → n = 0 → exec (.enter d n) s = .next (s.trap { cause := 0x02 })) ∧
      (g2.toNat % 16 = 0 → fits → d ≠ 0 → n ≠ 0 → s.access (g2 - 8) 8 8 { w := true } = .ok k →
        exec (.enter d n) s = .next ((setSp (s.wr8 k y) low).done 4 [d]))) ∧
    (s.operands [] [d] [] = .ok [] →
      (d = 0 → exec (.leave d n) s = .next ((setSp s high).done 4 [])) ∧
      (d ≠ 0 → n = 0 → exec (.leave d n) s = .next (s.trap { cause := 0x02 })) ∧
      (d ≠ 0 → n ≠ 0 → s.access (high - 8) 8 8 { r := true } = .ok k →
        let t := (s.correct s.cur.core k 8).setG d (s.rd8 k)
        exec (.leave d n) s = .next ((setSp t (t.ctx.g[2] + BitVec.ofNat 64 size)).done 4 [])))

/-- FENCE (R141, R152), IFENCE (R183), XSET and XGET (R143).

NWAIT (R175). -/
def Obligations.FencesExtensionsAndNwait : Prop :=
  (∀ (s : State) (sc : BitVec 3) (xr : BitVec 3) (a d : Reg) (x : W),
    let covered := fun (f : Deferred) => sc ≠ 0 && f.fence
    let outstanding := s.ctx.ops.any fun o => o.fence && !o.done
    exec (.fence 0) s = .next (s.complete 4) ∧
    (s.ctx.pend.find? covered = none → (sc = 0 ∨ outstanding = false) → exec (.fence sc) s = .next (s.complete 4)) ∧
    (s.ctx.pend.find? covered = none → sc ≠ 0 → outstanding = true →
      exec (.fence sc) s = .next (s.block { kind := 5 })) ∧
    (∀ f, s.ctx.pend.find? covered = some f → exec (.fence sc) s =
      .next ((s.mapCtx fun c => { c with pend := c.pend.erase f }).trap
        { cause := f.cause, detail := f.detail, addr := f.addr, fpc := some f.fpc, insn := some f.insn, xid := f.xid,
          def_ := true })) ∧
    (∃ t : State, exec .ifence s = .next (t.complete 4) ∧ t.me.lbuf = [] ∧
      (∀ k : CtxId, (t.me.ctx k).fbuf = []) ∧ t.mem = s.mem ∧ t.ctx.g = s.ctx.g) ∧
    (s.operands [a] [] [] = .ok [x] →
      exec (.xset xr a) s = .next ((s.mapCtx fun c => { c with x := c.x.set xr.toNat x }).done 4 [a])) ∧
    (s.operands [] [d] [] = .ok [] → exec (.xget d xr) s = .next (s.doneG 4 [] d s.ctx.x[xr.toNat]))) ∧
  (∀ (s : State) (d a b : Reg) (sc : BitVec 3) (o t : BitVec 1) (x y : W) (k : Nat),
    s.operands [a, b] [d] [] = .ok [x, y] →
    let word := s.rd8 k
    let passes := if t = 1 then word = y else y.toNat ≤ word.toNat
    let u := s.correct s.cur.core k 8
    (s.ctx.watch = none → s.access x 8 8 { r := true } = .ok k →
      (passes → exec (.nwait d a b sc o t) s = .next ((u.setG d word).done 4 [a, b])) ∧
      (¬ passes → exec (.nwait d a b sc o t) s =
        .next ((u.mapCtx fun c => { c with watch := some ⟨k, y, t == 1, none⟩ }).block { kind := 4 }))) ∧
    (∀ w, s.ctx.watch = some w →
      (∀ v, w.got = some v → exec (.nwait d a b sc o t) s = .next ((s.setG d v).done 4 [a, b])) ∧
      (w.got = none → exec (.nwait d a b sc o t) s = .next (s.block { kind := 4 }))) ∧
    (∀ (w : Watch) (v : W), w.got = none → w.test v = true → w.seen w.key 8 v = { w with got := some v }))

/-- Local atomics (R173, R174). -/
def Obligations.AtomicsReadModifyWrite : Prop :=
  ∀ (s : State) (d a b : Reg) (sc : BitVec 3) (o : BitVec 2) (x y z : W) (k : Nat),
    (2 ≤ o.toNat → s.unfenced sc = false) →
    let old := s.rd8 k
    let does := fun (i : Instr) (src : List Reg) (n : Nat) (oldN : W) (new : W) (f : BitVec 5) =>
      exec i s = .next (((((s.correct s.cur.core k n).wrN k n new.toNat).setG d oldN).orFlags s.cur.core s.cur.ctx f).done
        4 src)
    (s.operands [a, b] [d] [] = .ok [x, y] →
      (s.access x 8 8 { r := true, w := true } = .ok k →
        does (.amoadd d a b sc o) [a, b] 8 old (old + y) 0 ∧
        does (.amofaddD d a b sc o) [a, b] 8 old (BitVec.ofNat 64 (f64.add 0 old.toNat y.toNat).v)
          (f64.add 0 old.toNat y.toNat).f ∧
        does (.amomin d a b sc o) [a, b] 8 old (if old.toInt ≤ y.toInt then old else y) 0 ∧
        does (.amomax d a b sc o) [a, b] 8 old (if old.toInt ≤ y.toInt then y else old) 0 ∧
        does (.amominu d a b sc o) [a, b] 8 old (if old.toNat ≤ y.toNat then old else y) 0 ∧
        does (.amomaxu d a b sc o) [a, b] 8 old (if old.toNat ≤ y.toNat then y else old) 0 ∧
        does (.amoswap d a b sc o) [a, b] 8 old y 0 ∧
        does (.amoand d a b sc o) [a, b] 8 old (old &&& y) 0 ∧
        does (.amoor d a b sc o) [a, b] 8 old (old ||| y) 0 ∧
        does (.amoxor d a b sc o) [a, b] 8 old (old ^^^ y) 0) ∧
      (s.access x 4 4 { r := true, w := true } = .ok k →
        does (.amofaddS d a b sc o) [a, b] 4 (BitVec.ofNat 64 (s.rd k 4))
          (BitVec.ofNat 64 (f32.add 0 (s.rd k 4 % 2 ^ 32) (y.toNat % 2 ^ 32)).v)
          (f32.add 0 (s.rd k 4 % 2 ^ 32) (y.toNat % 2 ^ 32)).f)) ∧
    (s.operands [a, b, d] [d] [] = .ok [x, y, z] → s.access x 8 8 { r := true, w := true } = .ok k →
      does (.amocas d a b sc o) [a, b, d] 8 old (if old = z then y else old) 0)

/-! ### Floating-point and vector instructions -/

/-- RoundTo is the identity on representable values (R33, R34, R41), and rounds every other to one of its two neighbours, once, by
the mode, with its exceptions, or to an overflow (R40 to R43, Tables 2.4, 2.5). -/
def Obligations.RepresentableValuesRoundToThemselves : Prop :=
  (∀ f ∈ [f64, f32, f16, bf16, e4m3, e5m2], ∀ (mode b : Nat) (sgn : Bool) (m : Nat) (e : Int),
    b < 2 ^ f.width → f.decode b = .fin sgn m e → (f.roundTo mode sgn m e).v = b ∧ (f.roundTo mode sgn m e).f = 0) ∧
  (∀ f ∈ [f64, f32, f16, bf16, e4m3, e5m2], ∀ (mode : Nat) (sgn sat : Bool) (m : Nat) (e n : Int),
    mode ≤ 4 → m ≠ 0 → 0 ≤ e + n → 1 ≤ f.emin - f.fb + n →
    f.RoundsOnce mode sgn sat n (fun t => compare t (2 * (m * 2 ^ (e + n).toNat))) (f.roundTo mode sgn m e sat))

/-- The special cases (R35, R44, R45); what the operations deliver on finite operands: the exact value rounded once, and the sign
of a zero (R41 to R43, R54); comparison, minimum, maximum, class and sign (R113 to R116); the conversions (R51 to R53). -/
def Obligations.FloatSpecialOperands : Prop :=
  (∀ f ∈ [f64, f32, f16, bf16], ∀ (mode a b : Nat) (sa sb : Bool) (ma : Nat) (ea eb : Int),
    let A := f.decode a
    let B := f.decode b
    (∀ fr g, A = .nan sa fr g →
      let nv : BitVec 5 := if g || B.isSig then 16 else 0
      f.add mode a b = ⟨f.quiet sa fr, nv, false⟩ ∧ f.sub mode a b = ⟨f.quiet sa fr, nv, false⟩ ∧
      f.mul mode a b = ⟨f.quiet sa fr, nv, false⟩ ∧ f.div mode a b = ⟨f.quiet sa fr, nv, false⟩) ∧
    (∀ fr g, A.isNan = false → B = .nan sb fr g →
      let nv : BitVec 5 := if g then 16 else 0
      f.add mode a b = ⟨f.quiet sb fr, nv, false⟩ ∧ f.sub mode a b = ⟨f.quiet sb fr, nv, false⟩ ∧
      f.mul mode a b = ⟨f.quiet sb fr, nv, false⟩ ∧ f.div mode a b = ⟨f.quiet sb fr, nv, false⟩) ∧
    (A = .inf sa → B = .inf sb →
      f.add mode a b = (if sa = sb then ⟨f.inf sa, 0, false⟩ else ⟨f.dnan, 16, false⟩) ∧
      f.sub mode a b = (if sa = sb then ⟨f.dnan, 16, false⟩ else ⟨f.inf sa, 0, false⟩) ∧
      f.mul mode a b = ⟨f.inf (sa != sb), 0, false⟩ ∧ f.div mode a b = ⟨f.dnan, 16, false⟩) ∧
    (A = .inf sa → B = .fin sb 0 eb → f.mul mode a b = ⟨f.dnan, 16, false⟩) ∧
    (A = .fin sa 0 ea → B = .inf sb → f.mul mode a b = ⟨f.dnan, 16, false⟩) ∧
    (A = .fin sa 0 ea → B = .fin sb 0 eb → f.div mode a b = ⟨f.dnan, 16, false⟩) ∧
    (A = .fin sa ma ea → B = .fin sb 0 eb → ma ≠ 0 → f.div mode a b = ⟨f.inf (sa != sb), 8, false⟩) ∧
    (A = .fin true ma ea → ma ≠ 0 → f.sqrt mode a = ⟨f.dnan, 16, false⟩) ∧
    (A = .fin sa ma ea → B = .inf sb → f.div mode a b = ⟨f.signed (sa != sb) 0, 0, false⟩) ∧
    (∀ fr g, A = .nan sa fr g → f.sqrt mode a = ⟨f.quiet sa fr, if g then 16 else 0, false⟩) ∧
    (A = .inf true → f.sqrt mode a = ⟨f.dnan, 16, false⟩) ∧
    (∀ (np nc : Bool) (c : Nat) (sc : Bool),
      let C := f.decode c
      let zeroInf := (A.isZero && B.isInf) || (A.isInf && B.isZero)
      (∀ fr g, A = .nan sa fr g → f.fma mode np nc a b c =
        ⟨f.quiet sa fr, if g || B.isSig || C.isSig then 16 else 0, false⟩) ∧
      (∀ fr g, A.isNan = false → B = .nan sb fr g → f.fma mode np nc a b c =
        ⟨f.quiet sb fr, if g || C.isSig then 16 else 0, false⟩) ∧
      (∀ fr g, A.isNan = false → B.isNan = false → C = .nan sc fr g → f.fma mode np nc a b c =
        ⟨f.quiet sc fr, if g || zeroInf then 16 else 0, false⟩) ∧
      (C.isNan = false → zeroInf = true → f.fma mode np nc a b c = ⟨f.dnan, 16, false⟩) ∧
      (A = .inf sa → B = .fin sb ma eb → ma ≠ 0 → C = .inf sc → f.fma mode np nc a b c =
        if ((sa != sb) != np) = (sc != nc) then ⟨f.inf (sc != nc), 0, false⟩ else ⟨f.dnan, 16, false⟩))) ∧
  (∀ f ∈ [f64, f32, f16, bf16], ∀ (mode a b c : Nat) (sa sb sc : Bool) (ma mb mc : Nat) (ea eb ec n : Int),
    mode ≤ 4 → f.decode a = .fin sa ma ea → f.decode b = .fin sb mb eb → f.decode c = .fin sc mc ec →
    1 ≤ f.emin - f.fb + n →
    let once := fun (neg : Bool) (cmp : Nat → Ordering) (r : FRes) => f.RoundsOnce mode neg false n cmp r
    let zero := fun (neg : Bool) => (⟨f.signed neg 0, 0, false⟩ : FRes)
    let sum := fun (x y : Int) (sx sy : Bool) (r : FRes) =>
      (x + y ≠ 0 → once (decide (x + y < 0)) (fun t => compare t (2 * (x + y).natAbs)) r) ∧
      (x + y = 0 → r = zero (if sx = sy then sx else mode == 3))
    (0 ≤ ea + n → 0 ≤ eb + n →
      sum (scaled sa ma ea n) (scaled sb mb eb n) sa sb (f.add mode a b) ∧
      sum (scaled sa ma ea n) (scaled (!sb) mb eb n) sa (!sb) (f.sub mode a b)) ∧
    (0 ≤ ea + eb + n → ma * mb ≠ 0 →
      once (sa != sb) (fun t => compare t (2 * (ma * mb * 2 ^ (ea + eb + n).toNat))) (f.mul mode a b)) ∧
    (ma * mb = 0 → f.mul mode a b = zero (sa != sb)) ∧
    (0 ≤ ea - eb + n → ma ≠ 0 → mb ≠ 0 →
      once (sa != sb) (fun t => compare (t * mb) (2 * (ma * 2 ^ (ea - eb + n).toNat))) (f.div mode a b)) ∧
    (ma = 0 → mb ≠ 0 → f.div mode a b = zero (sa != sb)) ∧
    (0 ≤ ea + 2 * n → ma ≠ 0 → sa = false →
      once false (fun t => compare (t * t) (4 * (ma * 2 ^ (ea + 2 * n).toNat))) (f.sqrt mode a)) ∧
    (ma = 0 → f.sqrt mode a = ⟨a, 0, false⟩) ∧
    (∀ np nc : Bool, 0 ≤ ea + eb + n → 0 ≤ ec + n →
      sum (scaled ((sa != sb) != np) (ma * mb) (ea + eb) n) (scaled (sc != nc) mc ec n) ((sa != sb) != np) (sc != nc)
        (f.fma mode np nc a b c))) ∧
  (∀ f ∈ [f64, f32, f16, bf16], ∀ (a b : Nat) (lt eq : Bool),
    let A := f.decode a
    let B := f.decode b
    let sig : BitVec 5 := if A.isSig || B.isSig then 16 else 0
    let nans := A.isNan || B.isNan
    let w := f.width - 1
    (nans = true → f.compare 0 a b = (false, sig) ∧ f.compare 1 a b = (false, 16) ∧ f.compare 2 a b = (false, 16) ∧
      f.compare 3 a b = (true, sig)) ∧
    (A.Ordered B lt eq → f.compare 0 a b = (eq, 0) ∧ f.compare 1 a b = (lt, 0) ∧ f.compare 2 a b = (lt || eq, 0) ∧
      f.compare 3 a b = (false, 0) ∧
      ∀ prop : Bool,
        f.minmax false prop a b = ⟨if lt || (eq && A.sign) then a else b, 0, false⟩ ∧
        f.minmax true prop a b = ⟨if lt || (eq && A.sign) then b else a, 0, false⟩) ∧
    (∀ isMax : Bool,
      (A.isNan = true → B.isNan = false → f.minmax isMax false a b = ⟨b, sig, false⟩) ∧
      (A.isNan = false → B.isNan = true → f.minmax isMax false a b = ⟨a, sig, false⟩) ∧
      (∀ s fr g, A = .nan s fr g → B.isNan = true → f.minmax isMax false a b = ⟨f.quiet s fr, sig, false⟩) ∧
      (∀ s fr g, A = .nan s fr g → f.minmax isMax true a b = ⟨f.quiet s fr, sig, false⟩) ∧
      (∀ s fr g, A.isNan = false → B = .nan s fr g → f.minmax isMax true a b = ⟨f.quiet s fr, sig, false⟩)) ∧
    (A = .inf true → f.classify a = 2 ^ 0) ∧ (A = .inf false → f.classify a = 2 ^ 7) ∧
    (∀ s fr, A = .nan s fr true → f.classify a = 2 ^ 8) ∧ (∀ s fr, A = .nan s fr false → f.classify a = 2 ^ 9) ∧
    (∀ s m e, A = .fin s m e → f.classify a =
      2 ^ (if m = 0 then (if s then 3 else 4) else if m < 2 ^ f.fb then (if s then 2 else 5) else if s then 1 else 6)) ∧
    (f.signInject 0 a b = a % 2 ^ w + b / 2 ^ w % 2 * 2 ^ w ∧
     f.signInject 1 a b = a % 2 ^ w + (1 - b / 2 ^ w % 2) * 2 ^ w ∧
     f.signInject 2 a b = a % 2 ^ w + (a / 2 ^ w + b / 2 ^ w) % 2 * 2 ^ w)) ∧
  (∀ f ∈ [f64, f32, f16, bf16, e4m3, e5m2], ∀ (mode : Nat) (sat s g : Bool) (m fr : Nat) (e n i : Int), mode ≤ 4 →
    let sat8 := sat && (f.e4m3 || f == e5m2)
    (1 ≤ f.emin - f.fb + n → 0 ≤ e + n → m ≠ 0 →
      f.RoundsOnce mode s sat8 n (fun t => compare t (2 * (m * 2 ^ (e + n).toNat))) (f.convert mode sat (.fin s m e))) ∧
    (1 ≤ f.emin - f.fb + n → 0 ≤ n → i ≠ 0 →
      f.RoundsOnce mode (decide (i < 0)) sat8 n (fun t => compare t (2 * (i.natAbs * 2 ^ n.toNat)))
        (f.convert mode sat (.ofInt i))) ∧
    f.convert mode sat (.fin s 0 e) = ⟨f.signed s 0, 0, false⟩ ∧ f.convert mode sat (.ofInt 0) = ⟨0, 0, false⟩ ∧
    f.convert mode sat (.nan s fr g) = ⟨f.quiet s fr, if g then 16 else 0, false⟩ ∧
    f.convert mode sat (.inf s) =
      if f.e4m3 then ⟨f.signed s (if sat then 0x7E else 0x7F), 16, false⟩ else ⟨f.inf s, 0, false⟩) ∧
  (∀ (w : Nat) (sgn s : Bool) (mode m k fr : Nat) (g : Bool) (e : Int), mode ≤ 4 → 0 ≤ e + k →
    let hi : Int := if sgn then 2 ^ (w - 1) - 1 else 2 ^ w - 1
    let lo : Int := if sgn then -2 ^ (w - 1) else 0
    let x := m * 2 ^ (e + k).toNat
    let q := x / 2 ^ k
    let exact := x % 2 ^ k = 0
    let up := ¬ exact ∧ roundsUp mode s (q % 2 == 1) (compare ((2 * q + 1) * 2 ^ k) (2 * x)) = true
    (∀ v : Int, ((up → v = if s then -(q + 1 : Int) else q + 1) ∧ (¬ up → v = if s then -(q : Int) else q)) →
      (hi < v → toInt w sgn mode (.fin s m e) = (hi, 16)) ∧
      (v < lo → ¬ hi < v → toInt w sgn mode (.fin s m e) = (lo, 16)) ∧
      (lo ≤ v → v ≤ hi → (exact → toInt w sgn mode (.fin s m e) = (v, 0)) ∧
        (¬ exact → toInt w sgn mode (.fin s m e) = (v, 1)))) ∧
    toInt w sgn mode (.inf s) = (if s then lo else hi, 16) ∧ toInt w sgn mode (.nan s fr g) = (hi, 16))

/-- Scalar floating point (R46, R49, R50, R110 to R121): how each instruction ends, on the operation it names. -/
def Obligations.ScalarFloatResults : Prop :=
  ∀ (s : State) (d a b : Reg) (p rm : BitVec 3) (fc : BitVec 2) (t u : BitVec 4) (sat : BitVec 1) (x y z : W),
    let mode := if rm = 7 then (s.ctx.fst.extractLsb' 5 3).toNat else rm.toNat
    let enabled : BitVec 5 := s.ctx.fst.extractLsb' 8 5
    let ends := fun (i : Instr) (src : List Reg) (turns : Nat) (f : BitVec 5) (written : State) =>
      (f &&& enabled = 0 → exec i s =
        .next (((written.orFlags s.cur.core s.cur.ctx f).forfeits turns).done 4 src)) ∧
      (f &&& enabled ≠ 0 → exec i s = .next (s.trap { cause := 0x07, exc := f, turns := turns }))
    let gives := fun (i : Instr) (src : List Reg) (F : Fmt) (fixed : Nat) (args : List Nat) (r : FRes) =>
      ends i src (fixed + if r.slow || args.any F.isSub then 2 else 0) r.f (s.setG d (BitVec.ofNat 64 r.v))
    let F := fpFmt fc.toNat
    let X := x.toNat % 2 ^ F.width
    let Y := y.toNat % 2 ^ F.width
    let Z := z.toNat % 2 ^ F.width
    let G := codeFmt t.toNat
    (s.operands [a, b] [d] [] = .ok [x, y] →
      gives (.fadd d a b rm fc) [a, b] F 0 [X, Y] (F.add mode X Y) ∧
      gives (.fsub d a b rm fc) [a, b] F 0 [X, Y] (F.sub mode X Y) ∧
      gives (.fmul d a b rm fc) [a, b] F 0 [X, Y] (F.mul mode X Y) ∧
      gives (.fdiv d a b rm fc) [a, b] F 4 [X, Y] (F.div mode X Y) ∧
      gives (.fmin d a b fc) [a, b] F 0 [X, Y] (F.minmax false false X Y) ∧
      gives (.fmax d a b fc) [a, b] F 0 [X, Y] (F.minmax true false X Y) ∧
      gives (.fminp d a b fc) [a, b] F 0 [X, Y] (F.minmax false true X Y) ∧
      gives (.fmaxp d a b fc) [a, b] F 0 [X, Y] (F.minmax true true X Y) ∧
      gives (.fsgnj d a b fc) [a, b] F 0 [X, Y] ⟨F.signInject 0 X Y, 0, false⟩ ∧
      gives (.fsgnjn d a b fc) [a, b] F 0 [X, Y] ⟨F.signInject 1 X Y, 0, false⟩ ∧
      gives (.fsgnjx d a b fc) [a, b] F 0 [X, Y] ⟨F.signInject 2 X Y, 0, false⟩) ∧
    (s.operands [a] [d] [] = .ok [x] →
      gives (.fsqrt d a rm fc) [a] F 4 [X] (F.sqrt mode X) ∧
      gives (.fclass d a fc) [a] F 0 [X] ⟨F.classify X, 0, false⟩ ∧
      gives (.fround d a t u rm) [a] G 0 [x.toNat % 2 ^ G.width] (G.roundInt mode (x.toNat % 2 ^ G.width)) ∧
      (let c := fcvtOp mode (sat == 1) t.toNat u.toNat x;
        ends (.fcvt d a t u sat rm) [a] (if c.2.2 then 2 else 0) c.2.1 (s.setG d c.1))) ∧
    (s.operands [a, b, d] [d] [] = .ok [x, y, z] →
      gives (.fmadd d a b rm fc) [a, b, d] F 0 [X, Y, Z] (F.fma mode false false X Y Z) ∧
      gives (.fmsub d a b rm fc) [a, b, d] F 0 [X, Y, Z] (F.fma mode false true X Y Z) ∧
      gives (.fnmadd d a b rm fc) [a, b, d] F 0 [X, Y, Z] (F.fma mode true false X Y Z) ∧
      gives (.fnmsub d a b rm fc) [a, b, d] F 0 [X, Y, Z] (F.fma mode true true X Y Z)) ∧
    (s.operands [a, b] [] [] = .ok [x, y] →
      let compares := fun (i : Instr) (op : Nat) =>
        ends i [a, b] (if [X, Y].any F.isSub then 2 else 0) (F.compare op X Y).2 (s.setP p (F.compare op X Y).1)
      compares (.feq p a b fc) 0 ∧ compares (.flt p a b fc) 1 ∧ compares (.fle p a b fc) 2 ∧
      compares (.funord p a b fc) 3)

/-- Floating-point lanes (R14, R47, R111, R122, R123). -/
def Obligations.VectorFloatLanes : Prop :=
  ∀ (s : State) (d a b : Reg) (m l : BitVec 2), (∀ r ∈ [d, a, b], r.toNat < vcapOf s.me.part) →
    let F := fpFmt l.toNat
    let n := 1024 / F.width
    let mode := (s.ctx.fst.extractLsb' 5 3).toNat
    let enabled : BitVec 5 := s.ctx.fst.extractLsb' 8 5
    let A := fun i => laneAt F.width (s.ctx.rv a) i
    let B := fun i => laneAt F.width (s.ctx.rv b) i
    let D := fun i => laneAt F.width (s.ctx.rv d) i
    let on := s.laneOn m F.width
    let ends := fun (i : Instr) (fixed : Nat) (args : Nat → List Nat) (r : Nat → FRes) =>
      let f := (List.range n).foldl (fun f j => if on j then f ||| (r j).f else f) 0
      let turns := fixed + if (List.range n).any (fun j => on j && ((r j).slow || (args j).any F.isSub)) then 4 else 0
      (f &&& enabled = 0 → ∃ v : V,
        exec i s = .next ((((s.setV d v).orFlags s.cur.core s.cur.ctx f).forfeits turns).done 4 []) ∧
        ∀ j, j < n → laneAt F.width v j = if on j then (r j).v % 2 ^ F.width else D j) ∧
      (f &&& enabled ≠ 0 → ∃ j, j < n ∧ on j = true ∧ (r j).f &&& enabled ≠ 0 ∧
        (∀ k, k < j → on k = true → (r k).f &&& enabled = 0) ∧
        exec i s = .next (s.trap { cause := 0x07, lane := j, exc := f, turns := turns }))
    ends (.vaddFp d a b m l) 0 (fun i => [A i, B i]) (fun i => F.add mode (A i) (B i)) ∧
    ends (.vsubFp d a b m l) 0 (fun i => [A i, B i]) (fun i => F.sub mode (A i) (B i)) ∧
    ends (.vmulFp d a b m l) 0 (fun i => [A i, B i]) (fun i => F.mul mode (A i) (B i)) ∧
    ends (.vdiv d a b m l) 8 (fun i => [A i, B i]) (fun i => F.div mode (A i) (B i)) ∧
    ends (.vsqrt d a m l) 8 (fun i => [A i]) (fun i => F.sqrt mode (A i)) ∧
    ends (.vminFp d a b m l) 0 (fun i => [A i, B i]) (fun i => F.minmax false false (A i) (B i)) ∧
    ends (.vmaxFp d a b m l) 0 (fun i => [A i, B i]) (fun i => F.minmax true false (A i) (B i)) ∧
    ends (.vfmadd d a b m l) 0 (fun i => [A i, B i, D i]) (fun i => F.fma mode false false (A i) (B i) (D i)) ∧
    ends (.vfmsub d a b m l) 0 (fun i => [A i, B i, D i]) (fun i => F.fma mode false true (A i) (B i) (D i)) ∧
    ends (.vfnmadd d a b m l) 0 (fun i => [A i, B i, D i]) (fun i => F.fma mode true false (A i) (B i) (D i)) ∧
    ends (.vsgnj d a b m l) 0 (fun i => [A i, B i]) (fun i => ⟨F.signInject 0 (A i) (B i), 0, false⟩) ∧
    ends (.vsgnjn d a b m l) 0 (fun i => [A i, B i]) (fun i => ⟨F.signInject 1 (A i) (B i), 0, false⟩) ∧
    ends (.vsgnjx d a b m l) 0 (fun i => [A i, B i]) (fun i => ⟨F.signInject 2 (A i) (B i), 0, false⟩) ∧
    ends (.vcvti d a m l) 0 (fun i => [A i])
      (fun i => ⟨bitsOf F.width (toInt F.width true mode (F.decode (A i))).1,
        (toInt F.width true mode (F.decode (A i))).2, false⟩) ∧
    ends (.vcvtf d a m l) 0 (fun _ => [])
      (fun i => F.convert mode false (.ofInt (intOf F.width true (A i))))

/-- Integer lanes (R14, R122, Table 5.8): `sgn` reads a lane as signed. -/
def Obligations.VectorIntegerLanes : Prop :=
  ∀ (s : State) (d a b : Reg) (m l : BitVec 2), (∀ r ∈ [d, a, b], r.toNat < vcapOf s.me.part) →
    let w := 64 / 2 ^ l.toNat
    let n := 1024 / w
    let A := fun i => laneAt w (s.ctx.rv a) i
    let B := fun i => laneAt w (s.ctx.rv b) i
    let D := fun i => laneAt w (s.ctx.rv d) i
    let sgn := fun (x : Nat) => if x < 2 ^ (w - 1) then (x : Int) else x - 2 ^ w
    let low := fun (x : Int) => (x % 2 ^ w).toNat
    let satS := fun (x : Int) => low (max (-2 ^ (w - 1)) (min (2 ^ (w - 1) - 1) x))
    let gives := fun (i : Instr) (r : Nat → Nat) =>
      ∃ v : V, exec i s = .next (s.doneV [] d v) ∧
        ∀ j, j < n → laneAt w v j = if s.laneOn m w j then r j % 2 ^ w else D j
    gives (.vaddInt d a b m l) (fun i => A i + B i) ∧
    gives (.vsubInt d a b m l) (fun i => low ((A i : Int) - B i)) ∧
    gives (.vmulInt d a b m l) (fun i => A i * B i) ∧
    gives (.vmulh d a b m l) (fun i => low (sgn (A i) * sgn (B i) / 2 ^ w)) ∧
    gives (.vminInt d a b m l) (fun i => if sgn (A i) ≤ sgn (B i) then A i else B i) ∧
    gives (.vmaxInt d a b m l) (fun i => if sgn (A i) ≤ sgn (B i) then B i else A i) ∧
    gives (.vminu d a b m l) (fun i => min (A i) (B i)) ∧
    gives (.vmaxu d a b m l) (fun i => max (A i) (B i)) ∧
    gives (.vaddss d a b m l) (fun i => satS (sgn (A i) + sgn (B i))) ∧
    gives (.vsubss d a b m l) (fun i => satS (sgn (A i) - sgn (B i))) ∧
    gives (.vaddus d a b m l) (fun i => min (2 ^ w - 1) (A i + B i)) ∧
    gives (.vsubus d a b m l) (fun i => A i - B i) ∧
    gives (.vand d a b m l) (fun i => A i &&& B i) ∧
    gives (.vor d a b m l) (fun i => A i ||| B i) ∧
    gives (.vxor d a b m l) (fun i => A i ^^^ B i) ∧
    gives (.vandn d a b m l) (fun i => A i &&& (2 ^ w - 1 - B i)) ∧
    gives (.vsll d a b m l) (fun i => A i * 2 ^ (B i % w)) ∧
    gives (.vsrl d a b m l) (fun i => A i / 2 ^ (B i % w)) ∧
    gives (.vsra d a b m l) (fun i => low (sgn (A i) / 2 ^ (B i % w))) ∧
    gives (.vmla d a b m l) (fun i => D i + A i * B i)

/-- Compares into masks (R124), mask operations (R128) and vsel (R125). -/
def Obligations.VectorComparesAndMasks : Prop :=
  ∀ (s : State) (q qa qb m l : BitVec 2) (a b d : Reg) (x : W),
    (∀ r ∈ [d, a, b], r.toNat < vcapOf s.me.part) →
    let Q := fun (r : BitVec 2) => if r = 0 then BitVec.allOnes 64 else s.ctx.q[r.toNat]
    let bitsAre := fun (v : W) (w : Nat) (test : Nat → Bool) => ∀ j, j < 64 →
      v.getLsbD j = (decide (j < 1024 / w) && if s.laneOn m w j then test j else (Q q).getLsbD j)
    let w := 64 / 2 ^ l.toNat
    let A := fun i => laneAt w (s.ctx.rv a) i
    let B := fun i => laneAt w (s.ctx.rv b) i
    let sgn := fun (x : Nat) => if x < 2 ^ (w - 1) then (x : Int) else x - 2 ^ w
    let compares := fun (i : Instr) (test : Nat → Bool) => l ≠ 3 → ∃ v : W, exec i s = .next (s.doneQ [] q v) ∧ bitsAre v w test
    let F := fpFmt l.toNat
    let fcompares := fun (i : Instr) (op : Nat) =>
      let r := fun j => F.compare op (laneAt F.width (s.ctx.rv a) j) (laneAt F.width (s.ctx.rv b) j)
      let on := s.laneOn m F.width
      let f := (List.range (1024 / F.width)).foldl (fun f j => if on j then f ||| (r j).2 else f) 0
      let turns := if (List.range (1024 / F.width)).any (fun j => on j &&
        (F.isSub (laneAt F.width (s.ctx.rv a) j) || F.isSub (laneAt F.width (s.ctx.rv b) j))) then 4 else 0
      let enabled : BitVec 5 := s.ctx.fst.extractLsb' 8 5
      (f &&& enabled = 0 → ∃ v : W, bitsAre v F.width (fun j => (r j).1) ∧
        exec i s = .next ((((s.setQ q v).orFlags s.cur.core s.cur.ctx f).forfeits turns).done 4 [])) ∧
      (f &&& enabled ≠ 0 → ∃ j, j < 1024 / F.width ∧ on j = true ∧ (r j).2 &&& enabled ≠ 0 ∧
        (∀ k, k < j → on k = true → (r k).2 &&& enabled = 0) ∧
        exec i s = .next (s.trap { cause := 0x07, lane := j, exc := f, turns := turns }))
    let selects := fun (i : Instr) (w : Nat) (sub : Nat → Bool) =>
      let lane := fun j => if s.laneOn m w j then laneAt w (s.ctx.rv a) j else laneAt w (s.ctx.rv b) j
      ∃ v : V, (∀ j, j < 1024 / w → laneAt w v j = lane j) ∧
        exec i s = .next (((s.setV d v).forfeits (if (List.range (1024 / w)).any (fun j => sub (lane j)) then 4 else 0)).done 4 [])
    compares (.vcmpeqInt q a b m l) (fun i => A i == B i) ∧
    compares (.vcmpltInt q a b m l) (fun i => decide (sgn (A i) < sgn (B i))) ∧
    compares (.vcmpltu q a b m l) (fun i => decide (A i < B i)) ∧
    fcompares (.vcmpeqFp q a b m l) 0 ∧ fcompares (.vcmpltFp q a b m l) 1 ∧
    fcompares (.vcmple q a b m l) 2 ∧ fcompares (.vcmpun q a b m l) 3 ∧
    selects (.vselFp d a b m l) F.width F.isSub ∧ selects (.vselInt d a b m l) w (fun _ => false) ∧
    exec (.qand q qa qb) s = .next ((s.setQ q (Q qa &&& Q qb)).complete 4) ∧
    exec (.qor q qa qb) s = .next ((s.setQ q (Q qa ||| Q qb)).complete 4) ∧
    exec (.qxor q qa qb) s = .next ((s.setQ q (Q qa ^^^ Q qb)).complete 4) ∧
    exec (.qandn q qa qb) s = .next ((s.setQ q (Q qa &&& ~~~(Q qb))).complete 4) ∧
    (s.operands [] [d] [] = .ok [] → exec (.qget d qa) s = .next (s.doneG 4 [] d (Q qa))) ∧
    (s.operands [a] [] [] = .ok [x] → exec (.qput q a) s = .next (s.doneQ [a] q x)) ∧
    (∀ v, (s.setQ 0 v).ctx = s.ctx)

/-- Reductions (R55, R56, R127). `tree` is PairwiseSum over the operation: level by level, absent terms skipped. `dotLevel` is the
first level of vdot: two exact products rounded once, or the product of the lane present. That a subnormal result of any operation
of the tree forfeits turns is the model's (log 65). -/
def Obligations.VectorReductions : Prop :=
  ∀ (s : State) (d a b : Reg) (m l : BitVec 2),
    s.operands [] [d] [a] = .ok [] → s.operands [] [d] [a, b] = .ok [] →
    let w := 64 / 2 ^ l.toNat
    let sgn := fun (x : Nat) => if x < 2 ^ (w - 1) then (x : Int) else x - 2 ^ w
    let here := ((List.range (1024 / w)).filter (s.laneOn m w)).map fun i => sgn (laneAt w (s.ctx.rv a) i)
    let F := fpFmt l.toNat
    let mode := (s.ctx.fst.extractLsb' 5 3).toNat
    let enabled : BitVec 5 := s.ctx.fst.extractLsb' 8 5
    let on := s.laneOn m F.width
    let A := fun i => laneAt F.width (s.ctx.rv a) i
    let B := fun i => laneAt F.width (s.ctx.rv b) i
    let lanes := List.range (1024 / F.width)
    let ends := fun (i : Instr) (v : Nat) (ops : List TreeOp) (slow : Bool) =>
      let f := ops.foldl (fun f o => f ||| o.f) 0
      let turns := if slow then 4 else 0
      (f &&& enabled = 0 → exec i s = .next ((((s.setG d (BitVec.ofNat 64 v)).orFlags s.cur.core s.cur.ctx f).forfeits
        turns).done 4 [])) ∧
      (f &&& enabled ≠ 0 → ∃ o, ops.find? (fun o => o.f &&& enabled != 0) = some o ∧
        exec i s = .next (s.trap { cause := 0x07, lane := o.lane, exc := f, turns := turns }))
    let reduces := fun (i : Instr) (op : Nat → Nat → FRes) =>
      let r := tree op (lanes.map fun j => if on j then some (j, A j) else none)
      ends i r.1 r.2.1 (r.2.2 || lanes.any fun j => on j && F.isSub (A j))
    let integer := fun (i : Instr) (r : Int) => exec i s = .next (s.doneG 4 [] d (BitVec.ofInt 64 r))
    integer (.vredsumInt d a m l) (sgn (here.sum % 2 ^ w).toNat) ∧
    (here ≠ [] → ∃ lo ∈ here, (∀ x ∈ here, lo ≤ x) ∧ integer (.vredminInt d a m l) lo) ∧
    (here ≠ [] → ∃ hi ∈ here, (∀ x ∈ here, x ≤ hi) ∧ integer (.vredmaxInt d a m l) hi) ∧
    (here = [] → integer (.vredminInt d a m l) 0 ∧ integer (.vredmaxInt d a m l) 0) ∧
    reduces (.vredsumFp d a m l) (F.add mode) ∧
    reduces (.vredminFp d a m l) (F.minmax false false) ∧
    reduces (.vredmaxFp d a m l) (F.minmax true false) ∧
    (let first := dotLevel F mode (s.ctx.rq m) (lanes.map fun j => (j, A j, B j));
      let r := tree (F.add mode) first.1;
      ends (.vdot d a b m l) r.1 (first.2.1 ++ r.2.1)
        (first.2.2 || r.2.2 || lanes.any fun j => on j && (F.isSub (A j) || F.isSub (B j)))) ∧
    (∀ (op : Nat → Nat → FRes) (terms : List Leaf), terms.length ≤ 2 ^ 16 →
      tree op [] = (0, [], false) ∧ tree op [none] = (0, [], false) ∧ (∀ j v, tree op [some (j, v)] = (v, [], false)) ∧
      (2 ≤ terms.length →
        let up := pairUp op terms
        let r := tree op up.1
        tree op terms = (r.1, up.2.1 ++ r.2.1, up.2.2 || r.2.2))) ∧
    (let first := dotLevel F mode (s.ctx.rq m) (lanes.map fun j => (j, A j, B j));
      ∃ pair : Nat → FRes,
        first.1 = (List.range (512 / F.width)).map (fun i =>
          if on (2 * i) then some (2 * i, (pair i).v) else if on (2 * i + 1) then some (2 * i + 1, (pair i).v) else none) ∧
        first.2.1 = ((List.range (512 / F.width)).filter fun i => on (2 * i) || on (2 * i + 1)).map (fun i =>
          ⟨if on (2 * i) then 2 * i else 2 * i + 1, (pair i).f⟩) ∧
        (first.2.2 = true ↔ ∃ i < 512 / F.width, (on (2 * i) || on (2 * i + 1)) = true ∧ (pair i).slow = true) ∧
        ∀ i < 512 / F.width,
          let a0 := F.decode (A (2 * i))
          let a1 := F.decode (A (2 * i + 1))
          let b0 := F.decode (B (2 * i))
          let b1 := F.decode (B (2 * i + 1))
          let zeroInf := fun (x y : Val) => (x.isZero && y.isInf) || (x.isInf && y.isZero)
          let nv := zeroInf a0 b0 || zeroInf a1 b1
          (on (2 * i) = true → on (2 * i + 1) = false → pair i = F.mul mode (A (2 * i)) (B (2 * i))) ∧
          (on (2 * i) = false → on (2 * i + 1) = true → pair i = F.mul mode (A (2 * i + 1)) (B (2 * i + 1))) ∧
          (on (2 * i) = true → on (2 * i + 1) = true →
            (∀ sn fr g, [a0, a1, b0, b1].find? Val.isNan = some (.nan sn fr g) → pair i =
              ⟨F.quiet sn fr, if nv || [a0, a1, b0, b1].any Val.isSig then 16 else 0, false⟩) ∧
            ([a0, a1, b0, b1].find? Val.isNan = none →
              (nv = true → pair i = ⟨F.dnan, 16, false⟩) ∧
              (nv = false →
                let inf0 := a0.isInf || b0.isInf
                let inf1 := a1.isInf || b1.isInf
                let s0 := a0.sign != b0.sign
                let s1 := a1.sign != b1.sign
                (inf0 = true → inf1 = true → s0 ≠ s1 → pair i = ⟨F.dnan, 16, false⟩) ∧
                (inf0 = true → (inf1 = true → s0 = s1) → pair i = ⟨F.inf s0, 0, false⟩) ∧
                (inf0 = false → inf1 = true → pair i = ⟨F.inf s1, 0, false⟩))) ∧
            (∀ (sa sb sc sd : Bool) (ma mb mc md : Nat) (ea eb ec ed n : Int),
              a0 = .fin sa ma ea → b0 = .fin sb mb eb → a1 = .fin sc mc ec → b1 = .fin sd md ed →
              1 ≤ F.emin - F.fb + n → 0 ≤ ea + eb + n → 0 ≤ ec + ed + n → mode ≤ 4 →
              F.SumRounds mode n [(sa != sb, scaled (sa != sb) (ma * mb) (ea + eb) n),
                (sc != sd, scaled (sc != sd) (mc * md) (ec + ed) n)] (pair i))))

/-- Permutes (R129, R130). -/
def Obligations.VectorPermutes : Prop :=
  ∀ (s : State) (d a b g : Reg) (m wc : BitVec 2) (x y : W), (∀ r ∈ [d, a, b], r.toNat < vcapOf s.me.part) →
    let w := 64 / 2 ^ wc.toNat
    let n := 1024 / w
    let A := fun i => laneAt w (s.ctx.rv a) i
    let B := fun i => laneAt w (s.ctx.rv b) i
    let D := fun i => laneAt w (s.ctx.rv d) i
    let gives := fun (i : Instr) (src : List Reg) (r : Nat → Nat) =>
      ∃ v : V, exec i s = .next (s.doneV src d v) ∧
        ∀ j, j < n → laneAt w v j = if s.laneOn m w j then r j else D j
    gives (.vperm d a b m wc) [] (fun i => A (B i % n)) ∧
    gives (.vzip d a b m wc) [] (fun i => if i % 2 = 0 then A (i / 2) else B (i / 2)) ∧
    gives (.vziph d a b m wc) [] (fun i => if i % 2 = 0 then A (n / 2 + i / 2) else B (n / 2 + i / 2)) ∧
    (s.operands [g] [] [d, a] = .ok [x] →
      gives (.vslideup d a g m wc) [g] (fun i => if x.toNat ≤ i then A (i - x.toNat) else 0) ∧
      gives (.vslidedn d a g m wc) [g] (fun i => if i + x.toNat < n then A (i + x.toNat) else 0)) ∧
    (s.operands [g] [] [d] = .ok [x] → gives (.vbcast d g m wc) [g] (fun _ => x.toNat % 2 ^ w)) ∧
    (s.operands [a, g] [] [d] = .ok [y, x] → ∃ v : V,
      exec (.vins d a g wc) s = .next ((if x.toNat < n then s.setV d v else s).done 4 [a, g]) ∧
      ∀ j, j < n → laneAt w v j = if j = x.toNat then y.toNat % 2 ^ w else D j) ∧
    (s.operands [b] [g] [a] = .ok [x] →
      exec (.vext g a b wc) s = .next (s.doneG 4 [b] g (if x.toNat < n then BitVec.ofNat 64 (A x.toNat) else 0))) ∧
    (∃ v : V, exec (.vcompress d a m wc) s = .next (s.doneV [] d v) ∧
      let kept := ((List.range n).filter (s.laneOn m w)).map A
      ∀ j, j < n → laneAt w v j = kept.getD j 0)

/-- Vector memory by element (R131, R132): `elements` answers each lane's key once every lane's address has passed, and reports
the lowest failing lane. A data error comes after every address check, with the lane that met it (log 64). -/
def Obligations.VectorElementAccesses : Prop :=
  ∀ (s : State) (d a b : Reg) (m wc : BitVec 2) (x y : W) (keys : List (Nat × Nat)),
    let w := 64 / 2 ^ wc.toNat
    let lanes := (List.range (1024 / w)).filter (s.laneOn m w)
    let idx := fun i => BitVec.ofNat 64 (laneAt w (s.ctx.rv b) i)
    let fixed := fun (t : State) => keys.foldl (fun t p => t.correct t.cur.core p.2 (w / 8)) t
    let loads := fun (i : Instr) (src : List Reg) (addr : Nat → W) =>
      s.elements (w / 8) { r := true } (lanes.map fun j => (j, addr j)) = .ok keys →
      ∃ v : V, exec i s = .next ((fixed s).doneV src d v) ∧ ∀ j, j < 1024 / w →
        laneAt w v j = match keys.find? (fun p => p.1 == j) with
          | some p => s.rd p.2 (w / 8)
          | none => laneAt w (s.ctx.rv d) j
    let stores := fun (i : Instr) (src : List Reg) (addr : Nat → W) =>
      s.elements (w / 8) { w := true } (lanes.map fun j => (j, addr j)) = .ok keys →
      exec i s = .next ((keys.foldl (fun t p =>
        (if w = 64 then t else t.correct t.cur.core p.2 (w / 8)).wrN p.2 (w / 8) (laneAt w (s.ctx.rv d) p.1)) s).done 4 src)
    let stops := fun (i : Instr) (need : Need) (addr : Nat → W) =>
      ∀ t, s.elements (w / 8) need (lanes.map fun j => (j, addr j)) = .trap t → exec i s = .next (s.trap t)
    (s.operands [a, b] [] [d] = .ok [x, y] →
      loads (.vlds d a b m wc) [a, b] (fun i => x + BitVec.ofNat 64 i * y) ∧
      stores (.vsts d a b m wc) [a, b] (fun i => x + BitVec.ofNat 64 i * y) ∧
      stops (.vlds d a b m wc) { r := true } (fun i => x + BitVec.ofNat 64 i * y) ∧
      stops (.vsts d a b m wc) { w := true } (fun i => x + BitVec.ofNat 64 i * y)) ∧
    (s.operands [a] [] [d, b] = .ok [x] →
      loads (.vgather d a b m wc) [a] (fun i => x + idx i) ∧ stores (.vscatter d a b m wc) [a] (fun i => x + idx i) ∧
      stops (.vgather d a b m wc) { r := true } (fun i => x + idx i) ∧
      stops (.vscatter d a b m wc) { w := true } (fun i => x + idx i)) ∧
    (s.operands [a] [] [d] = .ok [x] → loads (.vldb d a m wc) [a] (fun _ => x) ∧
      stops (.vldb d a m wc) { r := true } (fun _ => x)) ∧
    (∀ need l i va rest t, (∀ p ∈ l, ∃ k, s.reach p.2 (w / 8) (w / 8) need = .ok k) →
      s.reach va (w / 8) (w / 8) need = .trap t →
      s.elements (w / 8) need (l ++ (i, va) :: rest) = .trap { t with lane := i }) ∧
    (∀ need l i va rest t, (∀ p ∈ l, ∃ k, s.access p.2 (w / 8) (w / 8) need = .ok k) →
      (∀ p ∈ rest, ∃ k, s.reach p.2 (w / 8) (w / 8) need = .ok k) → s.access va (w / 8) (w / 8) need = .trap t →
      s.elements (w / 8) need (l ++ (i, va) :: rest) = .trap { t with lane := i }) ∧
    (∀ need (l : List (Nat × W × Nat)), (∀ q ∈ l, s.access q.2.1 (w / 8) (w / 8) need = .ok q.2.2) →
      s.elements (w / 8) need (l.map fun q => (q.1, q.2.1)) = .ok (l.map fun q => (q.1, q.2.2)))

/-! ### Traps, system and core registers, supervision -/

/-- Trap entry with a handler (R146 to R148). PEND shows how many deferred faults are queued where its two bits hold
the number (log 15). -/
def Obligations.TrapEntryGoesToTheHandler : Prop :=
  ∀ (s : State) (t : Trap), s.ctx.act = false → s.ctx.tvec ≠ 0 → s.ctx.heldStop = false →
    t.cause < 64 → t.detail < 4096 → t.lane < 128 →
    let c := s.ctx
    let u := (s.trap t).ctx
    let reported := (t.pc.getD c.pc) &&& 0xFFFFFFFFFFFFFFFE
    u.pc = c.tvec &&& 0xFFFFFFFFFFFFFFFE ∧ u.epc = reported ∧ u.act = true ∧
    u.skip = (t.cause == 0x0D || t.cause == 0x0E) ∧ u.life = .runnable ∧
    u.frec0.getLsbD 63 = true ∧ u.frec0.getLsbD 62 = t.def_ ∧ u.frec0.getLsbD 61 = false ∧
    u.frec0.getLsbD 60 = c.ovf ∧ (c.pend.length ≤ 3 → u.frec0.toNat / 2 ^ 58 % 4 = c.pend.length) ∧
    u.frec0.toNat / 2 ^ 51 % 128 = t.lane ∧ u.frec0.extractLsb' 46 5 = t.exc ∧
    u.frec0.toNat / 2 ^ 12 % 4096 = t.detail ∧ u.frec0.toNat % 64 = t.cause ∧
    u.frec1 = t.fpc.getD (t.pc.getD c.pc) ∧ u.frec2 = t.addr ∧
    u.frec3.extractLsb' 0 32 = t.insn.getD s.cur.insn ∧ u.frec3.extractLsb' 32 16 = t.xid ∧
    u.ovf = false ∧ u.pend = c.pend ∧
    u.g = c.g ∧ u.v = c.v ∧ u.p = c.p ∧ u.q = c.q ∧ u.x = c.x ∧ u.lc = c.lc ∧ u.lb = c.lb ∧ u.le = c.le ∧
    u.fst = c.fst ∧ u.slim = c.slim ∧ u.tvec = c.tvec ∧ (s.trap t).mem = s.mem ∧
    (∀ (co : CoreId) (k : CtxId), ¬ (co = s.cur.core ∧ k = s.cur.ctx) → (s.trap t).ctxAt co k = s.ctxAt co k)

/-- Trap entry that stops (R147), its event (R165, R166), and c0's core fault (R185, R427). The event stands behind every event
of an earlier cycle. -/
def Obligations.TrapWithoutHandlerStops : Prop :=
  ∀ (s : State) (t : Trap), (s.ctx.act = true ∨ s.ctx.tvec = 0) → t.cause < 64 →
    let c := s.ctx
    let w := s.trap t
    let u := w.ctx
    u.epc = c.epc ∧ u.act = c.act ∧ u.skip = c.skip ∧ u.pc = (t.pc.getD c.pc) &&& 0xFFFFFFFFFFFFFFFE ∧
    u.frec0.getLsbD 63 = true ∧ u.frec0.getLsbD 61 = c.act ∧ u.frec0.toNat % 64 = t.cause ∧
    u.frec1 = t.fpc.getD (t.pc.getD c.pc) ∧ u.frec2 = t.addr ∧ u.g = c.g ∧ u.p = c.p ∧ u.lc = c.lc ∧ u.fst = c.fst ∧
    w.mem = s.mem ∧
    (s.cur.ctx ≠ 0 → u.life = .stopped ∧ w.failed = s.failed ∧
      (s.me.events.length < 64 → ∃ (e : W) (old fresh : List W), s.me.events = old ++ fresh ∧
        w.me.events = old ++ e :: fresh ∧ s.me.events.length - s.me.newEvents ≤ old.length ∧ e.getLsbD 63 = true ∧
        e.extractLsb' 61 2 = 0#2 ∧ e.extractLsb' 56 5 = 3#5 ∧ e.extractLsb' 52 4 = s.cur.ctx ∧
        e.toNat / 2 ^ 32 % 2 ^ 20 = t.cause ∧ e.extractLsb' 0 32 = (t.fpc.getD (t.pc.getD c.pc)).extractLsb' 0 32)) ∧
    (s.cur.ctx = 0 → w.me.cfault = 0x8000000000000001 ∧ w.failed = true)

/-- ERET (R149), TRAP and BRK (R150). `lenAt` reads the length of the instruction at epc; while that read blocks, or when
it traps, ACT stands as it was, and the ERET issues again. -/
def Obligations.ReturnFromTrap : Prop :=
  ∀ (s : State) (code : BitVec 12),
    let quiet := s.mapCtx fun c => { c with act := false }
    (s.ctx.act = false → exec .eret s = .next (s.trap { cause := 0x02 })) ∧
    (s.ctx.act = true → s.ctx.skip = false → exec .eret s = .next (quiet.completeTo s.ctx.epc)) ∧
    (s.ctx.act = true → s.ctx.skip = true →
      (∀ (n : Nat) (t : State), s.lenAt s.ctx.epc = .ok (n, t) →
        exec .eret s = .next (((t.mapCtx fun c => { c with act := false }).mapCtx fun c =>
          (c.loopNext c.epc n).1).completeTo (s.ctx.loopNext s.ctx.epc n).2)) ∧
      (∀ (w : Wait) (t : State), s.lenAt s.ctx.epc = .block w t → exec .eret s = .next (t.block w)) ∧
      (∀ (t : Trap), s.lenAt s.ctx.epc = .trap t → exec .eret s = .next (s.trap t))) ∧
    exec (.trap code) s = .next (s.trap { cause := 0x0D, detail := code.toNat }) ∧
    exec .brk s = .next (s.trap { cause := 0x0E })

/-- MFS and MTS (R144, Table 6.5), with R18's refusal of a rounding mode. The write that `mts fst` and `mts frec0` make
is also the event of each. -/
def Obligations.SystemRegisters : Prop :=
  ∀ (s : State) (d a : Reg) (x : W),
    let c := s.ctx
    let even_ := x &&& 0xFFFFFFFFFFFFFFFE
    let loc := BitVec.ofNat 64 (s.cur.core.toNat * 16 + s.cur.ctx.toNat)
    (s.operands [] [d] [] = .ok [] →
      ∀ p ∈ ([(0x000, c.fst.zeroExtend 64), (0x001, (c.fst.extractLsb' 0 5).zeroExtend 64), (0x008, c.slim),
        (0x010, c.lc[0].zeroExtend 64), (0x011, c.lc[1].zeroExtend 64), (0x012, c.lc[2].zeroExtend 64),
        (0x014, c.lb[0]), (0x015, c.lb[1]), (0x016, c.lb[2]), (0x018, c.le[0]), (0x019, c.le[1]), (0x01A, c.le[2]),
        (0x020, c.tvec), (0x021, c.epc),
        (0x022, BitVec.ofNat 64 ((if c.skip then 2 else 0) + if c.act then 1 else 0)), (0x028, c.frec0),
        (0x029, c.frec1), (0x02A, c.frec2), (0x02B, c.frec3), (0x100, loc), (0x101, BitVec.ofNat 64 s.me.cycle)] :
          List (BitVec 12 × W)),
      exec (.mfs d p.1) s = .next (s.doneG 4 [] d p.2)) ∧
    (s.operands [a] [] [] = .ok [x] →
      (∀ p ∈ ([(0x001, { c with fst := c.fst.extractLsb' 5 8 ++ x.extractLsb' 0 5 }), (0x008, { c with slim := x }),
        (0x010, { c with lc := c.lc.set 0 (x.extractLsb' 0 32) }), (0x011, { c with lc := c.lc.set 1 (x.extractLsb' 0 32) }),
        (0x012, { c with lc := c.lc.set 2 (x.extractLsb' 0 32) }), (0x014, { c with lb := c.lb.set 0 even_ }),
        (0x015, { c with lb := c.lb.set 1 even_ }), (0x016, { c with lb := c.lb.set 2 even_ }),
        (0x018, { c with le := c.le.set 0 even_ }), (0x019, { c with le := c.le.set 1 even_ }),
        (0x01A, { c with le := c.le.set 2 even_ }), (0x020, { c with tvec := even_ }), (0x021, { c with epc := even_ }),
        (0x022, { c with skip := x.getLsbD 1, act := c.act && x.getLsbD 0 }),
        (0x028, if x.getLsbD 63 then c else { c with frec0 := c.frec0 &&& 0x7FFFFFFFFFFFFFFF })] : List (BitVec 12 × Ctx)),
        exec (.mts a p.1) s = .next ((s.mapCtx fun _ => p.2).done 4 [a])) ∧
      (x.toNat / 32 % 8 < 5 → exec (.mts a 0x000) s =
        .next ((s.mapCtx fun c => { c with fst := x.extractLsb' 0 13 }).done 4 [a])) ∧
      (5 ≤ x.toNat / 32 % 8 → exec (.mts a 0x000) s = .next (s.trap { cause := 0x02 })) ∧
      (∀ n ∈ ([0x029, 0x02A, 0x02B, 0x100, 0x101] : List (BitVec 12)),
        exec (.mts a n) s = .next (s.trap { cause := 0x02 }))) ∧
    (x.toNat / 32 % 8 < 5 → exec (.fstWrite x) s = .next (s.mapCtx fun c => { c with fst := x.extractLsb' 0 13 })) ∧
    (5 ≤ x.toNat / 32 % 8 → exec (.fstWrite x) s = .next (s.trap { cause := 0x02 })) ∧
    exec (.frec0Write x) s = .next (s.mapCtx fun c =>
      if x.getLsbD 63 then c else { c with frec0 := c.frec0 &&& 0x7FFFFFFFFFFFFFFF })

/-- Events (R165 to R167), the timer (R168) and the watchdog (R169). -/
def Obligations.EventsTimerWatchdog : Prop :=
  ∀ (s : State) (d a : Reg) (x : W) (c : CoreId) (k : CtxId),
    let first := ([0, 1, 2, 3].findSome? fun p => s.me.events.find? fun e => e.toNat / 2 ^ 61 % 4 == p)
    (s.cur.ctx = 0 → s.operands [] [d] [] = .ok [] →
      (∀ e, first = some e →
        let rest := s.me.events.erase e
        let u := (s.mapMe fun m => { m with events := rest, newEvents := min m.newEvents rest.length }).setG d e
        exec (.evwait d) s = .next (u.done 4 []) ∧ exec (.evget d) s = .next (u.done 4 [])) ∧
      (first = none → exec (.evwait d) s = .next (s.block { kind := 5 }) ∧
        exec (.evget d) s = .next (s.doneG 4 [] d 0)) ∧
      exec (.evstat d) s = .next (((s.setG d (BitVec.ofNat 64 (s.me.lost.toNat * 2 ^ 48 + s.me.events.length))).mapMe
        fun m => { m with lost := 0 }).done 4 [])) ∧
    (s.cur.ctx ≠ 0 → exec (.evwait d) s = .next (s.trap { cause := 0x02 }) ∧
      exec (.evget d) s = .next (s.trap { cause := 0x02 }) ∧ exec (.evstat d) s = .next (s.trap { cause := 0x02 }) ∧
      exec (.tmset a) s = .next (s.trap { cause := 0x02 })) ∧
    (s.operands [a] [] [] = .ok [x] →
      exec (.evpost a) s = .next ((s.mapMe fun m => m.post (BitVec.ofNat 64 (2 ^ 63 + x.toNat / 2 ^ 61 % 4 * 2 ^ 61 +
        5 * 2 ^ 56 + s.cur.ctx.toNat * 2 ^ 52 + x.toNat % 2 ^ 32))).done 4 [a]) ∧
      (s.cur.ctx = 0 → exec (.tmset a) s = .next ((s.mapMe fun m => { m with timer := x }).done 4 [a]))) ∧
    (s.operands [] [d] [] = .ok [] → exec (.tmget d) s = .next (s.doneG 4 [] d s.me.timer)) ∧
    ((s.core c).timer = 0 → exec (.timerExpiry c) s =
      .next (s.mapCore c fun m => m.post (BitVec.ofNat 64 (2 ^ 63 + 2 ^ 61 + 2 ^ 56)))) ∧
    (∀ w, (s.ctxAt c k).wait = some w → (s.ctxAt c k).life = .blocked → k ≠ 0 → (s.core c).wdlim ≠ 0 →
      (s.core c).wdlim.toNat ≤ (s.ctxAt c k).stall → w.kind < 16 → w.ep < 64 →
      exec (.watchdogExpiry c k) s = .next ((s.mapCore c fun m => m.post (BitVec.ofNat 64 (2 ^ 63 + 2 ^ 61 + 4 * 2 ^ 56 +
        k.toNat * 2 ^ 52 + (w.kind + 16 * w.ep) * 2 ^ 32 + (s.ctxAt c k).pc.toNat % 2 ^ 32))).mapCtxAt c k
          fun t => { t with stall := 0 })) ∧
    exec .forfeitedTurn s = .next (s.mapCtx fun t => { t with forfeit := t.forfeit - 1 })

/-- EVENT_POST (R166): the events that enter in one cycle, the last `newEvents`, stand in the order of TYPE and then of CTX; the one
that finds the queue full is lost. -/
def Obligations.EventQueueBounded : Prop :=
  ∀ (x : Core) (e : W),
    let typ := fun (w : W) => w.toNat / 2 ^ 56 % 32
    let key := fun (w : W) => typ w * 16 + w.toNat / 2 ^ 52 % 16
    let more := if x.lost.toNat = 65535 then x.lost else x.lost + 1
    let same := fun (f : W) => typ e = typ f ∧
      (typ e = 1 ∨ typ e = 6 ∨ (typ e = 2 ∧ e.extractLsb' 32 6 = f.extractLsb' 32 6) ∨
        (typ e = 4 ∧ e.extractLsb' 52 4 = f.extractLsb' 52 4))
    ((∃ f ∈ x.events, same f) → x.post e = x) ∧
    ((¬ ∃ f ∈ x.events, same f) → ∃ (old before after : List W),
      x.events = old ++ before ++ after ∧ old.length = x.events.length - x.newEvents ∧
      (∀ f ∈ before, key f ≤ key e) ∧ (∀ f, after.head? = some f → key e < key f) ∧
      (x.events.length < 64 →
        x.post e = { x with events := old ++ before ++ e :: after, newEvents := x.newEvents + 1 }) ∧
      (64 ≤ x.events.length →
        x.post e = { x with events := (old ++ before ++ e :: after).take 64, lost := more })) ∧
    (x.newEvents = 0 → (¬ ∃ f ∈ x.events, same f) → x.events.length = 64 → x.post e = { x with lost := more }) ∧
    (x.events.length ≤ 64 → (x.post e).events.length ≤ 64)

/-- Semaphores (R178, R179, R322, R324). Grant, that `setSem` and `setFsem` apply after they set the count: while the count is
positive the earliest waiter is granted and the count lowered by one. Of a gang's members that wait from one cycle on, the
lower core is the earlier.

FBAR (R323, R324). -/
def Obligations.SemaphoresAndBarriers : Prop :=
  (∀ (s : State) (d b : Reg) (n : BitVec 5) (m : BitVec 6) (x : W),
    let count := s.me.sems[n.toNat]
    let fcount := (s.floe s.myFloe).fsems[m.toNat]
    let low := x.toNat % 2 ^ 32
    let waiting := s.ctx.granted = false ∧ s.me.semWait.contains (n.toNat, s.cur.ctx) = false
    let fwaiting := s.ctx.granted = false ∧ (s.floe s.myFloe).fsemWait.contains (m.toNat, s.cur.core, s.cur.ctx) = false
    (waiting → count ≠ 0 → exec (.semwait n) s =
      .next ((s.mapMe fun c => { c with sems := c.sems.set n.toNat (c.sems[n.toNat] - 1) }).complete 4)) ∧
    (waiting → count = 0 → exec (.semwait n) s =
      .next ((s.mapMe fun c => { c with semWait := c.semWait ++ [(n.toNat, s.cur.ctx)] }).block { kind := 3 })) ∧
    (s.ctx.granted = true → exec (.semwait n) s = .next (s.complete 4) ∧ exec (.fswait m) s = .next (s.complete 4)) ∧
    (fwaiting → fcount ≠ 0 → exec (.fswait m) s =
      .next ((s.mapFloe s.myFloe fun f => { f with fsems := f.fsems.set m.toNat (f.fsems[m.toNat] - 1) }).complete 4)) ∧
    (s.ctx.granted = false → s.me.semWait.contains (n.toNat, s.cur.ctx) = true →
      exec (.semwait n) s = .next (s.block { kind := 3 })) ∧
    (s.ctx.granted = false → (s.floe s.myFloe).fsemWait.contains (m.toNat, s.cur.core, s.cur.ctx) = true →
      exec (.fswait m) s = .next (s.block { kind := 3 })) ∧
    (fwaiting → fcount = 0 → s.ctx.gang = none → exec (.fswait m) s = .next ((s.mapFloe s.myFloe fun f =>
      { f with fsemWait := f.fsemWait ++ [(m.toNat, s.cur.core, s.cur.ctx)] }).block { kind := 3 })) ∧
    (∀ g, fwaiting → fcount = 0 → s.ctx.gang = some g → ∃ pre post, (s.floe s.myFloe).fsemWait = pre ++ post ∧
      exec (.fswait m) s = .next ((s.mapFloe s.myFloe fun f =>
        { f with fsemWait := pre ++ (m.toNat, s.cur.core, s.cur.ctx) :: post }).block { kind := 3 }) ∧
      (let later := fun (w : Nat × CoreId × CtxId) => w.1 = m.toNat ∧ w.2.2 = s.cur.ctx ∧ s.cur.core.toNat < w.2.1.toNat ∧
          w.2.1 ∈ (List.range g.n).map (fun i => g.first + BitVec.ofNat 11 i)
       (∀ w ∈ pre, ¬ later w) ∧ ∀ w ∈ post.head?, later w)) ∧
    (s.operands [b] [] [] = .ok [x] →
      exec (.sempost b n) s =
        .next ((s.setSem s.cur.core n (BitVec.ofNat 32 (min (count.toNat + low) (2 ^ 32 - 1)))).done 4 [b]) ∧
      exec (.semset b n) s = .next ((s.setSem s.cur.core n (x.extractLsb' 0 32)).done 4 [b]) ∧
      (s.unfencedFloe = false → exec (.fspost b m) s =
        .next ((s.setFsem s.myFloe m (BitVec.ofNat 32 (min (fcount.toNat + low) (2 ^ 32 - 1)))).done 4 [b])) ∧
      (s.unfencedFloe = true → exec (.fspost b m) s = .next (s.block { kind := 5 })) ∧
      exec (.fsset b m) s = .next ((s.setFsem s.myFloe m (x.extractLsb' 0 32)).done 4 [b])) ∧
    (s.operands [] [d] [] = .ok [] →
      exec (.semget d n) s = .next (s.doneG 4 [] d (count.zeroExtend 64)) ∧
      exec (.fsget d m) s = .next (s.doneG 4 [] d (fcount.zeroExtend 64))) ∧
    (∀ v : BitVec 32,
      let counts := s.mapMe fun c => { c with sems := c.sems.set n.toNat v }
      let fcounts := s.mapFloe s.myFloe fun f => { f with fsems := f.fsems.set m.toNat v }
      ((v = 0 ∨ ∀ w ∈ s.me.semWait, w.1 ≠ n.toNat) → s.setSem s.cur.core n v = counts) ∧
      (∀ pre k post, s.me.semWait = pre ++ (n.toNat, k) :: post → (∀ w ∈ pre, w.1 ≠ n.toNat) → v ≠ 0 →
        s.setSem s.cur.core n v = ((s.mapMe fun c => { c with semWait := pre ++ post }).mapCtxAt s.cur.core k fun c =>
          c.grant (1 + n.toNat)).setSem s.cur.core n (v - 1)) ∧
      ((v = 0 ∨ ∀ w ∈ (s.floe s.myFloe).fsemWait, w.1 ≠ m.toNat) → s.setFsem s.myFloe m v = fcounts) ∧
      (∀ pre co k post, (s.floe s.myFloe).fsemWait = pre ++ (m.toNat, co, k) :: post → (∀ w ∈ pre, w.1 ≠ m.toNat) → v ≠ 0 →
        s.setFsem s.myFloe m v = ((s.mapFloe s.myFloe fun f => { f with fsemWait := pre ++ post }).mapCtxAt co k fun c =>
          c.grant (64 + m.toNat)).setFsem s.myFloe m (v - 1)))) ∧
  (∀ (s : State) (b : Reg) (n : BitVec 6) (x : W), s.operands [b] [] [] = .ok [x] →
    let f := s.floe s.myFloe
    let me := (n.toNat, s.cur.core, s.cur.ctx)
    let need := x.toNat % 2 ^ 32
    let here := f.fsems[n.toNat].toNat + 1
    let arrives := need ≠ 0 ∧ s.ctx.granted = false ∧ f.fbarWait.contains me = false ∧ s.unfencedFloe = false
    (need = 0 → exec (.fbar b n) s = .next (s.trap { cause := 0x02 })) ∧
    (need ≠ 0 → s.ctx.granted = true → exec (.fbar b n) s = .next (s.done 4 [b])) ∧
    (arrives → need ≤ here → exec (.fbar b n) s =
      .next (((f.fbarWait.filter fun w => w.1 == n.toNat).foldl (fun t w => t.mapCtxAt w.2.1 w.2.2 fun c => c.grant 0)
        (s.setFloe s.myFloe { f with
          fsems := f.fsems.set n.toNat 0, fbarWait := f.fbarWait.filter fun w => w.1 != n.toNat })).done 4 [b])) ∧
    (arrives → here < need → exec (.fbar b n) s =
      .next ((s.setFloe s.myFloe { f with
        fsems := f.fsems.set n.toNat (BitVec.ofNat 32 here), fbarWait := f.fbarWait ++ [me] }).block { kind := 3 })) ∧
    (need ≠ 0 → s.ctx.granted = false → f.fbarWait.contains me = true → exec (.fbar b n) s = .next (s.block { kind := 3 })) ∧
    (need ≠ 0 → s.ctx.granted = false → f.fbarWait.contains me = false → s.unfencedFloe = true →
      exec (.fbar b n) s = .next (s.block { kind := 5 })))

/-- RDCORE, WRCORE and the events of their writes (R163, R176, R184, R202, R297, R317, R388, R431): where the write is legal,
the event and the `wrcore` of c0 change the core alike. -/
def Obligations.CoreRegisters : Prop :=
  ∀ (s : State) (d a b : Reg) (x v : W),
    let m := s.me
    let num := x.toNat % 2 ^ 12
    let trapped : Host.Outcome State Fault Refusal := .next (s.trap { cause := 0x02 })
    let sets := fun (n : Nat) (legal : Prop) (f : Core → Core) =>
      s.operands [a, b] [] [] = .ok [x, v] → num = n →
        (legal → exec (.wrcore a b) s = .next ((s.mapMe f).done 4 [a, b])) ∧ (¬ legal → exec (.wrcore a b) s = trapped)
    let writes := fun (n : Nat) (i : Instr) (legal : Prop) (f : Core → Core) =>
      (legal → exec i s = .next (s.mapMe f)) ∧ (¬ legal → exec i s = trapped) ∧ sets n legal f
    let scratch := fun (lo hi : Nat) => lo = hi ∨
      (m.part.toNat / 2 ^ 44 % 64 * 65536 ≤ lo ∧ hi ≤ (48 - m.part.toNat / 2 ^ 50 % 64) * 65536)
    (s.operands [a] [d] [] = .ok [x] →
      (∀ p ∈ [(0x000, m.part), (0x008, m.win[0]), (0x009, m.win[1]), (0x00A, m.win[2]), (0x00B, m.win[3]), (0x00C, m.win[4]),
        (0x00D, m.win[5]), (0x00E, m.win[6]), (0x00F, m.win[7]), (0x010, m.wdlim.zeroExtend 64), (0x018, m.spbase),
        (0x020, m.ecnt), (0x028, m.nackcnt.zeroExtend 64), (0x030, m.cfault), (0x038, m.gmbox),
        (0x040, m.gwake.zeroExtend 64), (0x048, m.dqbase), (0x050, m.dqlim), (0x058, m.xroot), (0x060, 0),
        (0x088, m.jdom.zeroExtend 64)],
        num = p.1 → exec (.rdcore d a) s = .next (s.doneG 4 [a] d p.2)) ∧
      (∀ e : Fin 4, num = 0x068 + 8 * e.val → ∃ w : W, exec (.rdcore d a) s = .next (s.doneG 4 [a] d w) ∧
        ∀ j, j < 16 → w.extractLsb' (4 * j) 4 = (m.ep (BitVec.ofNat 6 (16 * e.val + j))).owner) ∧
      ((∀ n ∈ [0x000, 0x008, 0x009, 0x00A, 0x00B, 0x00C, 0x00D, 0x00E, 0x00F, 0x010, 0x018, 0x020, 0x028, 0x030, 0x038, 0x040,
        0x048, 0x050, 0x058, 0x060, 0x068, 0x070, 0x078, 0x080, 0x088], num ≠ n) → exec (.rdcore d a) s = trapped)) ∧
    (s.cur.ctx = 0 →
      sets 0x010 True (fun c => { c with wdlim := v.extractLsb' 0 32 }) ∧
      sets 0x018 True (fun c => { c with spbase := v &&& 0xFFFFFFFFFFFFC000 }) ∧
      sets 0x020 True (fun c => { c with ecnt := v }) ∧
      sets 0x028 True (fun c => { c with nackcnt := v.extractLsb' 0 16 }) ∧
      sets 0x040 True (fun c => { c with gwake := v.extractLsb' 0 16 }) ∧
      (∀ n : BitVec 3, writes (0x008 + n.toNat) (.windowRegisterWrite n v) (v.toNat / 2 ^ 57 % 8 < 5) (fun c => { c with
        win := c.win.set n.toNat ((v &&& 0xFE000FFFFFFFFFFF) ||| BitVec.ofNat 64 (n.toNat * 2 ^ 54)) })) ∧
      (let base := v.toNat / 2 ^ 9 % 2 ^ 13 * 512
       let slots := v.toNat / 2 ^ 22 % 2 ^ 7
       writes 0x038 (.gmboxWrite v)
         (v.getLsbD 63 = false ∨ (1 ≤ slots ∧ slots ≤ 64 ∧ scratch base (base + 512 * slots)))
         (fun c => { c with gmbox := v &&& 0x800000001FFFFE00 })) ∧
      (let base := v &&& 0xFFFFFFFFFFFFFFF8
       let lim := if m.dqlim.toNat < base.toNat then base else m.dqlim
       writes 0x048 (.dqbaseWrite v) (scratch base.toNat lim.toNat)
         (fun c => { c with dqbase := base, dqlim := lim, top := 0, bot := 0 })) ∧
      (let lim := v &&& 0xFFFFFFFFFFFFFFF8
       writes 0x050 (.dqlimWrite v) (m.dqbase.toNat ≤ lim.toNat ∧ scratch m.dqbase.toNat lim.toNat)
         (fun c => { c with dqlim := lim, top := 0, bot := 0 })) ∧
      writes 0x058 (.xrootWrite v) (v &&& 0x00FFFF000000FFFE = 0) (fun c => { c with xroot := v, tlb := [] }) ∧
      (∀ e : BitVec 2,
        let name := fun (j : Nat) => (BitVec.ofNat 6 (16 * e.toNat + j) : EpId)
        let owner := fun (j : Nat) => (v.extractLsb' (4 * j) 4 : CtxId)
        let free := ∀ j, j < 16 → (m.ep (name j)).st = .unbound ∨ (m.ep (name j)).owner = owner j
        (free → ∃ t, exec (.epownWrite e v) s = .next t ∧ (∀ j, j < 16 → (t.me.ep (name j)).owner = owner j) ∧
          (∀ f : EpId, { t.me.ep f with owner := 0 } = { m.ep f with owner := 0 }) ∧
          (∀ f : EpId, f.toNat / 16 ≠ e.toNat → t.me.ep f = m.ep f) ∧
          { t.me with eps := [] } = { m with eps := [] } ∧ { t with cores := [] } = { s with cores := [] } ∧
          (s.operands [a, b] [] [] = .ok [x, v] → num = 0x068 + 8 * e.toNat →
            exec (.wrcore a b) s = .next (t.done 4 [a, b]))) ∧
        (¬ free → exec (.epownWrite e v) s = trapped ∧ (s.operands [a, b] [] [] = .ok [x, v] → num = 0x068 + 8 * e.toNat →
          exec (.wrcore a b) s = trapped))) ∧
      (s.operands [a, b] [] [] = .ok [x, v] → (∀ n ∈ [0x008, 0x009, 0x00A, 0x00B, 0x00C, 0x00D, 0x00E, 0x00F, 0x010, 0x018,
        0x020, 0x028, 0x038, 0x040, 0x048, 0x050, 0x058, 0x060, 0x068, 0x070, 0x078, 0x080], num ≠ n) →
        exec (.wrcore a b) s = trapped)) ∧
    exec (.jdomWrite v) s = trapped ∧
    (s.cur.ctx ≠ 0 → exec (.wrcore a b) s = trapped ∧ exec (.xrootWrite v) s = trapped ∧ exec (.gmboxWrite v) s = trapped ∧
      exec (.dqbaseWrite v) s = trapped ∧ exec (.dqlimWrite v) s = trapped ∧ exec (.tlbinvWrite v) s = trapped ∧
      (∀ e : BitVec 2, exec (.epownWrite e v) s = trapped) ∧ ∀ n : BitVec 3, exec (.windowRegisterWrite n v) s = trapped)

/-- tlbinv (R388, R395): the write waits while the drop reaches the units in scope, micro-TLBs, floe caches and walks in
progress, and completes when it has. -/
def Obligations.InvalidationDropsTranslations : Prop :=
  ∀ (s : State) (a b : Reg) (x v : W) (c : CoreId),
    let legal := v.toNat / 2 ^ 52 = 0 ∧ v.toNat / 2 ^ 9 % 8 < 5
    let scope := v.toNat / 2 ^ 9 % 8
    let covers := fun (co : CoreId) => 3 ≤ scope ∨ (scope = 2 ∧ co.toNat / 512 = c.toNat / 512) ∨
      (scope = 1 ∧ co.toNat / 8 = c.toNat / 8) ∨ co = c
    let names := fun (t : TlbEnt) => if v.getLsbD 8 then t.asid = v.extractLsb' 0 8
      else (t.page ≤ v.toNat / 4096 % 2 ^ 40 ∧ v.toNat / 4096 % 2 ^ 40 < t.page + t.pages) ∧
        (t.asid = v.extractLsb' 0 8 ∨ t.pte.getLsbD 5 = true)
    let waits : Host.Outcome State Fault Refusal := .next (((s.mapMe fun m => { m with inval := some v }).mapCtx fun k =>
      { k with req := some ⟨0, none⟩ }).block { kind := 5 })
    (s.cur.ctx = 0 → legal → s.ctx.req = none → exec (.tlbinvWrite v) s = waits ∧
      (s.operands [a, b] [] [] = .ok [x, v] → x.toNat % 2 ^ 12 = 0x060 → exec (.wrcore a b) s = waits)) ∧
    (s.cur.ctx = 0 → legal → ∀ n w, s.ctx.req = some ⟨n, some w⟩ → exec (.tlbinvWrite v) s = .next s ∧
      (s.operands [a, b] [] [] = .ok [x, v] → x.toNat % 2 ^ 12 = 0x060 →
        exec (.wrcore a b) s = .next (s.done 4 [a, b]))) ∧
    (s.cur.ctx = 0 → ¬ legal → exec (.tlbinvWrite v) s = .next (s.trap { cause := 0x02 }) ∧
      (s.operands [a, b] [] [] = .ok [x, v] → x.toNat % 2 ^ 12 = 0x060 →
        exec (.wrcore a b) s = .next (s.trap { cause := 0x02 }))) ∧
    ((s.core c).inval = none → exec (.tlbinvDropComplete c) s = .next s) ∧
    ((s.core c).inval = some v → ∃ u, exec (.tlbinvDropComplete c) s = .next u ∧ (u.core c).inval = none ∧ u.mem = s.mem ∧
      (∀ co : CoreId, covers co → ∀ t, t ∈ (u.core co).tlb ↔ t ∈ (s.core co).tlb ∧ ¬ names t) ∧
      (∀ co : CoreId, ¬ covers co → (u.core co).tlb = (s.core co).tlb) ∧
      (∀ f : FloeId, scope ≠ 0 → covers (coreAt f 0) →
        (∀ t, t ∈ (u.floe f).tcache ↔ t ∈ (s.floe f).tcache ∧ ¬ names t) ∧ (∀ w ∈ (u.floe f).walks, w.dead = true) ∧
        (u.floe f).walks.map (fun w => { w with dead := true }) = (s.floe f).walks.map (fun w => { w with dead := true })) ∧
      (∀ f : FloeId, (scope = 0 ∨ ¬ covers (coreAt f 0)) → u.floe f = s.floe f) ∧
      (∀ r, ((s.ctxAt c 0).req = some r) → ((u.ctxAt c 0).req = some { r with ans := some (.value 0 0) })))

/-- RDCTX and WRCTX on each register of Table 8.4 (R160, R162), YIELD (R164). Of a SPILLED context the spill engine serves the
access first (log 58).

START, STOP and REAP (R28 to R31, R160, R161, R170, R171, R351, R453). Which free frame a context gets is a free value (log 8); a
STOP that finds the value of a blocking read fixed is held until the read completes (log 26). -/
def Obligations.ContextsUnderSupervision : Prop :=
  (∀ (s : State) (d a b : Reg) (n : BitVec 7) (x v : W),
    let k : CtxId := x.extractLsb' 0 4
    let sel := x.toNat / 2 ^ 16 % 2 ^ 12
    let c := s.me.ctx k
    let gcap := gcapOf s.me.part
    let vcap := vcapOf s.me.part
    let even_ := v &&& 0xFFFFFFFFFFFFFFFE
    let loc := BitVec.ofNat 64 (s.cur.core.toNat * 16 + k.toNat)
    let illegal : Host.Outcome State Fault Refusal := .next (s.trap { cause := 0x02 })
    let legal := s.cur.ctx = 0 ∧ k ≠ 0 ∧ (c.life = .stopped ∨ c.life = .spilled)
    let served := legal ∧ (c.life = .spilled → ∃ txn w f, s.ctx.req = some ⟨txn, some (.value w f)⟩)
    let asks := fun (txn : Nat) => (.next ((s.mapCtx fun c => { c with req := some ⟨txn, none⟩ }).block { kind := 5 }) :
      Host.Outcome State Fault Refusal)
    let fixed : List Nat := [0x000, 0x001, 0x008, 0x010, 0x011, 0x012, 0x014, 0x015, 0x016, 0x018, 0x019, 0x01A, 0x020, 0x021,
      0x022, 0x028, 0x029, 0x02A, 0x02B, 0x100, 0x101]
    let unlisted := (0x28 ≤ sel ∧ sel < 0x30) ∨ (0x34 ≤ sel ∧ sel < 0x38) ∨ (0x39 ≤ sel ∧ sel < 0x3F) ∨
      (0x40 ≤ sel ∧ sel < 0x100) ∨ (0x200 ≤ sel ∧ sel < 0x800) ∨ (0x800 ≤ sel ∧ sel - 0x800 ∉ fixed) ∨
      (sel < 0x20 ∧ gcap ≤ sel) ∨ (0x100 ≤ sel ∧ sel < 0x200 ∧ vcap ≤ (sel - 0x100) / 16)
    (s.operands [a] [d] [] = .ok [x] →
      let reads := fun (w : W) => exec (.rdctx d a) s = .next (s.doneG 4 [a] d w)
      (¬ legal → exec (.rdctx d a) s = illegal) ∧
      (legal → unlisted → exec (.rdctx d a) s = illegal) ∧
      (served →
        (∀ r : Reg, sel = r.toNat → r.toNat < gcap → reads (if r = 0 then 0 else c.g[r.toNat])) ∧
        (∀ j : BitVec 3, sel = 0x20 + j.toNat → reads c.x[j.toNat]) ∧
        (∀ j : BitVec 2, sel = 0x30 + j.toNat → reads (if j = 0 then BitVec.allOnes 64 else c.q[j.toNat])) ∧
        (sel = 0x38 → reads (c.p.zeroExtend 64)) ∧
        (sel = 0x3F → reads c.pc) ∧
        (∀ (r : Fin 16) (j : Fin 16), sel = 0x100 + 16 * r.val + j.val → r.val < vcap →
          reads (c.v[r].extractLsb' (64 * j.val) 64)) ∧
        (∀ p ∈ [(0x000, c.fst.zeroExtend 64), (0x001, (c.fst.extractLsb' 0 5).zeroExtend 64), (0x008, c.slim),
          (0x010, c.lc[0].zeroExtend 64), (0x011, c.lc[1].zeroExtend 64), (0x012, c.lc[2].zeroExtend 64),
          (0x014, c.lb[0]), (0x015, c.lb[1]), (0x016, c.lb[2]), (0x018, c.le[0]), (0x019, c.le[1]), (0x01A, c.le[2]),
          (0x020, c.tvec), (0x021, c.epc),
          (0x022, BitVec.ofNat 64 ((if c.skip then 2 else 0) + if c.act then 1 else 0)), (0x028, c.frec0),
          (0x029, c.frec1), (0x02A, c.frec2), (0x02B, c.frec3), (0x100, loc), (0x101, BitVec.ofNat 64 s.me.cycle)],
          sel = 0x800 + p.1 → reads p.2)) ∧
      (legal → c.life = .spilled → ¬ unlisted →
        (s.ctx.req = none → exec (.rdctx d a) s = asks (32 + k.toNat)) ∧
        (∀ txn, s.ctx.req = some ⟨txn, none⟩ → exec (.rdctx d a) s = .next (s.block { kind := 5 })) ∧
        (∀ txn f, s.ctx.req = some ⟨txn, some (.failed f)⟩ →
          exec (.rdctx d a) s = .next (s.trap { cause := f.cause, addr := f.addr })))) ∧
    (s.operands [a, b] [] [] = .ok [x, v] →
      let writes := fun (c' : Ctx) => exec (.wrctx a b) s = .next ((s.mapCtxAt s.cur.core k fun _ => c').done 4 [a, b])
      (¬ legal → exec (.wrctx a b) s = illegal) ∧
      (legal → unlisted → exec (.wrctx a b) s = illegal) ∧
      (legal → (sel ∈ [0x829, 0x82A, 0x82B, 0x900, 0x901] ∨ (sel = 0x800 ∧ 5 ≤ v.toNat / 32 % 8)) →
        exec (.wrctx a b) s = illegal) ∧
      (served →
        (sel = 0 → writes c) ∧
        (∀ r : Reg, r ≠ 0 → sel = r.toNat → r.toNat < gcap → writes { c with g := c.g.set r.toNat v }) ∧
        (∀ j : BitVec 3, sel = 0x20 + j.toNat → writes { c with x := c.x.set j.toNat v }) ∧
        (sel = 0x30 → writes c) ∧
        (∀ j : BitVec 2, j ≠ 0 → sel = 0x30 + j.toNat → writes { c with q := c.q.set j.toNat v }) ∧
        (sel = 0x38 → writes { c with p := v.extractLsb' 0 8 }) ∧
        (sel = 0x3F → writes { c with pc := even_, oddPc := none, fbuf := [], wait := none, req := none }) ∧
        (∀ (r : Fin 16) (j : Fin 16), sel = 0x100 + 16 * r.val + j.val → r.val < vcap → ∃ y : V,
          writes { c with v := c.v.set r y } ∧
          ∀ i, i < 16 → y.extractLsb' (64 * i) 64 = if i = j.val then v else c.v[r].extractLsb' (64 * i) 64) ∧
        (sel = 0x800 → v.toNat / 32 % 8 < 5 → writes { c with fst := v.extractLsb' 0 13 }) ∧
        (∀ p ∈ [(0x001, { c with fst := c.fst.extractLsb' 5 8 ++ v.extractLsb' 0 5 }), (0x008, { c with slim := v }),
          (0x010, { c with lc := c.lc.set 0 (v.extractLsb' 0 32) }), (0x011, { c with lc := c.lc.set 1 (v.extractLsb' 0 32) }),
          (0x012, { c with lc := c.lc.set 2 (v.extractLsb' 0 32) }), (0x014, { c with lb := c.lb.set 0 even_ }),
          (0x015, { c with lb := c.lb.set 1 even_ }), (0x016, { c with lb := c.lb.set 2 even_ }),
          (0x018, { c with le := c.le.set 0 even_ }), (0x019, { c with le := c.le.set 1 even_ }),
          (0x01A, { c with le := c.le.set 2 even_ }), (0x020, { c with tvec := even_ }), (0x021, { c with epc := even_ }),
          (0x022, { c with skip := v.getLsbD 1, act := c.act && v.getLsbD 0 }),
          (0x028, if v.getLsbD 63 then c else { c with frec0 := c.frec0 &&& 0x7FFFFFFFFFFFFFFF })],
          sel = 0x800 + p.1 → writes p.2)) ∧
      (legal → c.life = .spilled → sel = 0x38 →
        (s.ctx.req = none → exec (.wrctx a b) s = asks (48 + k.toNat)) ∧
        (∀ txn, s.ctx.req = some ⟨txn, none⟩ → exec (.wrctx a b) s = .next (s.block { kind := 5 })) ∧
        (∀ txn f, s.ctx.req = some ⟨txn, some (.failed f)⟩ →
          exec (.wrctx a b) s = .next (s.trap { cause := f.cause, addr := f.addr })))) ∧
    (s.cur.ctx ≠ 0 → exec (.rdctx d a) s = illegal ∧ exec (.wrctx a b) s = illegal) ∧
    exec (.yield n) s = .next ((s.mapCtx fun c => { c with forfeit := min (c.forfeit + n.toNat) 255 }).complete 4)) ∧
  (∀ (s : State) (d a b : Reg) (x pc : W),
    let k : CtxId := x.extractLsb' 0 4
    let c := s.me.ctx k
    let code := fun (n : Nat) (t : State) => t.setG d (BitVec.ofNat 64 n)
    let became := fun (t : State) (f : Ctx → Ctx) =>
      (t.mapMe fun m => { m with reload := none }).mapCtxAt s.cur.core k f
    let illegal : Host.Outcome State Fault Refusal := .next (s.trap { cause := 0x02 })
    let waits : Host.Outcome State Fault Refusal := .next (s.block { kind := 5 })
    let legal := s.cur.ctx = 0 ∧ k ≠ 0
    let drawn : State := { s with free := s.free + 1 }
    let idle := s.ctx.req = none
    (s.operands [a] [d] [] = .ok [x] →
      let starts := fun (r : Host.Outcome State Fault Refusal) => exec (.start d a) s = r
      (¬ legal → starts illegal ∧ exec (.stop d a) s = illegal ∧ exec (.reap d a) s = illegal) ∧
      (legal → idle →
        (c.life = .stopped → c.wasWaiting = false →
          starts (.next ((code 4 (became s fun c => { c with life := .runnable, wasWaiting := false })).done 4 [a]))) ∧
        (c.life = .stopped → c.wasWaiting = true →
          starts (.next ((code 4 (became s fun c =>
            { c with life := .waiting, wasWaiting := false, waitingAt := s.me.cycle })).done 4 [a]))) ∧
        (c.life = .free → starts illegal) ∧
        ((c.life = .runnable ∨ c.life = .blocked ∨ c.life = .waiting) →
          starts (.next ((code c.life.code s).done 4 [a]))) ∧
        (c.life = .spilled → s.me.freeFrames ≠ [] → ∃ i ∈ s.me.freeFrames,
          starts (.next ((((drawn.mapCtxAt s.cur.core k fun c => { c with frame := i }).mapMe fun m =>
            { m with reload := some k }).mapCtx fun c => { c with req := some ⟨11, none⟩ }).block { kind := 5 }))) ∧
        (c.life = .spilled → s.me.freeFrames = [] → s.me.victim = none → starts (.next ((code 7 s).done 4 [a]))) ∧
        (∀ z, c.life = .spilled → s.me.freeFrames = [] → s.me.victim = some z →
          starts (.next (((s.mapMe fun m => { m with spill := some (z, k) }).mapCtx fun c =>
            { c with req := some ⟨10, none⟩ }).block { kind := 5 })))) ∧
      (legal → c.life = .spilled →
        ((s.ctx.req = some ⟨10, none⟩ ∨ s.ctx.req = some ⟨11, none⟩) → starts waits) ∧
        (∀ w f, s.ctx.req = some ⟨11, some (.value w f)⟩ →
          starts (.next ((code 5 (became s fun c => if c.wasWaiting
            then { c with fbuf := [], life := .waiting, wasWaiting := false, waitingAt := s.me.cycle }
            else { c with fbuf := [], life := .runnable, wasWaiting := false })).done 4 [a]))) ∧
        (∀ f, s.ctx.req = some ⟨11, some (.failed f)⟩ → starts (.next (s.trap { cause := f.cause, addr := f.addr })))) ∧
      (legal → s.ctx.req = some ⟨12, some (.value 5 0)⟩ → starts (.next ((code 5 s).done 4 [a]))) ∧
      (legal →
        ((c.life = .free ∨ c.life = .stopped ∨ c.life = .spilled) →
          exec (.stop d a) s = .next ((code c.life.code s).done 4 [a])) ∧
        (c.life = .waiting → exec (.stop d a) s = .next ((code 3 (s.mapCtxAt s.cur.core k fun c =>
          { c.stop s.me.cycle with wasWaiting := true })).done 4 [a])) ∧
        ((c.life = .runnable ∨ c.life = .blocked) → c.gang = none → c.req = none →
          (∀ w, c.wait = some w → w.hold = false) → ∃ t : State,
          exec (.stop d a) s = .next ((code c.life.code t).done 4 [a]) ∧ (t.me.ctx k).life = .stopped ∧
          (t.me.ctx k).pc = c.pc ∧ (t.me.ctx k).g = c.g ∧ (t.me.ctx k).wasWaiting = c.wasWaiting ∧ t.mem = s.mem) ∧
        (let asks := fun (txn : Nat) => s.net.findSome? fun q => packetAsks q s.cur.core k txn
         let held := exec (.stop d a) s =
           .next ((code 10 (s.mapCtxAt s.cur.core k fun c => { c with heldStop := true })).done 4 [a])
         (c.life = .blocked → c.gang = none → ∀ w, c.wait = some w → w.hold = true → c.req = none → held) ∧
         ((c.life = .blocked ∨ c.life = .runnable) → c.gang = none → ∀ txn, 1000 ≤ txn →
           (c.req = some ⟨txn, none⟩ → asks txn = none → held) ∧ (∀ v, c.req = some ⟨txn, some v⟩ → held)) ∧
         (c.life = .blocked → c.gang = none → (∀ w, c.wait = some w → w.hold = false) → ∀ txn e o g taken, 1000 ≤ txn →
           c.req = some ⟨txn, none⟩ → asks txn = some (e, o, g, taken) → ∃ t : State,
             exec (.stop d a) s = .next ((code 2 t).done 4 [a]) ∧ (t.me.ctx k).life = .stopped ∧ (t.me.ctx k).pc = c.pc ∧
             (∀ q ∈ t.net, packetAsks q s.cur.core k txn = none) ∧ (t.ep e).sseq = (s.ep e).sseq - 1 ∧
             (t.ep e).state = (s.ep e).state - 1 ∧ (t.ep e).lacnt = (s.ep e).lacnt - 1 ∧ t.mem = s.mem)) ∧
        ((c.life = .stopped ∨ c.life = .spilled) → c.ops = [] → exec (.reap d a) s =
          .next ((code c.life.code (s.mapMe fun m => m.reapCtx k)).done 4 [a])) ∧
        ((c.life = .stopped ∨ c.life = .spilled) → c.ops ≠ [] → exec (.reap d a) s = waits) ∧
        ((c.life = .free ∨ c.life = .runnable ∨ c.life = .blocked ∨ c.life = .waiting) →
          exec (.reap d a) s = .next ((code c.life.code s).done 4 [a])))) ∧
    (s.cur.ctx ≠ 0 → exec (.start d a) s = illegal ∧ exec (.startPc d a b) s = illegal ∧ exec (.stop d a) s = illegal ∧
      exec (.reap d a) s = illegal) ∧
    (s.operands [a, b] [d] [] = .ok [x, pc] →
      let at_ := fun (c : Ctx) => { ({ c with wait := none, req := none } : Ctx).jump pc with
        life := .runnable, wasWaiting := false }
      (¬ legal → exec (.startPc d a b) s = illegal) ∧
      (legal → idle → c.life = .stopped → exec (.startPc d a b) s = .next ((code 4 (became s at_)).done 4 [a, b])) ∧
      (legal → idle → c.life = .free → s.me.freeFrames ≠ [] → ∃ i ∈ s.me.freeFrames, exec (.startPc d a b) s =
        .next ((code 0 (became drawn fun c => { at_ c with frame := i })).done 4 [a, b]))) ∧
    (∀ (m : Core) (e : EpId), (m.reapCtx k).ctx k = Ctx.init ∧
      ((m.ep e).owner = k → ((m.reapCtx k).ep e).owner = 0)))

/-! ### Channels and sessions -/

/-- SEND, SELECT, RECV and OFFER (R226 to R230). `matchOut` and `matchIn` find the transition of the endpoint's protocol
(Tables 9.4, 10.5); the peer's room is R208's. -/
def Obligations.ChannelMessages : Prop :=
  ∀ (s : State) (d : Reg) (typ : BitVec 8) (e : EpId) (x h : W) (goesTo size : Nat) (ks : List Nat),
    let ep := s.ep e
    let c := s.cur.core
    let quiet := s.ctx.pend.find? (fun f => f.ep == some e) = none
    let mine := quiet ∧ ep.owner = s.cur.ctx
    let ready := mine ∧ ep.st = .open
    let after := fun (t : State) => if ep.isUser then t.toState e goesTo else t
    let sent := fun (t : State) (cls : Nat) (p : List Byte) => after (t.transmit c e cls typ.toNat p)
    let out := fun (action cls : Nat) => s.matchOut e action typ.toNat cls = .ok (goesTo, size)
    let slot := ep.slotKey c ep.head.toNat
    let key := slot + 16
    let free := s.heldAt c slot 16 true = false
    let head := ready ∧ free ∧ s.slotHeader c e 0 = h ∧ hdrF h = true ∧ hdrTyp h = typ.toNat
    let arrived := fun (cls : Nat) => head ∧ s.heldAt c key (hdrLen h) false = false ∧ hdrCls h = cls ∧
      s.matchIn e typ.toNat cls = .ok (goesTo, size)
    let took := fun (t : State) => after (t.freeSlot c e)
    (s.operands [] [] [] = .ok [] →
      (ready → ep.full = false → out 0 0 → exec (.send d 0 typ e) s = .next ((sent s 0 []).done 4 [])) ∧
      (ready → ep.full = false → out 3 0 → exec (.select typ e) s = .next ((sent s 0 []).done 4 [])) ∧
      (ready → ep.full = true → out 0 0 → exec (.send d 0 typ e) s = .next (s.block { kind := 2, ep := e.toNat })) ∧
      (ep.owner ≠ s.cur.ctx → exec (.send d 0 typ e) s = .next (s.trap { cause := 0x05, detail := e.toNat }) ∧
        exec (.recv d 0 typ e) s = .next (s.trap { cause := 0x05, detail := e.toNat })) ∧
      (ready → ep.isUser = true →
        (s.trans e).find? (fun t => t.action == 0 && t.typ == typ.toNat && t.cls == 0) = none →
        exec (.send d 0 typ e) s = .next (s.trap { cause := 0x06, detail := e.toNat })) ∧
      (arrived 0 → exec (.recv d 0 typ e) s = .next ((took s).done 4 [])) ∧
      (ready → s.matchIn e typ.toNat 0 = .ok (goesTo, size) →
        (free → hdrF (s.slotHeader c e 0) = false →
          exec (.recv d 0 typ e) s = .next (s.block { kind := 1, ep := e.toNat })) ∧
        (¬ free → exec (.recv d 0 typ e) s = .next (s.block { kind := 5 })))) ∧
    (s.operands [d] [] [] = .ok [x] → ready → ep.full = false →
      (out 0 1 → exec (.send d 1 typ e) s = .next ((sent s 1 (leBytes 8 x.toNat)).done 4 [d])) ∧
      (out 0 3 → ep.isUser = true → s.localUnits x { r := true } size = .ok ks → exec (.send d 3 typ e) s =
        .next ((sent (s.correctUnits ks) 3 (s.readUnits ks size)).done 4 [d]))) ∧
    (s.operands [] [] [d] = .ok [] → ready → ep.full = false → out 0 2 →
      exec (.send d 2 typ e) s = .next ((sent s 2 (leBytes 128 (s.ctx.rv d).toNat)).done 4 [])) ∧
    (s.operands [] [d] [] = .ok [] →
      (arrived 1 → exec (.recv d 1 typ e) s = .next ((took (s.setG d (s.rd8 key))).done 4 [])) ∧
      (head → hdrCls h = 0 → ep.isUser = true → kindOf (s.trans e) = some .offer → ∀ r,
        (s.trans e).find? (fun r => r.action == 2 && r.typ == typ.toNat) = some r →
        exec (.offer d e) s =
          .next ((((s.setG d (BitVec.ofNat 64 typ.toNat)).freeSlot c e).toState e r.goesTo).done 4 []))) ∧
    (s.operands [] [] [d] = .ok [] → arrived 2 →
      exec (.recv d 2 typ e) s = .next ((took (s.setV d (BitVec.ofNat 1024 (s.rd key 128)))).done 4 [])) ∧
    (s.operands [d] [] [] = .ok [x] → arrived 3 → ep.proto ≠ 8 →
      s.localUnits x { w := true } (max size (hdrLen h)) = .ok ks →
      exec (.recv d 3 typ e) s = .next ((took (s.writeUnits ks (memReads s.mem key (hdrLen h)))).done 4 [d]))

/-- Arrivals at a core endpoint (R190, R200, R207 to R213, R217): each in the states that take it, and where it is discarded,
held or parked, also while an engine holds the slots that it needs (R267, R284). The MSG event is R32's and R165's. Where a
holder has bound a delegated channel, `forward` passes an arrival on. That a packet of the generation which a connection
under way will give is parked is the model's (log 12); NOTE has no peer to redirect (R198). -/
def Obligations.ChannelArrivals : Prop :=
  ∀ (s : State) (p : Nat) (pk : Packet) (c : CoreId) (e : EpId) (g q src : BitVec 16) (cls typ n r : Nat)
      (pl : List Byte) (z from_ : W),
    s.arrived p = some pk → pk.dst = .core c →
    let t := s.takePacket p
    let ep := s.epAt c e
    let lower := fun (u : State) => u.mapEpAt c e fun ep => { ep with lacnt := ep.lacnt - BitVec.ofNat 7 n }
    let slot := ep.slotOf ((q - ep.rseq).toNat % ep.slots)
    let full := hdrF (s.rd8 (ep.slotKey c slot))
    let parked : State := { s with net := s.net.set p { pk with parked := true } }
    let early := ep.st = .connecting ∧ ep.request.isSome = true ∧ g = ep.gen + 1
    let takes := fun (i : Instr) (b : Body) => pk.body = b →
      (early → exec i s = .next parked) ∧ (g ≠ ep.gen → ¬ early → exec i s = .next t)
    let sender := wLoc from_
    let back := fun (b : Body) => t.sendCore c (.core (locCore sender)) false 0 b (some (locMod sender))
    takes (.messageArrival p) (.msg e g cls typ q n pl) ∧ takes (.creditPacketArrival p) (.credit e g n) ∧
    takes (.closePacketArrival p) (.close e g) ∧ takes (.lossPacketArrival p) (.loss e g r) ∧
    takes (.boundArrival p) (.bound e g z) ∧ takes (.redirectArrival p) (.redirect e g z from_) ∧
    takes (.redirectAckArrival p) (.redirectAck e g src) ∧
    (g = ep.gen →
      (pk.body = .msg e g cls typ q n pl →
        (ep.st = .open → full = false → s.slotHeld c e slot pl.length = false → exec (.messageArrival p) s =
          .next ((lower (t.fillSlot c e slot cls typ q pl)).msgEvent c e true)) ∧
        (ep.st = .open → (full = true ∨ s.slotHeld c e slot pl.length = true) →
          exec (.messageArrival p) s = .next parked) ∧
        (ep.st = .delegating → exec (.messageArrival p) s = .next (if ep.boundrx then t.forward c e pk.body
          else t.mapEpAt c e fun ep => { ep with held := ep.held ++ [pk.body] })) ∧
        (ep.st ≠ .open → ep.st ≠ .delegating → exec (.messageArrival p) s = .next t)) ∧
      (pk.body = .credit e g n → ep.st ≠ .delegating →
        exec (.creditPacketArrival p) s = .next (if ep.st = .open then lower t else t)) ∧
      (pk.body = .close e g → ep.st ≠ .delegating → exec (.closePacketArrival p) s =
        .next (if ep.st = .open then t.mapEpAt c e fun ep => { ep with st := .peerClosed } else t)) ∧
      (pk.body = .loss e g r →
        ((ep.st = .open ∨ ep.st = .peerClosed) → s.slotsHeld c e true = true → exec (.lossPacketArrival p) s = .next parked) ∧
        ((ep.st = .open ∨ ep.st = .peerClosed) → s.slotsHeld c e true = false →
          ∃ u, exec (.lossPacketArrival p) s = .next u ∧ (u.epAt c e).st = .lost ∧
          (u.epAt c e).state = (if ep.nv then ep.named else ep.state) ∧
          ((s.ctxAt c ep.owner).pend.length < 4 → ∃ f ∈ (u.ctxAt c ep.owner).pend, f.cause = 0x14 ∧ f.detail = e.toNat)) ∧
        ((ep.st = .unbound ∨ ep.st = .connecting ∨ ep.st = .lost) → exec (.lossPacketArrival p) s = .next t)) ∧
      (pk.body = .bound e g z →
        (ep.st = .delegating → exec (.boundArrival p) s =
          .next (if s.slotsHeld c e false then parked else t.takeBound c e z)) ∧
        (ep.st ≠ .delegating → exec (.boundArrival p) s = .next t)) ∧
      (pk.body = .redirect e g z from_ →
        ((ep.st = .open ∨ ep.st = .peerClosed) → exec (.redirectArrival p) s =
          .next ((back (.redirectAck (locEp sender) (wGen from_) ep.sseq)).mapEpAt c e fun ep =>
            { ep with paddr := wLoc z, pgen := wGen z })) ∧
        ((ep.st = .lost ∨ ep.st = .unbound) → exec (.redirectArrival p) s =
          .next (back (.loss (locEp sender) (wGen from_) 1)))) ∧
      (pk.body = .redirectAck e g src →
        (ep.st = .delegating → exec (.redirectAckArrival p) s =
          .next ((t.mapEpAt c e fun ep => { ep with first := some src }).endForward c e)) ∧
        (ep.st ≠ .delegating → exec (.redirectAckArrival p) s = .next t))) ∧
    (ep.held = [] → s.unreceived c e = [] →
      let bound := s.mapEpAt c e fun ep => { ep with boundrx := true, holder := z, held := [] }
      (ep.proto = 10 → s.takeBound c e z = bound) ∧
      (ep.proto ≠ 10 → ep.phw = false → ∃ w : W, wLoc w = s.address ++ c ++ e ∧ wGen w = ep.gen ∧
        s.takeBound c e z = bound.sendCore c (.core (locCore ep.paddr)) false 0 (.redirect (locEp ep.paddr) ep.pgen z w)
          (some (locMod ep.paddr)))) ∧
    (let owner := s.ctxAt c ep.owner
     s.msgEvent c e true = if owner.life = .stopped ∨ owner.life = .spilled ∨ ep.owner = 0
       then s.mapCore c fun x => x.post (BitVec.ofNat 64 (2 ^ 63 + 2 * 2 ^ 61 + 2 * 2 ^ 56 + ep.owner.toNat * 2 ^ 52 +
         e.toNat * 2 ^ 32))
       else s)

/-- CONNECT, ACCEPT and what completes them (R195, R196, R200 to R206, R213, R233 to R235), with a built-in or with the user
image that the loader has put into table entry `n`; and a STOP, which has to wait for a withdrawal where an end holds the request
(R235). That the request goes with the STOP at once where no end holds it, in flight or at this module, is log 12's reading;
the loader's one event is log 27's, the hardware end's generation 1 is log 29's. -/
def Obligations.SessionsOpen : Prop :=
  ∀ (s : State) (d a : Reg) (e : EpId) (peer x : W) (p n : Nat) (pk : Packet) (c : CoreId) (k : CtxId) (r : ConnReq)
      (old : Option (Option ProtoEnt)),
    let buf := s.ctx.rx 1
    let ref := s.ctx.rx 0
    let ep := s.ep e
    let quiet := s.ctx.pend.find? (fun f => f.ep == some e) = none
    let mine := quiet ∧ ep.owner = s.cur.ctx ∧ bufferOk ref buf = true
    let asks := mine ∧ recoveryOk (s.ctx.rx 2) = true
    let known := (ref.toNat = n ∧ n ≤ 10 ∧ s.ctx.req = none) ∨ (16 ≤ ref.toNat ∧ s.ctx.req = some ⟨1, some (.loaded n old)⟩)
    let fits := s.me.bufferFits (s.me.binding n buf) = true
    let trapped := fun (t : Trap) => (.next ((s.unload s.cur.core s.cur.ctx).trap t) : Host.Outcome State Fault Refusal)
    let refused := fun (code : Nat) => trapped { cause := 0x06, detail := e.toNat + 64 * code }
    let loads : Host.Outcome State Fault Refusal :=
      .next ((s.mapCtx fun c => { c with req := some ⟨1, none⟩ }).block { kind := 5 })
    (s.operands [d] [] [] = .ok [peer] →
      (asks → known → fits → ep.st = .unbound → s.peerOk peer = true → peerFits n peer = true →
        ∃ t : State, exec (.connect d e) s = .next (t.block { kind := 1, ep := e.toNat }) ∧ (t.ep e).st = .connecting ∧
          (t.ep e).proto = BitVec.ofNat 5 n ∧ (t.ep e).request.isSome = true ∧
          (t.ep e).paddr = peer.extractLsb' 28 36 ∧ t.ctx.req = some ⟨2, none⟩) ∧
      (asks → 16 ≤ ref.toNat → s.ctx.req = none → ep.st ≠ .lost → s.peerOk peer = true → exec (.connect d e) s = loads) ∧
      (asks → known → fits → s.peerOk peer = true → ep.st ≠ .lost → ep.st ≠ .unbound →
        exec (.connect d e) s = refused 11) ∧
      (asks → known → ¬ fits → s.peerOk peer = true → ep.st ≠ .lost → exec (.connect d e) s = refused 10) ∧
      (asks → known → fits → ep.st = .unbound → s.peerOk peer = true → peerFits n peer = false →
        exec (.connect d e) s = refused 9) ∧
      (∀ w f, asks → s.ctx.req = some ⟨2, some (.value w f)⟩ → exec (.connect d e) s = .next (s.done 4 [d])) ∧
      (asks → s.ctx.req = some ⟨2, some .mismatch⟩ →
        exec (.connect d e) s = trapped { cause := 0x10, detail := e.toNat }) ∧
      (asks → s.ctx.req = none → s.peerOk peer = true → ep.st = .lost →
        exec (.connect d e) s = trapped { cause := 0x14, detail := e.toNat })) ∧
    (s.operands [] [] [] = .ok [] →
      (mine → known → fits → 9 ≤ n → n ≠ 10 → ep.st = .unbound → ep.asked = none → ∃ t : State, exec (.accept e) s =
        .next (t.block { kind := 1, ep := e.toNat }) ∧ (t.ep e).st = .connecting ∧ (t.ep e).accept = true ∧
        (t.ep e).proto = BitVec.ofNat 5 n ∧ t.ctx.req = some ⟨2, none⟩) ∧
      (mine → known → fits → n = 10 → ep.st = .unbound →
        let engine := (s.mapEp e fun ep => ep.bindTo (s.me.binding n buf) .connecting).slotsHeld s.cur.core e true
        (engine = true → exec (.accept e) s = .next (s.block { kind := 5 })) ∧
        (engine = false → ∃ t : State, exec (.accept e) s = .next (t.done 4 []) ∧
          (t.ep e).st = .open ∧ (t.ep e).gen = ep.gen + 1)) ∧
      (mine → 16 ≤ ref.toNat → s.ctx.req = none → ep.st ≠ .lost → exec (.accept e) s = loads) ∧
      (mine → known → n < 9 → ep.st ≠ .lost → exec (.accept e) s = refused 9) ∧
      (∀ w f, mine → s.ctx.req = some ⟨2, some (.value w f)⟩ → exec (.accept e) s = .next (s.done 4 [])) ∧
      (mine → s.ctx.req = some ⟨2, some .mismatch⟩ → exec (.accept e) s = trapped { cause := 0x10, detail := e.toNat })) ∧
    (s.arrived p = some pk → pk.body = .connReq r →
      (pk.dst = .core c → r.pgen ≠ (s.epAt c r.ep).gen → exec (.connectionRequestArrival p) s = .next (s.takePacket p)) ∧
      (pk.dst = .core c → r.pgen = (s.epAt c r.ep).gen → (s.epAt c r.ep).asked = none →
        ((s.epAt c r.ep).st = .unbound → exec (.connectionRequestArrival p) s =
          .next ((s.takePacket p).mapEpAt c r.ep fun ep => { ep with asked := some r })) ∧
        ((s.epAt c r.ep).st = .connecting → (s.epAt c r.ep).accept = true → s.slotsHeld c r.ep true = true →
          exec (.connectionRequestArrival p) s = .next (s.park p)) ∧
        ((s.epAt c r.ep).st = .connecting → (s.epAt c r.ep).accept = true → s.slotsHeld c r.ep true = false →
          let own := (s.core c).protoOf (s.epAt c r.ep)
          let sameDomain := ∀ i, own = .image i → r.dom = (s.core c).jdom
          let answered := fun (u : State) (ok : Bool) => ∃ q ∈ u.net, q.dst = .core (locCore (wLoc r.src)) ∧
            ∃ w depth, q.body = .connRes (locEp (wLoc r.src)) ok w depth
          ∃ u, exec (.connectionRequestArrival p) s = .next u ∧
            ((dual r.proto own = true ∧ sameDomain) →
              (u.epAt c r.ep).st = .open ∧ (u.epAt c r.ep).gen = (s.epAt c r.ep).gen + 1 ∧
              (u.epAt c r.ep).paddr = r.src.extractLsb' 28 36 ∧ answered u true ∧
              (u.ctxAt c (s.epAt c r.ep).owner).req = some ⟨2, some (.value 0 0)⟩) ∧
            ((dual r.proto own = false ∨ ¬ sameDomain) → (u.epAt c r.ep).st = .unbound ∧ answered u false ∧
              (u.ctxAt c (s.epAt c r.ep).owner).req = some ⟨2, some .mismatch⟩))) ∧
      (∀ m, pk.dst = .ctrl m → ∃ u, exec (.connectionRequestArrival p) s = .next u ∧
        (∃ h ∈ u.hwEnds, h.core = locCore (wLoc r.src) ∧ h.ep = locEp (wLoc r.src) ∧ h.cgen = wGen r.src ∧ h.gen = 1 ∧
          h.cmod = locMod (wLoc r.src)) ∧
        ∃ q ∈ u.net, q.dst = .core (locCore (wLoc r.src)) ∧ q.body = .connRes (locEp (wLoc r.src)) true 1 0)) ∧
    (∀ ok w depth, s.arrived p = some pk → pk.dst = .core c → pk.body = .connRes e ok w depth →
      ((s.epAt c e).st ≠ .connecting → exec (.connectionResultArrival p) s = .next (s.takePacket p)) ∧
      ((s.epAt c e).st = .connecting → (s.epAt c e).request = some r → ok = true → s.slotsHeld c e true = true →
        exec (.connectionResultArrival p) s = .next (s.park p)) ∧
      ((s.epAt c e).st = .connecting → (s.epAt c e).request = some r → (ok = true → s.slotsHeld c e true = false) →
        ∃ u, exec (.connectionResultArrival p) s = .next u ∧
          (u.epAt c e).st = (if ok then .open else .unbound) ∧
          (u.ctxAt c (s.epAt c e).owner).req = some ⟨2, some (if ok then .value 0 0 else .mismatch)⟩)) ∧
    (∀ g src, s.arrived p = some pk → pk.dst = .core c → pk.body = .withdraw e g src → (s.epAt c e).asked = some r →
      r.src = src → ∃ u, exec (.connectWithdrawal p) s = .next u ∧ (u.epAt c e).asked = none ∧
        ∃ q ∈ u.net, q.dst = .core (locCore (wLoc src)) ∧ q.body = .withdrawn (locEp (wLoc src))) ∧
    (s.arrived p = some pk → pk.dst = .core c → pk.body = .withdrawn e → (s.epAt c e).st = .connecting →
      (s.epAt c e).withdrawn = true → (∀ q ∈ s.net, ∀ ok w depth, q.body ≠ .connRes e ok w depth) →
      ∃ u, exec (.connectWithdrawal p) s = .next u ∧ (u.epAt c e).st = .unbound ∧
        ((s.ctxAt c (s.epAt c e).owner).heldStop = true → (u.ctxAt c (s.epAt c e).owner).life = .stopped)) ∧
    (let y := s.me.ctx k
     let there := (s.epAt (locCore ep.paddr) (locEp ep.paddr)).asked
     s.operands [a] [d] [] = .ok [x] → s.cur.ctx = 0 → k = x.extractLsb' 0 4 → k ≠ 0 → y.life = .blocked → y.gang = none →
     (∀ w, y.wait = some w → w.hold = false) → y.req = some ⟨2, none⟩ → ep.st = .connecting → ep.owner = k →
     (∀ f : EpId, (s.ep f).st = .connecting → (s.ep f).owner = k → f = e) → ep.request = some r → ep.withdrawn = false →
     let comes := ∃ q ∈ s.net, q.dst = .core s.cur.core ∧ q.dmod = s.address ∧ ∃ ok w depth, q.body = .connRes e ok w depth
     let flies := ∃ q ∈ s.net, q.body = .connReq r
     let nowhere := s.isModule (locMod ep.paddr) = false ∨ s.lostTab.contains (locMod ep.paddr) = true
     let goes := flies ∨ ep.phw = true ∨ nowhere ∨ (locMod ep.paddr = s.address ∧ there ≠ some r)
     (comes → ∃ t : State, exec (.stop d a) s = .next ((t.setG d 10).done 4 [a]) ∧ (t.me.ctx k).heldStop = true ∧
       (t.me.ctx k).life = .blocked ∧ t.ep e = ep ∧ t.net = s.net) ∧
     (¬ comes → ¬ goes → ∃ t : State, exec (.stop d a) s = .next ((t.setG d 10).done 4 [a]) ∧ (t.me.ctx k).heldStop = true ∧
       (t.me.ctx k).life = .blocked ∧ (t.ep e).st = .connecting ∧ (t.ep e).withdrawn = true ∧
       ∃ q ∈ t.net, q.dst = .core (locCore ep.paddr) ∧ q.body = .withdraw (locEp ep.paddr) r.pgen r.src) ∧
     (¬ comes → goes → ∃ t : State, exec (.stop d a) s = .next ((t.setG d 2).done 4 [a]) ∧ (t.me.ctx k).life = .stopped ∧
       (t.ep e).st = .unbound ∧ ∀ q, q ∈ t.net ↔ q ∈ s.net ∧ q.body ≠ .connReq r)) ∧
    ((s.ctxAt c k).req = some ⟨1, none⟩ →
      let answered := fun (t : State) (w : Answer) => exec (.protocolImageLoad c k) s =
        .next (t.mapCtxAt c k fun x => { x with req := some ⟨1, some w⟩ })
      (∀ m, s.loadImage c ((s.ctxAt c k).rx 0) = .held m → exec (.protocolImageLoad c k) s = .next (s.waitFor m)) ∧
      (∀ f t, s.loadImage c ((s.ctxAt c k).rx 0) = .bad f t →
        answered t (.failed ⟨f.cause, f.detail, f.addr, 0, 0, 0, none, none, none, false⟩)) ∧
      (∀ m x t, s.loadImage c ((s.ctxAt c k).rx 0) = .ok (m, x) t → ∃ before, answered (t.setCore c x) (.loaded m before))) ∧
    ((s.ctxAt c k).req = none → exec (.protocolImageLoad c k) s = .next s)

/-- DELEGATE, DELEGATE.RX, CLOSE, PROBE, SBIND and WAITE (R211, R213, R215, R216, R220, R236 to R241), with the 48 bytes that
DELEGATE sends and the BOUND that DELEGATE.RX sends, and the waits for an engine that holds a slot (R267, R284). `carrierMove` finds the carrier's transition (R203); PROBE shows the words of
Table 9.1. -/
def Obligations.SessionsEndAndMove : Prop :=
  ∀ (s : State) (d : Reg) (typ : BitVec 8) (e y : EpId) (x h : W) (goesTo : Nat),
    let c := s.cur.core
    let ep := s.ep e
    let ey := s.ep y
    let quiet := fun (e : EpId) => s.ctx.pend.find? (fun f => f.ep == some e) = none
    let gone := fun (t : State) => t.mapEp e Endpoint.unbind
    let slot := fun (f : EpId) => (s.ep f).slotKey c (s.ep f).head.toNat
    let refused := fun (i : Instr) (f : EpId) (code : Nat) =>
      exec i s = .next (s.trap { cause := 0x06, detail := f.toNat + 64 * code })
    (s.operands [d] [] [] = .ok [y.zeroExtend 64] → s.ctx.pend = [] → e ≠ y → ep.owner = s.cur.ctx →
      ey.owner = s.cur.ctx → ep.st = .open → s.carrierMove e 4 typ.toNat = .ok goesTo → ey.st = .open → ey.bindAs = 0 →
      (ey.counted = false ∨ ey.state = 0) →
      (ep.full = true → exec (.delegate d typ e) s = .next (s.block { kind := 2, ep := e.toNat })) ∧
      (ep.full = false → ep.phw = false → ∃ t : State, exec (.delegate d typ e) s = .next (t.done 4 [d]) ∧
        (t.ep y).st = .delegating ∧ (t.ep y).carrier = some (e, ep.gen) ∧ (t.ep e).state = BitVec.ofNat 6 goesTo ∧
        ∃ q ∈ t.net, q.dst = .core (locCore ep.paddr) ∧ ∃ w : W, wLoc w = s.address ++ c ++ y ∧ wGen w = ey.gen ∧
          q.body = .msg (locEp ep.paddr) ep.pgen 5 typ.toNat ep.sseq ep.owed
            ([ey.word 0, ey.word 1, ey.word 2, ey.word 3, w, s.me.fprint ey.proto.toNat].flatMap fun w =>
              leBytes 8 w.toNat))) ∧
    (s.operands [d] [] [] = .ok [y.zeroExtend 64] → quiet e → quiet y → e ≠ y → ep.owner = s.cur.ctx →
      ey.owner = s.cur.ctx → ey.st = .unbound → ep.st = .open → s.carrierMove e 5 typ.toNat = .ok goesTo →
      s.slotHeader c e 0 = h →
      let ref := s.ctx.rx 0
      let ok := bufferOk ref (s.ctx.rx 1) = true
      let free := s.heldAt c (slot e) 16 true = false
      (¬ ok → exec (.delegateRx d typ e) s = .next (s.trap { cause := 0x02 })) ∧
      (ok → ¬ free → exec (.delegateRx d typ e) s = .next (s.block { kind := 5 })) ∧
      (ok → free → hdrF h = false → exec (.delegateRx d typ e) s =
        .next ((s.block { kind := 1, ep := e.toNat }))) ∧
      (ok → free → hdrF h = true → hdrTyp h = typ.toNat → hdrCls h = 5 →
        let b := s.me.binding ref.toNat (s.ctx.rx 1)
        let key := slot e + 16
        let w := fun i => s.rd8 (key + 8 * i)
        s.heldAt c key 48 false = false → (s.mapEp y fun ep => ep.bindTo b .open).slotsHeld c y true = false →
        ref.toNat ≤ 10 → s.me.bufferFits b = true →
        s.me.fprint ref.toNat = w 5 → ey.asked = none →
        ∃ t : State, exec (.delegateRx d typ e) s = .next (t.done 4 [d]) ∧ (t.ep y).st = .open ∧
          (t.ep y).gen = ey.gen + 1 ∧ (t.ep y).owner = s.cur.ctx ∧ (t.ep y).sseq = (w 0).extractLsb' 0 16 ∧
          (t.ep y).state = (w 0).extractLsb' 46 6 ∧ (t.ep y).lacnt = (w 0).extractLsb' 32 7 ∧
          (t.ep y).paddr = (w 1).extractLsb' 28 36 ∧ (t.ep y).pgen = (w 1).extractLsb' 12 16 ∧
          (t.ep y).rseq = (w 2).extractLsb' 5 16 ∧ (t.ep y).raddr = (w 3).extractLsb' 28 36 ∧
          (t.ep e).state = BitVec.ofNat 6 goesTo ∧
          ∃ q ∈ t.net, q.dst = .core (locCore (wLoc (w 4))) ∧ q.dmod = locMod (wLoc (w 4)) ∧ ∃ z : W,
            wLoc z = s.address ++ c ++ y ∧ wGen z = ey.gen + 1 ∧
            q.body = .bound (locEp (wLoc (w 4))) (wGen (w 4)) z)) ∧
    (s.operands [] [] [] = .ok [] →
      (ep.owner ≠ s.cur.ctx → exec (.close e) s = .next (s.trap { cause := 0x05, detail := e.toNat }) ∧
        exec (.sbindG30 e) s = .next (s.trap { cause := 0x05, detail := e.toNat }) ∧
        exec (.sbindG31 e) s = .next (s.trap { cause := 0x05, detail := e.toNat }) ∧
        exec (.sbindOff e) s = .next (s.trap { cause := 0x05, detail := e.toNat })) ∧
      (quiet e → ep.owner = s.cur.ctx →
        ((ep.st = .peerClosed ∨ ep.st = .lost) → exec (.close e) s = .next ((gone s).done 4 [])) ∧
        (ep.st = .unbound → refused (.close e) e 11) ∧ (ep.st = .delegating → refused (.close e) e 12) ∧
        (ep.st = .open → ep.isUser = true → (s.trans e).any (fun r => r.action == 6) = true → ep.phw = false →
          exec (.close e) s = .next ((gone (s.sendCore c (.core (locCore ep.paddr)) false 0
            (.close (locEp ep.paddr) ep.pgen) (some (locMod ep.paddr)))).done 4 [])) ∧
        (ep.st = .open → ep.isUser = true → (s.trans e).any (fun r => r.action == 6) = false → refused (.close e) e 0) ∧
        (ep.st = .open → ep.counted = true → ep.state ≠ 0 → exec (.close e) s =
          .next (s.block { kind := 5, ep := e.toNat })) ∧
        (ep.st = .open → ep.proto = 9 →
          let free := fun (n : BitVec 2) => ∀ f : EpId, f ≠ e → ¬ ((s.ep f).bindAs = n ∧ (s.ep f).owner = s.cur.ctx)
          let named := fun (n : BitVec 2) => s.mapEp e fun ep => { ep with bindAs := n }
          let illegal : Host.Outcome State Fault Refusal := .next (s.trap { cause := 0x02 })
          (ep.role = 0 → (free 1 → exec (.sbindG30 e) s = .next ((named 1).done 4 [])) ∧
            (¬ free 1 → exec (.sbindG30 e) s = illegal) ∧ refused (.sbindG31 e) e 9) ∧
          (ep.role = 1 → (free 2 → exec (.sbindG31 e) s = .next ((named 2).done 4 [])) ∧
            (¬ free 2 → exec (.sbindG31 e) s = illegal) ∧ refused (.sbindG30 e) e 9) ∧
          exec (.sbindOff e) s = .next ((named 0).done 4 [])))) ∧
    (s.operands [] [d] [] = .ok [] →
      ((ep.owner = s.cur.ctx ∨ s.cur.ctx = 0) →
        (typ.toNat < 4 → exec (.probe d typ e) s = .next (s.doneG 4 [] d (ep.word typ.toNat))) ∧
        (typ = 4 → ep.st ≠ .unbound → s.heldAt c (slot e) 16 false = true →
          exec (.probe d typ e) s = .next (s.block { kind := 5 })) ∧
        (typ = 4 → (ep.st = .unbound ∨ s.heldAt c (slot e) 16 false = false) → exec (.probe d typ e) s = .next (s.doneG 4 [] d
          (if hdrF (s.slotHeader c e 0) = true ∧ ep.st ≠ .unbound then s.slotHeader c e 0 else 0))) ∧
        (typ = 5 → exec (.probe d typ e) s = .next (s.doneG 4 [] d
          (if ep.st = .unbound then 0 else s.me.fprint ep.proto.toNat)))) ∧
      (ep.owner ≠ s.cur.ctx → s.cur.ctx ≠ 0 →
        exec (.probe d typ e) s = .next (s.trap { cause := 0x05, detail := e.toNat })) ∧
      (let w0 := ep.word 0
       let w1 := ep.word 1
       let w2 := ep.word 2
       let w3 := ep.word 3
       w0.extractLsb' 57 4 = ep.owner ∧ w0.extractLsb' 52 5 = ep.proto ∧ w0.extractLsb' 46 6 = ep.state ∧
       w0.getLsbD 45 = ep.nv ∧ w0.extractLsb' 39 6 = ep.named ∧ w0.extractLsb' 32 7 = ep.lacnt ∧
       w0.extractLsb' 16 16 = ep.gen ∧ w0.extractLsb' 0 16 = ep.sseq ∧ w1.extractLsb' 28 36 = ep.paddr ∧
       w1.extractLsb' 12 16 = ep.pgen ∧ w1.getLsbD 0 = ep.phw ∧ w2.extractLsb' 42 22 = ep.base ∧
       w2.extractLsb' 33 9 = ep.slotu ∧ w2.extractLsb' 27 6 = ep.depth ∧ w2.extractLsb' 21 6 = ep.pdepth ∧
       w2.extractLsb' 5 16 = ep.rseq ∧ w3.extractLsb' 28 36 = ep.raddr ∧ w3.extractLsb' 12 16 = ep.rgen ∧
       w3.getLsbD 11 = ep.rv ∧ w3.getLsbD 10 = ep.ini ∧ w3.extractLsb' 8 2 = ep.bindAs ∧ w3.getLsbD 7 = ep.boundrx ∧
       w3.extractLsb' 1 6 = ep.head)) ∧
    (s.operands [d] [d] [] = .ok [x] →
      let mine := fun (f : EpId) => x.getLsbD f.toNat = true ∧ (s.ep f).owner = s.cur.ctx
      let ready := fun (f : EpId) => (s.ep f).st = .peerClosed ∨ (s.ep f).st = .lost ∨
        ((s.ep f).st ≠ .unbound ∧ (s.ep f).st ≠ .connecting ∧ hdrF (s.slotHeader c f 0) = true)
      let engine := ∃ f, mine f ∧ (s.ep f).st ≠ .unbound ∧ (s.ep f).st ≠ .connecting ∧ s.heldAt c (slot f) 16 false = true
      ((∀ f, ¬ mine f) → exec (.waite d) s = .next (s.trap { cause := 0x02 })) ∧
      (engine → exec (.waite d) s = .next (s.block { kind := 5 })) ∧
      (∀ f, ¬ engine → mine f → ready f → (∀ f' : EpId, f' < f → ¬ (mine f' ∧ ready f')) →
        exec (.waite d) s = .next (s.doneG 4 [d] d (BitVec.ofNat 64 f.toNat))) ∧
      ((∃ f, mine f) → ¬ engine → (∀ f, ¬ (mine f ∧ ready f)) → exec (.waite d) s = .next (s.block { kind := 1 })))

/-! ### Global memory and windows -/

/-- GLD, GST, GVLD, GVST, WRD, WWR, WAMO and WPM (R242 to R249). `MemReq`, `WinReq` and `WpmReq` are the requests that
travel; `launch` counts an operation of a class (R278); `sendMem` takes a load's forwarded bytes with it (R340). -/
def Obligations.GlobalAndWindowAccesses : Prop :=
  ∀ (s : State) (d a b : Reg) (u : BitVec 1) (e : EpId) (sz : BitVec 2) (o : BitVec 5) (va x : W),
    let n := 2 ^ sz.toNat
    let ep := s.ep e
    let quiet := s.ctx.pend.find? (fun f => f.ep == some e) = none
    let ready := fun (proto need : Nat) => quiet ∧ ep.owner = s.cur.ctx ∧ ep.st = .open ∧ ep.proto.toNat = proto ∧
      need + 16 ≤ ep.slotu.toNat * 16 ∧ ep.state.toNat < ep.pdepth.toNat + 1
    let mapped := fun (pa key len : Nat) (w : Need) => va.toNat % len = 0 ∧
      (∃ te, s.xlate va cXLATE = .ok te ∧ w.granted te.pte = true ∧ te.home va.toNat = .backing pa key) ∧
      ∀ q ∈ s.me.storeq, q.serving = (servingCtrl pa).toNat → q.peer = ep.ctrl
    let inWindow := fun (len : Nat) => va.toNat < 2 ^ 22 ∧ va.toNat % len = 0
    let room := fun (cls : Cls) => s.ctx.count cls < 65535
    let asks := s.newTxn.2.2.mapCtx fun c => { c with req := some ⟨s.newTxn.2.1, none⟩ }
    let waits := fun (t : State) => t.block { kind := 1, ep := e.toNat }
    let launched := fun (cls : Cls) => s.mapCtx fun c => c.launch cls true (some e)
    let mem := fun (txn : Nat) (w : Bool) (pa len key : Nat) (data : List Byte) (dst : Nat) =>
      (⟨s.origin, txn, e, ep.gen, ep.ctrl, w, pa, va, len, key, data, dst, []⟩ : MemReq)
    let win := fun (txn : Nat) (kind : WinKind) (len : Nat) (data : List Byte) =>
      Body.win ⟨s.origin, txn, e, ep.gen, s.cur.core, kind, va.toNat, len, data⟩
    (quiet → s.operands [a] [d] [] = .ok [va] →
      (s.ctx.req = none →
        (∀ pa key, ready 0 8 → mapped pa key n { r := true } → exec (.gld d a u e sz) s =
          .next (waits (asks.sendMem (mem s.newTxn.2.1 false pa n key [] 0)))) ∧
        (ready 0 8 → va.toNat % n ≠ 0 → exec (.gld d a u e sz) s =
          .next (s.trap { cause := 0x08, addr := va })) ∧
        (ready 2 8 → inWindow n → exec (.wrd d a u e sz) s =
          .next (waits (asks.sendWindow e 0 (win s.newTxn.2.1 .read n []))))) ∧
      (ep.owner ≠ s.cur.ctx → exec (.gld d a u e sz) s = .next (s.trap { cause := 0x05, detail := e.toNat }) ∧
        exec (.wrd d a u e sz) s = .next (s.trap { cause := 0x05, detail := e.toNat })) ∧
      (∀ txn w f, ep.owner = s.cur.ctx → s.ctx.req = some ⟨txn, some (.value w f)⟩ →
        exec (.gld d a u e sz) s = .next (s.doneG 4 [a] d (extend (u == 0) n w.toNat)) ∧
        exec (.wrd d a u e sz) s = .next (s.doneG 4 [a] d (extend (u == 0) n w.toNat))) ∧
      (∀ txn f, ep.owner = s.cur.ctx → s.ctx.req = some ⟨txn, some (.failed f)⟩ →
        exec (.gld d a u e sz) s = .next (s.trap f.asTrap) ∧ exec (.wrd d a u e sz) s = .next (s.trap f.asTrap))) ∧
    (s.operands [a, d] [] [] = .ok [va, x] →
      (∀ pa key, ready 1 8 → mapped pa key n { w := true } → room .gstore → exec (.gst d a e sz) s =
        .next (((launched .gstore).sendMem (mem 0 true pa n key (leBytes n x.toNat) 0)).done 4 [a, d])) ∧
      (∀ pa key k, ready 0 128 → mapped pa key 128 { r := true } → s.access x 128 128 { w := true } = .ok k →
        room .gload → exec (.gvld d a e) s =
          .next (((launched .gload).sendMem (mem 0 false pa 128 key [] k)).done 4 [a, d])) ∧
      (∀ pa key k, ready 1 128 → mapped pa key 128 { w := true } → s.access x 128 128 { r := true } = .ok k →
        room .gstore → s.weak = [] → exec (.gvst d a e) s =
          .next (((launched .gstore).sendMem (mem 0 true pa 128 key (memReads s.mem k 128) k)).done 4 [a, d])) ∧
      (ready 2 8 → inWindow n → room .gstore → exec (.wwr d a e sz) s =
        .next (((launched .gstore).sendWindow e n (win 0 .write n (leBytes n x.toNat))).done 4 [a, d]))) ∧
    (quiet → s.operands [a, d] [d] [] = .ok [va, x] →
      let len := portSize o.toNat
      (s.ctx.req = none → ready 2 8 → inWindow len → exec (.wamo d a e o) s =
        .next (waits (asks.sendWindow e len (win s.newTxn.2.1 (.amo o.toNat (s.ctx.rx 7)) len (leBytes len x.toNat))))) ∧
      (∀ txn w f, ep.owner = s.cur.ctx → s.ctx.req = some ⟨txn, some (.value w f)⟩ → exec (.wamo d a e o) s =
        .next (((s.setG d w).orFlags s.cur.core s.cur.ctx f).done 4 [a, d]))) ∧
    (s.operands [a, b] [] [d] = .ok [va, x] →
      let x5 := s.ctx.rx 5
      let rcd := (x5.extractLsb' 0 22).toNat
      let nb := (x5.extractLsb' 22 6).toNat + 1
      x5.extractLsb' 28 36 = 0 → x.toNat < 64 * nb → rcd % 8 = 0 → rcd + 8 * nb + 7 ≤ 0x2FFFFF → ready 2 128 →
      inWindow 128 → room .gstore → exec (.wpm d a b e) s =
        .next (((launched .gstore).sendWindow e 128 (.wpm ⟨s.origin, e, ep.gen, s.cur.core, va.toNat,
          leBytes 128 (s.ctx.rv d).toNat, x.toNat, rcd, nb⟩)).done 4 [a, b])) ∧
    (s.plain [a, b, d] → ∀ t,
      ((∃ i ∈ [Instr.gld d a u e sz, .wrd d a u e sz, .wamo d a e o], exec i s = .next t) →
        t.mem = s.mem ∧ t.ctx.v = s.ctx.v ∧ t.ctx.q = s.ctx.q ∧ t.ctx.p = s.ctx.p ∧ t.ctx.x = s.ctx.x ∧
        ∀ r, r ≠ d → t.ctx.rg r = s.ctx.rg r) ∧
      ((∃ i ∈ [Instr.gst d a e sz, .gvld d a e, .gvst d a e, .wwr d a e sz, .wpm d a b e], exec i s = .next t) →
        t.mem = s.mem ∧ t.ctx.v = s.ctx.v ∧ t.ctx.q = s.ctx.q ∧ t.ctx.p = s.ctx.p ∧ t.ctx.x = s.ctx.x ∧
        ∀ r, t.ctx.rg r = s.ctx.rg r))

/-- MEMRD_REQUEST, MEMWR_REQUEST, REQUEST_FORWARD, the replies, WINDOW_ACCESS_ARRIVAL, WPM_ARRIVAL and their replies
(R176, R177, R190, R198, R207, R217, R245 to R249, R340, R385 to R387, R432). A packet stands at its destination when `arrived`
finds it; `hwReply` sends a unit's numbered answer, and `placeReply` puts one into its slot (log 29), from which it is taken in the
order of the numbers. That grant comes before the wait for an engine and that before an error, and that the DATAERR of a window
access shows its offset, is log 25; what a load forwards of stores that have failed is log 13. -/
def Obligations.ControllersAndWindowsServe : Prop :=
  ∀ (s : State) (p : Nat) (pk : Packet),
    s.arrived p = some pk →
    let t := s.takePacket p
    let parked : State := { s with net := s.net.set p { pk with parked := true } }
    let bears := fun (c : CoreId) (e : EpId) (g : BitVec 16) => (s.epAt c e).st ≠ .unbound ∧ (s.epAt c e).st ≠ .connecting ∧
      (s.epAt c e).gen = g
    (∀ (m : BitVec 5) (r : MemReq), pk.dst = .ctrl m → pk.body = .mem r →
      let u := if r.peer = m.toNat then t.hwTakes r.org.core r.ep r.gen else t
      let answer := fun (u : State) (v : Verdict) (l : List Byte) =>
        u.hwReply (ctrlFloe m) 5 r.org.core r.ep r.gen true l.length (.memReply r v l)
      let err := fun (a : Nat) => Verdict.dataErr (BitVec.ofNat 64 a)
      let here := servingCtrl r.pa = m
      (t.hwFind r.org.core r.ep r.gen = none →
        (here → r.write = false → exec (.memrdRequest p) s = .next t) ∧
        (here → r.write = true → exec (.memwrRequest p) s = .next t) ∧
        (¬ here → exec (.requestForward p) s = .next t)) ∧
      (t.hwFind r.org.core r.ep r.gen ≠ none →
        (here → r.write = false →
          (∀ l w, u.ctrlRead r.key r.pa r.size = some (l, w) →
            exec (.memrdRequest p) s = .next (answer w .ok (overlay (r.fwd.map fun f => (f.1, f.2.1)) l))) ∧
          (u.ctrlRead r.key r.pa r.size = none → exec (.memrdRequest p) s = .next
            (if r.fwd.length = r.size then answer u .ok (r.fwd.map fun f => f.2.1)
              else answer u (err ((u.badIn r.pa r.size).getD (r.pa / 8 * 8))) []))) ∧
        (here → r.write = true →
          (bears r.org.core r.ep r.gen →
            (∀ w, u.ctrlWrite r.key r.pa r.data = some w → ∃ w', exec (.memwrRequest p) s = .next (answer w' .ok []) ∧
              w'.mem = w.mem ∧ (∀ q ∈ (w'.core r.org.core).storeq, q.org = r.org → q.data = []) ∧
              ∀ q ∈ w'.net, ∀ x, q.body = .mem x → x.org.core = r.org.core → ∀ f ∈ x.fwd, f.2.2 ≠ r.org) ∧
            (u.ctrlWrite r.key r.pa r.data = none → exec (.memwrRequest p) s =
              .next (answer u (err (u.ctrlBad r.pa r.size true)) []))) ∧
          (¬ bears r.org.core r.ep r.gen → exec (.memwrRequest p) s = .next (answer u .ok []))) ∧
        (¬ here → exec (.requestForward p) s = .next ((t.hwTakes r.org.core r.ep r.gen).sendCtrl m (.ctrl (servingCtrl r.pa))
          r.data.length (.mem r) true)))) ∧
    (∀ (u : State) (f : FloeId) (inp : Nat) (c : CoreId) (e : EpId) (g : BitVec 16) (n : Nat) (b : Body) (h : HwEnd),
      u.hwFind c e g = some h → u.hwReply f inp c e g true n b = (u.mapHw h fun h => { h with sseq := h.sseq + 1 }).send f
        (.core h.core) none n (.reply h.ep h.cgen (some h.sseq) b) (some h.cmod) (coreAt f 0) inp) ∧
    (∀ (c : CoreId) (e : EpId) (g q : BitVec 16) (b : Body), pk.dst = .core c → pk.body = .reply e g (some q) b →
      let ep := s.epAt c e
      let stored := fun (u : State) => match b with
        | .memReply r _ _ => u.mapCore c fun x => { x with storeq := x.storeq.filter fun o => o.org != r.org }
        | _ => u
      let event := fun (i : Instr) (k : State → State) =>
        ((ep.gen ≠ g ∨ (ep.st ≠ .open ∧ ep.st ≠ .delegating)) → exec i s = .next (stored t)) ∧
        (ep.gen = g → ep.st = .delegating → ep.boundrx = false → exec i s =
          .next (t.mapEpAt c e fun ep => { ep with held := ep.held ++ [pk.body] })) ∧
        (ep.gen = g → ep.st = .open → pk.placed = false → s.placeReply p c e q b = none → exec i s = .next parked) ∧
        (∀ u, ep.gen = g → ep.st = .open →
          ((pk.placed = true ∧ u = s) ∨ (pk.placed = false ∧ s.placeReply p c e q b = some u)) →
          (q ≠ (u.epAt c e).rseq → exec i s = .next u) ∧
          (q = (u.epAt c e).rseq → exec i s = .next (k ((stored (u.takePacket p)).takeReply c e))))
      (∀ (r : MemReq) (v : Verdict) (l : List Byte), b = .memReply r v l →
        (r.write = false → r.txn ≠ 0 → event (.memrdReplyArrival p) fun u => u.give c r.org.ctx r.txn
          (if v = .ok then .value (BitVec.ofNat 64 (leNat l)) 0 else .failed (originFault r.org 0x11 0 r.va))) ∧
        (let held := (s.core c).excluded (r.dst - poolKey c 0) 128 true = true ∨ (s.core c).gaussHolds r.dst 128 = true
         r.write = false → r.txn = 0 → v = .ok →
          (¬ held → event (.memrdReplyArrival p) fun u => (u.wr r.dst l).finishOp r.org none) ∧
          (held → pk.placed = true → ep.gen = g → ep.st = .open → exec (.memrdReplyArrival p) s = .next s)) ∧
        (r.write = false → r.txn = 0 → v ≠ .ok →
          event (.memrdReplyArrival p) fun u => u.finishOp r.org (some (0x11, 0, r.va))) ∧
        (r.write = true → event (.memwrAckArrival p) fun u =>
          u.finishOp r.org (if v = .ok then none else some (0x11, 0, r.va)))) ∧
      (∀ (o : Origin) (txn off : Nat) (v : Verdict) (w : W) (f : BitVec 5), winAnswer b = some (o, txn, off, v, w, f) →
        let addr : W := BitVec.ofNat 64 off
        (v = .ok → event (.windowReplyArrival p) fun u =>
          if txn = 0 then u.finishOp o none else u.give c o.ctx txn (.value w f)) ∧
        (∀ x, v = .dataErr x → event (.windowReplyArrival p) fun u => if txn = 0 then u.finishOp o (some (0x11, 0, x))
          else u.give c o.ctx txn (.failed (originFault o 0x11 0 x))) ∧
        (v = .nack → event (.negativeAcknowledgement p) fun u => if txn = 0 then u.finishOp o (some (0x12, e.toNat, addr))
          else u.give c o.ctx txn (.failed (originFault o 0x12 e.toNat addr))))) ∧
    (∀ (c : CoreId) (bit : Nat) (src : CoreId) (o n : Nat), s.granted c bit src o n = true ↔
      (s.core c).part.toNat / 2 ^ 44 % 64 * 65536 ≤ o ∧ o + n ≤ 0x300000 ∧ ∃ j : Fin 8, let w := (s.core c).win[j]
        w.getLsbD 63 = true ∧ w.getLsbD bit = true ∧ w.toNat / 2 ^ 57 % 8 ≠ 0 ∧ inScope (w.toNat / 2 ^ 57 % 8) c src = true ∧
        w.toNat % 2 ^ 22 ≤ o ∧ o + n ≤ w.toNat / 2 ^ 22 % 2 ^ 22 + 1) ∧
    (∀ (c : CoreId) (r : WinReq), pk.dst = .port c → pk.body = .win r →
      let k := poolKey c r.off
      let u := t.hwTakes r.src r.ep r.gen
      let answer := fun (u : State) (v : Verdict) (old : W) (f : BitVec 5) =>
        u.hwReply (floeOf c) 0 r.src r.ep r.gen true 8 (.winReply r v old f) c
      let granted := pk.parked = true ∨ s.granted c (winBit r.kind) r.src r.off r.size = true
      let engine := s.held c r.off r.size (r.kind != .read) = true
      let own := ∃ q ∈ s.net, q.dst = pk.dst ∧ ∃ w : WinReq, q.body = .win w ∧ w.kind ≠ .read ∧ w.org.core = r.org.core ∧
        w.org.ctx = r.org.ctx ∧ w.org.op < r.org.op ∧ w.off < r.off + r.size ∧ r.off < w.off + w.size
      let free := ¬ engine ∧ (r.kind = .write ∨ s.ownWrites pk.dst r = false)
      let may := granted ∧ free ∧ s.badIn k r.size = none ∧ s.weak = []
      (¬ granted → exec (.windowAccessArrival p) s = .next (answer (u.nack c) .nack 0 0)) ∧
      (granted → engine → exec (.windowAccessArrival p) s = .next parked) ∧
      (granted → r.kind ≠ .write → own → exec (.windowAccessArrival p) s = .next parked) ∧
      (granted → free → r.kind ≠ .read → ¬ bears r.src r.ep r.gen →
        exec (.windowAccessArrival p) s = .next (answer u .ok 0 0)) ∧
      (granted → free → (r.kind = .read ∨ (r.kind ≠ .write ∧ bears r.src r.ep r.gen)) → s.badIn k r.size ≠ none →
        exec (.windowAccessArrival p) s = .next (answer u (.dataErr (BitVec.ofNat 64 r.off)) 0 0)) ∧
      (may → r.kind = .read → exec (.windowAccessArrival p) s =
        .next (answer u .ok (BitVec.ofNat 64 (s.rd k r.size)) 0)) ∧
      (may → r.kind = .write → bears r.src r.ep r.gen →
        exec (.windowAccessArrival p) s = .next (answer (u.wr k r.data) .ok 0 0)) ∧
      (∀ op cmp, may → r.kind = .amo op cmp → bears r.src r.ep r.gen →
        let old : W := BitVec.ofNat 64 (s.rd k r.size)
        let new := portNew op old (BitVec.ofNat 64 (leNat r.data)) cmp
        exec (.windowAccessArrival p) s = .next (answer (u.wrN k r.size new.1.toNat) .ok old new.2))) ∧
    (∀ (c : CoreId) (r : WpmReq), pk.dst = .port c → pk.body = .wpm r →
      let u := t.hwTakes r.src r.ep r.gen
      let answer := fun (u : State) (v : Verdict) => u.hwReply (floeOf c) 0 r.src r.ep r.gen true 0 (.wpmReply r v) c
      let may := pk.parked = true ∨ (s.granted c 61 r.src r.off 128 = true ∧ s.granted c 61 r.src r.rcd (8 + 8 * r.nb) = true)
      let free := s.held c r.off 128 true = false ∧ s.held c r.rcd (8 + 8 * r.nb) true = false
      let kc := poolKey c r.rcd
      let kw := poolKey c (r.rcd + 8 + 8 * (r.slot / 64))
      let w := u.wr (poolKey c r.off) r.data
      let b : W := 1#64 <<< (r.slot % 64)
      (¬ may → exec (.wpmArrival p) s = .next (answer (u.nack c) .nack)) ∧
      (may → ¬ free → exec (.wpmArrival p) s = .next parked) ∧
      (may → free → ¬ bears r.src r.ep r.gen → exec (.wpmArrival p) s = .next (answer u .ok)) ∧
      (may → free → bears r.src r.ep r.gen → s.bad = [] → s.weak = [] →
        (w.rd8 kw &&& b ≠ 0 → exec (.wpmArrival p) s = .next (answer w .ok)) ∧
        (w.rd8 kw &&& b = 0 → exec (.wpmArrival p) s =
          .next (answer ((w.wr8 kw (w.rd8 kw ||| b)).wr8 kc (w.rd8 kc + 1)) .ok))))

/-! ### Copies and waiting -/

/-- CPWR, CPRD, CPGO, CPGO on an endpoint and the copy engine's events (R251 to R265). `launchOk` is CheckLaunch
(R254), `chunkSpan` gives the elements of a chunk (R259).

A chunk is read, converted and written in one event, its elements in an order left open (`freeOrder`, log 17); an element of a
chain takes the chain's next bytes (R256), one of a bit-plane block its planes (R38, R39, R258), with the scale read each time
(log 63). Which errors trap at the launch and which fail the copy is log 16.

REDUCE_CHUNK_ARRIVAL, CPRET and its events, WAITC, WAITANY, WAITALL, FFR, FFR.CLR and WAITCH (R152, R260 to R263,
R278, R279). -/
def Obligations.CopiesAndWaits : Prop :=
  (∀ (s : State) (d a n : Reg) (x : W) (e : EpId) (c : CoreId) (tag ch : BitVec 6) (p : Nat) (pk : Packet) (eng : CoreId)
      (r : CopyRun),
    let l := s.ctx.shadow.toList
    let legal := n ≠ 6 ∧ n ≠ 7 ∧ n.toNat < 24
    let free := ∀ o ∈ s.me.owned, o.tag ≠ shTag l
    let room := s.ctx.count .copy < 65535
    let xid := s.me.xid + 1
    let desc : CopyDesc := ⟨s.cur.core, s.cur.ctx, s.ctx.nextOp, xid, shTag l, s.ctx.pc, s.cur.insn,
      rmOf s.ctx.fst ((shCtl l).extractLsb' 50 3).toNat, l⟩
    let bit : W := 1#64 <<< tag.toNat
    (s.operands [a] [] [] = .ok [x] →
      (legal → exec (.cpwr a n) s =
        .next ((s.mapCtx fun c => { c with shadow := c.shadow.set n.toNat x }).done 4 [a])) ∧
      (¬ legal → exec (.cpwr a n) s = .next (s.trap { cause := 0x02 }))) ∧
    (s.operands [] [d] [] = .ok [] →
      (legal → exec (.cprd d n) s = .next (s.doneG 4 [] d s.ctx.shadow[n.toNat])) ∧
      (exec (.cprd d 31) s = .next (s.doneG 4 [] d s.me.cbm)) ∧
      (¬ legal → n ≠ 31 → exec (.cprd d n) s = .next (s.trap { cause := 0x02 })) ∧
      (launchOk l = false → exec (.cpgo d) s = .next (s.trap { cause := 0x02 })) ∧
      (launchOk l = true → ¬ free → exec (.cpgo d) s = .next (s.trap { cause := 0x02, detail := (shTag l).toNat })) ∧
      (launchOk l = true → free → room → ∃ t : State,
        exec (.cpgo d) s = .next (t.doneG 4 [] d (xid.zeroExtend 64)) ∧ t.mem = s.mem ∧ t.me.xid = xid ∧
        t.me.copies = s.me.copies ++ [newCopy desc none] ∧ t.me.cbm = s.me.cbm &&& ~~~(1#64 <<< (shTag l).toNat) ∧
        t.me.chunks[(shTag l).toNat] = emptyChunks l ∧ t.ctx.g = s.ctx.g ∧ t.ctx.v = s.ctx.v) ∧
      (launchOk l = true → free → room → s.ctx.pend = [] → (s.ep e).owner = s.cur.ctx → (s.ep e).st = .open →
        (s.ep e).proto.toNat = 3 → 1 ≤ (s.ep e).slotu.toNat → (s.ep e).state.toNat < (s.ep e).pdepth.toNat + 1 →
        ∃ t : State, exec (.cpgoRemote d e) s = .next (t.doneG 4 [] d (xid.zeroExtend 64)) ∧ t.mem = s.mem ∧
          t.me.copies = s.me.copies ∧ (t.ep e).state = (s.ep e).state + 1 ∧
          (∃ q ∈ t.net, q.body = .copyReq e (s.ep e).gen desc) ∧ t.ctx.g = s.ctx.g ∧ t.ctx.v = s.ctx.v)) ∧
    (s.arrived p = some pk → pk.dst = .port c →
      ∀ gen dsc, pk.body = .copyReq e gen dsc →
        let u := (s.takePacket p).hwTakes dsc.owner e gen
        let carried := s.hwFind dsc.owner e gen ≠ none ∧ (s.epAt dsc.owner e).st ≠ .unbound ∧
          (s.epAt dsc.owner e).st ≠ .connecting ∧ (s.epAt dsc.owner e).gen = gen
        (carried → exec (.copyRequestArrival p) s = .next (u.mapCore c fun x =>
          { x with copies := x.copies ++ [newCopy dsc (some (e, gen))] })) ∧
        (¬ carried → exec (.copyRequestArrival p) s = .next u)) ∧
    (s.findCopy c tag = some (eng, r) → s.lives r = false →
      exec (.copyComplete c tag) s = .next (s.dropCopy eng r.d) ∧
      (s.chunkAnswer c tag ch = none → r.fail = none →
        exec (.copyChunkDone c tag ch) s = .next (s.dropCopy eng r.d))) ∧
    (s.findCopy c tag = some (eng, r) → s.chunkAnswer c tag ch = none → r.fail = none → s.lives r = true →
      let sh := r.d.shadow
      let plain := shSgs sh = false ∧ shAdd sh = false ∧ shSrcFmt sh = shDstFmt sh ∧ shSrcFmt sh ≠ 15 ∧
        (shCtl sh).getLsbD 63 = false
      ∀ j, chunkSpan sh ch.toNat = (j, 1) → plain → (r.done ||| r.sent).getLsbD ch.toNat = false →
        (∀ w t u, s.engRead eng (shSrcAddr sh j) (shSrcSize sh) (shSrcFmt sh) = .ok w t →
          t.engWrite eng (shDstAddr sh j) (leBytes (shDstSize sh) w) (shDstFmt sh) = .ok () u →
          exec (.copyChunkDone c tag ch) s = .next (u.chunkSet eng r ch)) ∧
        (∀ f t, s.engRead eng (shSrcAddr sh j) (shSrcSize sh) (shSrcFmt sh) = .bad f t →
          exec (.copyChunkDone c tag ch) s = .next (t.setCopy eng { r with fail := some f }))) ∧
    (s.findCopy c tag = some (eng, r) → s.chunkAnswer c tag ch = none → r.fail = none → s.lives r = true →
      let sh := r.d.shadow
      shAdd sh = false → (shCtl sh).getLsbD 63 = false → (r.done ||| r.sent).getLsbD ch.toNat = false →
      let (sf, df) := (shSrcFmt sh, shDstFmt sh)
      let (sz, dz) := (shSrcSize sh, shDstSize sh)
      let read := fun (t : State) (a : W) => t.engRead eng a sz sf
      let write := fun (t : State) (i v : Nat) => t.engWrite eng (shDstAddr sh i) (leBytes dz v) df
      let conv := fun (b : Nat) => convertElem sh r.d.rm b
      let ends := fun (u : State) (r' : CopyRun) => exec (.copyChunkDone c tag ch) s = .next (u.chunkSet eng r' ch)
      (∀ i k, shSgs sh = false → 2 ≤ k → chunkSpan sh ch.toNat = (i, k) →
        let move := fun (w : Option (State × BitVec 5)) (i : Nat) => w.bind fun q =>
          match q.1.copyValue eng r.d i r.sg with
          | .ok (v, f, _) t => match write t i v with
            | .ok _ u => some (u, q.2 ||| f)
            | _ => none
          | _ => none
        ∀ u f, ((freeOrder s.free k).map fun m => i + m).foldl move (some ({ s with free := s.free + k }, r.flags)) = some (u, f) →
          ends u { r with flags := f }) ∧
      (∀ i, sf ≠ 15 → shSgs sh = false → chunkSpan sh ch.toNat = (i, 1) → ∀ b t u,
        read s (shSrcAddr sh i) = .ok b t → write t i (conv b).1 = .ok () u → ends u { r with flags := r.flags ||| (conv b).2 }) ∧
      (∀ i, sf ≠ 15 → shSgs sh = true → r.reached ch = true → chunkSpan sh ch.toNat = (i, 1) →
        (∀ b t u, r.sg.left ≠ 0 → read s r.sg.addr = .ok b t → write t i (conv b).1 = .ok () u →
          ends u { r with sg := { r.sg with addr := r.sg.addr + BitVec.ofNat 64 sz, left := r.sg.left - sz },
                          flags := r.flags ||| (conv b).2 }) ∧
        (r.sg.left = 0 → r.sg.next = 0 →
          exec (.copyChunkDone c tag ch) s = .next (s.setCopy eng { r with fail := some ⟨0x13, 0, 0⟩ })) ∧
        (∀ v b t t1 u, r.sg.left = 0 → r.sg.next ≠ 0 → r.sg.next.toNat % 32 = 0 → r.sg.count < 65536 →
          s.engRead eng r.sg.next 32 0 = .ok v t →
          let d0 : W := BitVec.ofNat 64 v
          let d1 : W := BitVec.ofNat 64 (v / 2 ^ 64)
          let len := (d1.extractLsb' 0 32).toNat
          d1.extractLsb' 40 24 = 0 → d1.getLsbD 38 = false → BitVec.ofNat 64 (v / 2 ^ 192) = 0#64 → len ≠ 0 → len % sz = 0 →
          d0.toNat % sz = 0 → read t d0 = .ok b t1 → write t1 i (conv b).1 = .ok () u →
          ends u { r with sg := ⟨BitVec.ofNat 64 (v / 2 ^ 128), r.sg.count + 1, d0 + BitVec.ofNat 64 sz, len - sz⟩,
                          flags := r.flags ||| (conv b).2 })) ∧
      (∀ i k, sf ≠ 15 → shSgs sh = true → r.reached ch = true → 2 ≤ k → chunkSpan sh ch.toNat = (i, k) → 0 < sz → k * sz ≤ r.sg.left →
        ∀ (b : Nat → Nat) (t : Nat → State) (u : State), t 0 = { s with free := s.free + k } →
          (∀ m < k, read (t m) (r.sg.addr + BitVec.ofNat 64 (m * sz)) = .ok (b m) (t (m + 1))) →
          (freeOrder s.free k).foldl (fun w m => w.bind fun q => match write q (i + m) (conv (b m)).1 with
            | .ok _ v => some v
            | _ => none) (some (t k)) = some u →
          ends u { r with sg := { r.sg with addr := r.sg.addr + BitVec.ofNat 64 (k * sz), left := r.sg.left - k * sz },
                          flags := ((List.range k).map fun m => (conv (b m)).2).foldl (· ||| ·) r.flags }) ∧
      (∀ (w t : State) (i b : Nat), sf ≠ 15 → shSgs sh = false → read w (shSrcAddr sh i) = .ok b t →
        w.copyValue eng r.d i r.sg = .ok ((conv b).1, (conv b).2, r.sg) t) ∧
      (∀ (w : State) (i : Nat), sf = 15 →
        let a := shSrcAddr sh i
        let geo := nthD 0 (shCounts sh) 0
        let idx := indices (shCounts sh) i
        let at_ := nthD 0 idx 1 * geo + nthD 0 idx 0
        let planes := ((shCtl sh).extractLsb' 45 4).toNat
        ∀ (plane : Nat → Nat) (sc : Nat), w.planeFault eng sh a = .ok () w →
          (∀ m < planes, w.engRead eng (a + BitVec.ofNat 64 (m * (geo * geo / 8) + at_ / 8)) 1 15 = .ok (plane m) w) →
          w.engRead eng (a + BitVec.ofNat 64 (geo * geo)) 2 15 = .ok sc w →
          let v := intOf 8 true ((List.range planes).map fun m => b2n ((plane m).testBit (at_ % 8)) * 2 ^ (7 - m)).sum
          let made := if df = 7 then (bitsOf 8 v, 0) else
            let b := bitPlaneValue v sc
            let q := codeConvert r.d.rm false b.1 df
            (q.1, b.2 ||| q.2)
          w.copyValue eng r.d i r.sg = .ok (made.1, made.2, r.sg) w) ∧
      (∀ b, (sf = df → conv b = (b, 0)) ∧
        (sf ≠ df → (codeIsFloat sf || codeIsFloat df) = true →
          conv b = codeConvert r.d.rm ((shCtl sh).getLsbD 49) (codeVal sf b) df) ∧
        (sf ≠ df → codeIsFloat sf = false → codeIsFloat df = false →
          let v := intOf (codeInt sf).1 (codeInt sf).2 b
          conv b = (bitsOf (codeInt df).1 (if (shCtl sh).getLsbD 49 then clampInt (codeInt df).1 (codeInt df).2 v else v), 0)))) ∧
    (∀ base k, (freeOrder base k).Perm (List.range k)) ∧
    (∀ (rm code : Nat) (sat : Bool) (v : Val),
      (codeIsFloat code = true → codeConvert rm sat v code =
        (((codeFmt code).convert rm sat v).v, ((codeFmt code).convert rm sat v).f)) ∧
      (codeIsFloat code = false → codeConvert rm sat v code =
        let q := toInt (codeInt code).1 (codeInt code).2 rm v
        (bitsOf (codeInt code).1 q.1, q.2))) ∧
    (∀ (i : Int) (sc m : Nat) (sg : Bool) (e : Int), f16.decode sc = .fin sg m e →
      bitPlaneValue i sc = (.fin (sg != decide (i < 0)) (m * i.natAbs) e, 0)) ∧
    (s.findCopy c tag = some (eng, r) → r.ep = none →
      (r.done = BitVec.allOnes 64 → r.fail = none → (shCtl r.d.shadow).getLsbD 58 = false →
        ∃ t, exec (.copyComplete c tag) s = .next t ∧ t.mem = s.mem ∧ (t.core c).cbm = (s.core c).cbm ||| bit ∧
          (t.core c).chunks[tag.toNat] = BitVec.allOnes 64 ∧ ∀ o ∈ (t.core c).owned, o.tag ≠ tag) ∧
      (∀ f, r.fail = some f → r.sent = 0 → (s.ctxAt c r.d.ctx).pend.length < 4 →
        ∃ t, exec (.copyFailure c tag) s = .next t ∧ t.mem = s.mem ∧ (t.core c).cbm = (s.core c).cbm ||| bit ∧
          (t.core c).chunks[tag.toNat] = BitVec.allOnes 64 ∧
          ∃ g ∈ (t.ctxAt c r.d.ctx).pend, g.cause = f.cause ∧ g.addr = f.addr ∧ g.detail = tag.toNat + f.detail ∧
            g.xid = r.d.xid)) ∧
    (s.arrived p = some pk → pk.dst = .core c → ∀ gen q dsc fail flags u,
      pk.body = .reply e gen (some q) (.copyAns dsc fail flags) →
      ((s.epAt c e).gen ≠ gen ∨ ((s.epAt c e).st ≠ .open ∧ (s.epAt c e).st ≠ .delegating) →
        exec (.copyAnswerArrival p) s = .next (s.takePacket p)) ∧
      ((s.epAt c e).gen = gen → (s.epAt c e).st = .open →
        ((pk.placed = true ∧ u = s) ∨ (pk.placed = false ∧
          s.placeReply p c e q (.copyAns dsc fail flags) = some u)) →
        (q ≠ (u.epAt c e).rseq → exec (.copyAnswerArrival p) s = .next u) ∧
        (q = (u.epAt c e).rseq → exec (.copyAnswerArrival p) s =
          .next (((u.takePacket p).takeReply c e).settleCopy dsc fail flags))))) ∧
  (∀ (s : State) (d a b : Reg) (x y : W) (c : CoreId) (p : Nat) (pk : Packet) (n0 n1 n2 n3 : BitVec 5),
    let t := s.takePacket p
    let m := s.me.cbm &&& x
    let low := BitVec.ofNat 64 (lowestBit m 64)
    let waits : Host.Outcome State Fault Refusal := .next (s.block { kind := 5 })
    let illegal : Host.Outcome State Fault Refusal := .next (s.trap { cause := 0x02 })
    let lim : Cls → Nat := fun k => match k with | .gload => n0.toNat | .gstore => n1.toNat | .copy => n2.toNat | .tile => n3.toNat
    (∀ dsc ch eng op o v, s.arrived p = some pk → pk.dst = .port c → pk.body = .chunk dsc ch eng op [(o, v)] →
      let live := (s.core eng).copies.any fun r => r.d == dsc && s.lives r
      let va := shDstAddr dsc.shadow (chunkSpan dsc.shadow ch.toNat).1
      let granted := pk.parked = true ∨ s.engGrant eng c 60 o (portSize op) va = none
      (live = false → exec (.reduceChunkArrival p) s = .next t) ∧
      (∀ f u, live = true → pk.parked = false → s.engGrant eng c 60 o (portSize op) va = some (f, u) →
        exec (.reduceChunkArrival p) s =
          .next ((u.takePacket p).sendCore c (.port eng) false 8 (.chunkAns dsc ch (some f) 0))) ∧
      (live = true → granted → s.held c o (portSize op) true = true → exec (.reduceChunkArrival p) s = .next (s.park p)) ∧
      (live = true → granted → s.held c o (portSize op) true = false → s.bad = [] → s.weak = [] →
      let key : BitVec 32 := (shadowReg dsc.shadow 3).truncate 32
      let bit : W := 1#64 <<< ch.toNat
      let k := poolKey c o
      let new := portNew op (BitVec.ofNat 64 (s.rd k (portSize op))) v 0
      let answer := fun (t : State) (f : BitVec 5) => t.sendCore c (.port eng) false 8 (.chunkAns dsc ch none f)
      ((∀ q ∈ (s.core c).redKeys, ¬ (q.1 = dsc.owner ∧ q.2.1 = key)) → (s.core c).redKeys.length < 32 →
        exec (.reduceChunkArrival p) s = .next (answer ((t.wrN k (portSize op) new.1.toNat).mapCore c fun x =>
          { x with redKeys := x.redKeys ++ [(dsc.owner, key, bit)] }) new.2)) ∧
      ((∀ q ∈ (s.core c).redKeys, ¬ (q.1 = dsc.owner ∧ q.2.1 = key)) → 32 ≤ (s.core c).redKeys.length →
        exec (.reduceChunkArrival p) s =
          .next (t.sendCore c (.port eng) false 8 (.chunkAns dsc ch (some (copyErr va 0)) 0))) ∧
      (∀ bm, (s.core c).redKeys.find? (fun q => q.1 == dsc.owner && q.2.1 == key) = some (dsc.owner, key, bm) →
        (bm &&& bit ≠ 0 → exec (.reduceChunkArrival p) s = .next (answer t 0)) ∧
        (bm &&& bit = 0 → exec (.reduceChunkArrival p) s = .next (answer ((t.wrN k (portSize op) new.1.toNat).mapCore c
          fun x => { x with redKeys := x.redKeys.map fun q =>
            if q.1 = dsc.owner ∧ q.2.1 = key then (q.1, q.2.1, q.2.2 ||| bit) else q }) new.2))))) ∧
    (s.operands [a, b] [] [] = .ok [x, y] →
      (x.toNat < 2 ^ 32 → ∀ te o, s.xlate y cXLATE = .ok te → te.home y.toNat = .pool c o →
        (∀ q ∈ s.me.owned, q.key ≠ some (x.truncate 32)) → s.ctx.count .copy < 65535 →
        exec (.cpret a b) s = .next (((s.mapCtx fun x => x.launch .copy false none).sendCore s.cur.core (.port c) false 8
          (.keyRetire s.origin (x.truncate 32))).done 4 [a, b])) ∧
      (2 ^ 32 ≤ x.toNat → exec (.cpret a b) s = illegal)) ∧
    (∀ o key, s.arrived p = some pk → pk.dst = .port c → pk.body = .keyRetire o key →
      exec (.keyRetirementArrival p) s =
        .next ((t.mapCore c fun x => { x with redKeys := x.redKeys.filter fun q => !(q.1 == o.core && q.2.1 == key) }).sendCore
          c (.core o.core) false 0 (.keyRetired o))) ∧
    (∀ o, s.arrived p = some pk → pk.dst = .core c → pk.body = .keyRetired o →
      exec (.keyRetirementAcknowledgement p) s = .next (t.finishOp o none)) ∧
    (s.ctx.pend = [] → s.operands [] [] [] = .ok [] →
      ((∀ k, s.ctx.count k ≤ lim k) → exec (.waitc n3 n2 n1 n0) s = .next (s.done 4 [])) ∧
      ((∃ k, lim k < s.ctx.count k) → exec (.waitc n3 n2 n1 n0) s = waits)) ∧
    (∀ f rest k n, s.ctx.pend = f :: rest → f.op = some (k, n) → n + lim k ≤ s.ctx.issued[k.idx] →
      exec (.waitc n3 n2 n1 n0) s = .next ((s.mapCtx fun c => { c with pend := rest }).trap f.asTrap)) ∧
    (s.ctx.pend = [] → s.operands [a] [d] [] = .ok [x] →
      (x = 0 → exec (.waitany d a) s = illegal) ∧
      (x ≠ 0 → m = 0 → exec (.waitany d a) s = waits) ∧
      (m ≠ 0 → exec (.waitany d a) s = .next (s.doneG 4 [a] d m)) ∧
      exec (.ffr d a) s = .next (s.doneG 4 [a] d low) ∧
      exec (.ffrClr d a) s = .next ((s.mapMe fun y => { y with
        cbm := if m = 0 then y.cbm else y.cbm &&& ~~~(1#64 <<< lowestBit m 64) }).doneG 4 [a] d low)) ∧
    (s.operands [a] [] [] = .ok [x] →
      (s.ctx.pend = [] → m = x → exec (.waitall a) s = .next (s.done 4 [a])) ∧
      (s.ctx.pend = [] → m ≠ x → exec (.waitall a) s = waits) ∧
      (∀ f rest tag, s.ctx.pend = f :: rest → f.tag = some tag → x.getLsbD tag.toNat = true →
        exec (.waitall a) s = .next ((s.mapCtx fun c => { c with pend := rest }).trap f.asTrap))) ∧
    (s.ctx.pend = [] → s.operands [a, b] [d] [] = .ok [x, y] →
      let bits : W := s.me.chunks[(x.extractLsb' 0 6).toNat] &&& y
      (64 ≤ x.toNat ∨ y = 0 → exec (.waitchAny d a b) s = illegal ∧ exec (.waitchAll d a b) s = illegal) ∧
      (x.toNat < 64 → y ≠ 0 →
        (bits ≠ 0 → exec (.waitchAny d a b) s = .next (s.doneG 4 [a, b] d bits)) ∧
        (bits = 0 → exec (.waitchAny d a b) s = waits) ∧
        (bits = y → exec (.waitchAll d a b) s = .next (s.doneG 4 [a, b] d bits)) ∧
        (bits ≠ y → exec (.waitchAll d a b) s = waits))))

/-! ### The matrix engine -/

/-- TZERO, TSTAT, TMMA, TDRAIN and the matrix engine's events, for operations that are no scheduler's task (R266 to
R275). `accumulate` is R57 to R60 on one element, `drainRows` R275's conversion; `drainWhole` has the rows of a drain once all of
its packets have come. Eight operations may wait behind the one in progress (R269). That a step reads its operands in one event and
changes the tile in another is log 18's choice; what an uncorrectable error in the tile or at the target does, and when a wake
record enters, is log 19's; the packets of a drain are log 40's. -/
def Obligations.TileOperations : Prop :=
  ∀ (s : State) (d a b : Reg) (x y : W) (f : BitVec 2) (sg : BitVec 1) (t : BitVec 6) (e : EpId) (c : CoreId) (p : Nat)
      (pk : Packet),
    let there := tileExists s.me.part t.toNat = true
    let full := (s.me.mrun.isSome = true ∧ 8 ≤ s.me.mqueue.length) ∨ 9 ≤ s.me.mqueue.length
    let counted := s.ctx.count .tile < 65535
    let space := ¬ full ∧ counted
    let launchedOn := fun (u : State) (kind : TileKind) (ep : Option EpId) =>
      (u.mapCtx fun c => c.launch .tile false ep).mapMe fun x => { x with mqueue := x.mqueue ++ [⟨s.origin, t, kind, none⟩] }
    let launched := launchedOn s
    let waits := fun (i : Instr) => (full → exec i s = .next (s.block { kind := 2 })) ∧
      (¬ full → ¬ counted → exec i s = .next (s.block { kind := 5 }))
    let fmt := s.me.fmtAhead t
    let side := tileSide fmt
    let illegal : Host.Outcome State Fault Refusal := .next (s.trap { cause := 0x02 })
    (s.operands [] [] [] = .ok [] →
      (there → space → exec (.tzero f t) s = .next ((launched (.zero f) none).done 4 [])) ∧
      (¬ there → exec (.tzero f t) s = illegal) ∧
      (there → waits (.tzero f t))) ∧
    (s.operands [] [d] [] = .ok [] → (there → exec (.tstat d t) s = .next (s.doneG 4 [] d (s.me.tileWord t))) ∧
      (¬ there → exec (.tstat d t) s = illegal)) ∧
    (s.operands [a, b] [] [] = .ok [x, y] →
      (let x6 := s.ctx.rx 6
       let field := fun lo n => (x6.extractLsb' lo n).toNat
       let align := fun (f : Nat) => if f = 15 then 64 else 16
       let legal := x6.getLsbD 51 = false ∧ field 0 4 = 0 ∧
          field 60 3 ≤ 4 ∧ (x6.getLsbD 63 = true ∨ field 60 3 = 0) ∧ field 48 3 ≠ 5 ∧ field 48 3 ≠ 6 ∧
          (if field 4 4 = 15 ∨ field 8 4 = 15 then 2 ≤ field 12 4 ∧ field 12 4 ≤ 8 else field 12 4 = 0) ∧
          field 16 16 % 16 = 0 ∧ field 32 16 % 16 = 0
       let aligned := x.toNat % align (field 4 4) = 0 ∧ y.toNat % align (field 8 4) = 0
       (∀ deep, there → tileDepth fmt (field 4 4) (field 8 4) = some deep → legal → aligned →
          (space → exec (.tmma a b sg t) s = .next ((launched (.mma ⟨x, y, x6, rmOf s.ctx.fst (field 48 3), side, side, deep,
            if sg = 1 then some (x6.extractLsb' 52 6) else none⟩) none).done 4 [a, b])) ∧
          waits (.tmma a b sg t)) ∧
       ((¬ there ∨ ¬ legal ∨ ¬ aligned ∨ tileDepth fmt (field 4 4) (field 8 4) = none) →
          exec (.tmma a b sg t) s = illegal)) ∧
      (let x3 := s.ctx.rx 3
       let field := fun (w : W) lo n => (w.extractLsb' lo n).toNat
       let target : CoreId := x.extractLsb' 37 11
       let legal := field x3 32 32 = 0 ∧ field x3 0 8 = 0 ∧ field x3 12 3 ≠ 5 ∧ field x3 12 3 ≠ 6 ∧
         drainOk fmt (field x3 8 4) = true ∧ field x3 16 16 % fmtSize (field x3 8 4) = 0
       let drains := fun (u : State) (wake : Option (List W)) => exec (.tdrain a b t e) s =
         .next (((launchedOn u (.drain ⟨target, field x 0 22, some (e, (s.ep e).gen), x3,
           rmOf s.ctx.fst (field x3 12 3), wake, side, side⟩) (some e)).mapEp e Endpoint.addReq).done 4 [a, b])
       let word := fun (ks : List Nat) (i : Nat) => (BitVec.ofNat 64 (leNat (((s.readUnits ks 64).drop (8 * i)).take 8)) : W)
       ((¬ there ∨ ¬ legal) → exec (.tdrain a b t e) s = illegal) ∧
       (there → legal → s.ctx.pend = [] → (s.ep e).owner = s.cur.ctx →
         ((field x 48 16 ≠ 0 ∨ field x 22 15 ≠ 0) → exec (.tdrain a b t e) s = illegal) ∧
         (field x 48 16 = 0 → field x 22 15 = 0 → (s.ep e).st = .open →
          (s.ep e).proto.toNat = 5 → 1 ≤ (s.ep e).slotu.toNat → peerDest (s.ep e).phw (s.ep e).paddr = .port target →
          unitKind (s.ep e).paddr = 2 →
          ((s.ep e).state.toNat < (s.ep e).pdepth.toNat + 1 →
            (b = 0 → (space → drains s none) ∧ waits (.tdrain a b t e)) ∧
            (∀ ks, b ≠ 0 → y.toNat % 64 = 0 → s.localUnits y { r := true } 64 = .ok ks →
              ((word ks 0).getLsbD 36 = false → (word ks 0).extractLsb' 37 11 = target → space →
                drains (s.correctUnits ks) (some ((List.range 8).map (word ks)))) ∧
              (((word ks 0).getLsbD 36 = true ∨ (word ks 0).extractLsb' 37 11 ≠ target) →
                exec (.tdrain a b t e) s = illegal))) ∧
          (b = 0 → (s.ep e).pdepth.toNat + 1 ≤ (s.ep e).state.toNat →
            exec (.tdrain a b t e) s = .next (s.block { kind := 2, ep := e.toNat })) ∧
          (b ≠ 0 → y.toNat % 64 ≠ 0 → exec (.tdrain a b t e) s = .next (s.trap { cause := 0x08, addr := y })))))) ∧
    (∀ o l, (s.core c).mrun = none → (s.core c).mqueue = o :: l →
      let tile := poolKey c (tileOff (s.core c).part o.tile.toNat)
      let barred := ∃ g ∈ (s.core c).gqueue, g.taken = true ∧
        (g.tile = o.tile ∨ ∃ k ∈ g.keys, overlaps k 8 tile 4096 = true)
      (¬ barred → exec (.tileOperationStart c) s =
        .next (s.mapCore c fun x => { x with mrun := some { op := o }, mqueue := l })) ∧
      (barred → exec (.tileOperationStart c) s = .next s)) ∧
    (∀ run, (s.core c).mrun = some run → run.op.task = none → run.op.tile = t →
      let u := s.mapCore c fun x => { x with mrun := none }
      let tile := (s.core c).tile t
      let faulted := fun (u : State) (cause extra : Nat) (addr : W) =>
        u.finishOp run.op.org (some (cause, 0x800 + t.toNat + extra, addr))
      (∀ f, run.op.kind = .zero f → exec (.tzeroComplete c) s =
        .next (((u.wr (poolKey c (tileOff (s.core c).part t.toNat)) (List.replicate 4096 0)).mapTile c t
          fun _ => { fmt := f }).finishOp run.op.org none)) ∧
      (∀ m, run.op.kind = .mma m →
        let who := run.op.org.core
        let oa : Operand := ⟨m.a, (m.x6.extractLsb' 16 16).toNat, (m.x6.extractLsb' 4 4).toNat, (m.x6.extractLsb' 12 4).toNat,
          m.x6.getLsbD 58, true⟩
        let ob : Operand := ⟨m.b, (m.x6.extractLsb' 32 16).toNat, (m.x6.extractLsb' 8 4).toNat, (m.x6.extractLsb' 12 4).toNat,
          m.x6.getLsbD 59, false⟩
        let keep := fun (v : State) (r : TileRun) =>
          let w := v.mapCore c fun x => { x with mrun := some { r with gotten := true } }
          match m.sig with | some n => w.postFsem (floeOf c) n 1 | none => w
        (run.gotten = false → m.x6.getLsbD 63 = false → tile.poison = false →
          (∀ ra v rb w, s.operandAll who oa m.rows m.deep = .ok ra v → v.operandAll who ob m.deep m.cols = .ok rb w →
            exec (.tmmaOperandsRead c) s =
              .next (keep w { run with opsA := ra.1, opsB := rb.1, scaleA := ra.2, scaleB := rb.2 })) ∧
          (∀ g v, s.operandAll who oa m.rows m.deep = .bad g v →
            exec (.tmmaOperandsRead c) s = .next (keep v { run with fail := some g }))) ∧
        (run.gotten = false → m.x6.getLsbD 63 = true → m.x6.extractLsb' 60 3 ≠ 0 →
          (∃ q ∈ (s.ctxAt run.op.org.core run.op.org.ctx).ops, (q.fence = true ∨ q.cls = .gstore) ∧ q.done = false ∧
            q.id < run.op.org.op) → exec (.tmmaOperandsRead c) s = .next s) ∧
        (run.gotten = false → m.x6.getLsbD 63 = false → tile.poison = true →
          exec (.tmmaOperandsRead c) s = .next (keep s run)) ∧
        (run.gotten = true → run.fail = none → tile.poison = true →
          exec (.tmmaStepComplete c) s = .next (u.finishOp run.op.org none)) ∧
        (s.memOk → run.gotten = true → run.fail = none → tile.poison = false → m.rows ≤ tileSide tile.fmt →
          m.cols ≤ tileSide tile.fmt →
          ∃ v, exec (.tmmaStepComplete c) s = .next v ∧ (v.core c).mrun = none ∧
            ∀ i j, i < m.rows → j < m.cols →
              let k := poolKey c (tileOff (s.core c).part t.toNat + tileAt tile.fmt i j)
              v.rd k (tileSize tile.fmt) =
                (accumulate tile.fmt m.rm (m.x6.extractLsb' 4 4).toNat (m.x6.extractLsb' 8 4).toNat
                  (s.rd k (tileSize tile.fmt)) (nthD [] run.opsA i) (run.opsB.map fun row => nthD 0 row j) run.scaleA
                  run.scaleB).1 % 2 ^ (8 * tileSize tile.fmt))) ∧
      (∀ g, run.fail = some g → exec (.tmmaOperandFailure c) s =
        .next (faulted (u.mapTile c t fun i => { i with poison := true }) g.cause g.detail g.addr)) ∧
      (∀ m, run.op.kind = .drain m →
        let bound := ∀ q, m.ep = some q → (s.epAt c q.1).st ≠ .unbound ∧ (s.epAt c q.1).st ≠ .connecting ∧
          (s.epAt c q.1).gen = q.2
        (¬ bound → exec (.tdrainTileRead c) s = .next u) ∧
        (bound → tile.poison = true → exec (.tdrainTileRead c) s = .next (faulted
          (match m.ep with | some q => u.mapEpAt c q.1 Endpoint.endCredit | none => u) 0x13 0 0)) ∧
        (bound → tile.poison = false → ∃ v, exec (.tdrainTileRead c) s = .next v ∧ (v.core c).mrun = none ∧ v.mem = s.mem ∧
          (v.core c).drains = (s.core c).drains ++ [run.op] ∧
          let rows := (s.drainRows c t m).1
          ∃ ks : List DrainPkt, v.net.map (fun q => q.body) = s.net.map (fun q => q.body) ++ ks.map Body.rows ∧
            (∀ q ∈ v.net.drop s.net.length, q.dst = .port m.target) ∧ (ks.flatMap fun k => k.rows) = rows ∧
            ∀ k ∈ ks, k.off = m.off ∧ k.flags = (s.drainRows c t m).2 ∧ k.wake = m.wake ∧ k.total = rows.length ∧
              (m.cols * fmtSize (m.x3.extractLsb' 8 4).toNat ≤ 512 → (k.rows.map List.length).sum ≤ 512)) ∧
        (∀ i < m.rows, nthD [] (s.drainRows c t m).1 i = (List.range m.cols).flatMap fun j =>
          leBytes (fmtSize (m.x3.extractLsb' 8 4).toNat) (convCode (tileCode tile.fmt) (m.x3.extractLsb' 8 4).toNat m.rm
            (m.x3.getLsbD 15) (s.rd (poolKey c (tileOff (s.core c).part t.toNat + tileAt tile.fmt i j)) (tileSize tile.fmt))).1))) ∧
    (∀ k0 rows, s.arrived p = some pk → pk.dst = .port c → pk.body = .rows k0 →
      let parts := fun (q : Packet) => q.place = .arrived ∧ q.dst = .port c ∧ ∃ k, q.body = .rows k ∧ k.org = k0.org ∧
        k.src = k0.src ∧ k.tile = k0.tile ∧ k.task = k0.task ∧ k.ep = k0.ep
      let k : DrainPkt := { k0 with rows := rows }
      let n := (rows.length - 1) * k.ldd + (nthD [] rows 0).length
      (s.drainWhole pk k0 = none → exec (.drainRowsArrival p) s = .next s) ∧
      (k0.first = 0 → k0.total = k0.rows.length → 0 < k0.total → (∀ q ∈ s.net, parts q → q = pk) →
        s.drainWhole pk k0 = some k0.rows) ∧
      (s.drainWhole pk k0 = some rows →
      let s0 : State := { s with net := s.net.filter fun q => !drainPart pk k0 q }
      let u := match k.ep with | some q => s0.hwTakes k.src q.1 q.2 | none => s0
      let answer := fun (u : State) (v : Verdict) =>
        let b : Body := .rowsAck { k with rows := [], wake := none } v
        match k.ep with
        | some q => u.hwReply (floeOf c) 0 k.src q.1 q.2 false 0 b c
        | none => u.send (floeOf c) (.core k.src) none 0 b none c
      let granted := pk.parked = true ∨ s.granted c 61 k.src k.off n = true
      let bound := ∀ q, k.ep = some q → (s.epAt k.src q.1).st ≠ .unbound ∧ (s.epAt k.src q.1).st ≠ .connecting ∧
        (s.epAt k.src q.1).gen = q.2
      (∀ q, drainPart pk k0 q = true ↔ parts q) ∧
      (¬ granted → exec (.drainRowsArrival p) s = .next (answer (u.nack c) .nack)) ∧
      (granted → s.held c k.off n true = true → exec (.drainRowsArrival p) s =
        .next { s with net := s.net.map fun q => if drainPart pk k0 q then { q with parked := true } else q }) ∧
      (granted → s.held c k.off n true = false → ¬ bound → exec (.drainRowsArrival p) s = .next (answer u .ok)) ∧
      (granted → s.held c k.off n true = false → bound → s.bad = [] →
        let w := ((List.range rows.length).zip rows).foldl (fun u q => u.wr (poolKey c (k.off + q.1 * k.ldd)) q.2) u
        exec (.drainRowsArrival p) s = .next (answer (match k.wake with
          | some l => w.enqueue (floeOf c) ⟨l, none, .quiet⟩
          | none => w) .ok)))) ∧
    (∀ k v o, s.arrived p = some pk → pk.dst = .core c →
      (s.core c).drains.find? (fun o => o.org == k.org && o.tile == k.tile && o.task == k.task) = some o → o.task = none →
      let ended := fun (u : State) => ((u.mapCore c fun x => { x with drains := x.drains.erase o }).orFlags o.org.core
        o.org.ctx k.flags).finishOp o.org (match v with
          | .ok => none
          | .nack => some (0x12, 0x800 + k.tile.toNat, BitVec.ofNat 64 k.off)
          | .dataErr w => some (0x11, 0x800 + k.tile.toNat, w))
      (pk.body = .rowsAck k v → exec (.drainAckArrival p) s = .next (ended (s.takePacket p))) ∧
      (∀ g, pk.body = .reply e g none (.rowsAck k v) →
        ((s.epAt c e).gen = g → (s.epAt c e).st = .open →
          exec (.drainAckArrival p) s = .next (ended ((s.takePacket p).mapEpAt c e Endpoint.endCredit))) ∧
        ((s.epAt c e).gen ≠ g ∨ ((s.epAt c e).st ≠ .open ∧ (s.epAt c e).st ≠ .delegating) →
          exec (.drainAckArrival p) s = .next (s.takePacket p))))

/-! ### The Gaussian message engine -/

/-- GZERO, GLOADF, GADD, GSUB, GSCHUR, GSOLVE, GDAMP, GSTORM, GSTAT, GSTORM.SEND, GWAIT, GMAB and the engine's events
(R281 to R301). `gaussOp` checks a memory operand (R288). What each instruction leaves in its block and its slot is stated entry by
entry, with its steps in order, the union of their exceptions, and the step at which it stops (R287, R290 to R296). Taking and
finishing are two events (log 18); the wait for tile operations and unacknowledged drains is log 20's; an arrival over an
uncorrectable error writes nothing (log 34). -/
def Obligations.GaussianEngine : Prop :=
  ∀ (s : State) (d a b : Reg) (x y : W) (t : BitVec 6) (n : BitVec 5) (r : BitVec 3) (e : EpId) (c : CoreId) (p : Nat)
      (pk : Packet),
    let there := tileExists s.me.part t.toNat = true
    let ready := fun (w : W) (f : BitVec 5) => ∃ txn, s.ctx.req = some ⟨txn, some (.value w f)⟩
    let flagged := fun f => s.orFlags s.cur.core s.cur.ctx f
    let txn := s.newTxn.2.1
    let queued := fun (o : GaussOp) => (.next
      ((((s.newTxn.2.2).mapCtx fun c => { c with req := some ⟨txn, none⟩ }).mapMe fun x =>
        { x with gqueue := x.gqueue ++ [{ o with txn := txn }] }).block { kind := 5, hold := true }) : Host.Outcome State Fault Refusal)
    let bare := fun (kind : GaussKind) (rm : Nat) => (⟨s.cur.ctx, 0, t, kind, 0, [], rmOf s.ctx.fst rm, false⟩ : GaussOp)
    let illegal : Host.Outcome State Fault Refusal := .next (s.trap { cause := 0x02 })
    (s.operands [] [] [] = .ok [] →
      (s.ctx.req = none → there → exec (.gzero t n) s = queued (bare (.zero n.toNat) 0)) ∧
      (s.ctx.req = none → ¬ there → exec (.gzero t n) s = illegal) ∧
      (∀ w f, ready w f → exec (.gzero t n) s = .next ((flagged f).done 4 []))) ∧
    (s.operands [a] [] [] = .ok [x] →
      (s.ctx.req = none → there →
        (∀ o, s.gaussOp t .loadf x 64 0 = .ok o → exec (.gloadf a t) s = queued o) ∧
        (∀ o, s.gaussOp t .store x 64 0 = .ok o → exec (.gstorm a t) s = queued o) ∧
        (∀ o, nonNeg (s.ctx.rx 7) = true → s.gaussOp t (.solve (s.ctx.rx 7)) x 8 r.toNat = .ok o →
          exec (.gsolve a r t) s = queued o) ∧
        (x.toNat % 64 ≠ 0 → exec (.gloadf a t) s = .next (s.trap { cause := 0x08, addr := x }) ∧
          exec (.gstorm a t) s = .next (s.trap { cause := 0x08, addr := x })) ∧
        (x ≠ 0 → nonNeg (s.ctx.rx 7) = true →
          exec (.gschur a r t) s = queued (bare (.schur x (s.ctx.rx 7)) r.toNat)) ∧
        (x = 0 ∨ nonNeg (s.ctx.rx 7) = false → exec (.gschur a r t) s = illegal)) ∧
      (∀ w f, ready w f →
        let done : Host.Outcome State Fault Refusal := .next ((flagged f).done 4 [a])
        exec (.gloadf a t) s = done ∧ exec (.gstorm a t) s = done ∧
        (nonNeg (s.ctx.rx 7) = true → exec (.gsolve a r t) s = done ∧ (x ≠ 0 → exec (.gschur a r t) s = done))) ∧
      (∀ k cause detail addr exc, s.ctx.req = some ⟨k, some (.trapped cause detail addr exc)⟩ →
        let trapped : Host.Outcome State Fault Refusal :=
          .next (s.trap { cause := cause, detail := detail, addr := addr, exc := exc })
        exec (.gloadf a t) s = trapped ∧ exec (.gstorm a t) s = trapped ∧
        (nonNeg (s.ctx.rx 7) = true → exec (.gsolve a r t) s = trapped ∧ exec (.gschur a r t) s = trapped))) ∧
    (s.operands [a, b] [] [] = .ok [x, y] →
      (s.ctx.req = none → there → ∀ sub o, s.gaussOp t (.add sub y none) x 64 r.toNat = .ok o →
        exec (if sub then .gsub a b r 0 t else .gadd a b r 0 t) s = queued o ∧
        (∀ m, s.me.mailSlot (nthD 0 o.keys 0 - poolKey s.cur.core 0) = some m →
          exec (if sub then .gsub a b r 1 t else .gadd a b r 1 t) s = queued { o with kind := .add sub y (some m) })) ∧
      (∀ w f k, ready w f →
        exec (.gadd a b r k t) s = .next ((flagged f).done 4 [a, b]) ∧
        exec (.gsub a b r k t) s = .next ((flagged f).done 4 [a, b]))) ∧
    (s.operands [a] [d] [] = .ok [x] →
      (s.ctx.req = none → there → nonNeg (s.ctx.rx 4) = true → ∀ o,
        s.gaussOp t (.damp (s.ctx.rx 4)) x 64 r.toNat = .ok o → exec (.gdamp d a r t) s = queued o) ∧
      (nonNeg (s.ctx.rx 4) = false → exec (.gdamp d a r t) s = illegal) ∧
      (∀ w f, nonNeg (s.ctx.rx 4) = true → ready w f → exec (.gdamp d a r t) s = .next ((flagged f).doneG 4 [a] d w)) ∧
      (x = 0 → exec (.gwait d a) s = illegal) ∧
      (s.me.mab &&& x ≠ 0 → exec (.gwait d a) s = .next (s.doneG 4 [a] d (s.me.mab &&& x))) ∧
      (let woken := s.ctx.req = some ⟨3, some (.value 0 0)⟩
       x ≠ 0 → s.me.mab &&& x = 0 →
         (¬ woken → exec (.gwait d a) s =
           .next ((s.mapCtx fun c => { c with req := some ⟨3, none⟩ }).block { kind := 1, slots := x })) ∧
         (woken → exec (.gwait d a) s = .next (s.doneG 4 [a] d 0))) ∧
      exec (.gmab d a) s = .next ((s.mapMe fun y => { y with mab := y.mab &&& ~~~x }).doneG 4 [a] d s.me.mab)) ∧
    (s.operands [] [d] [] = .ok [] → there → exec (.gstat d t) s = .next (s.doneG 4 [] d
      (mkW [((s.me.tile t).dim, 8), ((s.me.tileWord t).extractLsb' 0 5 |>.toNat, 0)]))) ∧
    (∀ o l, (s.core c).gqueue = o :: l →
      let engine := ∃ k ∈ o.keys, (s.core c).excluded (k - poolKey c 0) 8 o.kind.need.w = true
      (o.taken = false → ((∃ q ∈ (s.core c).tileOps, q.tile = o.tile) ∨ engine) → exec (.gaussEngineTake c) s = .next s) ∧
      (o.taken = false → (∀ q ∈ (s.core c).tileOps, q.tile ≠ o.tile) → ¬ engine →
        (∀ ks u, s.gaussKeys c o = .ok ks u →
          let barred := ∃ k ∈ ks, (u.core c).excluded (k - poolKey c 0) 8 o.kind.need.w = true
          (¬ barred → exec (.gaussEngineTake c) s =
            .next (u.mapCore c fun x => { x with gqueue := { o with taken := true, keys := ks } :: l })) ∧
          (barred → exec (.gaussEngineTake c) s = .next u)) ∧
        (∀ f u, s.gaussKeys c o = .bad f u → exec (.gaussEngineTake c) s =
          .next (u.gaussEnd c o (.trapped f.cause f.detail f.addr f.exc)))) ∧
      (o.taken = true →
        (∀ u w f, s.gaussRun c o = .ok (u, w, f) → exec (.gaussEngineFinish c) s = .next (u.gaussEnd c o (.value w f))) ∧
        (∀ u, s.gaussRun c o = .error u → exec (.gaussEngineFinish c) s =
          .next (s.gaussEnd c o (.trapped u.cause u.detail u.addr u.exc))) ∧
        (s.memOk → s.bad = [] →
          let tile := (s.core c).tile o.tile
          let n := tile.dim
          let base := poolKey c (tileOff (s.core c).part o.tile.toNat)
          let B : Joint := ⟨fun i j => s.rd (base + 8 * (16 * i + j)) 8, fun i => s.rd (base + 8 * (256 + i)) 8⟩
          let M := fun j => s.rd (nthD 0 o.keys j) 8
          let d0 : W := BitVec.ofNat 64 (M 0)
          let m := (d0.extractLsb' 0 4).toNat
          let V := d0.getLsbD 8
          let en := (s.ctxAt c o.ctx).fst.extractLsb' 8 5
          let usable := 1 ≤ n ∧ n ≤ 16 ∧ tile.fmt = 2 ∧ tile.poison = false
          let apart := (∀ i j, i < j → j < o.keys.length → nthD 0 o.keys i + 8 ≤ nthD 0 o.keys j ∨ nthD 0 o.keys j + 8 ≤ nthD 0 o.keys i) ∧
            ∀ k ∈ o.keys, k + 8 ≤ base ∨ base + 2176 ≤ k
          let traps := fun (cause detail : Nat) (addr : W) (exc : BitVec 5) =>
            exec (.gaussEngineFinish c) s = .next (s.gaussEnd c o (.trapped cause detail addr exc))
          let ends := fun (u : State) (w : W) (f : BitVec 5) => exec (.gaussEngineFinish c) s = .next u ∧ (u.core c).gqueue = l ∧
            ((s.ctxAt c o.ctx).req = some ⟨o.txn, none⟩ → (u.ctxAt c o.ctx).req = some ⟨o.txn, some (.value w f)⟩)
          let block := fun (u : State) (dim : Nat) (b : Joint) => ((u.core c).tile o.tile).dim = dim ∧
            (∀ i j, i ≤ j → j < dim → u.rd (base + 8 * (16 * i + j)) 8 = b.lam i j % 2 ^ 64) ∧
            (∀ i, i < dim → u.rd (base + 8 * (256 + i)) 8 = b.eta i % 2 ^ 64) ∧
            (∀ i j, i < 16 → j < 16 → (dim ≤ i ∨ dim ≤ j) → u.rd (base + 8 * (16 * i + j)) 8 = 0) ∧
            ∀ i, i < 16 → dim ≤ i → u.rd (base + 8 * (256 + i)) 8 = 0
          let mirrored := fun (u : State) (lo hi : Nat) => ∀ i j, lo ≤ i → i ≤ j → j < hi →
            u.rd (base + 8 * (16 * j + i)) 8 = u.rd (base + 8 * (16 * i + j)) 8
          let performs := fun (steps : List GStep) (floor : W) (done : BitVec 5 → Prop) =>
            ((∀ x ∈ steps, x.stops en floor = false) → done (unionOf steps)) ∧
            ∀ pre x post, steps = pre ++ x :: post → (∀ y ∈ pre, y.stops en floor = false) → x.stops en floor = true →
              match x with
              | .op _ => traps 0x07 (o.tile.toNat * 64) 0 (unionOf (pre ++ [x]))
              | .pivot k v => traps 0x0F (o.tile.toNat * 64 + k) (BitVec.ofNat 64 v) (unionOf pre)
          let message := (List.range n).map B.eta ++ (pairsOf n).map fun p => B.lam p.1 p.2
          let slot := fun (u : State) (values : List Nat) (wake : Bool) =>
            u.rd (nthD 0 o.keys 0) 8 = (mkW [((d0.toNat / 2 ^ 32 + 1) % 2 ^ 32, 32), ((d0.extractLsb' 10 22).toNat, 10),
              (b2n wake, 9), (1, 8), (n, 0)]).toNat ∧ u.rd (nthD 0 o.keys 1) 8 = M 1 ∧
            ∀ i, i < values.length → u.rd (nthD 0 o.keys (2 + i)) 8 = nthD 0 values i % 2 ^ 64
          (((∃ sub off w, o.kind = .add sub off w) ∨ (∃ k w, o.kind = .schur k w) ∨ (∃ w, o.kind = .solve w) ∨
              (∃ w, o.kind = .damp w) ∨ o.kind = .store) → (n = 0 ∨ tile.fmt ≠ 2 ∨ tile.poison = true) → traps 0x02 0 0 0) ∧
          (o.kind = .loadf →
            let m := (d0.extractLsb' 0 5).toNat
            let legal := d0.toNat / 32 = 0 ∧ M 1 = 0 ∧ 1 ≤ m ∧ m ≤ 16
            (¬ legal → traps 0x02 0 o.va 0) ∧
            (legal → o.keys.length = 2 + m + (pairsOf m).length → ∃ u, ends u 0 0 ∧
              block u m ⟨fun i j => M (2 + m + packedAt m i j), fun i => M (2 + i)⟩ ∧ mirrored u 0 m ∧
              ((u.core c).tile o.tile).fmt = 2 ∧ ((u.core c).tile o.tile).poison = false ∧
              ((u.core c).tile o.tile).sat = false)) ∧
          (∀ sub off w, o.kind = .add sub off w → usable →
            let k := off.toNat
            let F := fun x y => if sub then f64.sub o.mode x y else f64.add o.mode x y
            let h := fun i => F (B.eta (k + i)) (M (2 + i))
            let g := fun i j => F (B.lam (k + i) (k + j)) (M (2 + m + packedAt m i j))
            ((slotOk d0 = false ∨ V = false) → traps 0x02 0 o.va 0) ∧
            (slotOk d0 = true → V = true → n < k + m → traps 0x02 0 0 0) ∧
            (slotOk d0 = true → V = true → k + m ≤ n → o.keys.length = 2 + m + (pairsOf m).length →
              performs ((List.range m).map (fun i => .op (h i)) ++ (pairsOf m).map fun p => .op (g p.1 p.2)) 0 fun f =>
                ∃ u, ends u 0 f ∧ mirrored u k (k + m) ∧
                  block u n ⟨fun i j => if k ≤ i ∧ j < k + m then (g (i - k) (j - k)).v else B.lam i j,
                    fun i => if k ≤ i ∧ i < k + m then (h (i - k)).v else B.eta i⟩ ∧
                  (u.core c).mab = match w with
                    | some q => (s.core c).mab &&& ~~~(1#64 <<< q)
                    | none => (s.core c).mab)) ∧
          (∀ keep floor, o.kind = .schur keep floor → usable →
            let a := keep.toNat
            let r := ((List.range (n - a)).map fun i => a + i).foldl (Joint.eliminate o.mode a n) (B, [])
            (n ≤ a → traps 0x02 0 0 0) ∧
            (a < n → performs r.2 floor fun f => ∃ u, ends u 0 f ∧ block u a r.1 ∧ mirrored u 0 a)) ∧
          (∀ floor, o.kind = .solve floor → usable → o.keys.length = n →
            let r := B.mean o.mode n
            performs r.2 floor fun f => ∃ u, ends u 0 f ∧ (u.core c).tile o.tile = tile ∧
              (apart → ∀ i, i < n → u.rd (nthD 0 o.keys i) 8 = r.1 i % 2 ^ 64) ∧
              ∀ x, (∀ k ∈ o.keys, x < k ∨ k + 8 ≤ x) → u.rd x 1 = s.rd x 1) ∧
          (∀ theta, o.kind = .damp theta → usable →
            let beta := M 1
            let one := fun i => dampEntry o.mode V beta (nthD 0 message i) (M (2 + i))
            let is := List.range message.length
            let residual := is.foldl (fun x i => maxNorm x (one i).2.2) 0
            let legal := n ≤ 8 ∧ (V = true → m = n) ∧ nonNeg (BitVec.ofNat 64 beta) = true ∧
              (f64.compare 1 0x3FF0000000000000 beta).1 = false
            (slotOk d0 = false → traps 0x02 0 o.va 0) ∧
            (slotOk d0 = true → ¬ legal → traps 0x02 0 0 0) ∧
            (slotOk d0 = true → legal → o.keys.length = 2 + message.length →
              performs (is.flatMap fun i => (one i).2.1) 0 fun f => ∃ u, ends u (BitVec.ofNat 64 residual) f ∧
                (apart → block u n B ∧ slot u (is.map fun i => (one i).1)
                  ((f64.decode residual).isNan || (f64.compare 1 theta.toNat residual).1)))) ∧
          (o.kind = .store → usable →
            (slotOk d0 = false → traps 0x02 0 o.va 0) ∧
            (slotOk d0 = true → 8 < n → traps 0x02 0 0 0) ∧
            (slotOk d0 = true → n ≤ 8 → o.keys.length = 2 + message.length → ∃ u, ends u 0 0 ∧
              (apart → block u n B ∧ slot u message false)))) ∧
        (∀ m, o.kind = .zero m → s.memOk → ∃ u, exec (.gaussEngineFinish c) s = .next u ∧ ((u.core c).tile o.tile).dim = m ∧
          ((u.core c).tile o.tile).fmt = 2 ∧ ((u.core c).tile o.tile).poison = false ∧
          ∀ i, i < 272 → u.rd (poolKey c (tileOff (s.core c).part o.tile.toNat) + 8 * i) 8 = 0))) ∧
    (∀ (mode beta new old : Nat) (sb sx sy : Bool) (mb mx my : Nat) (eb ex ey n : Int) (q : Nat) (v : Bool),
      let X := f64.decode new
      let Y := f64.decode old
      let one := dampEntry mode v beta new old
      (v = false → one = (new, [], f64.inf false)) ∧
      (v = true → (f64.decode beta).isZero = true → one.1 = new ∧ one.2.1 = []) ∧
      (v = true → beta = 0x3FF0000000000000 → one.1 = old ∧ one.2.1 = []) ∧
      (v = true → mode ≤ 4 → f64.decode beta = .fin sb mb eb → 0 ≤ eb + q → 0 < mb * 2 ^ (eb + q).toNat →
        mb * 2 ^ (eb + q).toNat < 2 ^ q → nonNeg (BitVec.ofNat 64 beta) = true → beta < 2 ^ 64 →
        X = .fin sx mx ex → Y = .fin sy my ey → 1 ≤ f64.emin - f64.fb + n → 0 ≤ ex - q + n → 0 ≤ eb + ey + n →
        ∃ r : FRes, one.1 = r.v ∧ one.2.1 = [.op r] ∧ f64.SumRounds mode n
          [(sx, scaled sx ((2 ^ q - mb * 2 ^ (eb + q).toNat) * mx) (ex - q) n), (sy, scaled sy (mb * my) (eb + ey) n)] r) ∧
      (X = .fin sx mx ex → Y = .fin sy my ey → 1 ≤ f64.emin - f64.fb + n → 0 ≤ ex + n → 0 ≤ ey + n →
        let D := scaled sx mx ex n - scaled sy my ey n
        (D = 0 → distance new old = 0) ∧
        (D ≠ 0 → ∃ r : FRes, distance new old = r.v ∧
          f64.RoundsOnce 2 false false n (fun t => compare t (2 * D.natAbs)) r)) ∧
      ((X.isNan = true ∨ Y.isNan = true ∨ (X = .inf sx ∧ Y = .inf sx)) → distance new old = f64.dnan) ∧
      (X.isNan = false → Y.isNan = false → X.isInf = true ∨ Y.isInf = true → X ≠ Y → distance new old = f64.inf false) ∧
      ((X.isNan = true ∨ Y.isNan = true) → maxNorm new old = f64.dnan) ∧
      (∀ lt eq, X.Ordered Y lt eq → maxNorm new old = if lt then old else new)) ∧
    (s.operands [a] [] [] = .ok [x] → s.ctx.pend = [] → (s.ep e).owner = s.cur.ctx → (s.ep e).st = .open →
      (s.ep e).proto.toNat = 6 → 1 ≤ (s.ep e).slotu.toNat → x.toNat % 64 = 0 →
      ∀ h ks, s.access x 8 8 { r := true } = .ok h →
        let d0 := s.rd8 h
        slotOk d0 = true → d0.getLsbD 8 = true →
        s.accessAll 8 { r := true } (dwordsAt x (slotDwords (d0.extractLsb' 0 4).toNat)) = .ok ks →
        (s.ep e).state.toNat < (s.ep e).pdepth.toNat + 1 → s.ctx.count .gstore < 65535 → s.weak = [] →
        ∃ u : State, exec (.gstormSend a e) s = .next (u.done 4 [a]) ∧ u.mem = s.mem ∧ u.ctx.g = s.ctx.g ∧
          (u.ep e).state = (s.ep e).state + 1 ∧ ∃ q ∈ u.net, q.body = .gbp ⟨s.origin, e, (s.ep e).gen,
            (d0.extractLsb' 10 6).toNat, ks.flatMap fun k => memReads s.mem k 8, none⟩) ∧
    (∀ g, s.arrived p = some pk → pk.dst = .port c → pk.body = .gbp g →
      let x := s.core c
      let off := g.slot.getD ((x.gmbox.extractLsb' 0 22).toNat + 512 * g.mslot)
      let ok := x.gmbox.getLsbD 63 = true ∧ g.mslot < (x.gmbox.extractLsb' 22 7).toNat
      let u := (s.takePacket p).hwTakes g.org.core g.ep g.gen
      let may := g.slot ≠ none ∨ ok
      let free := s.held c off g.bytes.length true = false ∧
        ¬ ((leNat (g.bytes.take 8)).testBit 9 = true ∧ s.pushHeld c = true)
      let bound := (s.epAt g.org.core g.ep).st ≠ .unbound ∧ (s.epAt g.org.core g.ep).st ≠ .connecting ∧ (s.epAt g.org.core g.ep).gen = g.gen
      let stored := (u.wr (poolKey c off) g.bytes).mapCore c fun x => { x with mab := x.mab ||| (1#64 <<< g.mslot) }
      let d0 : W := BitVec.ofNat 64 (leNat (g.bytes.take 8))
      let answer := fun (u : State) (v : Verdict) =>
        u.hwReply (floeOf c) 0 g.org.core g.ep g.gen false 0 (.gbpCredit g v) c
      (¬ may → exec (.gbpArrival p) s = .next (answer (u.nack c) .nack)) ∧
      (may → ¬ free → exec (.gbpArrival p) s =
        .next (s.parkAs p (.gbp { g with slot := some off }))) ∧
      (may → free → ¬ bound → exec (.gbpArrival p) s = .next (answer u .ok)) ∧
      (∀ w, may → free → bound → s.badIn (poolKey c off) g.bytes.length = some w → exec (.gbpArrival p) s =
        .next (answer u (.dataErr (BitVec.ofNat 64 (w - poolKey c 0))))) ∧
      (may → free → bound → s.badIn (poolKey c off) g.bytes.length = none → exec (.gbpArrival p) s =
        .next (answer ((if d0.getLsbD 9 then stored.wakeNode c (d0.extractLsb' 16 16).toNat else stored).mapCore c
          fun x => x.wakeSlot g.mslot) .ok))) ∧
    (∀ q gen g v, s.arrived p = some pk → pk.dst = .core c → pk.body = .reply q gen none (.gbpCredit g v) →
      ((s.epAt c q).gen = gen → (s.epAt c q).st = .open → exec (.gbpCreditArrival p) s =
        .next (((s.takePacket p).mapEpAt c q Endpoint.endCredit).finishOp g.org
          (match v with
            | .ok => none
            | .nack => some (0x12, g.ep.toNat, BitVec.ofNat 64 g.mslot)
            | .dataErr w => some (0x11, g.ep.toNat, w)))) ∧
      ((s.epAt c q).gen ≠ gen ∨ ((s.epAt c q).st ≠ .open ∧ (s.epAt c q).st ≠ .delegating) →
        exec (.gbpCreditArrival p) s = .next (s.takePacket p)))

/-! ### The floe -/

/-- Floe registers, dispensing, continuations, queues and deques (R22 to R27, R308 to R321, R325). `nextDelivery` is the choice of
R313; `driftOn` is a move of the drift unit, or the end of a visit. An entry of a deque that an engine holds is waited for (R284). Which
fields of a handle are checked where, the order of the checks of `waitw`, `suspend` and `retire`, and when the drift unit moves are the
model's choices (log 33, 36, 37). -/
def Obligations.FloesDispense : Prop :=
  ∀ (s : State) (d a b : Reg) (x y : W) (f : FloeId) (i : BitVec 2) (c : CoreId) (k : CtxId) (p n : Nat) (pk : Packet),
    let mine := s.floe s.myFloe
    let illegal : Host.Outcome State Fault Refusal := .next (s.trap { cause := 0x02 })
    let t := s.takePacket p
    let waiting := fun (u : State) => u.mapCtx fun c => c.toWaiting s.me.cycle
    let quiet := s.ctx.pend = [] ∧ s.ctx.gang = none ∧ s.cur.ctx ≠ 0
    let asks := s.newTxn.2.2.mapCtx fun c => { c with req := some ⟨s.newTxn.2.1, none⟩ }
    let issuer : Issuer := ⟨s.cur.core, s.cur.ctx, s.newTxn.2.1⟩
    let at_ := fun (u : Unit → Dest × Body) => s.arrived p = some pk ∧ pk.dst = (u ()).1 ∧ pk.body = (u ()).2
    (s.operands [a] [d] [] = .ok [x] →
      (∀ v, mine.readReg (x.extractLsb' 0 12).toNat = some v → exec (.rdfloe d a) s = .next (s.doneG 4 [a] d v)) ∧
      (x.extractLsb' 0 12 = 0x038 → exec (.rdfloe d a) s = .next (s.doneG 4 [a] d mine.ffault)) ∧
      (mine.readReg (x.extractLsb' 0 12).toNat = none → exec (.rdfloe d a) s = illegal) ∧
      (let h := x.extractLsb' 40 8
       let q : BitVec 2 := x.truncate 2
       (h = s.myFloe → exec (.qhandle d a) s = .next (s.doneG 4 [a] d (s.handleOf s.myFloe q))) ∧
       (h ≠ s.myFloe → s.ctx.req = none → exec (.qhandle d a) s =
         .next ((asks.sendCore s.cur.core (.floe h) false 8 (.handleReq issuer q.toNat)).block { kind := 1, hold := true })) ∧
       (∀ txn w g, h ≠ s.myFloe → s.ctx.req = some ⟨txn, some (.value w g)⟩ →
         exec (.qhandle d a) s = .next (s.doneG 4 [a] d w)) ∧
       (let r := s.queue s.myFloe q
        (x.toNat < 4 → exec (.qstat d a) s = .next (s.doneG 4 [a] d
          (mkW [(b2n r.spilled, 63), (r.ringLen, 36), (r.gen.toNat, 24), (r.bank.length, 0)]))) ∧
        (4 ≤ x.toNat → exec (.qstat d a) s = illegal))) ∧
      (x = 0 → exec (.dqpush d a) s = illegal) ∧
      (x ≠ 0 → s.pushHeld s.cur.core = true → exec (.dqpush d a) s = .next (s.block { kind := 5 })) ∧
      (x ≠ 0 → s.pushHeld s.cur.core = false → exec (.dqpush d a) s =
        .next ((s.dqPush s.cur.core x).2.doneG 4 [a] d (if (s.dqPush s.cur.core x).1 then 1 else 0))) ∧
      (x.extractLsb' 48 16 = 0 → x.extractLsb' 0 37 = 0 →
        (s.ctx.req = none → exec (.dqsteal d a) s =
          .next ((asks.sendCore s.cur.core (.core (x.extractLsb' 37 11)) false 8 (.stealReq issuer)).block
            { kind := 1, hold := true })) ∧
        (∀ txn w g, s.ctx.req = some ⟨txn, some (.value w g)⟩ → exec (.dqsteal d a) s = .next (s.doneG 4 [a] d w)))) ∧
    (s.operands [a, b] [] [] = .ok [x, y] →
      (∀ v, s.isSupervisor = true → mine.writeReg (x.extractLsb' 0 12).toNat s.me.xroot y = some v →
        exec (.wrfloe a b) s = .next ((s.setFloe s.myFloe v).done 4 [a, b])) ∧
      (s.isSupervisor = false → exec (.wrfloe a b) s = illegal) ∧
      (∀ r ks, y.extractLsb' 48 16 = 0 → y.extractLsb' 36 4 = 0 → y.extractLsb' 2 22 = 0 → s.readRecord x = .ok (r, ks) →
        (nthD 0 r 0).extractLsb' 40 8 = y.extractLsb' 40 8 → (nthD 0 r 0).extractLsb' 30 2 = y.extractLsb' 0 2 →
        s.ctx.count .gstore < 65535 → exec (.spawn a b) s =
          .next ((((s.correctUnits ks).mapCtx fun c => c.launch .gstore false none).sendCore s.cur.core
            (.floe (y.extractLsb' 40 8)) false 72 (.enqueue (some s.origin) r (some y))).done 4 [a, b]))) ∧
    (s.isSupervisor = true →
      (∀ v, mine.writeRing i s.me.xroot x = some v → exec (.qringWrite i x) s = .next (s.setFloe s.myFloe v)) ∧
      (∀ v, mine.writeDrift x = some v → exec (.driftWrite x) s = .next (s.setFloe s.myFloe v)) ∧
      ((x.extractLsb' 0 6).toNat + (x.extractLsb' 6 6).toNat ≤ 64 → exec (.tscWrite x) s =
        .next (s.setFloe s.myFloe { mine with tsc := (x.extractLsb' 0 12).zeroExtend 64 }))) ∧
    (s.isSupervisor = false → exec (.qringWrite i x) s = illegal ∧ exec (.driftWrite x) s = illegal ∧
      exec (.tscWrite x) s = illegal) ∧
    (s.operands [] [d] [] = .ok [] →
      (let flags := (coresOf s.myFloe).map fun c => nthD 0 (s.core c).fhist 3
       s.isSupervisor = true → exec (.funion d) s = .next (s.doneG 4 [] d
         (mkW (((flags.foldl (fun a f => a ||| f) 0).toNat, 0) ::
           (List.range 8).map fun i => (if nthD 0 flags i ≠ 0 then 1 else 0, 8 + i))))) ∧
      (s.isSupervisor = false → exec (.funion d) s = illegal) ∧
      (s.popHeld s.cur.core = true → exec (.dqpop d) s = .next (s.block { kind := 5 })) ∧
      (s.popHeld s.cur.core = false →
        exec (.dqpop d) s = .next ((s.dqPop s.cur.core).2.doneG 4 [] d (s.dqPop s.cur.core).1)) ∧
      exec (.dqcount d) s = .next (s.doneG 4 [] d (BitVec.ofNat 64 (s.me.bot - s.me.top)))) ∧
    (s.operands [a] [] [] = .ok [x] →
      (s.isSupervisor = true → x.toNat < 4 →
        exec (.qreset a) s = .next ((s.resetQueue s.myFloe (x.truncate 2)).done 4 [a])) ∧
      (s.isSupervisor = false → exec (.qreset a) s = illegal) ∧
      (quiet → s.ctx.ops = [] → x.getLsbD 0 = false → exec (.suspend a) s =
        .next ((waiting (s.sendCore s.cur.core (.floe ((nthD 0 (s.ctx.suspendRecord x) 0).extractLsb' 40 8)) false 64
          (.enqueue none (s.ctx.suspendRecord x) none))).takeWords [a])) ∧
      (quiet → s.ctx.ops ≠ [] → x.getLsbD 0 = false → exec (.suspend a) s = .next (s.block { kind := 5 })) ∧
      (x.getLsbD 0 = true ∨ s.cur.ctx = 0 → exec (.suspend a) s = illegal)) ∧
    (s.operands [] [] [] = .ok [] →
      (quiet → s.ctx.ops = [] → exec .waitw s = .next ((waiting s).takeWords []) ∧
        exec .retire s = .next ((waiting s).takeWords []) ∧
        (s.ctx.leaving = none → exec .disband s = .next ((waiting s).takeWords []))) ∧
      (quiet → s.ctx.ops ≠ [] → exec .waitw s = .next (s.block { kind := 5 }) ∧ exec .retire s = .next (s.block { kind := 5 }) ∧
        (s.ctx.leaving = none → exec .disband s = .next (s.block { kind := 5 }))) ∧
      (s.ctx.gang.isSome = true → exec .waitw s = illegal ∧ exec .retire s = illegal) ∧
      (s.cur.ctx = 0 → exec .waitw s = illegal ∧ exec .retire s = illegal)) ∧
    (let takes := fun (w : W) (c : CoreId) (k : CtxId) => c ∈ coresOf f ∧
         (w.getLsbD 36 = true ∨ c = coreAt f (w.extractLsb' 37 3).toNat) ∧ (w.getLsbD 28 = true → k = 15) ∧
         (w.getLsbD 28 = false → k ≠ 0 ∧ k ≠ 15) ∧ (s.ctxAt c k).life = .waiting
     let header := fun (j : BitVec 2) (m : Nat) => nthD 0 (nthD [] (s.queue f j).bank m) 0
     let stands := fun (j : BitVec 2) (m : Nat) => m < 8 ∧ m < (s.queue f j).bank.length
     (s.nextDelivery f = none ↔ ∀ j m c k, stands j m → ¬ takes (header j m) c k) ∧
     (s.nextDelivery f = some (i, n, c, k) → stands i n ∧ takes (header i n) c k ∧
       (∀ m c' k', m < n → ¬ takes (header i m) c' k') ∧
       (∀ j m c' k', j.toNat < i.toNat → stands j m → ¬ takes (header j m) c' k') ∧
       ∀ c' k', takes (header i n) c' k' → (s.ctxAt c k).waitingAt < (s.ctxAt c' k').waitingAt ∨
         ((s.ctxAt c k).waitingAt = (s.ctxAt c' k').waitingAt ∧
           (c.toNat < c'.toNat ∨ (c = c' ∧ k.toNat ≤ k'.toNat))))) ∧
    (∀ r, (s.floe f).ffault = 0 → s.nextDelivery f = some (i, n, c, k) → nthD [] (s.queue f i).bank n = r →
      (∃ u, exec (.dispenserDelivery f false) s = .next u ∧ u.mem = s.mem ∧
        (u.queue f i).bank = (s.queue f i).bank.eraseIdx n ∧
        let v := u.ctxAt c k
        v.life = .runnable ∧ v.pc = nthD 0 r 1 &&& ~~~1#64 ∧ v.p = (nthD 0 r 0).extractLsb' 16 8 ∧ v.rg 3 = nthD 0 r 0 ∧
        ∀ j, j < 6 → v.rg (BitVec.ofNat 5 (4 + j)) = nthD 0 r (2 + j)) ∧
      exec (.dispenserDelivery f true) s = .next (s.floeFault f 1)) ∧
    (∀ r o h, (s.floe f).ffault = 0 →
      let e := fun (e : Enq) => t.enqueue f e
      (at_ (fun _ => (.floe f, .enqueue none r none)) →
        exec (.enqueueWithoutHandle p) s = .next (e ⟨r, none, .quiet⟩) ∧
        (let j := (nthD 0 r 0).extractLsb' 30 2
         let q := s.queue f j
         (nthD 0 r 0).getLsbD 36 = false → q.move = none → q.spilled = false → q.bank.length < 256 →
         ∃ u, exec (.enqueueWithoutHandle p) s = .next u ∧ (u.queue f j).bank = q.bank ++ [r])) ∧
      (at_ (fun _ => (.floe f, .enqueue (some o) r (some h))) →
        exec (.enqueueWithHandle p) s = .next (e ⟨r, some h, .spawn o⟩)) ∧
      (∀ ep gen host, at_ (fun _ => (.floe f, .task ep gen host r h)) →
        exec (.taskRequest p) s = .next (e ⟨r, some h, .task ep gen host⟩)) ∧
      (∀ ok, at_ (fun _ => (.core c, .enqueueAck o ok h)) → exec (.enqueueAckArrival p) s =
        .next (t.finishOp o (if ok then none else some (0x12, 0, h))))) ∧
    (∀ g (h : W) m,
      (at_ (fun _ => (.floe f, .handleReq g m)) → exec (.qhandleReplyArrival p) s =
        .next (t.send f (.core g.core) none 8 (.handleReply g (s.handleOf f (BitVec.ofNat 2 m))))) ∧
      (at_ (fun _ => (.core c, .handleReply g h)) → exec (.qhandleReplyArrival p) s =
        .next (t.give g.core g.ctx g.txn (.value h 0))) ∧
      (at_ (fun _ => (.core c, .stealReq g)) → s.stealHeld c = true →
        exec (.stealRequestArrival p) s = .next (s.park p)) ∧
      (at_ (fun _ => (.core c, .stealReq g)) → s.stealHeld c = false → exec (.stealRequestArrival p) s =
        .next ((t.dqSteal c).2.sendCore c (.core g.core) false 8 (.stealReply g (t.dqSteal c).1))) ∧
      (at_ (fun _ => (.core c, .stealReply g h)) → exec (.stealReplyArrival p) s =
        .next (t.give g.core g.ctx g.txn (.value h 0)))) ∧
    ((s.floe f).ffault = 0 →
      ((s.queue f i).move.isSome = true → exec (.queueMoveComplete f i true) s = .next (s.endMove f i) ∧
        exec (.queueMoveComplete f i false) s = .next (s.floeFault f 3)) ∧
      (let count := fun (j : Nat) => (s.core (coreAt f (j % 8))).bot - (s.core (coreAt f (j % 8))).top
       let nbr := if count 7 < count 1 then 7 else 1
       let theirs := s.core (coreAt f nbr)
       let room := (theirs.dqlim.toNat - theirs.dqbase.toNat) / 8 - count nbr
       let drift := (s.floe f).drift
       let moves := if count nbr ≤ count 0 ∧ (drift.extractLsb' 32 8).toNat ≤ count 0 - count nbr then
           Nat.min (Nat.min ((count 0 - count nbr) / 2) (drift.extractLsb' 40 8).toNat) room
         else 0
       (drift.extractLsb' 0 32 ≠ 0 → (s.floe f).visit = none → exec (.driftInterval f) s =
         .next (s.mapFloe f fun z => { z with visit := some ⟨0, nbr, moves, moves⟩ })) ∧
       ((s.floe f).visit.isSome = true → exec (.driftInterval f) s = .next s)) ∧
      (∀ v, (s.floe f).visit = some v →
        let from_ := coreAt f v.core
        let to_ := coreAt f v.nbr
        let r := s.dqSteal from_
        let count := fun (c : CoreId) => (s.core c).bot - (s.core c).top
        (v.left = 0 → s.driftOn f = s.mapFloe f fun z =>
          { z with
            dmoves := BitVec.ofNat 32 (min (z.dmoves.toNat + v.n) (2 ^ 32 - 1))
            visit := if v.core < 7 then some (s.driftVisit f (v.core + 1)) else none }) ∧
        (0 < v.left → 0 < count from_ →
          count to_ < ((s.core to_).dqlim.toNat - (s.core to_).dqbase.toNat) / 8 →
          s.stealHeld from_ = true ∨ s.pushHeld to_ = true → s.driftOn f = s) ∧
        (0 < v.left → 0 < count from_ →
          count to_ < ((s.core to_).dqlim.toNat - (s.core to_).dqbase.toNat) / 8 →
          s.stealHeld from_ = false → s.pushHeld to_ = false → s.driftOn f = (r.2.dqPush to_ r.1).2.mapFloe f fun z => { z with visit := some { v with left := v.left - 1 } })))

/-- TTASK, TGROUP, the tile scheduler's events, GANG and DISBAND (R326 to R333). The order of the checks, KPL of a template,
and what stops a walk are the model's choices (log 33, 38), as are which free frame a follower takes, that `gang` waits for the spill
of a follower core's victim, and how the members leave by `disband` (log 39). -/
def Obligations.TasksAndGangs : Prop :=
  ∀ (s : State) (d a b : Reg) (x y : W) (f : FloeId) (c : CoreId) (m : BitVec 2) (n : Nat),
    let mine := s.floe s.myFloe
    let illegal : Host.Outcome State Fault Refusal := .next (s.trap { cause := 0x02 })
    let room := s.ctx.count .tile < 65535
    let tiles := mine.tsc.extractLsb' 6 6 ≠ 0
    (∀ r ks, s.operands [a] [] [] = .ok [x] → s.readRecord x = .ok (r, ks) →
      let d4 := nthD 0 r 4
      let legal := recordOk r = true ∧ (nthD 0 r 3).extractLsb' 0 16 ≠ 0 ∧
        kplOk (d4.extractLsb' 60 4).toNat (d4.extractLsb' 56 4).toNat (d4.extractLsb' 52 4).toNat = true ∧
        tileDepth (d4.extractLsb' 46 2) (d4.extractLsb' 60 4).toNat (d4.extractLsb' 56 4).toNat ≠ none
      (legal → tiles → nthD 0 r 6 = 0 → mine.tasks.length < 64 → room → exec (.ttask a) s =
        .next ((((s.correctUnits ks).mapCtx fun c => c.launch .tile false none).mapFloe s.myFloe fun z =>
          { z with tasks := z.tasks ++ [⟨mine.nextTask, s.origin, s.ctx.resolve r, none⟩]
                   nextTask := z.nextTask + 1 }).done 4 [a])) ∧
      (legal → tiles → nthD 0 r 6 = 0 → 64 ≤ mine.tasks.length → exec (.ttask a) s = .next (s.block { kind := 2 })) ∧
      (legal → tiles → nthD 0 r 6 ≠ 0 →
        (¬ 64 ∣ (nthD 0 r 6).toNat → exec (.ttask a) s = illegal) ∧
        (∀ q ks', 64 ∣ (nthD 0 r 6).toNat → s.readRecord (nthD 0 r 6) = .ok (q, ks') →
          let u := s.correctUnits ks'
          (wakeOk ((nthD 0 r 5).extractLsb' 37 11) q = false → exec (.ttask a) s = illegal) ∧
          (wakeOk ((nthD 0 r 5).extractLsb' 37 11) q = true → 64 ≤ mine.tasks.length →
            exec (.ttask a) s = .next (u.block { kind := 2 })) ∧
          (wakeOk ((nthD 0 r 5).extractLsb' 37 11) q = true → mine.tasks.length < 64 → room → exec (.ttask a) s =
            .next ((((u.correctUnits ks).mapCtx fun c => c.launch .tile false none).mapFloe s.myFloe fun z =>
              { z with tasks := z.tasks ++ [⟨mine.nextTask, s.origin, s.ctx.resolve r, some q⟩]
                       nextTask := z.nextTask + 1 }).done 4 [a])))) ∧
      (¬ legal ∨ ¬ tiles → exec (.ttask a) s = illegal)) ∧
    (∀ r ks, s.operands [a, b] [] [] = .ok [x, y] → s.readRecord x = .ok (r, ks) →
      (s.ctx.rx 5).extractLsb' 12 52 = 0 → recordOk r = true → (nthD 0 r 4).getLsbD 35 = false →
      (nthD 0 r 4).extractLsb' 52 4 = 0 → tiles →
      mine.groups.length < 4 → room → exec (.tgroup a b) s =
        .next ((((s.correctUnits ks).mapCtx fun c => c.launch .tile false none).mapFloe s.myFloe fun z =>
          { z with groups := z.groups ++ [⟨mine.nextTask, s.origin, s.ctx.resolve r, y,
                     ((s.ctx.rx 5).extractLsb' 0 12).toNat + 1, 0, 0, false⟩]
                   nextTask := z.nextTask + 1 }).done 4 [a, b])) ∧
    (∀ r ks, s.operands [a, b] [] [] = .ok [x, y] → s.readRecord x = .ok (r, ks) →
      let legal := recordOk r = true ∧ (nthD 0 r 4).getLsbD 35 = false ∧ (nthD 0 r 4).extractLsb' 52 4 = 0
      ((s.ctx.rx 5).extractLsb' 12 52 = 0 → legal → tiles → 4 ≤ mine.groups.length →
        exec (.tgroup a b) s = .next (s.block { kind := 2 })) ∧
      ((s.ctx.rx 5).extractLsb' 12 52 ≠ 0 ∨ ¬ legal ∨ ¬ tiles → exec (.tgroup a b) s = illegal)) ∧
    (∀ t tile, (s.floe f).ffault = 0 → (s.floe f).tasks.find? (s.floe f).taskReady = some t →
      s.freeTile f = some (c, tile) →
      let d4 := nthD 0 t.record 4
      let sem : BitVec 6 := d4.extractLsb' 29 6
      exec (.tileTaskIssue f) s = .next ((s.mapFloe f fun z =>
        { z with tasks := z.tasks.erase t
                 fsems := if d4.getLsbD 35 then z.fsems.set sem.toNat (z.fsems[sem.toNat] - 1) else z.fsems }).startRun f
          (taskRun t c tile))) ∧
    (∀ r, (s.floe f).runs.find? (fun r => r.id = n) = some r → r.ended = true → r.walk = none →
      let u := s.mapFloe f fun z => { z with runs := z.runs.filter fun r => r.id != n }
      exec (.tileTaskFinish f n) s =
        .next ((match r.dsem with | some g => u.postFsem f g 1 | none => u).finishOp r.org none)) ∧
    (∀ w v t, (s.floe f).ffault = 0 → (s.floe f).groups.find? (fun w => w.id = n) = some w → w.stopped = false →
      w.at_ < w.count →
      let va := w.array + BitVec.ofNat 64 (64 * w.at_)
      let r := (List.range 8).map fun i => BitVec.ofNat 64 (v / 2 ^ (64 * i))
      let fmt : BitVec 2 := (nthD 0 w.tmpl 4).extractLsb' 46 2
      va.toNat % 64 = 0 → s.engRead w.org.core va 64 0 = .ok v t →
      (groupDepth fmt r = none → exec (.groupWalkTileIssue f n) s = .next (t.stopWalk f w (copyErr va 0))) ∧
      (groupDepth fmt r ≠ none →
        (nthD 0 r 3).extractLsb' 32 32 = 0 ∨ (nthD 0 r 3).extractLsb' 0 32 = 0 ∨ (nthD 0 r 4).extractLsb' 32 32 = 0 →
        exec (.groupWalkTileIssue f n) s =
        .next ((t.walkTo f w (w.at_ + 1) 0).walkDone f w.id)) ∧
      (∀ k, groupDepth fmt r = some k → (nthD 0 r 3).extractLsb' 32 32 ≠ 0 → (nthD 0 r 3).extractLsb' 0 32 ≠ 0 →
        (nthD 0 r 4).extractLsb' 32 32 ≠ 0 →
        let side := tileSide fmt
        let across := (((nthD 0 r 3).extractLsb' 0 32).toNat + side - 1) / side
        let down := (((nthD 0 r 3).extractLsb' 32 32).toNat + side - 1) / side
        (t.freeTile f = none → exec (.groupWalkTileIssue f n) s = .next s) ∧
        (∀ q tile, t.freeTile f = some (q, tile) →
          let run := groupRun w (t.floe f).nextTask r k (w.tile / across) (w.tile % across) q tile
          let u := (t.mapFloe f fun z => { z with nextTask := z.nextTask + 1 }).startRun f run
          exec (.groupWalkTileIssue f n) s =
            .next (if w.tile + 1 < down * across then u.walkTo f w w.at_ (w.tile + 1) else u.walkTo f w (w.at_ + 1) 0)))) ∧
    (s.operands [] [d] [] = .ok [] → s.plain [d] →
      let k := s.cur.ctx
      let size := 2 ^ m.toNat
      let first : CoreId := BitVec.ofNat 11 (s.cur.core.toNat / size * size)
      let g : Gang := ⟨size, first, s.cur.core⟩
      let others := ((List.range size).map fun i => first + BitVec.ofNat 11 i).filter fun c => c != s.cur.core
      let usable := fun (c : CoreId) => ((s.core c).ctx k).life = .free ∧ (s.core c).part = s.me.part ∧
        (s.core c).frameFree = true
      (k = 0 ∨ k = 15 ∨ s.ctx.gang.isSome → exec (.gang d m) s = illegal) ∧
      (k ≠ 0 → k ≠ 15 → s.ctx.gang = none → (∀ c ∈ others, usable c) → ∃ u, exec (.gang d m) s = .next u ∧
        u.mem = s.mem ∧ u.ctx.gang = some g ∧ u.ctx.rg d = (if d = 0 then 0 else BitVec.ofNat 64 size) ∧
        ∀ c ∈ others, (u.ctxAt c k).gang = some g ∧ (u.ctxAt c k).life = .runnable ∧ (u.ctxAt c k).pc = u.ctx.pc ∧
          (u.ctxAt c k).oddPc = u.ctx.oddPc ∧ (u.ctxAt c k).g = u.ctx.g ∧ (u.ctxAt c k).v = u.ctx.v ∧
          (u.ctxAt c k).p = u.ctx.p ∧ (u.ctxAt c k).q = u.ctx.q ∧ (u.ctxAt c k).x = u.ctx.x ∧ (u.ctxAt c k).lc = u.ctx.lc ∧
          (u.ctxAt c k).lb = u.ctx.lb ∧ (u.ctxAt c k).le = u.ctx.le ∧ (u.ctxAt c k).fst = u.ctx.fst ∧
          (u.ctxAt c k).slim = u.ctx.slim ∧ (u.ctxAt c k).tvec = u.ctx.tvec) ∧
      (k ≠ 0 → k ≠ 15 → s.ctx.gang = none → (∃ c ∈ others, ((s.core c).ctx k).life ≠ .free) →
        exec (.gang d m) s = .next ((s.setG d 0).complete 4)) ∧
      (k ≠ 0 → k ≠ 15 → s.ctx.gang = none → (∃ c ∈ others, (s.core c).frameFree = false) →
        (∀ c ∈ others, ((s.core c).ctx k).life = .free ∧ (s.core c).part = s.me.part ∧
          ((s.core c).frameFree = true ∨ (s.core c).victim ≠ none ∨ (s.core c).spill ≠ none)) →
        ∃ u : State, exec (.gang d m) s = .next (u.block { kind := 5 }) ∧ u.ctx = s.ctx ∧ u.mem = s.mem ∧
          ∀ c ∈ others, ∀ v, (s.core c).frameFree = false → (s.core c).spill = none → (s.core c).victim = some v →
            (u.core c).spill = some (v, k))) ∧
    (∀ g, s.ctx.gang = some g →
      let members := (List.range g.n).map fun i => g.first + BitVec.ofNat 11 i
      s.cur.core ∈ members → ∃ u, exec .disband s = .next u ∧ u.ctx.life = .blocked ∧ u.mem = s.mem ∧
        ∀ c ∈ members, (u.ctxAt c s.cur.ctx).gang = none ∧ (u.ctxAt c s.cur.ctx).leaving = some g) ∧
    (∀ g, s.ctx.gang = none → s.ctx.leaving = some g → g.leader = s.cur.core →
      (∀ i, i < g.n → g.first + BitVec.ofNat 11 i ≠ g.leader →
        (s.ctxAt (g.first + BitVec.ofNat 11 i) s.cur.ctx).leaving ≠ some g) →
      exec .disband s = .next ((s.mapCtx fun c => { c with leaving := none }).complete 4))

/-! ### Reductions -/

/-- SMARK, RJOIN, RPUT, RGET, RCORR, RTOPK and the reduction events (R363 to R380), with what a node admits (`takeIn`), the value it
forms (`nodeValue`; `tree` is described in VectorReductions), and the packet it forwards (`nodePacket`, R365 to R373). The instructions
on a channel wait for an engine that holds bytes of its slots (R267, R284). Which packets are dropped and counted, the deadline's moment,
how terms with common bits of two children are told apart, and the header and length of a record in a slot are the model's choices
(log 31, 42, 43, 44). -/
def Obligations.Reductions : Prop :=
  ∀ (s : State) (d a b : Reg) (x y : W) (e : EpId) (p : Nat) (pk : Packet) (f : FloeId) (c : CoreId) (n : BitVec 12),
    let ep := s.ep e
    let me := s.cur.core
    let illegal : Host.Outcome State Fault Refusal := .next (s.trap { cause := 0x02 })
    let use := s.ctx.pend = [] ∧ ep.owner = s.cur.ctx ∧ ep.st = .open ∧ ep.proto.toNat = 7 ∧ 1 ≤ ep.slotu.toNat
    let free := s.slotsHeld me e false = false
    let room := free ∧ ep.state.toNat < Nat.min 4 ep.slots ∧ s.usedSlots me e + ep.reservedSlots < ep.slots
    let advanced := fun (t : State) => (t.ep e).sseq = ep.sseq + 1 ∧ (t.ep e).state = ep.state + 1 ∧
      t.mem = s.mem ∧ t.ctx.g = s.ctx.g
    let sends := fun (t : State) (ptype : Nat) (epoch : BitVec 16) (v : RedVal) => ∃ q ∈ t.net, ∃ k, q.body = .red k ∧
      k.stream = ep.redStream ∧ k.ptype = ptype ∧ k.epoch = epoch ∧ k.val = v
    (s.operands [a] [] [] = .ok [x] →
      (x.toNat < 4096 → exec (.smark a) s =
        .next (({ s with net := s.net ++ [streamPacket s.myFloe 1 1 (.marker (x.truncate 12)) me] } : State).done 4 [a])) ∧
      (4096 ≤ x.toNat → exec (.smark a) s = illegal) ∧
      (use → ep.redFmt ≠ 3 → room → ∃ t : State, exec (.rput a e) s = .next (t.done 4 [a]) ∧ advanced t ∧
        sends t 0 ep.sseq (ep.redScalar x)) ∧
      (use → ep.redFmt ≠ 3 → free → Nat.min 4 ep.slots ≤ ep.state.toNat ∨ ep.slots ≤ s.usedSlots me e + ep.reservedSlots →
        exec (.rput a e) s = .next (s.block { kind := 2, ep := e.toNat })) ∧
      (use → ep.redFmt ≠ 3 → ¬ free → exec (.rput a e) s = .next (s.block { kind := 5 })) ∧
      (let x1 := s.ctx.rx 1
       let field := fun (w : W) lo n => (w.extractLsb' lo n).toNat
       let ent := s.entry s.myFloe (x.extractLsb' 52 12)
       let index := field x 40 12
       let words := field x1 37 27 = 0 ∧ 1 ≤ field x1 28 9 ∧ field x1 28 9 ≤ 257 ∧ field (s.ctx.rx 2) 0 12 = 0
       (¬ words → exec (.rjoin a e) s = illegal) ∧
       (words → s.ctx.pend = [] → ep.owner = s.cur.ctx → field x 0 22 = 0 →
         (ep.st = .lost → exec (.rjoin a e) s = .next (s.trap { cause := 0x14, detail := e.toNat })) ∧
         (ep.st ≠ .unbound → ep.st ≠ .lost → exec (.rjoin a e) s =
           .next (s.trap { cause := 0x06, detail := e.toNat + 64 * 11 })) ∧
         (ep.st = .unbound → (field x1 28 9 < 34 ∨ 3 < field x1 22 6) → exec (.rjoin a e) s =
           .next (s.trap { cause := 0x06, detail := e.toNat + 64 * 10 }))) ∧
       (s.ctx.pend = [] → ep.owner = s.cur.ctx → field x 0 22 = 0 → field x1 37 27 = 0 → field (s.ctx.rx 2) 0 12 = 0 →
       ep.st = .unbound → 34 ≤ field x1 28 9 → field x1 28 9 ≤ 257 → field x1 22 6 ≤ 3 →
       s.me.bufferFits ⟨7, 0, field x1 0 22, field x1 28 9, field x1 22 6⟩ = true → entV ent.d0 = true →
       (entIn ent.d0).testBit 0 = true →
       (entRed ent = true → entLo ent ≤ index ∧ index ≤ entHi ent ∧ entFmt ent = field x 38 2) →
       let held := (s.mapEp e fun q => q.bindTo ⟨7, 0, field x1 0 22, field x1 28 9, field x1 22 6⟩ .open).slotsHeld me e true
       (held = true → exec (.rjoin a e) s = .next (s.block { kind := 5 })) ∧
       (held = false → ∃ t : State, exec (.rjoin a e) s = .next (t.done 4 [a]) ∧ (t.ep e).st = .open ∧ (t.ep e).proto = 7 ∧
         (t.ep e).gen = ep.gen + 1 ∧ (t.ep e).sseq = x.extractLsb' 22 16 ∧ (t.ep e).owner = ep.owner ∧
         t.ctx.g = s.ctx.g)))) ∧
    (s.operands [a, b] [] [] = .ok [x, y] →
      (use → ep.redFmt ≠ 3 → y.extractLsb' 12 36 = 0 → ∃ t : State, exec (.rcorr a b e) s = .next (t.done 4 [a, b]) ∧
        t.cores = s.cores ∧ t.mem = s.mem ∧ sends t 1 (y.extractLsb' 48 16) (ep.redScalar x)) ∧
      (use → ep.redFmt = 3 → y.toNat ≠ 0 → y.toNat ≤ entKm1 (s.entry s.myFloe ep.redStream) + 1 →
        ∀ ks, s.accessAll 8 { r := true } (dwordsAt x y.toNat) = .ok ks → topOk (ks.map s.rd8) = true → room →
        ∃ t : State, exec (.rtopk a b e) s = .next (t.done 4 [a, b]) ∧ advanced t ∧
          sends t 0 ep.sseq (.top (ks.map s.rd8))) ∧
      (use → ep.redFmt = 3 → y = 0 → exec (.rtopk a b e) s = illegal)) ∧
    (s.operands [0] [d] [] = .ok [x] → use →
      let h := s.slotHeader me e 0
      let k := ep.slotKey me ep.head.toNat + 16
      (s.heldAt me (k - 16) 16 true = true → exec (.rget d 0 e) s = .next (s.block { kind := 5 })) ∧
      (s.heldAt me (k - 16) 16 true = false →
      (hdrF h = false → exec (.rget d 0 e) s = .next (s.block { kind := 1, ep := e.toNat })) ∧
      (hdrF h = true → s.heldAt me k (hdrLen h) false = true → exec (.rget d 0 e) s = .next (s.block { kind := 5 })) ∧
      (hdrF h = true → s.heldAt me k (hdrLen h) false = false → (s.rd8 k).extractLsb' 24 5 = 0 → s.plain [d] →
        ∃ t, exec (.rget d 0 e) s = .next t ∧
        t.ctx.rg d = (if d = 0 then 0 else s.rd8 (k + 8)) ∧ (∀ r, r ≠ d → t.ctx.rg r = s.ctx.rg r) ∧
        (t.ep e).head.toNat = (ep.head.toNat + 1) % ep.slots))) ∧
    (∀ port : Nat, s.streamHead p = some (f, port, pk) → ∀ k, pk.body = .red k →
      let ent := s.entryFor f k.stream pk
      let t := s.takePacket p
      let dropped : Host.Outcome State Fault Refusal := .next (t.rdropOne f)
      let isRes := k.ptype = 4 ∨ k.ptype = 5
      let into := (entIn ent.d0).testBit port = true
      let node := s.node f k.stream
      let fresh := fun (u : State) =>
        (u.setNode f k.stream { fwd := some false, epoch := k.epoch }).nodeTake f k.stream ent pk port k
      let ahead := (k.epoch - node.epoch).toNat
      (entV ent.d0 = false → exec (.reductionPacketArrival p) s = dropped) ∧
      (entV ent.d0 = true → isRes →
        ((entOut ent.d0).testBit port = false → exec (.reductionPacketArrival p) s = dropped) ∧
        ((entOut ent.d0).testBit port = true →
          exec (.reductionPacketArrival p) s = .next (s.direct p f port pk (entIn ent.d0)))) ∧
      (6 ≤ k.ptype ∨ (¬ isRes ∧ ¬ into) → exec (.reductionPacketArrival p) s = dropped) ∧
      (entV ent.d0 = true → k.ptype < 4 → into → ent.marks.getLsbD port = true →
        exec (.reductionPacketArrival p) s = .next s) ∧
      (entV ent.d0 = true → k.ptype < 4 → into → ent.marks.getLsbD port = false →
        (entRed ent = false → exec (.reductionPacketArrival p) s = .next (s.direct p f port
          { pk with body := .red { k with set := Nat.max k.set (entCur ent.d0) } } (entOut ent.d0))) ∧
        (entRed ent = true →
          (node.fwd = none → exec (.reductionPacketArrival p) s = .next (fresh t)) ∧
          (node.fwd ≠ none → ahead = 0 → exec (.reductionPacketArrival p) s =
            .next (t.nodeTake f k.stream ent pk port k)) ∧
          (node.fwd ≠ none → 32768 ≤ ahead → exec (.reductionPacketArrival p) s = .next (t.mapFloe f fun z =>
            { z with rstale := BitVec.ofNat 32 (satAdd z.rstale.toNat 1 32) })) ∧
          (node.fwd = some true → 1 ≤ ahead → ahead < 32768 → exec (.reductionPacketArrival p) s = .next (fresh t)) ∧
          (node.fwd = some false → 1 ≤ ahead → ahead < 32768 →
            exec (.reductionPacketArrival p) s = .next (fresh (t.nodeForward f k.stream ent true)))))) ∧
    (let ent := s.entry f n
     let open_ := entV ent.d0 = true ∧ entRed ent = true ∧ entDl ent ≠ 0 ∧ (s.node f n).fwd = some false
     (open_ → exec (.reductionDeadline f n) s = .next (s.nodeForward f n ent true)) ∧
     (¬ open_ → exec (.reductionDeadline f n) s = .next s)) ∧
    (s.arrived p = some pk → ∀ k gen,
      let t := s.takePacket p
      let joined := fun (c : CoreId) (e : EpId) => (s.epAt c e).isRed = true ∧ (s.epAt c e).redStream = k.stream
      (pk.dst = .core c → pk.body = .buddy e gen k →
        ((s.epAt c e).gen = gen → (s.epAt c e).isRed = true → s.slotsHeld c e true = true →
          exec (.reductionResultArrival p) s = .next (s.park p)) ∧
        ((s.epAt c e).gen = gen → (s.epAt c e).isRed = true → s.slotsHeld c e true = false →
          exec (.reductionResultArrival p) s = .next (t.placeRed c e { k with ptype := 6 })) ∧
        ((s.epAt c e).gen ≠ gen ∨ (s.epAt c e).isRed = false → exec (.reductionResultArrival p) s = .next t)) ∧
      (pk.dst = .floe f → pk.body = .redResult k →
        ((∀ c ∈ coresOf f, ∀ e : EpId, ¬ joined c e) → exec (.reductionResultArrival p) s = .next t) ∧
        (c ∈ coresOf f → joined c e → s.slotsHeld c e true = true → exec (.reductionResultArrival p) s = .next (s.park p)) ∧
        (c ∈ coresOf f → joined c e → s.slotsHeld c e true = false →
          (∀ c' ∈ coresOf f, ∀ e' : EpId, joined c' e' → c' = c ∧ e' = e) →
          let ep := s.epAt c e
          let used := s.usedSlots c e
          let first := k.ptype = 4 ∧ k.epoch ∈ ep.outEpochs ∧ k.epoch ∉ ep.inSlots
          let full := ep.slots ≤ used ∨ (¬ first ∧ ep.slots ≤ used + ep.reservedSlots)
          (full → exec (.reductionResultArrival p) s = .next (t.rdropOne (floeOf c))) ∧
          (¬ full → exec (.reductionResultArrival p) s =
            .next (((t.fillSlot c e (ep.slotOf used) 4 k.ptype (ep.rseq + BitVec.ofNat 16 used)
              ((redRecord k).take (ep.slotu.toNat * 16 - 16))).mapEpAt c e fun q =>
                if k.ptype = 4 then { q with inSlots := k.epoch :: q.inSlots } else q).msgEvent c e true))))) ∧
    (∀ (u : State) (ent : StreamEnt) (port : Nat) (k : RedPkt),
      let x := u.node f n
      let inside := entLo ent ≤ k.idx ∧ k.idx ≤ entHi ent
      let foreign := k.ptype = 1 ∨ (k.ptype = 0 ∧ u.belongs f n k.idx port pk = false)
      let up := if entOut ent.d0 = 0 then u.rdropOne f
        else u.formPacket f { streamPacket f (redLen k) 2 (.red { k with set := Nat.max k.set (entCur ent.d0) }) pk.src with
          fin := pk.fin } (entOut ent.d0)
      let took := u.nodeTake f n ent pk port k
      let dup := u.mapFloe f fun z => { z with rdup := BitVec.ofNat 32 (satAdd z.rdup.toNat 1 32) }
      let keeps := fun (terms : List Term) =>
        let v := u.setNode f n { x with terms := terms }
        (x.fwd = some true → took = v.nodeForward f n ent false) ∧
        (x.fwd ≠ some true → nodeFull ent terms = true → took = v.nodeForward f n ent true) ∧
        (x.fwd ≠ some true → nodeFull ent terms = false → took = v)
      let bits := k.bits * 2 ^ k.idx
      let disjoint := fun (t : Term) => t.bits &&& bits = 0
      (¬ inside → took = up) ∧
      (inside → k.ptype < 2 →
        ((∃ t ∈ x.terms, t.bits.testBit k.idx = true) → took = dup) ∧
        ((∀ t ∈ x.terms, t.bits.testBit k.idx = false) →
          (64 ≤ x.terms.length → took = up) ∧
          (x.terms.length < 64 →
            (foreign → keeps (x.terms ++ [⟨k.idx, 2 ^ k.idx, termVal ent k, k.exc, k.rsh, k.set, true, false⟩])) ∧
            (¬ foreign → keeps (x.terms ++ [⟨k.idx, 2 ^ k.idx, termVal ent k, k.exc, k.rsh, k.set, false, false⟩]))))) ∧
      (inside → 2 ≤ k.ptype → k.ptype < 4 →
        let new : Term := ⟨k.idx, bits, k.val, k.exc, k.rsh, k.set, false, true⟩
        ((∀ t ∈ x.terms, t.child = true → t.pos ≠ k.idx ∧ disjoint t) →
          let kept := x.terms.filter fun t => t.bits &&& bits == 0
          (64 ≤ kept.length → took = up) ∧ (kept.length < 64 → keeps (kept ++ [new]))) ∧
        ((∃ t ∈ x.terms, t.child = true ∧ (t.pos = k.idx ∨ ¬ disjoint t) ∧
            (t.bits = bits ∨ ∃ i, t.bits.testBit i = true ∧ bits.testBit i = false)) → took = dup) ∧
        (∀ t ∈ x.terms, t.child = true → t.pos = k.idx → t.bits ≠ bits → (∀ i, t.bits.testBit i = true → bits.testBit i = true) →
          (∀ t' ∈ x.terms, t' = t ∨ t'.child = false ∨ (t'.pos ≠ k.idx ∧ disjoint t')) →
          let kept := x.terms.filter fun t' => t' != t && t'.bits &&& bits == 0
          (64 ≤ kept.length → took = up) ∧ (kept.length < 64 → keeps (kept ++ [new])))) ∧
      (nodeFull ent x.terms = true ↔ ∀ i, entLo ent ≤ i → i ≤ entHi ent → ∃ t ∈ x.terms, t.bits.testBit i = true) ∧
      (∀ first : Bool,
        let root := entOut ent.d0 = 0
        let q := nodePacket n ent x first
        let v := nodeValue ent x.terms
        let F := fpFmt (entFmt ent)
        let rounds := root ∧ entOp ent = 1 ∧ entFmt ent ≠ 3
        let rounded := accRound F (!x.terms.isEmpty) v.1
        u.nodeForward f n ent first = (u.setNode f n { x with
          fwd := some true, seq := q.seq, used := Nat.max x.used (entCur ent.d0) }).formPacket f
            (streamPacket f (redLen q) 2 (.red q)) (if entOut ent.d0 = 0 then entIn ent.d0 else entOut ent.d0) ∧
        q.stream = n ∧ q.epoch = x.epoch ∧ q.idx = entLo ent ∧ q.fmt = entFmt ent ∧ q.op = entOp ent ∧ q.km1 = entKm1 ent ∧
        (root → q.ptype = if first then 4 else 5) ∧ (¬ root → q.ptype = if first then 2 else 3) ∧
        (root → first = false → q.seq = x.seq + 1) ∧ (¬ root ∨ first = true → q.seq = 0) ∧
        (q.rsh = true ↔ entCur ent.d0 ≠ 0 ∨ x.used ≠ 0 ∨ ∃ t ∈ x.terms, t.foreign = true ∨ t.rsh = true) ∧
        (entCur ent.d0 ≤ q.set ∧ x.used ≤ q.set ∧ (∀ t ∈ x.terms, t.set ≤ q.set) ∧
          (q.set = entCur ent.d0 ∨ q.set = x.used ∨ ∃ t ∈ x.terms, q.set = t.set)) ∧
        (∀ j, q.bits.testBit j = true ↔ ∃ t ∈ x.terms, t.bits.testBit (entLo ent + j) = true) ∧
        q.nbf = (entHi ent - entLo ent + 512) / 512 ∧
        (rounds → q.val = .scalar (BitVec.ofNat 64 rounded.1) ∧ q.exc = v.2 ||| rounded.2) ∧
        (¬ rounds → q.val = v.1 ∧ q.exc = v.2))) ∧
    (∀ (ent : StreamEnt) (terms : List Term),
      let F := fpFmt (entFmt ent)
      let lo := entLo ent
      let n := entHi ent + 1 - lo
      let v := nodeValue ent terms
      let raised := terms.foldl (fun x t => x ||| t.exc) 0
      (entFmt ent ≠ 3 → entOp ent ≠ 1 → (terms.map fun t => t.pos).Nodup →
        let r := tree (redOp ent) ((List.range n).map fun i => (terms.find? fun t => t.pos == lo + i).map fun t => (i, scalarOf t.val))
        v = (.scalar (BitVec.ofNat 64 r.1), raised ||| r.2.1.foldl (fun x o => x ||| o.f) 0)) ∧
      (∀ a b : Nat, a < 2 ^ 64 → b < 2 ^ 64 →
        let below := (BitVec.ofNat 64 a).slt (BitVec.ofNat 64 b)
        (entFmt ent = 2 → entOp ent = 0 → redOp ent a b = ⟨(a + b) % 2 ^ 64, 0, false⟩) ∧
        (entFmt ent = 2 → entOp ent = 2 → redOp ent a b = ⟨if below then a else b, 0, false⟩) ∧
        (entFmt ent = 2 → entOp ent = 3 → redOp ent a b = ⟨if below then b else a, 0, false⟩) ∧
        (entFmt ent < 2 → entOp ent = 0 → redOp ent a b = F.add 0 a b) ∧
        (entFmt ent < 2 → entOp ent = 2 → redOp ent a b = F.minmax false false a b) ∧
        (entFmt ent < 2 → entOp ent = 3 → redOp ent a b = F.minmax true false a b)) ∧
      (∀ (x : Term → Int) (nz snan nan ninf pinf : Term → Bool), entFmt ent ≠ 3 → entOp ent = 1 →
        (∀ t ∈ terms, t.val = .exact (x t) (nz t) (snan t) (nan t) (ninf t) (pinf t)) →
        v = (.exact (terms.map x).sum (terms.any nz) (terms.any snan) (terms.any nan) (terms.any ninf) (terms.any pinf), raised)) ∧
      (∀ k : RedPkt, k.ptype < 2 → entOp ent = 1 → entFmt ent ≠ 3 → ∀ w, k.val = .scalar w →
        (∀ sg m g, F.decode w.toNat = .fin sg m g →
          termVal ent k = .exact (scaled sg m g 1074) (m != 0 || !sg) false false false false) ∧
        (∀ sg, F.decode w.toNat = .inf sg → termVal ent k = .exact 0 true false false sg (!sg)) ∧
        (∀ sg fr g, F.decode w.toNat = .nan sg fr g →
          termVal ent k = .exact 0 true (Val.nan sg fr g).isSig true false false)) ∧
      (∀ (any nz snan nan ninf pinf : Bool) (x : Int), entFmt ent < 2 →
        let r := accRound F any (.exact x nz snan nan ninf pinf)
        (nan = true → r = (F.dnan, if snan then 16 else 0)) ∧
        (nan = false → pinf = true → ninf = true → r = (F.dnan, 16)) ∧
        (nan = false → pinf = true → ninf = false → r = (F.inf false, 0)) ∧
        (nan = false → pinf = false → ninf = true → r = (F.inf true, 0)) ∧
        (nan = false → pinf = false → ninf = false →
          (x ≠ 0 → ∃ slow, F.RoundsOnce 0 (decide (x < 0)) false 1075 (fun t => Ord.compare t (4 * x.natAbs)) ⟨r.1, r.2, slow⟩) ∧
          (x = 0 → any = true → nz = false → r = (F.signed true 0, 0)) ∧
          (x = 0 → any = false ∨ nz = true → r = (0, 0)))) ∧
      (entFmt ent = 3 → (∀ t ∈ terms, ∀ w ∈ topEntries t.val, (f32.decode (w.extractLsb' 0 32).toNat).isNan = false) →
        ∃ l rest, v = (.top l, raised) ∧ (l ++ rest).Perm (terms.flatMap fun t => topEntries t.val) ∧
          (l ++ rest).Pairwise (fun a b => topBefore b a = false) ∧
          l.length = Nat.min (entKm1 ent + 1) (terms.flatMap fun t => topEntries t.val).length) ∧
      (∀ (a b : W) (lt eq : Bool),
        let x := f32.decode (a.extractLsb' 0 32).toNat
        let y := f32.decode (b.extractLsb' 0 32).toNat
        let idA := (a.extractLsb' 32 32).toNat
        let idB := (b.extractLsb' 32 32).toNat
        x.Ordered y lt eq →
        topBefore a b = ((!lt && !eq) || (eq && (decide (idA < idB) || (idA == idB && !x.sign && y.sign))))))

/-! ### The die network -/

/-- PACKET_HEAD_GRANT, STREAM_MARKER_ARRIVAL and the router faults (R353 to R364). Distances are hops on the torus of
8 by 8 routers. `behind` is an earlier packet of the same place that is to leave by the same output, `turn` R359's turns, `hop` the lane
of the next hop, `awaits` the flits of a packet still to come by the fabric. That a packet moves flit by flit as the agenda says, where
turns begin, and which stream packets are dropped are the model's choices (log 40, 42, 46), as is when a notice leaves its end (log 9). -/
def Obligations.NetworkRoutes : Prop :=
  ∀ (s : State) (p : Nat) (pk : Packet) (r : FloeId) (port : Nat) (lane : Lane),
    (s.net[p]? = some pk → pk.place = .queued r port → s.noticeGoes pk = false → exec (.packetHeadGrant p) s = .next s) ∧
    (s.net[p]? = some pk → pk.place = .queued r port → s.noticeGoes pk = true →
      let near := pk.kind = 0 ∧ port = 0 ∧ pk.dmod = s.address ∧ destFloe pk.dst = r ∧ destPort pk.dst = 0
      let whole := pk.len ≤ 12
      (s.behind p pk 0 = true → exec (.packetHeadGrant p) s = .next s) ∧
      (s.behind p pk 0 = false →
        (near → exec (.packetHeadGrant p) s = .next (s.moveOn p { pk with place := .arrived, here := pk.len, rest := 0 })) ∧
        (¬ near → whole → pk.len ≤ s.laneFree r port .shared → s.owned r port .shared = false →
          exec (.packetHeadGrant p) s =
            .next (s.moveOn p { pk with place := .standing r port .shared, here := pk.len, rest := 0 })) ∧
        (¬ near → whole → s.laneFree r port .shared < pk.len ∨ s.owned r port .shared = true →
          exec (.packetHeadGrant p) s = .next s) ∧
        (¬ near → ¬ whole → s.laneFree r port (.escape false) = 0 ∨ s.owned r port (.escape false) = true →
          exec (.packetHeadGrant p) s = .next s) ∧
        (¬ near → ¬ whole → 1 ≤ s.laneFree r port (.escape false) → s.owned r port (.escape false) = false →
          exec (.packetHeadGrant p) s = .next (s.moveOn p
            { pk with place := .standing r port (.escape false), here := 1, rest := pk.rest - 1, esc := true })))) ∧
    (s.net[p]? = some pk → pk.place = .formed r → exec (.packetHeadGrant p) s = .next (s.sendPorts p r none)) ∧
    (s.net[p]? = some pk → pk.place = .leaving r port lane →
      let stuck := port = 5 ∧ pk.awaits = none ∧ ∃ n, pk.via = some n ∧ s.portDown n = true ∧ s.portDown (partner n) = true
      (stuck → s.bound pk = none → exec (.packetHeadGrant p) s = .next ((s.takePacket p).fdropOne)) ∧
      (stuck → ∀ pk', s.bound pk = some pk' → exec (.packetHeadGrant p) s =
        .next (s.moveOn p { pk' with place := .queued r 5, here := 0, behind := [], rest := pk.len })) ∧
      (¬ stuck → pk.here < pk.len → exec (.packetHeadGrant p) s = .next s) ∧
      (¬ stuck → pk.len ≤ pk.here → pk.via = none → exec (.packetHeadGrant p) s =
        .next (s.moveOn p { pk with place := .arrived })) ∧
      (¬ stuck → pk.len ≤ pk.here → ∀ n, pk.via = some n → exec (.packetHeadGrant p) s =
        .next (((s.takePacket p).leave n pk).getD (s.moveOn p pk)))) ∧
    (s.net[p]? = some pk → pk.place = .standing r port lane →
      let home := { pk with via := none }
      let target := destFloe pk.dst
      let gone := trimBehind pk.rest (⟨r, port, lane, pk.here - 1⟩ :: pk.behind)
      let out0 := destPort pk.dst
      let lastLane := exitLane pk
      let leaves := { home with place := .leaving r out0 lastLane, here := 1, behind := gone }
      (pk.kind = 0 → lastLane = if pk.adapt = true ∧ pk.esc = false then .shared else .escape pk.vc) ∧
      (3 ≤ pk.kind → pk.awaits = none → exec (.packetHeadGrant p) s = .next ((s.takePacket p).rdropOne r)) ∧
      (3 ≤ pk.kind → pk.awaits ≠ none → exec (.packetHeadGrant p) s = .next s) ∧
      (pk.kind = 1 ∨ pk.kind = 2 →
        (pk.mask = 0 → exec (.packetHeadGrant p) s = .next s) ∧
        (pk.mask ≠ 0 → exec (.packetHeadGrant p) s = .next (s.sendPorts p r (some port)))) ∧
      (pk.kind = 0 → pk.dmod ≠ s.address → s.noModule pk = true → pk.awaits = none →
        exec (.packetHeadGrant p) s = .next ((s.takePacket p).fdropOne)) ∧
      (pk.kind = 0 → pk.dmod = s.address →
        (target = r → out0 = 0 ∨ (out0 = 5 ∧ linkEnd r 5 = none) →
          (s.ownedOut r out0 lastLane = true → exec (.packetHeadGrant p) s = .next s) ∧
          (s.ownedOut r out0 lastLane = false → s.behind p home out0 = false → s.turn r out0 port = true →
            (pk.len ≤ 1 → exec (.packetHeadGrant p) s =
              .next ((s.moveOn p { leaves with place := .arrived }).grant r out0 port)) ∧
            (1 < pk.len → exec (.packetHeadGrant p) s = .next ((s.moveOn p leaves).grant r out0 port)))) ∧
        (∀ out l r' q, target ≠ r → dieOf target = dieOf r → s.hop r port home (ways r target) = (out, l, true) →
          linkEnd r out = some (r', q) → out < 5 → s.behind p home out = false → s.turn r out port = true →
          exec (.packetHeadGrant p) s = .next ((s.moveOn p { home with
            vc := classOut r port out pk.vc, esc := pk.esc || l != .shared, place := .standing r' q l, here := 1
            behind := gone }).grant r out port)) ∧
        (∀ out, s.admits r port home = some out → s.behind p home out = true ∨ s.turn r out port = false →
          exec (.packetHeadGrant p) s = .next s) ∧
        (∀ out l, target ≠ r → dieOf target = dieOf r → s.hop r port home (ways r target) = (out, l, false) →
          exec (.packetHeadGrant p) s = .next s))) ∧
    (let hops := fun (a b : FloeId) =>
       let dist := fun (m n : Nat) => Nat.min ((n + 8 - m) % 8) ((m + 8 - n) % 8)
       dist (colOf a) (colOf b) + dist (rowOf a) (rowOf b)
     ∀ (t : FloeId) (out q : Nat) (r' : FloeId), dieOf t = dieOf r → out ∈ ways r t → linkEnd r out = some (r', q) →
       dieOf r' = dieOf t ∧ hops r' t + 1 = hops r t) ∧
    (∀ n, s.net[p]? = some pk → pk.place = .standing r 0 lane → pk.body = .marker n → (s.entry r n).marks.getLsbD 0 = true →
      exec (.streamMarkerArrival p) s = .next (s.takePacket p)) ∧
    (s.streamHead p = some (r, port, pk) → s.lateMarker p = none → ∀ n, pk.body = .marker n →
      let ent := s.entryFor r n pk
      let inn := if entV ent.d0 then entIn ent.d0 else 0
      let marks := ent.marks ||| (1#6 <<< port)
      let t := s.takePacket p
      (inn.testBit port = false → exec (.streamMarkerArrival p) s = .next (t.rdropOne r)) ∧
      (inn.testBit port = true → ent.marks.getLsbD port = true → exec (.streamMarkerArrival p) s = .next s) ∧
      (inn.testBit port = true → ent.marks.getLsbD port = false →
        ((∃ i ∈ portsOf inn, marks.getLsbD i = false) →
          exec (.streamMarkerArrival p) s = .next (t.setEntry r n { s.entry r n with marks := marks })) ∧
        ((∀ i ∈ portsOf inn, marks.getLsbD i = true) →
          let u := (s.formedFirst r n p).1
          let p' := (s.formedFirst r n p).2
          exec (.streamMarkerArrival p) s = .next (((u.setEntry r n { s.entry r n with
            d0 := setField (s.entry r n).d0 61 2 ((entCur ent.d0 + 1) % (entNset ent.d0 + 1)), marks := 0 }).direct p' r port pk
              (entOut ent.d0)).absorbMarkers r n inn) ∧
          u.net[p']? = s.net[p]? ∧ u.net.Perm s.net ∧
          ∀ q : Packet, (q ∈ u.net.take p' ↔ q ∈ s.net.take p ∨ (q ∈ s.net ∧ q.place = .formed r ∧ streamOf q = some n))))) ∧
    (∀ (u : State) (inn : Nat) (n : BitVec 12),
      (inn.testBit 0 = false → u.absorbMarkers r n inn = u) ∧
      (inn.testBit 0 = true → ∀ q, q ∈ (u.absorbMarkers r n inn).net ↔
        q ∈ u.net ∧ ¬ (q.body = .marker n ∧ q.mask = 0 ∧ ∃ l, q.place = .standing r 0 l))) ∧
    (∀ n : BitVec 3, let link := n = 5 ∧ (linkDie r).isSome = true
      (link → exec (.linkUncorrectableError ⟨r, n⟩) s = .next (s.routerFault r true)) ∧
      (¬ link → exec (.linkUncorrectableError ⟨r, n⟩) s = .next (s.routerFault r false))) ∧
    (exec (.laneBlockedTimeout r) s = .next (s.routerFault r false) ∧ (s.routerFault r false).failed = true ∧
      (s.failed = false → (s.routerFault r false).mfault = mkW [(1, 63), (1, 56), (2, 48), ((coreAt r 0).toNat, 37)] ∧
        (s.routerFault r true).mfault = mkW [(1, 63), (1, 56), (3, 48), ((coreAt r 0).toNat, 37)]))

/-! ### The fabric -/

/-- The events of the fabric ports and the registers fid and flost (R437 to R449). A port that hears a frame is up; `railHome` is the
port whose rail the frame names, `resend` R440's retransmission, `pump` what the counts let go. When training ends, the counting of
transmissions on a partner, and the frames of a packet are the model's choices (log 30, 45, 46). -/
def Obligations.FabricPorts : Prop :=
  ∀ (s : State) (port : BitVec 5) (fr : Frame) (rail : Bool) (addr : BitVec 19) (ttl : BitVec 6) (v : W),
    let there := port.toNat < 20 ∧ (s.port port).st ≠ 0 ∧ (s.port port).st ≠ 3
    let up := s.mapPort port fun p => { p with st := 2 }
    let t := if s.portDown (partner port) = true ∧ (s.port (partner port)).moved = false then up.moveRail (partner port) else up
    let h := railHome port fr.rail
    let q := t.port h
    let pass := fun (u : State) => u.mapPort h fun p => p.acked fr.ack
    (¬ there → exec (.dataFrameArrival port fr) s = .next s ∧ exec (.nakArrival port fr) s = .next s ∧
      exec (.controlFrameArrival port fr) s = .next s ∧ exec (.resyncArrival port fr) s = .next s ∧
      exec (.resyncAnswerArrival port fr) s = .next s ∧ exec (.lostModuleFrameArrival port addr ttl) s = .next s) ∧
    (there →
      (fr.ftype = 0 → fr.crcOk = true → fr.seq = q.nextRx → exec (.dataFrameArrival port fr) s =
        .next ((fr.slots.foldl (fun u e => u.slotIn port fr.rail e.1)
          (pass (t.mapPort h fun p => { p with nextRx := p.nextRx + 1, naked := false }))).pump h)) ∧
      (fr.ftype = 0 → (fr.crcOk = false ∨ fr.seq ≠ q.nextRx) →
        (q.naked = true → exec (.dataFrameArrival port fr) s = .next (t.fretryBy 1)) ∧
        (q.naked = false → exec (.dataFrameArrival port fr) s =
          .next (((t.fretryBy 1).mapPort h fun p => { p with naked := true }).putOnLine port [frame 2 fr.rail q.nextRx]))) ∧
      (fr.ftype = 2 → fr.crcOk = true → exec (.nakArrival port fr) s = .next ((pass t).resend h)) ∧
      (fr.ftype = 1 → fr.crcOk = true → exec (.controlFrameArrival port fr) s =
        .next (((pass t).mapPort port fun p => { p with lanes := fr.lanes }).pump h)) ∧
      (fr.ftype = 3 → fr.crcOk = true → exec (.resyncArrival port fr) s =
        .next ((pass t).putOnLine port [frame 4 fr.rail q.nextRx])) ∧
      (6 ≤ fr.ftype → exec (.dataFrameArrival port fr) s = .next (t.fretryBy 1)) ∧
      (fr.ftype = 4 → fr.crcOk = true → (t.port port).resync = true → portRail (partner port) = fr.rail →
        exec (.resyncAnswerArrival port fr) s =
          .next (((pass (t.mapPort port fun p => { p with resync := false })).resend (partner port)).pump (partner port))) ∧
      (addr = s.address → exec (.lostModuleFrameArrival port addr ttl) s = .next (t.fail 1 6 0x100)) ∧
      (addr ≠ s.address → addr ∈ s.lostTab → exec (.lostModuleFrameArrival port addr ttl) s = .next t) ∧
      (addr ≠ s.address → addr ∉ s.lostTab → exec (.lostModuleFrameArrival port addr ttl) s =
        .next (let u := (t.recordLost addr).actOnLost addr
          if 1 < ttl.toNat then u.spreadLost addr (ttl.toNat - 1) (some port) else u))) ∧
    (port.toNat < 20 → s.portUp port = true →
      exec (.portSilenceTimeout port) s = .next (s.takeDown port) ∧
      exec (.controlFrameInterval port) s = .next (s.putOnLine port [{ frame 1 (portRail port) (s.port port).nextRx with
        lanes := (List.range 4).map (s.fabFree port) }]) ∧
      ((s.port port).resync = true → exec (.resyncTimeout port) s = .next (s.takeDown port)) ∧
      (s.portUp (partner port) = true → ∃ u, exec (.portSilenceTimeout port) s = .next u ∧ u.portDown port = true ∧
        (u.port port).moved = true ∧ (u.port port).unacked = (s.port port).unacked.map (fun f => (f.1, 0)) ∧
        u.portUp (partner port) = true ∧ (u.port (partner port)).resync = true ∧
        (u.port (partner port)).sent = (s.port (partner port)).sent ++ [frame 3 (portRail port) (s.port port).nextRx])) ∧
    (port.toNat < 20 → (s.port port).st = 1 → exec (.controlFrameInterval port) s =
      .next (s.putOnLine port [{ frame 1 (portRail port) (s.port port).nextRx with
        lanes := (List.range 4).map (s.fabFree port) }])) ∧
    (∀ (u : State) (home : BitVec 5),
      ((∃ f ∈ (u.port home).unacked, 8 ≤ f.2) → u.resend home = u.takeDown (u.carrier home)) ∧
      ((∀ f ∈ (u.port home).unacked, f.2 < 8) → u.canSend home = false → u.resend home = u) ∧
      ((∀ f ∈ (u.port home).unacked, f.2 < 8) → u.canSend home = true → (u.port home).outq = [] → home.toNat < 20 →
        let line := u.carrier home
        let again := (u.port home).unacked.map fun f => { f.1 with ack := (u.port home).nextRx }
        let w := u.resend home
        (w.port home).unacked = (u.port home).unacked.map (fun f => (f.1, f.2 + 1)) ∧
        (w.port line).sent = (u.port line).sent ++ again ∧ (w.port home).nextTx = (u.port home).nextTx ∧
        w.fretry = BitVec.ofNat 32 (Nat.min (u.fretry.toNat + again.length) (2 ^ 32 - 1)) ∧
        (∀ k < 4, nthD 0 (w.port line).lanes k = nthD 0 (u.port line).lanes k -
          (((u.port home).unacked.flatMap fun f => f.1.slots).filter fun e => fabLane e.1 == k).length))) ∧
    (port.toNat < 20 → s.portUp (s.carrier (railHome port rail)) = true → (s.port (railHome port rail)).unacked ≠ [] →
      exec (.retryTimeout port rail) s = .next (s.resend (railHome port rail))) ∧
    ((∀ n : BitVec 5, n.toNat < 20 → s.portUp n = false) → ∃ u, exec (.fidWrite v) s = .next u ∧
      u.fid = v &&& 0x00FFFFE00007FFFF ∧ u.mem = s.mem ∧ u.cores = s.cores) ∧
    ((∃ n : BitVec 5, n.toNat < 20 ∧ s.portUp n = true) → exec (.fidWrite v) s = .next s) ∧
    (exec (.flostWrite v) s = .next { s with
      lostTab := if v.getLsbD 63 then [] else s.lostTab, flost := v &&& 0x0000FFFF0007FFFF }) ∧
    (port.toNat < 20 → partner (partner port) = port ∧ portDim (partner port) = portDim port ∧
      portPlus (partner port) = portPlus port ∧ portRail (partner port) = !portRail port)

/-! ### The module -/

/-- Loader, keys, launch, reset, alarms, host endpoint, management (R398, R415 to R430). The verification of a signature, the fused
wrapping key, what a body's bytes hold and the configuration regions are free values (log 7, 47). That reset memory is empty, the
statuses of commands, how a command reaches its event, what a module reset keeps of the model's own account, and when the cycle ends in
which the module fails (`failing`) are the model's choices (log 2, 48, 49, 50, 51). -/
def Obligations.ModuleManagement : Prop :=
  ∀ (s : State) (i : Image) (slot : BitVec 7) (bytes : List Byte) (addr v : W) (m : BitVec 5) (die : BitVec 2) (n : BitVec 12)
      (a : BitVec 7) (ch : BitVec 10) (l : List HostEntry) (tasks : List (W × List W)) (p : Nat) (pk : Packet)
      (via : Option (BitVec 7)),
    let told := fun (u : State) (x : HostOut) => { u with hostOut := u.hostOut ++ [x] }
    let fresh : State := { State.reset with
      flash := s.flash, rollback := s.rollback, hostOut := s.hostOut, agenda := s.agenda, free := s.free }
    let ty := imageType i
    let c1 := imageWellFormed i = true
    let c2 := i.sig.length = 1280 ∧ Config.verifyImage (imageKey i) i.header i.bytes i.sig = true
    let c3 := fun (u : State) => (u.rollback.look 0 ty).toNat ≤ imageRollback i
    let c4 := imageInRegion i = true
    let checks := fun (u : State) (ends : State → Option Nat → Prop) =>
      let q : State := { u with loading := false }
      (¬ c1 → ends q (some 1)) ∧ (c1 → ¬ c2 → ends (q.alarm 4) none) ∧ (c1 → c2 → ¬ c3 u → ends (q.alarm 4) none) ∧
      (c1 → c2 → c3 u → ¬ c4 → ends (q.alarm 5) none) ∧
      (c1 → c2 → c3 u → c4 → q.contentOk i = false → ends q (some 5)) ∧
      (c1 → c2 → c3 u → c4 → q.contentOk i = true → ends (let w := (q.writeImage i).measure i
        { w with rollback := w.rollback.put ty (BitVec.ofNat 32 (imageRollback i)), loading := true }) (some 0))
    checks s (fun t st => exec (.loadConfigurationImage i) s =
      .next (match st with | some k => told t (.status 1 k) | none => t)) ∧
    (s.flash = some i → ty = 1 → checks fresh (fun t _ => exec .bringUp s = .next t)) ∧
    (s.flash = none ∨ (s.flash = some i ∧ ty ≠ 1) → exec .bringUp s = .next fresh) ∧
    (let sent := fun (k : Option (List Byte)) => s.keyWrites ++ (List.range 32).map fun c => (c, slot.toNat, k)
     (∀ k, kwUnwrap Config.wrappingKey bytes = some k → exec (.loadKeySlot slot bytes) s =
       .next (told { s with keys := s.keys.put slot.toNat k, keyWrites := sent (some k) } (.status 2 0))) ∧
     (kwUnwrap Config.wrappingKey bytes = none → exec (.loadKeySlot slot bytes) s = .next (told s (.status 2 2))) ∧
     (∃ u, exec (.invalidateKeySlot slot) s = .next u ∧ u.keys.find slot.toNat = none ∧ u.keyWrites = sent none ∧
       ∀ k, k ≠ slot.toNat → u.keys.find k = s.keys.find k)) ∧
    (let first := s.keyWrites.find? fun w => w.1 == m.toNat && w.2.1 == slot.toNat
     let place := m.toNat * 128 + slot.toNat
     (first = none → exec (.keySlotUpdateArrival ⟨m, slot⟩) s = .next s) ∧
     (∀ w, first = some w → ∃ u, exec (.keySlotUpdateArrival ⟨m, slot⟩) s = .next u ∧ u.mem = s.mem ∧ u.keys = s.keys ∧
       u.keyWrites = s.keyWrites.erase w ∧ u.ctrlKeys.find place = w.2.2 ∧
       ∀ k, k ≠ place → u.ctrlKeys.find k = s.ctrlKeys.find k)) ∧
    (exec (.attestationReport bytes addr) s = .next (told (told s (.report addr
      (s.reportBytes bytes ++ Config.signReport (s.reportBytes bytes)))) (.status 4 0))) ∧
    ((s.keys.find 0 = none → exec .launch s = .next (told s (.status 5 3))) ∧
     (s.keys.find 0 ≠ none → ∃ u, exec .launch s = .next u ∧ u.hostOut = s.hostOut ++ [.status 5 0] ∧ u.mem = s.mem ∧
       ∀ c : CoreId,
         (∀ pc, (s.core c).launchPc = some pc → (s.core c).launched = false →
           (u.core c).launched = true ∧ (u.ctxAt c 0).life = .runnable ∧ (u.ctxAt c 0).pc = pc ∧
             (0 < frameCount (s.core c).part → (u.ctxAt c 0).frame < frameCount (s.core c).part)) ∧
         ((s.core c).launchPc = none ∨ (s.core c).launched = true → u.core c = s.core c))) ∧
    (∀ u, exec .moduleReset s = .next u → u.mem = [] ∧ u.cores = [] ∧ u.floes = [] ∧ u.keys = [] ∧
      u.failed = false ∧ u.mfault = 0 ∧ u.apol = 0x96 ∧ u.pcap = 2400 ∧ u.net = [] ∧ u.rollback = s.rollback) ∧
    (exec .moduleReset s = .next { State.reset with
       flash := s.flash, rollback := s.rollback, alog := s.alog, hostOut := s.hostOut, agenda := s.agenda, free := s.free }) ∧
    (let acts := fun (cause : Nat) (r : Host.Outcome State Fault Refusal) =>
       let logged : State := { s with alog := s.alog ||| (1#6 <<< cause), hostOut := s.hostOut ++ [.msix 0] }
       let erased : State := { logged with keys := [], ctrlKeys := [], keyWrites := [] }
       let act := (s.apol.extractLsb' (2 * cause) 2).toNat
       let halted := fun (u : State) => { u.fail 2 6 0x100 with failing := some true }
       (s.failed = false → s.failing = none →
         (act = 0 → s.loading = false → r = .next logged) ∧ (act = 0 → s.loading = true → r = .next (halted logged)) ∧
         (act = 1 → r = .next (halted logged)) ∧ (act = 2 → r = .next (halted erased))) ∧
       (s.failing = some true → (act = 1 → r = .next logged) ∧ (act = 2 → r = .next erased))
     acts 0 (exec .tamperDetector s) ∧ acts 1 (exec .voltageDetector s) ∧ acts 2 (exec .clockDetector s) ∧
     acts 3 (exec .faultInjectionDetector s)) ∧
    (exec .powerThermalTrip s = .next (s.fail 3 6 0x100) ∧
     exec (.interfaceTrainingLoss m) s = .next (s.ctrlFault m) ∧ exec (.forwardingLaneTimeout m) s = .next (s.ctrlFault m) ∧
     (∃ u, exec (.walkerStateError die) s = .next u ∧ u.failed = true)) ∧
    (∀ c, s.chans.find ch.toNat = some c → exec (.hostChannelDoorbell ch l) s =
      .next (({ s with chans := s.chans.put ch.toNat { c with ring := (c.ring ++ l).take 32 } } : State).hostPump ch.toNat)) ∧
    (s.chans.find ch.toNat = none → exec (.hostChannelDoorbell ch l) s = .next s) ∧
    (exec (.launchRingDoorbell tasks) s = .next ((tasks.take 256).foldl (fun u e =>
      u.send 32 (.floe (e.1.extractLsb' 40 8)) none 128 (.task 0 0 true e.2 e.1) none (coreAt 32 0) 5) s)) ∧
    (let next := fun (e : Instr) => (.next { s with agenda := .event e :: s.agenda } : Host.Outcome State Fault Refusal)
     exec (.securityRingDoorbell .launch) s = next .launch ∧ exec (.securityRingDoorbell .reset) s = next .moduleReset ∧
     exec (.securityRingDoorbell (.image i)) s = next (.loadConfigurationImage i) ∧
     exec (.securityRingDoorbell (.loadKey slot bytes)) s = next (.loadKeySlot slot bytes) ∧
     exec (.securityRingDoorbell (.dropKey slot)) s = next (.invalidateKeySlot slot) ∧
     exec (.securityRingDoorbell (.attest bytes addr)) s = next (.attestationReport bytes addr)) ∧
    (∀ e g cls typ seq k pl, s.arrived p = some pk → pk.dst = .host → pk.body = .msg e g cls typ seq k pl →
      let t := (s.takePacket p).hwTakes pk.src e g
      (t.chanOf pk.src e g = none → exec (.hostChannelMessage p) s = .next t) ∧
      (∀ h, t.chanOf pk.src e g = some h → exec (.hostChannelMessage p) s =
        .next (((told (told { t with chans := t.chans.put h.1 { h.2 with rx := h.2.rx + 1 } }
          (.message h.1 h.2.rx (h.2.rx.toNat * 4160) cls typ seq pl)) (.msix 2)).hostCredit pk.src e g k).send 32
            (.core h.2.core) none 0 (.credit h.2.ep h.2.gen 1) (some h.2.cmod) (coreAt 32 0) 5))) ∧
    (let open_ := (via = none ∧ (s.failed = false ∨ s.failing ≠ none)) ∨ ∃ b, via = some b ∧ (b = 0x3A ∨ s.i3c = some b)
     let x := exec (.managementRegisterWrite ⟨via, n⟩ v) s
     (¬ open_ → x = .next s) ∧
     (open_ →
       (n = 0x010 → x = .next { s with alog := s.alog &&& v.truncate 6 }) ∧
       (n = 0x018 → 600 ≤ (v.extractLsb' 0 16).toNat → (v.extractLsb' 0 16).toNat ≤ 2400 →
         x = .next { s with pcap := v.truncate 16 }) ∧
       (n = 0x018 → (v.extractLsb' 0 16).toNat < 600 ∨ 2400 < (v.extractLsb' 0 16).toNat → x = .next s) ∧
       (n = 0x200 → x = exec (.fidWrite v) s) ∧
       (n = 0x210 → x = .next { s with fretry := v.truncate 32 }) ∧
       (n = 0x218 → x = .next { s with fdrop := v.truncate 32 }) ∧
       (n = 0x220 → x = exec (.flostWrite v) s) ∧
       (∀ k : Nat, k < 32 → n.toNat = 0x040 + 8 * k → x = .next { s with mecc := s.mecc.put k v }) ∧
       (n = 0x000 ∨ n = 0x008 → x = .next s))) ∧
    (exec (.i3cDynamicAddressAssignment a) s = .next { s with i3c := some a })

/-! ### Walks, fills, the spill engine -/

/-- TRANSLATION_WALK_START, WALK_TABLE_READ_REPLY, FETCH_FILL_COMPLETE, the spill engine's events and FRAME_DATA_ERROR
(R161, R170, R171, R180 to R185, R340, R389 to R396). What lies where in a spill slot, when a frame's error is found, in which order
walks begin, that a fill whose every byte the store queue gives meets no error, and that START answers 5 after a frame error in the
reload are the model's choices (log 8, 13, 52, 53, 58). -/
def Obligations.WalksFillsAndSpills : Prop :=
  ∀ (s : State) (die : BitVec 2) (n : Nat) (f : FloeId) (w : Walk) (c : CoreId) (k : CtxId) (off : W),
    (let order := (List.range 64).map fun i => die ++ BitVec.ofNat 6 (s.walkTurn.look 0 die.toNat + i)
     let next := order.findSome? fun f => (s.floe f).nextWalk.map fun w => (f, w)
     (16 ≤ (s.walking die).length → exec (.translationWalkStart die) s = .next s) ∧
     (next = none → exec (.translationWalkStart die) s = .next s) ∧
     ((s.walking die).length < 16 → next = some (f, w) → exec (.translationWalkStart die) s =
       .next { s.setWalk f w { w with started := true } with
         walkTurn := s.walkTurn.put die.toNat ((f.toNat % 64 + 1) % 64) })) ∧
    ((s.walking die)[n]? = some (f, w) →
      let place := entryAddr w.level w.table w.page
      let failed := fun (t : State) (d : Nat) => t.endWalk f w (if w.dead then none else some (w.level * 256 + d))
      (s.readEntry place = none → exec (.walkTableReadReply die n) s = .next (failed s 3)) ∧
      (∀ e, s.readEntry place = some e →
        let t := s.correctMem place 8
        (∀ x, walkEntry w.level e = .next x → exec (.walkTableReadReply die n) s =
          .next (t.setWalk f w { w with level := w.level - 1, table := x })) ∧
        (∀ x, walkEntry w.level e = .bad x → exec (.walkTableReadReply die n) s = .next (failed t x)) ∧
        (∀ x, walkEntry w.level e = .leaf x → ∃ u, exec (.walkTableReadReply die n) s = .next u ∧ u.mem = s.mem ∧
          w ∉ (u.floe f).walks ∧
          (w.dead = true → (u.floe f).tcache = (s.floe f).tcache) ∧
          (w.dead = false → (⟨rootAsid w.root, w.page / x * x, x, e⟩ : TlbEnt) ∈ (u.floe f).tcache) ∧
          ∀ q ∈ w.waiters, (s.ctxAt q.1 q.2).life = .blocked → (s.ctxAt q.1 q.2).heldStop = false →
            (u.ctxAt q.1 q.2).life = .runnable ∧ (u.ctxAt q.1 q.2).walkFail = none))) ∧
    (∀ va pa key, (s.ctxAt c k).fill = some (va, pa, key) →
      let fwd := (s.core c).forwarded pa 4
      let filled := fun (t : State) (l : List Byte) => t.mapCtxAt c k fun x => { x with
        fill := none
        fbuf := ([(va, BitVec.ofNat 16 (leNat (l.take 2))), (va + 2, BitVec.ofNat 16 (leNat (l.drop 2)))] ++ x.fbuf).take 16 }
      (∀ l t, s.ctrlRead key pa 4 = some (l, t) → exec (.fetchFillComplete c k) s = .next (filled t (overlay fwd l))) ∧
      (s.ctrlRead key pa 4 = none → fwd.length = 4 →
        exec (.fetchFillComplete c k) s = .next (filled s (overlay fwd [0, 0, 0, 0]))) ∧
      (s.ctrlRead key pa 4 = none → fwd.length ≠ 4 → exec (.fetchFillComplete c k) s =
        .next (s.mapCtxAt c k fun x => { x with req := some ⟨0, some .mismatch⟩ }))) ∧
    (let slot := (s.core c).spbase + BitVec.ofNat 64 (16384 * k.toNat)
     ∀ e u pa key, frameSize (s.core c).part = 4096 → s.engineXlate c (s.core c).xroot slot = .ok e u →
       e.home slot.toNat = .backing pa key →
       (e.pte.getLsbD 7 = true ∧ u.spillShared c pa = false → s.spillPages c k = .ok [(pa, key)] u) ∧
       (e.pte.getLsbD 7 = false ∨ u.spillShared c pa = true → s.spillPages c k = .bad () u)) ∧
    (∀ (u : Nat → State) (e : Nat → TlbEnt) (pa key : Nat → Nat) (j : Nat), u 0 = s → j ≤ frameSize (s.core c).part / 4096 →
      let va := fun i => ((u i).core c).spbase + BitVec.ofNat 64 (16384 * k.toNat + 4096 * i)
      let found := fun i => (u i).engineXlate c ((u i).core c).xroot (va i) = .ok (e i) (u (i + 1))
      let backed := fun i => (e i).home (va i).toNat = .backing (pa i) (key i)
      let good := fun i => (e i).pte.getLsbD 7 = true ∧ (u (i + 1)).spillShared c (pa i) = false
      (∀ i < j, found i ∧ backed i ∧ good i) →
        (j = frameSize (s.core c).part / 4096 → s.spillPages c k = .ok ((List.range j).map fun i => (pa i, key i)) (u j)) ∧
        (j < frameSize (s.core c).part / 4096 →
          (found j → backed j → ¬ good j → s.spillPages c k = .bad () (u (j + 1))) ∧
          (found j → ∀ o q, (e j).home (va j).toNat = .pool o q → s.spillPages c k = .bad () (u (j + 1))) ∧
          (∀ d t, (u j).engineXlate c ((u j).core c).xroot (va j) = .bad d t → s.spillPages c k = .bad () t) ∧
          (∀ m, (u j).engineXlate c ((u j).core c).xroot (va j) = .held m → s.spillPages c k = .held m))) ∧
    (let told := fun (x : Ctx) (txn : Nat) (a : Answer) => if x.req = some ⟨txn, none⟩ then { x with req := some ⟨txn, some a⟩ } else x
     let ends := fun (t : State) => (t.mapCore c fun x => { x with spill := none }).mapCtxAt c 0 fun x => told x 10 (.value 0 0)
     let failure := fun (a : W) => (.failed ⟨0x11, 0, a, 0, 0, 0, none, none, none, false⟩ : Answer)
     (∀ z, (s.core c).spill = some (k, z) →
       ((s.ctxAt c k).life ≠ .stopped → ∀ ok, exec (.spillWriteComplete c ok) s = .next (ends s)) ∧
       ((s.ctxAt c k).life = .stopped →
         exec (.spillWriteComplete c false) s = .next (s.coreFault c 3) ∧
         (∀ t, s.spillPages c k = .bad () t → exec (.spillWriteComplete c true) s = .next (t.coreFault c 3)) ∧
         (∀ l t, s.spillPages c k = .ok l t → t.spillWrite l = none →
           exec (.spillWriteComplete c true) s = .next (t.coreFault c 3)) ∧
         (∀ l t u, s.spillPages c k = .ok l t → t.spillWrite l = some u →
           exec (.spillWriteComplete c true) s = .next (ends (u.mapCtxAt c k fun x => { x with life := .spilled }))))) ∧
     ((s.core c).reload = some k → ∀ l t, s.spillPages c k = .ok l t →
       let bad := (t.spillRead c k l).1
       let t1 := (t.spillRead c k l).2
       let fails := fun (a : W) => (.next ((t1.mapCore c fun x => { x with reload := none }).mapCtxAt c 0
         fun x => told x 11 (failure a)) : Host.Outcome State Fault Refusal)
       exec (.spillReloadComplete c (some off)) s = fails off ∧
       (∀ a, bad = some a → exec (.spillReloadComplete c none) s = fails a) ∧
       (bad = none → exec (.spillReloadComplete c none) s =
         .next ((t1.mapCore c fun x => { x with reload := x.reload }).mapCtxAt c 0 fun x => told x 11 (.value 0 0))))) ∧
    (let t := s.ctxAt c k
     let within := (s.core c).holdsFrame k = true ∧ off.toNat % 8 = 0 ∧ off.toNat / frameSize (s.core c).part = t.frame
     let stopped := fun (u : State) => (u.ctxAt c k).life = .stopped ∧ (u.ctxAt c k).frec1 = t.pc ∧
       (u.ctxAt c k).frec2 = off ∧ wf (u.ctxAt c k).frec0 0 6 = 0x11 ∧ wb (u.ctxAt c k).frec0 63 = true ∧
       (u.ctxAt c k).pc = t.pc ∧ u.mem = s.mem
     (¬ within → exec (.frameDataError c k off) s = .next s) ∧
     (within → k = 0 ∨ k = 15 → exec (.frameDataError c k off) s = .next (s.coreFault c 2)) ∧
     (within → k ≠ 0 → k ≠ 15 →
       (t.life = .runnable → ∃ u, exec (.frameDataError c k off) s = .next u ∧ stopped u) ∧
       (t.life ≠ .runnable → t.req = none → (s.core c).reload = some k → ∃ u, exec (.frameDataError c k off) s = .next u ∧ stopped u ∧
         (u.core c).reload = none ∧
         (∀ q, (s.ctxAt c 0).req = some ⟨11, q⟩ → (u.ctxAt c 0).req = some ⟨12, some (.value 5 0)⟩)) ∧
       (t.life ≠ .runnable → (s.core c).reload ≠ some k → exec (.frameDataError c k off) s = .next s)))

/-! ### Decoding, the step, the machine as a whole -/

/-- No bit of an encoding is dropped (R65, R66, R73): decoding reads back what encoding wrote. -/
def Obligations.DecodeReadsBackEncode : Prop :=
  ∀ (i : Instr) (rest : List Byte), i.wf = true → decode (encode i ++ rest) = some (i, rest)

/-- The other direction (R65, R66, R73): every word that decodes is the encoding of what it decodes to. -/
def Obligations.EncodeReadsBackDecode : Prop :=
  ∀ (l rest : List Byte) (i : Instr), decode l = some (i, rest) →
    i.wf = true ∧ i.isEvent = false ∧ l = encode i ++ rest

/-- Table 3.9, and a few words of each format (Tables 3.1 to 3.8): register, immediate, branch, store, compact. -/
def Obligations.WordsFromTheEncodingTables : Prop :=
  decodeWord 0x00731403 = some (.add 5 6 7) ∧
  decodeWord 0x0021399F = some (.ldD 14 2 2) ∧
  decodeWord 0xFE026813 = some (.beq 4 0 0xFFA) ∧
  decodeWord 0x40428C4B = some (.send 3 2 2 5) ∧
  decodeWord 0xF4A0 = some (.cAddi 5 0x3D) ∧
  decodeWord 0xFFD29407 = some (.addi 5 5 0xFFD) ∧
  decodeWord 0x0E310683 = some (.sel 1 2 3 7) ∧
  decodeWord 0x00A4A00F = some (.mul 8 9 10) ∧
  decodeWord 0x8012841B = some (.loop 5 2 33) ∧
  decodeWord 0x7FF315A3 = some (.stD 5 6 2047) ∧
  decodeWord 0x7EB31727 = some (.wamo 5 6 63 11) ∧
  decodeWord 0x9873162B = some (.amocas 5 6 7 4 3) ∧
  decodeWord 0x240314AF = some (.lda 5 6 0 2 2) ∧
  decodeWord 0x0831062F = some (.waitc 4 3 2 1) ∧
  decodeWord 0x04310437 = some (.fmadd 1 2 3 0 2) ∧
  decodeWord 0x1021043B = some (.fcvt 1 2 1 2 0 0) ∧
  decodeWord 0x4031073F = some (.vaddInt 1 2 3 1 2) ∧
  decodeWord 0x3831063F = some (.qand 1 2 3) ∧
  decodeWord 0xE0310447 = some (.vperm 1 2 3 3 2) ∧
  decodeWord 0xD0001CD3 = some (.cpgoRemote 7 40) ∧
  decodeWord 0x067304D7 = some (.tmma 6 7 1 33) ∧
  decodeWord 0x0A73055B = some (.gadd 6 7 0 1 33) ∧
  decodeWord 0x5003015F = some (.rput 6 40) ∧
  decodeWord 0x88608367 = some (.fbar 6 33) ∧
  decodeWord 0x0280146F = some (.mfs 5 40) ∧
  decodeWord 0x0000016F = some .eret ∧
  decodeWord 0x007001EF = some (.trap 7) ∧
  decodeWord 0xFFE9 = some (.cJ 2047) ∧
  decodeWord 0x0016 = some .cNop ∧
  decodeWord 0x0000 = none ∧
  decodeWord 0x00000073 = none ∧
  decodeWord 0xA2310433 = none ∧
  decodeWord 0x0020146F = none ∧
  decodeWord 0x08731403 = none

/-- What a step does (R65, R73, R157 to R159, R180, R427). `wakeAll`, `choose`, `markIssue` and `tick` are the parts of a
cycle around the execution: waking, the rotation, its record, the passing of time. That a step is one act of the agenda, what a fetch
takes beyond the word needed, from where code may be fetched, and how a blocked context is found ready are the model's choices (log 1,
10, 14, 32). -/
def Obligations.StepRunsDecodedInstruction : Prop :=
  ∀ (s : State),
    (s.failed = false → s.agenda = [] →
      let s1 := (s.mapMe fun x => { x with newEvents := 0 }).wakeAll
      (s1.me.launched = false → step s = .next s1.tick) ∧
      (s1.me.launched = true → ∀ s2 k, s1.choose = (s2, some k) →
        let u := (s2.setCursor s2.cur.core k).markIssue
        (s2.ctxAt s2.cur.core k).gang = none → u.ctx.gangLate = none → u.ctx.oddPc = none →
        ∀ w t, u.fetch = .ok (w, t) →
          (∀ z, t.ctx.wait = some z → z.alias_ = false) →
          let at_ : State := { t with cur := { t.cur with insn := w } }
          (∀ i r, decodeWord w.toNat = some i → exec i at_ = .next r →
            step s = .next ((r.setCursor s.cur.core r.cur.ctx).tick)) ∧
          (∀ r, decodeWord w.toNat = none → exec .illegalInstruction at_ = .next r →
            step s = .next ((r.setCursor s.cur.core r.cur.ctx).tick)))) ∧
    (∀ e l, s.failed = false → s.agenda = .event e :: l → e.isEvent = true → step s = exec e { s with agenda := l }) ∧
    (∀ q l, s.failed = false → s.agenda = .cycle q :: l →
      step s = State.cycleCore { s with agenda := l, cur := { s.cur with core := q } }) ∧
    (∀ l, s.agenda = .event .moduleReset :: l → step s = exec .moduleReset { s with agenda := l }) ∧
    (s.failed = true → s.agenda = [] → step s = .next s.reportFailure) ∧
    (∀ e l, s.failed = true → s.failing = none → s.agenda = e :: l → e.outlives = false →
      step s = .next { s with agenda := l }) ∧
    (∀ te o, let pc := s.ctx.pc
      (∀ n : Fin 3, s.ctx.lc[n] = 0) → s.ctx.fbuf = [] → s.ctx.fill = none → s.bad = [] → pc.toNat % 4 = 0 →
      s.xlate pc cFETCHFAULT = .ok te → te.pte.getLsbD 8 = true → te.home pc.toNat = .pool s.cur.core o →
      o + 4 ≤ 48 * 2 ^ 16 →
      let k := poolKey s.cur.core o
      s.me.excluded o 4 false = false → s.me.gaussHolds k 4 = false →
      ∃ t, s.fetch = .ok (BitVec.ofNat 32 (if s.rd k 2 % 4 = 3 then s.rd k 4 else s.rd k 2), t) ∧ t.mem = s.mem ∧
        t.ctx.g = s.ctx.g ∧ t.ctx.pc = pc)

/-- The canonical form of memory is an invariant of the step, from every state that has it. That an unlisted byte reads as 0
is the model's choice (log 2). -/
def Obligations.MemoryStaysCanonical : Prop :=
  ∀ (s t : State), s.memOk → step s = .next t → t.memOk

/-- The reset values of Tables 1.1, 6.5, 8.5, 8.7, 8.8, 9.1, 14.1, 21.4 and 21.7. That memory reads as 0 and that c0 is FREE with PC 0
before its launch are the model's choices (log 2, 4). -/
def Obligations.ResetState : Prop :=
  State.reset.memOk ∧ State.reset.mem = [] ∧ State.reset.failed = false ∧ State.reset.mfault = 0 ∧
  State.reset.apol = 0x96 ∧ State.reset.pcap = 2400 ∧ State.reset.fid = 0 ∧ State.reset.fretry = 0 ∧
  State.reset.fdrop = 0 ∧ State.reset.flost = 0 ∧ State.reset.keyValid 0 = 0 ∧ State.reset.keyValid 64 = 0 ∧
  (∀ (c : CoreId), let x := State.reset.core c
    x.launched = false ∧ x.part = 0x00003A0000000000 ∧ x.wdlim = 0 ∧ x.spbase = 0 ∧ x.ecnt = 0 ∧ x.nackcnt = 0 ∧
    x.cfault = 0 ∧ x.gmbox = 0 ∧ x.gwake = 0 ∧ x.xroot = 0 ∧ x.jdom = 0 ∧ x.cbm = 0 ∧ x.timer = 0 ∧ x.events = [] ∧
    x.mab = 0 ∧ (∀ n : Fin 32, x.sems[n] = 0) ∧ (∀ n : Fin 8, x.win[n] = BitVec.ofNat 64 (n.val * 2 ^ 54)) ∧
    (∀ e : EpId, (x.ep e).st = .unbound ∧ (x.ep e).owner = 0 ∧ (x.ep e).gen = 0) ∧
    (∀ k : CtxId, let t := x.ctx k
      t.life = .free ∧ t.pc = 0 ∧ (∀ r, t.rg r = 0) ∧ (∀ n : Fin 16, t.v[n] = 0) ∧ t.p = 0 ∧
      (∀ n : Fin 4, t.q[n] = BitVec.allOnes 64) ∧ (∀ n : Fin 8, t.x[n] = 0) ∧
      (∀ n : Fin 3, t.lc[n] = 0 ∧ t.lb[n] = 0 ∧ t.le[n] = 0) ∧ t.fst = 0 ∧ t.slim = 0 ∧ t.tvec = 0 ∧ t.epc = 0 ∧
      t.skip = false ∧ t.act = false ∧ t.frec0 = 0 ∧ t.pend = [] ∧ t.ops = [])) ∧
  (∀ (f : FloeId), let x := State.reset.floe f
    x.drift = 0 ∧ x.dmoves = 0 ∧ x.tsc = 0 ∧ x.ffault = 0 ∧ x.rdup = 0 ∧ x.rstale = 0 ∧ x.rdrop = 0 ∧ x.rlink = 0 ∧
    (∀ n : Fin 4, x.qring[n] = 0 ∧ (x.queues[n]).bank = [] ∧ (x.queues[n]).gen = 0) ∧ ∀ n : Fin 64, x.fsems[n] = 0)

/-- No execution and no step ends in a fault or a refusal, that of a failed module included (R427). -/
def Obligations.ExecutionAlwaysAnswers : Prop :=
  (∀ (i : Instr) (s : State), ∃ t, exec i s = .next t) ∧
  (∀ (s : State), ∃ t, step s = .next t)
end

