-- ==== Sys2Proof/Laws/Exec.lean ====
section
/-! SUPPORT. What `exec` calls for each constructor, so that no proof unfolds the dispatch. -/

namespace Sys2Proof.Machine

theorem exec_illegalInstruction {state : State} : exec (.illegalInstruction) state = execIllegalInstruction state := rfl
theorem exec_forfeitedTurn {state : State} : exec (.forfeitedTurn) state = execForfeitedTurn state := rfl
theorem exec_dispenserDelivery {state : State} {f} {bad} : exec (.dispenserDelivery f bad) state = execDispenserDelivery f bad state := rfl
theorem exec_timerExpiry {state : State} {c} : exec (.timerExpiry c) state = execTimerExpiry c state := rfl
theorem exec_watchdogExpiry {state : State} {c} {k} : exec (.watchdogExpiry c k) state = execWatchdogExpiry c k state := rfl
theorem exec_spillWriteComplete {state : State} {c} {ok} : exec (.spillWriteComplete c ok) state = execSpillWriteComplete c ok state := rfl
theorem exec_spillReloadComplete {state : State} {c} {err} : exec (.spillReloadComplete c err) state = execSpillReloadComplete c err state := rfl
theorem exec_frameDataError {state : State} {c} {k} {off} : exec (.frameDataError c k off) state = execFrameDataError c k off state := rfl
theorem exec_fetchFillComplete {state : State} {c} {k} : exec (.fetchFillComplete c k) state = execFetchFillComplete c k state := rfl
theorem exec_translationWalkStart {state : State} {die} : exec (.translationWalkStart die) state = execTranslationWalkStart die state := rfl
theorem exec_walkTableReadReply {state : State} {die} {n} : exec (.walkTableReadReply die n) state = execWalkTableReadReply die n state := rfl
theorem exec_xrootWrite {state : State} {v} : exec (.xrootWrite v) state = execXrootWrite v state := rfl
theorem exec_tlbinvWrite {state : State} {v} : exec (.tlbinvWrite v) state = execTlbinvWrite v state := rfl
theorem exec_tlbinvDropComplete {state : State} {c} : exec (.tlbinvDropComplete c) state = execTlbinvDropComplete c state := rfl
theorem exec_dqbaseWrite {state : State} {v} : exec (.dqbaseWrite v) state = execDqbaseWrite v state := rfl
theorem exec_dqlimWrite {state : State} {v} : exec (.dqlimWrite v) state = execDqlimWrite v state := rfl
theorem exec_gmboxWrite {state : State} {v} : exec (.gmboxWrite v) state = execGmboxWrite v state := rfl
theorem exec_epownWrite {state : State} {n} {v} : exec (.epownWrite n v) state = execEpownWrite n v state := rfl
theorem exec_jdomWrite {state : State} {v} : exec (.jdomWrite v) state = execJdomWrite v state := rfl
theorem exec_windowRegisterWrite {state : State} {n} {v} : exec (.windowRegisterWrite n v) state = execWindowRegisterWrite n v state := rfl
theorem exec_fstWrite {state : State} {v} : exec (.fstWrite v) state = execFstWrite v state := rfl
theorem exec_frec0Write {state : State} {v} : exec (.frec0Write v) state = execFrec0Write v state := rfl
theorem exec_qringWrite {state : State} {n} {v} : exec (.qringWrite n v) state = execQringWrite n v state := rfl
theorem exec_driftWrite {state : State} {v} : exec (.driftWrite v) state = execDriftWrite v state := rfl
theorem exec_tscWrite {state : State} {v} : exec (.tscWrite v) state = execTscWrite v state := rfl
theorem exec_protocolImageLoad {state : State} {c} {k} : exec (.protocolImageLoad c k) state = execProtocolImageLoad c k state := rfl
theorem exec_connectionRequestArrival {state : State} {p} : exec (.connectionRequestArrival p) state = execConnectionRequestArrival p state := rfl
theorem exec_connectionResultArrival {state : State} {p} : exec (.connectionResultArrival p) state = execConnectionResultArrival p state := rfl
theorem exec_connectWithdrawal {state : State} {p} : exec (.connectWithdrawal p) state = execConnectWithdrawal p state := rfl
theorem exec_messageArrival {state : State} {p} : exec (.messageArrival p) state = execMessageArrival p state := rfl
theorem exec_creditPacketArrival {state : State} {p} : exec (.creditPacketArrival p) state = execCreditPacketArrival p state := rfl
theorem exec_closePacketArrival {state : State} {p} : exec (.closePacketArrival p) state = execClosePacketArrival p state := rfl
theorem exec_lossPacketArrival {state : State} {p} : exec (.lossPacketArrival p) state = execLossPacketArrival p state := rfl
theorem exec_boundArrival {state : State} {p} : exec (.boundArrival p) state = execBoundArrival p state := rfl
theorem exec_redirectArrival {state : State} {p} : exec (.redirectArrival p) state = execRedirectArrival p state := rfl
theorem exec_redirectAckArrival {state : State} {p} : exec (.redirectAckArrival p) state = execRedirectAckArrival p state := rfl
theorem exec_memrdRequest {state : State} {p} : exec (.memrdRequest p) state = execMemrdRequest p state := rfl
theorem exec_memwrRequest {state : State} {p} : exec (.memwrRequest p) state = execMemwrRequest p state := rfl
theorem exec_requestForward {state : State} {p} : exec (.requestForward p) state = execRequestForward p state := rfl
theorem exec_memrdReplyArrival {state : State} {p} : exec (.memrdReplyArrival p) state = execMemrdReplyArrival p state := rfl
theorem exec_memwrAckArrival {state : State} {p} : exec (.memwrAckArrival p) state = execMemwrAckArrival p state := rfl
theorem exec_windowAccessArrival {state : State} {p} : exec (.windowAccessArrival p) state = execWindowAccessArrival p state := rfl
theorem exec_wpmArrival {state : State} {p} : exec (.wpmArrival p) state = execWpmArrival p state := rfl
theorem exec_windowReplyArrival {state : State} {p} : exec (.windowReplyArrival p) state = execWindowReplyArrival p state := rfl
theorem exec_negativeAcknowledgement {state : State} {p} : exec (.negativeAcknowledgement p) state = execNegativeAcknowledgement p state := rfl
theorem exec_copyChunkDone {state : State} {c} {tag} {chunk} : exec (.copyChunkDone c tag chunk) state = execCopyChunkDone c tag chunk state := rfl
theorem exec_copyComplete {state : State} {c} {tag} : exec (.copyComplete c tag) state = execCopyComplete c tag state := rfl
theorem exec_copyFailure {state : State} {c} {tag} : exec (.copyFailure c tag) state = execCopyFailure c tag state := rfl
theorem exec_copyRequestArrival {state : State} {p} : exec (.copyRequestArrival p) state = execCopyRequestArrival p state := rfl
theorem exec_copyAnswerArrival {state : State} {p} : exec (.copyAnswerArrival p) state = execCopyAnswerArrival p state := rfl
theorem exec_reduceChunkArrival {state : State} {p} : exec (.reduceChunkArrival p) state = execReduceChunkArrival p state := rfl
theorem exec_keyRetirementArrival {state : State} {p} : exec (.keyRetirementArrival p) state = execKeyRetirementArrival p state := rfl
theorem exec_tileOperationStart {state : State} {c} : exec (.tileOperationStart c) state = execTileOperationStart c state := rfl
theorem exec_tzeroComplete {state : State} {c} : exec (.tzeroComplete c) state = execTzeroComplete c state := rfl
theorem exec_tmmaOperandsRead {state : State} {c} : exec (.tmmaOperandsRead c) state = execTmmaOperandsRead c state := rfl
theorem exec_tmmaStepComplete {state : State} {c} : exec (.tmmaStepComplete c) state = execTmmaStepComplete c state := rfl
theorem exec_tmmaOperandFailure {state : State} {c} : exec (.tmmaOperandFailure c) state = execTmmaOperandFailure c state := rfl
theorem exec_tdrainTileRead {state : State} {c} : exec (.tdrainTileRead c) state = execTdrainTileRead c state := rfl
theorem exec_drainRowsArrival {state : State} {p} : exec (.drainRowsArrival p) state = execDrainRowsArrival p state := rfl
theorem exec_drainAckArrival {state : State} {p} : exec (.drainAckArrival p) state = execDrainAckArrival p state := rfl
theorem exec_gaussEngineTake {state : State} {c} : exec (.gaussEngineTake c) state = execGaussEngineTake c state := rfl
theorem exec_gaussEngineFinish {state : State} {c} : exec (.gaussEngineFinish c) state = execGaussEngineFinish c state := rfl
theorem exec_gbpArrival {state : State} {p} : exec (.gbpArrival p) state = execGbpArrival p state := rfl
theorem exec_gbpCreditArrival {state : State} {p} : exec (.gbpCreditArrival p) state = execGbpCreditArrival p state := rfl
theorem exec_enqueueWithHandle {state : State} {p} : exec (.enqueueWithHandle p) state = execEnqueueWithHandle p state := rfl
theorem exec_enqueueWithoutHandle {state : State} {p} : exec (.enqueueWithoutHandle p) state = execEnqueueWithoutHandle p state := rfl
theorem exec_taskRequest {state : State} {p} : exec (.taskRequest p) state = execTaskRequest p state := rfl
theorem exec_queueMoveComplete {state : State} {f} {i} {ok} : exec (.queueMoveComplete f i ok) state = execQueueMoveComplete f i ok state := rfl
theorem exec_enqueueAckArrival {state : State} {p} : exec (.enqueueAckArrival p) state = execEnqueueAckArrival p state := rfl
theorem exec_qhandleReplyArrival {state : State} {p} : exec (.qhandleReplyArrival p) state = execQhandleReplyArrival p state := rfl
theorem exec_stealRequestArrival {state : State} {p} : exec (.stealRequestArrival p) state = execStealRequestArrival p state := rfl
theorem exec_stealReplyArrival {state : State} {p} : exec (.stealReplyArrival p) state = execStealReplyArrival p state := rfl
theorem exec_driftInterval {state : State} {f} : exec (.driftInterval f) state = execDriftInterval f state := rfl
theorem exec_tileTaskIssue {state : State} {f} : exec (.tileTaskIssue f) state = execTileTaskIssue f state := rfl
theorem exec_tileTaskFinish {state : State} {f} {n} : exec (.tileTaskFinish f n) state = execTileTaskFinish f n state := rfl
theorem exec_groupWalkTileIssue {state : State} {f} {n} : exec (.groupWalkTileIssue f n) state = execGroupWalkTileIssue f n state := rfl
theorem exec_packetHeadGrant {state : State} {p} : exec (.packetHeadGrant p) state = execPacketHeadGrant p state := rfl
theorem exec_linkUncorrectableError {state : State} {f} : exec (.linkUncorrectableError f) state = execLinkUncorrectableError f state := rfl
theorem exec_laneBlockedTimeout {state : State} {f} : exec (.laneBlockedTimeout f) state = execLaneBlockedTimeout f state := rfl
theorem exec_streamMarkerArrival {state : State} {p} : exec (.streamMarkerArrival p) state = execStreamMarkerArrival p state := rfl
theorem exec_reductionPacketArrival {state : State} {p} : exec (.reductionPacketArrival p) state = execReductionPacketArrival p state := rfl
theorem exec_reductionDeadline {state : State} {f} {stream} : exec (.reductionDeadline f stream) state = execReductionDeadline f stream state := rfl
theorem exec_reductionResultArrival {state : State} {p} : exec (.reductionResultArrival p) state = execReductionResultArrival p state := rfl
theorem exec_interfaceTrainingLoss {state : State} {m} : exec (.interfaceTrainingLoss m) state = execInterfaceTrainingLoss m state := rfl
theorem exec_forwardingLaneTimeout {state : State} {m} : exec (.forwardingLaneTimeout m) state = execForwardingLaneTimeout m state := rfl
theorem exec_walkerStateError {state : State} {die} : exec (.walkerStateError die) state = execWalkerStateError die state := rfl
theorem exec_keySlotUpdateArrival {state : State} {m} : exec (.keySlotUpdateArrival m) state = execKeySlotUpdateArrival m state := rfl
theorem exec_loadConfigurationImage {state : State} {i} : exec (.loadConfigurationImage i) state = execLoadConfigurationImage i state := rfl
theorem exec_loadKeySlot {state : State} {slot} {wrapped} : exec (.loadKeySlot slot wrapped) state = execLoadKeySlot slot wrapped state := rfl
theorem exec_invalidateKeySlot {state : State} {slot} : exec (.invalidateKeySlot slot) state = execInvalidateKeySlot slot state := rfl
theorem exec_attestationReport {state : State} {nonce} {addr} : exec (.attestationReport nonce addr) state = execAttestationReport nonce addr state := rfl
theorem exec_launch {state : State} : exec (.launch) state = execLaunch state := rfl
theorem exec_moduleReset {state : State} : exec (.moduleReset) state = execModuleReset state := rfl
theorem exec_hostChannelDoorbell {state : State} {ch} {l} : exec (.hostChannelDoorbell ch l) state = execHostChannelDoorbell ch l state := rfl
theorem exec_launchRingDoorbell {state : State} {l} : exec (.launchRingDoorbell l) state = execLaunchRingDoorbell l state := rfl
theorem exec_securityRingDoorbell {state : State} {cmd} : exec (.securityRingDoorbell cmd) state = execSecurityRingDoorbell cmd state := rfl
theorem exec_tamperDetector {state : State} : exec (.tamperDetector) state = execTamperDetector state := rfl
theorem exec_voltageDetector {state : State} : exec (.voltageDetector) state = execVoltageDetector state := rfl
theorem exec_clockDetector {state : State} : exec (.clockDetector) state = execClockDetector state := rfl
theorem exec_faultInjectionDetector {state : State} : exec (.faultInjectionDetector) state = execFaultInjectionDetector state := rfl
theorem exec_powerThermalTrip {state : State} : exec (.powerThermalTrip) state = execPowerThermalTrip state := rfl
theorem exec_bringUp {state : State} : exec .bringUp state = execBringUp state := rfl
theorem exec_managementRegisterWrite {state : State} {n} {v} : exec (.managementRegisterWrite n v) state = execManagementRegisterWrite n v state := rfl
theorem exec_fidWrite {state : State} {v} : exec (.fidWrite v) state = execFidWrite v state := rfl
theorem exec_flostWrite {state : State} {v} : exec (.flostWrite v) state = execFlostWrite v state := rfl
theorem exec_dataFrameArrival {state : State} {port} {fr} : exec (.dataFrameArrival port fr) state = execDataFrameArrival port fr state := rfl
theorem exec_nakArrival {state : State} {port} {fr} : exec (.nakArrival port fr) state = execNakArrival port fr state := rfl
theorem exec_controlFrameArrival {state : State} {port} {fr} : exec (.controlFrameArrival port fr) state = execControlFrameArrival port fr state := rfl
theorem exec_retryTimeout {state : State} {port} {rail} : exec (.retryTimeout port rail) state = execRetryTimeout port rail state := rfl
theorem exec_controlFrameInterval {state : State} {port} : exec (.controlFrameInterval port) state = execControlFrameInterval port state := rfl
theorem exec_portSilenceTimeout {state : State} {port} : exec (.portSilenceTimeout port) state = execPortSilenceTimeout port state := rfl
theorem exec_resyncArrival {state : State} {port} {fr} : exec (.resyncArrival port fr) state = execResyncArrival port fr state := rfl
theorem exec_resyncAnswerArrival {state : State} {port} {fr} : exec (.resyncAnswerArrival port fr) state = execResyncAnswerArrival port fr state := rfl
theorem exec_resyncTimeout {state : State} {port} : exec (.resyncTimeout port) state = execResyncTimeout port state := rfl
theorem exec_lostModuleFrameArrival {state : State} {port} {addr} {ttl} : exec (.lostModuleFrameArrival port addr ttl) state = execLostModuleFrameArrival port addr ttl state := rfl
theorem exec_hostChannelMessage {state : State} {p} : exec (.hostChannelMessage p) state = execHostChannelMessage p state := rfl
theorem exec_keyRetirementAcknowledgement {state : State} {p} : exec (.keyRetirementAcknowledgement p) state = execKeyRetirementAcknowledgement p state := rfl
theorem exec_i3cDynamicAddressAssignment {state : State} {a} : exec (.i3cDynamicAddressAssignment a) state = execI3cDynamicAddressAssignment a state := rfl
theorem exec_add {state : State} {d} {a} {b} : exec (.add d a b) state = execAdd d a b state := rfl
theorem exec_sub {state : State} {d} {a} {b} : exec (.sub d a b) state = execSub d a b state := rfl
theorem exec_addw {state : State} {d} {a} {b} : exec (.addw d a b) state = execAddw d a b state := rfl
theorem exec_subw {state : State} {d} {a} {b} : exec (.subw d a b) state = execSubw d a b state := rfl
theorem exec_and {state : State} {d} {a} {b} : exec (.and d a b) state = execAnd d a b state := rfl
theorem exec_or {state : State} {d} {a} {b} : exec (.or d a b) state = execOr d a b state := rfl
theorem exec_xor {state : State} {d} {a} {b} : exec (.xor d a b) state = execXor d a b state := rfl
theorem exec_andn {state : State} {d} {a} {b} : exec (.andn d a b) state = execAndn d a b state := rfl
theorem exec_orn {state : State} {d} {a} {b} : exec (.orn d a b) state = execOrn d a b state := rfl
theorem exec_xnor {state : State} {d} {a} {b} : exec (.xnor d a b) state = execXnor d a b state := rfl
theorem exec_seq {state : State} {d} {a} {b} : exec (.seq d a b) state = execSeq d a b state := rfl
theorem exec_sne {state : State} {d} {a} {b} : exec (.sne d a b) state = execSne d a b state := rfl
theorem exec_slt {state : State} {d} {a} {b} : exec (.slt d a b) state = execSlt d a b state := rfl
theorem exec_sltu {state : State} {d} {a} {b} : exec (.sltu d a b) state = execSltu d a b state := rfl
theorem exec_min {state : State} {d} {a} {b} : exec (.min d a b) state = execMin d a b state := rfl
theorem exec_max {state : State} {d} {a} {b} : exec (.max d a b) state = execMax d a b state := rfl
theorem exec_minu {state : State} {d} {a} {b} : exec (.minu d a b) state = execMinu d a b state := rfl
theorem exec_maxu {state : State} {d} {a} {b} : exec (.maxu d a b) state = execMaxu d a b state := rfl
theorem exec_addss {state : State} {d} {a} {b} : exec (.addss d a b) state = execAddss d a b state := rfl
theorem exec_subss {state : State} {d} {a} {b} : exec (.subss d a b) state = execSubss d a b state := rfl
theorem exec_addus {state : State} {d} {a} {b} : exec (.addus d a b) state = execAddus d a b state := rfl
theorem exec_subus {state : State} {d} {a} {b} : exec (.subus d a b) state = execSubus d a b state := rfl
theorem exec_sel {state : State} {d} {a} {b} {n} : exec (.sel d a b n) state = execSel d a b n state := rfl
theorem exec_addsl {state : State} {d} {a} {b} {s} : exec (.addsl d a b s) state = execAddsl d a b s state := rfl
theorem exec_addi {state : State} {d} {a} {i} : exec (.addi d a i) state = execAddi d a i state := rfl
theorem exec_andi {state : State} {d} {a} {i} : exec (.andi d a i) state = execAndi d a i state := rfl
theorem exec_ori {state : State} {d} {a} {i} : exec (.ori d a i) state = execOri d a i state := rfl
theorem exec_xori {state : State} {d} {a} {i} : exec (.xori d a i) state = execXori d a i state := rfl
theorem exec_slti {state : State} {d} {a} {i} : exec (.slti d a i) state = execSlti d a i state := rfl
theorem exec_sltiu {state : State} {d} {a} {i} : exec (.sltiu d a i) state = execSltiu d a i state := rfl
theorem exec_addhi {state : State} {d} {a} {i} : exec (.addhi d a i) state = execAddhi d a i state := rfl
theorem exec_sll {state : State} {d} {a} {b} : exec (.sll d a b) state = execSll d a b state := rfl
theorem exec_srl {state : State} {d} {a} {b} : exec (.srl d a b) state = execSrl d a b state := rfl
theorem exec_sra {state : State} {d} {a} {b} : exec (.sra d a b) state = execSra d a b state := rfl
theorem exec_rol {state : State} {d} {a} {b} : exec (.rol d a b) state = execRol d a b state := rfl
theorem exec_ror {state : State} {d} {a} {b} : exec (.ror d a b) state = execRor d a b state := rfl
theorem exec_extur {state : State} {d} {a} {b} : exec (.extur d a b) state = execExtur d a b state := rfl
theorem exec_extsr {state : State} {d} {a} {b} : exec (.extsr d a b) state = execExtsr d a b state := rfl
theorem exec_insr {state : State} {d} {a} {b} : exec (.insr d a b) state = execInsr d a b state := rfl
theorem exec_slli {state : State} {d} {a} {n} : exec (.slli d a n) state = execSlli d a n state := rfl
theorem exec_srli {state : State} {d} {a} {n} : exec (.srli d a n) state = execSrli d a n state := rfl
theorem exec_srai {state : State} {d} {a} {n} : exec (.srai d a n) state = execSrai d a n state := rfl
theorem exec_rori {state : State} {d} {a} {n} : exec (.rori d a n) state = execRori d a n state := rfl
theorem exec_extu {state : State} {d} {a} {w} {o} : exec (.extu d a w o) state = execExtu d a w o state := rfl
theorem exec_exts {state : State} {d} {a} {w} {o} : exec (.exts d a w o) state = execExts d a w o state := rfl
theorem exec_ins {state : State} {d} {a} {w} {o} : exec (.ins d a w o) state = execIns d a w o state := rfl
theorem exec_clz {state : State} {d} {a} : exec (.clz d a) state = execClz d a state := rfl
theorem exec_ctz {state : State} {d} {a} : exec (.ctz d a) state = execCtz d a state := rfl
theorem exec_popc {state : State} {d} {a} : exec (.popc d a) state = execPopc d a state := rfl
theorem exec_rev8 {state : State} {d} {a} : exec (.rev8 d a) state = execRev8 d a state := rfl
theorem exec_brev {state : State} {d} {a} : exec (.brev d a) state = execBrev d a state := rfl
theorem exec_msghPack {state : State} {d} {a} {lay} : exec (.msghPack d a lay) state = execMsghPack d a lay state := rfl
theorem exec_msghUnpk {state : State} {d} {a} {lay} : exec (.msghUnpk d a lay) state = execMsghUnpk d a lay state := rfl
theorem exec_msghLoad {state : State} {a} {lay} : exec (.msghLoad a lay) state = execMsghLoad a lay state := rfl
theorem exec_msghRead {state : State} {d} {lay} : exec (.msghRead d lay) state = execMsghRead d lay state := rfl
theorem exec_mul {state : State} {d} {a} {b} : exec (.mul d a b) state = execMul d a b state := rfl
theorem exec_mulw {state : State} {d} {a} {b} : exec (.mulw d a b) state = execMulw d a b state := rfl
theorem exec_mulh {state : State} {d} {a} {b} : exec (.mulh d a b) state = execMulh d a b state := rfl
theorem exec_mulhu {state : State} {d} {a} {b} : exec (.mulhu d a b) state = execMulhu d a b state := rfl
theorem exec_mulhsu {state : State} {d} {a} {b} : exec (.mulhsu d a b) state = execMulhsu d a b state := rfl
theorem exec_div {state : State} {d} {a} {b} : exec (.div d a b) state = execDiv d a b state := rfl
theorem exec_divu {state : State} {d} {a} {b} : exec (.divu d a b) state = execDivu d a b state := rfl
theorem exec_rem {state : State} {d} {a} {b} : exec (.rem d a b) state = execRem d a b state := rfl
theorem exec_remu {state : State} {d} {a} {b} : exec (.remu d a b) state = execRemu d a b state := rfl
theorem exec_beq {state : State} {a} {b} {o} : exec (.beq a b o) state = execBeq a b o state := rfl
theorem exec_bne {state : State} {a} {b} {o} : exec (.bne a b o) state = execBne a b o state := rfl
theorem exec_blt {state : State} {a} {b} {o} : exec (.blt a b o) state = execBlt a b o state := rfl
theorem exec_bge {state : State} {a} {b} {o} : exec (.bge a b o) state = execBge a b o state := rfl
theorem exec_bltu {state : State} {a} {b} {o} : exec (.bltu a b o) state = execBltu a b o state := rfl
theorem exec_bgeu {state : State} {a} {b} {o} : exec (.bgeu a b o) state = execBgeu a b o state := rfl
theorem exec_bpt {state : State} {p} {o} : exec (.bpt p o) state = execBpt p o state := rfl
theorem exec_bpf {state : State} {p} {o} : exec (.bpf p o) state = execBpf p o state := rfl
theorem exec_jal {state : State} {d} {o} : exec (.jal d o) state = execJal d o state := rfl
theorem exec_jalr {state : State} {d} {a} {i} : exec (.jalr d a i) state = execJalr d a i state := rfl
theorem exec_loop {state : State} {a} {n} {o} : exec (.loop a n o) state = execLoop a n o state := rfl
theorem exec_loopi {state : State} {n} {o} {c} : exec (.loopi n o c) state = execLoopi n o c state := rfl
theorem exec_pand {state : State} {d} {a} {b} : exec (.pand d a b) state = execPand d a b state := rfl
theorem exec_por {state : State} {d} {a} {b} : exec (.por d a b) state = execPor d a b state := rfl
theorem exec_pxor {state : State} {d} {a} {b} : exec (.pxor d a b) state = execPxor d a b state := rfl
theorem exec_pandn {state : State} {d} {a} {b} : exec (.pandn d a b) state = execPandn d a b state := rfl
theorem exec_porn {state : State} {d} {a} {b} : exec (.porn d a b) state = execPorn d a b state := rfl
theorem exec_pnot {state : State} {d} {a} : exec (.pnot d a) state = execPnot d a state := rfl
theorem exec_pmov {state : State} {d} {a} : exec (.pmov d a) state = execPmov d a state := rfl
theorem exec_peq {state : State} {d} {a} {b} : exec (.peq d a b) state = execPeq d a b state := rfl
theorem exec_pne {state : State} {d} {a} {b} : exec (.pne d a b) state = execPne d a b state := rfl
theorem exec_plt {state : State} {d} {a} {b} : exec (.plt d a b) state = execPlt d a b state := rfl
theorem exec_pge {state : State} {d} {a} {b} : exec (.pge d a b) state = execPge d a b state := rfl
theorem exec_pltu {state : State} {d} {a} {b} : exec (.pltu d a b) state = execPltu d a b state := rfl
theorem exec_pgeu {state : State} {d} {a} {b} : exec (.pgeu d a b) state = execPgeu d a b state := rfl
theorem exec_pget {state : State} {d} : exec (.pget d) state = execPget d state := rfl
theorem exec_pput {state : State} {a} : exec (.pput a) state = execPput a state := rfl
theorem exec_ldB {state : State} {d} {a} {o} : exec (.ldB d a o) state = execLdB d a o state := rfl
theorem exec_ldH {state : State} {d} {a} {o} : exec (.ldH d a o) state = execLdH d a o state := rfl
theorem exec_ldW {state : State} {d} {a} {o} : exec (.ldW d a o) state = execLdW d a o state := rfl
theorem exec_ldD {state : State} {d} {a} {o} : exec (.ldD d a o) state = execLdD d a o state := rfl
theorem exec_ldBu {state : State} {d} {a} {o} : exec (.ldBu d a o) state = execLdBu d a o state := rfl
theorem exec_ldHu {state : State} {d} {a} {o} : exec (.ldHu d a o) state = execLdHu d a o state := rfl
theorem exec_ldWu {state : State} {d} {a} {o} : exec (.ldWu d a o) state = execLdWu d a o state := rfl
theorem exec_stB {state : State} {d} {a} {o} : exec (.stB d a o) state = execStB d a o state := rfl
theorem exec_stH {state : State} {d} {a} {o} : exec (.stH d a o) state = execStH d a o state := rfl
theorem exec_stW {state : State} {d} {a} {o} : exec (.stW d a o) state = execStW d a o state := rfl
theorem exec_stD {state : State} {d} {a} {o} : exec (.stD d a o) state = execStD d a o state := rfl
theorem exec_enter {state : State} {d} {n} : exec (.enter d n) state = execEnter d n state := rfl
theorem exec_leave {state : State} {d} {n} : exec (.leave d n) state = execLeave d n state := rfl
theorem exec_gld {state : State} {d} {a} {u} {e} {s} : exec (.gld d a u e s) state = execGld d a u e s state := rfl
theorem exec_gst {state : State} {d} {a} {e} {s} : exec (.gst d a e s) state = execGst d a e s state := rfl
theorem exec_gvld {state : State} {d} {a} {e} : exec (.gvld d a e) state = execGvld d a e state := rfl
theorem exec_gvst {state : State} {d} {a} {e} : exec (.gvst d a e) state = execGvst d a e state := rfl
theorem exec_wrd {state : State} {d} {a} {u} {e} {s} : exec (.wrd d a u e s) state = execWrd d a u e s state := rfl
theorem exec_wwr {state : State} {d} {a} {e} {s} : exec (.wwr d a e s) state = execWwr d a e s state := rfl
theorem exec_wamo {state : State} {d} {a} {e} {o} : exec (.wamo d a e o) state = execWamo d a e o state := rfl
theorem exec_wpm {state : State} {d} {a} {b} {e} : exec (.wpm d a b e) state = execWpm d a b e state := rfl
theorem exec_amoadd {state : State} {d} {a} {b} {s} {o} : exec (.amoadd d a b s o) state = execAmoadd d a b s o state := rfl
theorem exec_amofaddD {state : State} {d} {a} {b} {s} {o} : exec (.amofaddD d a b s o) state = execAmofaddD d a b s o state := rfl
theorem exec_amofaddS {state : State} {d} {a} {b} {s} {o} : exec (.amofaddS d a b s o) state = execAmofaddS d a b s o state := rfl
theorem exec_amomin {state : State} {d} {a} {b} {s} {o} : exec (.amomin d a b s o) state = execAmomin d a b s o state := rfl
theorem exec_amomax {state : State} {d} {a} {b} {s} {o} : exec (.amomax d a b s o) state = execAmomax d a b s o state := rfl
theorem exec_amominu {state : State} {d} {a} {b} {s} {o} : exec (.amominu d a b s o) state = execAmominu d a b s o state := rfl
theorem exec_amomaxu {state : State} {d} {a} {b} {s} {o} : exec (.amomaxu d a b s o) state = execAmomaxu d a b s o state := rfl
theorem exec_amoswap {state : State} {d} {a} {b} {s} {o} : exec (.amoswap d a b s o) state = execAmoswap d a b s o state := rfl
theorem exec_amocas {state : State} {d} {a} {b} {s} {o} : exec (.amocas d a b s o) state = execAmocas d a b s o state := rfl
theorem exec_amoand {state : State} {d} {a} {b} {s} {o} : exec (.amoand d a b s o) state = execAmoand d a b s o state := rfl
theorem exec_amoor {state : State} {d} {a} {b} {s} {o} : exec (.amoor d a b s o) state = execAmoor d a b s o state := rfl
theorem exec_amoxor {state : State} {d} {a} {b} {s} {o} : exec (.amoxor d a b s o) state = execAmoxor d a b s o state := rfl
theorem exec_nwait {state : State} {d} {a} {b} {s} {o} {t} : exec (.nwait d a b s o t) state = execNwait d a b s o t state := rfl
theorem exec_fence {state : State} {s} : exec (.fence s) state = execFence s state := rfl
theorem exec_lda {state : State} {d} {a} {u} {z} {s} : exec (.lda d a u z s) state = execLda d a u z s state := rfl
theorem exec_stl {state : State} {a} {b} {z} {s} : exec (.stl a b z s) state = execStl a b z s state := rfl
theorem exec_ifence {state : State} : exec (.ifence) state = execIfence state := rfl
theorem exec_waitc {state : State} {t} {c} {s} {l} : exec (.waitc t c s l) state = execWaitc t c s l state := rfl
theorem exec_waitany {state : State} {d} {a} : exec (.waitany d a) state = execWaitany d a state := rfl
theorem exec_waitall {state : State} {a} : exec (.waitall a) state = execWaitall a state := rfl
theorem exec_ffr {state : State} {d} {a} : exec (.ffr d a) state = execFfr d a state := rfl
theorem exec_ffrClr {state : State} {d} {a} : exec (.ffrClr d a) state = execFfrClr d a state := rfl
theorem exec_waitchAny {state : State} {d} {a} {b} : exec (.waitchAny d a b) state = execWaitchAny d a b state := rfl
theorem exec_waitchAll {state : State} {d} {a} {b} : exec (.waitchAll d a b) state = execWaitchAll d a b state := rfl
theorem exec_fadd {state : State} {d} {a} {b} {r} {f} : exec (.fadd d a b r f) state = execFadd d a b r f state := rfl
theorem exec_fsub {state : State} {d} {a} {b} {r} {f} : exec (.fsub d a b r f) state = execFsub d a b r f state := rfl
theorem exec_fmul {state : State} {d} {a} {b} {r} {f} : exec (.fmul d a b r f) state = execFmul d a b r f state := rfl
theorem exec_fdiv {state : State} {d} {a} {b} {r} {f} : exec (.fdiv d a b r f) state = execFdiv d a b r f state := rfl
theorem exec_fsqrt {state : State} {d} {a} {r} {f} : exec (.fsqrt d a r f) state = execFsqrt d a r f state := rfl
theorem exec_fmin {state : State} {d} {a} {b} {f} : exec (.fmin d a b f) state = execFmin d a b f state := rfl
theorem exec_fmax {state : State} {d} {a} {b} {f} : exec (.fmax d a b f) state = execFmax d a b f state := rfl
theorem exec_fminp {state : State} {d} {a} {b} {f} : exec (.fminp d a b f) state = execFminp d a b f state := rfl
theorem exec_fmaxp {state : State} {d} {a} {b} {f} : exec (.fmaxp d a b f) state = execFmaxp d a b f state := rfl
theorem exec_feq {state : State} {p} {a} {b} {f} : exec (.feq p a b f) state = execFeq p a b f state := rfl
theorem exec_flt {state : State} {p} {a} {b} {f} : exec (.flt p a b f) state = execFlt p a b f state := rfl
theorem exec_fle {state : State} {p} {a} {b} {f} : exec (.fle p a b f) state = execFle p a b f state := rfl
theorem exec_funord {state : State} {p} {a} {b} {f} : exec (.funord p a b f) state = execFunord p a b f state := rfl
theorem exec_fclass {state : State} {d} {a} {f} : exec (.fclass d a f) state = execFclass d a f state := rfl
theorem exec_fsgnj {state : State} {d} {a} {b} {f} : exec (.fsgnj d a b f) state = execFsgnj d a b f state := rfl
theorem exec_fsgnjn {state : State} {d} {a} {b} {f} : exec (.fsgnjn d a b f) state = execFsgnjn d a b f state := rfl
theorem exec_fsgnjx {state : State} {d} {a} {b} {f} : exec (.fsgnjx d a b f) state = execFsgnjx d a b f state := rfl
theorem exec_fmadd {state : State} {d} {a} {b} {r} {f} : exec (.fmadd d a b r f) state = execFmadd d a b r f state := rfl
theorem exec_fmsub {state : State} {d} {a} {b} {r} {f} : exec (.fmsub d a b r f) state = execFmsub d a b r f state := rfl
theorem exec_fnmadd {state : State} {d} {a} {b} {r} {f} : exec (.fnmadd d a b r f) state = execFnmadd d a b r f state := rfl
theorem exec_fnmsub {state : State} {d} {a} {b} {r} {f} : exec (.fnmsub d a b r f) state = execFnmsub d a b r f state := rfl
theorem exec_fcvt {state : State} {d} {a} {t} {s} {x} {r} : exec (.fcvt d a t s x r) state = execFcvt d a t s x r state := rfl
theorem exec_fround {state : State} {d} {a} {t} {s} {r} : exec (.fround d a t s r) state = execFround d a t s r state := rfl
theorem exec_vaddFp {state : State} {d} {a} {b} {m} {l} : exec (.vaddFp d a b m l) state = execVaddFp d a b m l state := rfl
theorem exec_vsubFp {state : State} {d} {a} {b} {m} {l} : exec (.vsubFp d a b m l) state = execVsubFp d a b m l state := rfl
theorem exec_vmulFp {state : State} {d} {a} {b} {m} {l} : exec (.vmulFp d a b m l) state = execVmulFp d a b m l state := rfl
theorem exec_vdiv {state : State} {d} {a} {b} {m} {l} : exec (.vdiv d a b m l) state = execVdiv d a b m l state := rfl
theorem exec_vsqrt {state : State} {d} {a} {m} {l} : exec (.vsqrt d a m l) state = execVsqrt d a m l state := rfl
theorem exec_vminFp {state : State} {d} {a} {b} {m} {l} : exec (.vminFp d a b m l) state = execVminFp d a b m l state := rfl
theorem exec_vmaxFp {state : State} {d} {a} {b} {m} {l} : exec (.vmaxFp d a b m l) state = execVmaxFp d a b m l state := rfl
theorem exec_vfmadd {state : State} {d} {a} {b} {m} {l} : exec (.vfmadd d a b m l) state = execVfmadd d a b m l state := rfl
theorem exec_vfmsub {state : State} {d} {a} {b} {m} {l} : exec (.vfmsub d a b m l) state = execVfmsub d a b m l state := rfl
theorem exec_vfnmadd {state : State} {d} {a} {b} {m} {l} : exec (.vfnmadd d a b m l) state = execVfnmadd d a b m l state := rfl
theorem exec_vsgnj {state : State} {d} {a} {b} {m} {l} : exec (.vsgnj d a b m l) state = execVsgnj d a b m l state := rfl
theorem exec_vsgnjn {state : State} {d} {a} {b} {m} {l} : exec (.vsgnjn d a b m l) state = execVsgnjn d a b m l state := rfl
theorem exec_vsgnjx {state : State} {d} {a} {b} {m} {l} : exec (.vsgnjx d a b m l) state = execVsgnjx d a b m l state := rfl
theorem exec_vcmpeqFp {state : State} {q} {a} {b} {m} {l} : exec (.vcmpeqFp q a b m l) state = execVcmpeqFp q a b m l state := rfl
theorem exec_vcmpltFp {state : State} {q} {a} {b} {m} {l} : exec (.vcmpltFp q a b m l) state = execVcmpltFp q a b m l state := rfl
theorem exec_vcmple {state : State} {q} {a} {b} {m} {l} : exec (.vcmple q a b m l) state = execVcmple q a b m l state := rfl
theorem exec_vcmpun {state : State} {q} {a} {b} {m} {l} : exec (.vcmpun q a b m l) state = execVcmpun q a b m l state := rfl
theorem exec_vcvti {state : State} {d} {a} {m} {l} : exec (.vcvti d a m l) state = execVcvti d a m l state := rfl
theorem exec_vredsumFp {state : State} {d} {a} {m} {l} : exec (.vredsumFp d a m l) state = execVredsumFp d a m l state := rfl
theorem exec_vredminFp {state : State} {d} {a} {m} {l} : exec (.vredminFp d a m l) state = execVredminFp d a m l state := rfl
theorem exec_vredmaxFp {state : State} {d} {a} {m} {l} : exec (.vredmaxFp d a m l) state = execVredmaxFp d a m l state := rfl
theorem exec_vdot {state : State} {d} {a} {b} {m} {l} : exec (.vdot d a b m l) state = execVdot d a b m l state := rfl
theorem exec_vselFp {state : State} {d} {a} {b} {m} {l} : exec (.vselFp d a b m l) state = execVselFp d a b m l state := rfl
theorem exec_vaddInt {state : State} {d} {a} {b} {m} {l} : exec (.vaddInt d a b m l) state = execVaddInt d a b m l state := rfl
theorem exec_vsubInt {state : State} {d} {a} {b} {m} {l} : exec (.vsubInt d a b m l) state = execVsubInt d a b m l state := rfl
theorem exec_vmulInt {state : State} {d} {a} {b} {m} {l} : exec (.vmulInt d a b m l) state = execVmulInt d a b m l state := rfl
theorem exec_vmulh {state : State} {d} {a} {b} {m} {l} : exec (.vmulh d a b m l) state = execVmulh d a b m l state := rfl
theorem exec_vminInt {state : State} {d} {a} {b} {m} {l} : exec (.vminInt d a b m l) state = execVminInt d a b m l state := rfl
theorem exec_vmaxInt {state : State} {d} {a} {b} {m} {l} : exec (.vmaxInt d a b m l) state = execVmaxInt d a b m l state := rfl
theorem exec_vminu {state : State} {d} {a} {b} {m} {l} : exec (.vminu d a b m l) state = execVminu d a b m l state := rfl
theorem exec_vmaxu {state : State} {d} {a} {b} {m} {l} : exec (.vmaxu d a b m l) state = execVmaxu d a b m l state := rfl
theorem exec_vaddss {state : State} {d} {a} {b} {m} {l} : exec (.vaddss d a b m l) state = execVaddss d a b m l state := rfl
theorem exec_vsubss {state : State} {d} {a} {b} {m} {l} : exec (.vsubss d a b m l) state = execVsubss d a b m l state := rfl
theorem exec_vaddus {state : State} {d} {a} {b} {m} {l} : exec (.vaddus d a b m l) state = execVaddus d a b m l state := rfl
theorem exec_vsubus {state : State} {d} {a} {b} {m} {l} : exec (.vsubus d a b m l) state = execVsubus d a b m l state := rfl
theorem exec_vand {state : State} {d} {a} {b} {m} {l} : exec (.vand d a b m l) state = execVand d a b m l state := rfl
theorem exec_vor {state : State} {d} {a} {b} {m} {l} : exec (.vor d a b m l) state = execVor d a b m l state := rfl
theorem exec_vxor {state : State} {d} {a} {b} {m} {l} : exec (.vxor d a b m l) state = execVxor d a b m l state := rfl
theorem exec_vandn {state : State} {d} {a} {b} {m} {l} : exec (.vandn d a b m l) state = execVandn d a b m l state := rfl
theorem exec_vsll {state : State} {d} {a} {b} {m} {l} : exec (.vsll d a b m l) state = execVsll d a b m l state := rfl
theorem exec_vsrl {state : State} {d} {a} {b} {m} {l} : exec (.vsrl d a b m l) state = execVsrl d a b m l state := rfl
theorem exec_vsra {state : State} {d} {a} {b} {m} {l} : exec (.vsra d a b m l) state = execVsra d a b m l state := rfl
theorem exec_vcmpeqInt {state : State} {q} {a} {b} {m} {l} : exec (.vcmpeqInt q a b m l) state = execVcmpeqInt q a b m l state := rfl
theorem exec_vcmpltInt {state : State} {q} {a} {b} {m} {l} : exec (.vcmpltInt q a b m l) state = execVcmpltInt q a b m l state := rfl
theorem exec_vcmpltu {state : State} {q} {a} {b} {m} {l} : exec (.vcmpltu q a b m l) state = execVcmpltu q a b m l state := rfl
theorem exec_vcvtf {state : State} {d} {a} {m} {l} : exec (.vcvtf d a m l) state = execVcvtf d a m l state := rfl
theorem exec_vredsumInt {state : State} {d} {a} {m} {l} : exec (.vredsumInt d a m l) state = execVredsumInt d a m l state := rfl
theorem exec_vredminInt {state : State} {d} {a} {m} {l} : exec (.vredminInt d a m l) state = execVredminInt d a m l state := rfl
theorem exec_vredmaxInt {state : State} {d} {a} {m} {l} : exec (.vredmaxInt d a m l) state = execVredmaxInt d a m l state := rfl
theorem exec_vmla {state : State} {d} {a} {b} {m} {l} : exec (.vmla d a b m l) state = execVmla d a b m l state := rfl
theorem exec_vselInt {state : State} {d} {a} {b} {m} {l} : exec (.vselInt d a b m l) state = execVselInt d a b m l state := rfl
theorem exec_qand {state : State} {d} {a} {b} : exec (.qand d a b) state = execQand d a b state := rfl
theorem exec_qor {state : State} {d} {a} {b} : exec (.qor d a b) state = execQor d a b state := rfl
theorem exec_qxor {state : State} {d} {a} {b} : exec (.qxor d a b) state = execQxor d a b state := rfl
theorem exec_qandn {state : State} {d} {a} {b} : exec (.qandn d a b) state = execQandn d a b state := rfl
theorem exec_qget {state : State} {d} {a} : exec (.qget d a) state = execQget d a state := rfl
theorem exec_qput {state : State} {d} {a} : exec (.qput d a) state = execQput d a state := rfl
theorem exec_vld {state : State} {d} {a} {o} : exec (.vld d a o) state = execVld d a o state := rfl
theorem exec_vst {state : State} {d} {a} {o} : exec (.vst d a o) state = execVst d a o state := rfl
theorem exec_vlds {state : State} {d} {a} {b} {m} {w} : exec (.vlds d a b m w) state = execVlds d a b m w state := rfl
theorem exec_vsts {state : State} {d} {a} {b} {m} {w} : exec (.vsts d a b m w) state = execVsts d a b m w state := rfl
theorem exec_vgather {state : State} {d} {a} {b} {m} {w} : exec (.vgather d a b m w) state = execVgather d a b m w state := rfl
theorem exec_vscatter {state : State} {d} {a} {b} {m} {w} : exec (.vscatter d a b m w) state = execVscatter d a b m w state := rfl
theorem exec_vldb {state : State} {d} {a} {m} {w} : exec (.vldb d a m w) state = execVldb d a m w state := rfl
theorem exec_vperm {state : State} {d} {a} {b} {m} {w} : exec (.vperm d a b m w) state = execVperm d a b m w state := rfl
theorem exec_vzip {state : State} {d} {a} {b} {m} {w} : exec (.vzip d a b m w) state = execVzip d a b m w state := rfl
theorem exec_vziph {state : State} {d} {a} {b} {m} {w} : exec (.vziph d a b m w) state = execVziph d a b m w state := rfl
theorem exec_vslideup {state : State} {d} {a} {b} {m} {w} : exec (.vslideup d a b m w) state = execVslideup d a b m w state := rfl
theorem exec_vslidedn {state : State} {d} {a} {b} {m} {w} : exec (.vslidedn d a b m w) state = execVslidedn d a b m w state := rfl
theorem exec_vins {state : State} {d} {a} {b} {w} : exec (.vins d a b w) state = execVins d a b w state := rfl
theorem exec_vext {state : State} {d} {a} {b} {w} : exec (.vext d a b w) state = execVext d a b w state := rfl
theorem exec_vbcast {state : State} {d} {a} {m} {w} : exec (.vbcast d a m w) state = execVbcast d a m w state := rfl
theorem exec_vcompress {state : State} {d} {a} {m} {w} : exec (.vcompress d a m w) state = execVcompress d a m w state := rfl
theorem exec_send {state : State} {d} {c} {l} {e} : exec (.send d c l e) state = execSend d c l e state := rfl
theorem exec_recv {state : State} {d} {c} {l} {e} : exec (.recv d c l e) state = execRecv d c l e state := rfl
theorem exec_offer {state : State} {d} {e} : exec (.offer d e) state = execOffer d e state := rfl
theorem exec_select {state : State} {l} {e} : exec (.select l e) state = execSelect l e state := rfl
theorem exec_connect {state : State} {d} {e} : exec (.connect d e) state = execConnect d e state := rfl
theorem exec_accept {state : State} {e} : exec (.accept e) state = execAccept e state := rfl
theorem exec_delegate {state : State} {d} {l} {e} : exec (.delegate d l e) state = execDelegate d l e state := rfl
theorem exec_delegateRx {state : State} {d} {l} {e} : exec (.delegateRx d l e) state = execDelegateRx d l e state := rfl
theorem exec_close {state : State} {e} : exec (.close e) state = execClose e state := rfl
theorem exec_probe {state : State} {d} {l} {e} : exec (.probe d l e) state = execProbe d l e state := rfl
theorem exec_sbindG30 {state : State} {e} : exec (.sbindG30 e) state = execSbindG30 e state := rfl
theorem exec_sbindG31 {state : State} {e} : exec (.sbindG31 e) state = execSbindG31 e state := rfl
theorem exec_sbindOff {state : State} {e} : exec (.sbindOff e) state = execSbindOff e state := rfl
theorem exec_waite {state : State} {d} : exec (.waite d) state = execWaite d state := rfl
theorem exec_cpwr {state : State} {a} {n} : exec (.cpwr a n) state = execCpwr a n state := rfl
theorem exec_cprd {state : State} {d} {n} : exec (.cprd d n) state = execCprd d n state := rfl
theorem exec_cpgo {state : State} {d} : exec (.cpgo d) state = execCpgo d state := rfl
theorem exec_cpgoRemote {state : State} {d} {e} : exec (.cpgoRemote d e) state = execCpgoRemote d e state := rfl
theorem exec_cpret {state : State} {a} {b} : exec (.cpret a b) state = execCpret a b state := rfl
theorem exec_tzero {state : State} {f} {t} : exec (.tzero f t) state = execTzero f t state := rfl
theorem exec_tstat {state : State} {d} {t} : exec (.tstat d t) state = execTstat d t state := rfl
theorem exec_tmma {state : State} {a} {b} {s} {t} : exec (.tmma a b s t) state = execTmma a b s t state := rfl
theorem exec_tdrain {state : State} {a} {b} {t} {e} : exec (.tdrain a b t e) state = execTdrain a b t e state := rfl
theorem exec_gzero {state : State} {t} {n} : exec (.gzero t n) state = execGzero t n state := rfl
theorem exec_gstat {state : State} {d} {t} : exec (.gstat d t) state = execGstat d t state := rfl
theorem exec_gwait {state : State} {d} {a} : exec (.gwait d a) state = execGwait d a state := rfl
theorem exec_gmab {state : State} {d} {a} : exec (.gmab d a) state = execGmab d a state := rfl
theorem exec_gloadf {state : State} {a} {t} : exec (.gloadf a t) state = execGloadf a t state := rfl
theorem exec_gadd {state : State} {a} {b} {r} {c} {t} : exec (.gadd a b r c t) state = execGadd a b r c t state := rfl
theorem exec_gsub {state : State} {a} {b} {r} {c} {t} : exec (.gsub a b r c t) state = execGsub a b r c t state := rfl
theorem exec_gschur {state : State} {a} {r} {t} : exec (.gschur a r t) state = execGschur a r t state := rfl
theorem exec_gsolve {state : State} {a} {r} {t} : exec (.gsolve a r t) state = execGsolve a r t state := rfl
theorem exec_gdamp {state : State} {d} {a} {r} {t} : exec (.gdamp d a r t) state = execGdamp d a r t state := rfl
theorem exec_gstorm {state : State} {a} {t} : exec (.gstorm a t) state = execGstorm a t state := rfl
theorem exec_gstormSend {state : State} {a} {e} : exec (.gstormSend a e) state = execGstormSend a e state := rfl
theorem exec_smark {state : State} {a} : exec (.smark a) state = execSmark a state := rfl
theorem exec_rjoin {state : State} {a} {e} : exec (.rjoin a e) state = execRjoin a e state := rfl
theorem exec_rput {state : State} {a} {e} : exec (.rput a e) state = execRput a e state := rfl
theorem exec_rget {state : State} {d} {a} {e} : exec (.rget d a e) state = execRget d a e state := rfl
theorem exec_rcorr {state : State} {a} {b} {e} : exec (.rcorr a b e) state = execRcorr a b e state := rfl
theorem exec_rtopk {state : State} {a} {b} {e} : exec (.rtopk a b e) state = execRtopk a b e state := rfl
theorem exec_waitw {state : State} : exec (.waitw) state = execWaitw state := rfl
theorem exec_suspend {state : State} {a} : exec (.suspend a) state = execSuspend a state := rfl
theorem exec_retire {state : State} : exec (.retire) state = execRetire state := rfl
theorem exec_spawn {state : State} {a} {b} : exec (.spawn a b) state = execSpawn a b state := rfl
theorem exec_qhandle {state : State} {d} {a} : exec (.qhandle d a) state = execQhandle d a state := rfl
theorem exec_qreset {state : State} {a} : exec (.qreset a) state = execQreset a state := rfl
theorem exec_qstat {state : State} {d} {a} : exec (.qstat d a) state = execQstat d a state := rfl
theorem exec_dqpush {state : State} {d} {a} : exec (.dqpush d a) state = execDqpush d a state := rfl
theorem exec_dqpop {state : State} {d} : exec (.dqpop d) state = execDqpop d state := rfl
theorem exec_dqsteal {state : State} {d} {a} : exec (.dqsteal d a) state = execDqsteal d a state := rfl
theorem exec_dqcount {state : State} {d} : exec (.dqcount d) state = execDqcount d state := rfl
theorem exec_ttask {state : State} {a} : exec (.ttask a) state = execTtask a state := rfl
theorem exec_tgroup {state : State} {a} {b} : exec (.tgroup a b) state = execTgroup a b state := rfl
theorem exec_gang {state : State} {d} {n} : exec (.gang d n) state = execGang d n state := rfl
theorem exec_disband {state : State} : exec (.disband) state = execDisband state := rfl
theorem exec_start {state : State} {d} {a} : exec (.start d a) state = execStart d a state := rfl
theorem exec_startPc {state : State} {d} {a} {b} : exec (.startPc d a b) state = execStartPc d a b state := rfl
theorem exec_stop {state : State} {d} {a} : exec (.stop d a) state = execStop d a state := rfl
theorem exec_reap {state : State} {d} {a} : exec (.reap d a) state = execReap d a state := rfl
theorem exec_rdctx {state : State} {d} {a} : exec (.rdctx d a) state = execRdctx d a state := rfl
theorem exec_wrctx {state : State} {a} {b} : exec (.wrctx a b) state = execWrctx a b state := rfl
theorem exec_rdcore {state : State} {d} {a} : exec (.rdcore d a) state = execRdcore d a state := rfl
theorem exec_wrcore {state : State} {a} {b} : exec (.wrcore a b) state = execWrcore a b state := rfl
theorem exec_yield {state : State} {n} : exec (.yield n) state = execYield n state := rfl
theorem exec_semwait {state : State} {s} : exec (.semwait s) state = execSemwait s state := rfl
theorem exec_sempost {state : State} {b} {s} : exec (.sempost b s) state = execSempost b s state := rfl
theorem exec_semget {state : State} {d} {s} : exec (.semget d s) state = execSemget d s state := rfl
theorem exec_semset {state : State} {b} {s} : exec (.semset b s) state = execSemset b s state := rfl
theorem exec_fswait {state : State} {s} : exec (.fswait s) state = execFswait s state := rfl
theorem exec_fspost {state : State} {b} {s} : exec (.fspost b s) state = execFspost b s state := rfl
theorem exec_fsget {state : State} {d} {s} : exec (.fsget d s) state = execFsget d s state := rfl
theorem exec_fsset {state : State} {b} {s} : exec (.fsset b s) state = execFsset b s state := rfl
theorem exec_fbar {state : State} {b} {s} : exec (.fbar b s) state = execFbar b s state := rfl
theorem exec_funion {state : State} {d} : exec (.funion d) state = execFunion d state := rfl
theorem exec_rdfloe {state : State} {d} {a} : exec (.rdfloe d a) state = execRdfloe d a state := rfl
theorem exec_wrfloe {state : State} {a} {b} : exec (.wrfloe a b) state = execWrfloe a b state := rfl
theorem exec_xset {state : State} {x} {a} : exec (.xset x a) state = execXset x a state := rfl
theorem exec_xld {state : State} {x} {a} {o} : exec (.xld x a o) state = execXld x a o state := rfl
theorem exec_xget {state : State} {d} {x} : exec (.xget d x) state = execXget d x state := rfl
theorem exec_mfs {state : State} {d} {n} : exec (.mfs d n) state = execMfs d n state := rfl
theorem exec_mts {state : State} {a} {n} : exec (.mts a n) state = execMts a n state := rfl
theorem exec_eret {state : State} : exec (.eret) state = execEret state := rfl
theorem exec_trap {state : State} {c} : exec (.trap c) state = execTrap c state := rfl
theorem exec_brk {state : State} : exec (.brk) state = execBrk state := rfl
theorem exec_evwait {state : State} {d} : exec (.evwait d) state = execEvwait d state := rfl
theorem exec_evget {state : State} {d} : exec (.evget d) state = execEvget d state := rfl
theorem exec_evpost {state : State} {a} : exec (.evpost a) state = execEvpost a state := rfl
theorem exec_evstat {state : State} {d} : exec (.evstat d) state = execEvstat d state := rfl
theorem exec_tmset {state : State} {a} : exec (.tmset a) state = execTmset a state := rfl
theorem exec_tmget {state : State} {d} : exec (.tmget d) state = execTmget d state := rfl
theorem exec_cAddi {state : State} {d} {i} : exec (.cAddi d i) state = execCAddi d i state := rfl
theorem exec_cLi {state : State} {d} {i} : exec (.cLi d i) state = execCLi d i state := rfl
theorem exec_cMv {state : State} {d} {b} : exec (.cMv d b) state = execCMv d b state := rfl
theorem exec_cAdd {state : State} {d} {b} : exec (.cAdd d b) state = execCAdd d b state := rfl
theorem exec_cSub {state : State} {d} {b} : exec (.cSub d b) state = execCSub d b state := rfl
theorem exec_cLdD {state : State} {d} {u} : exec (.cLdD d u) state = execCLdD d u state := rfl
theorem exec_cStD {state : State} {d} {u} : exec (.cStD d u) state = execCStD d u state := rfl
theorem exec_cSlli {state : State} {d} {n} : exec (.cSlli d n) state = execCSlli d n state := rfl
theorem exec_cBeqz {state : State} {d} {o} : exec (.cBeqz d o) state = execCBeqz d o state := rfl
theorem exec_cBnez {state : State} {d} {o} : exec (.cBnez d o) state = execCBnez d o state := rfl
theorem exec_cJ {state : State} {o} : exec (.cJ o) state = execCJ o state := rfl
theorem exec_cJal {state : State} {o} : exec (.cJal o) state = execCJal o state := rfl
theorem exec_cJr {state : State} {d} : exec (.cJr d) state = execCJr d state := rfl
theorem exec_cAnd {state : State} {d} {b} : exec (.cAnd d b) state = execCAnd d b state := rfl
theorem exec_cOr {state : State} {d} {b} : exec (.cOr d b) state = execCOr d b state := rfl
theorem exec_cXor {state : State} {d} {b} : exec (.cXor d b) state = execCXor d b state := rfl
theorem exec_cLdW {state : State} {d} {u} : exec (.cLdW d u) state = execCLdW d u state := rfl
theorem exec_cStW {state : State} {d} {u} : exec (.cStW d u) state = execCStW d u state := rfl
theorem exec_cSrai {state : State} {d} {n} : exec (.cSrai d n) state = execCSrai d n state := rfl
theorem exec_cSrli {state : State} {d} {n} : exec (.cSrli d n) state = execCSrli d n state := rfl
theorem exec_cAndi {state : State} {d} {i} : exec (.cAndi d i) state = execCAndi d i state := rfl
theorem exec_cNop {state : State} : exec (.cNop) state = execCNop state := rfl

end Sys2Proof.Machine
end

