-- ==== Sys2Proof/Laws/State.lean ====
section
/-! SUPPORT. What each update of the state leaves in each field: one lemma a field and update, and reading a
core, a context, an endpoint or a floe after an update. -/

namespace Sys2Proof.Machine

/-! ### Tables -/

theorem Tab.look_put_same {α : Type} (d : α) (t : Tab α) (k : Nat) (a : α) : (t.put k a).look d k = a := by
  induction t with
  | nil => simp [Tab.put, Tab.look]
  | cons e t ih =>
    obtain ⟨j, b⟩ := e
    by_cases h : j = k <;> simp [Tab.put, Tab.look, h, ih]

theorem Tab.look_put_other {α : Type} (d : α) (t : Tab α) (k j : Nat) (a : α) (h : k ≠ j) :
    (t.put k a).look d j = t.look d j := by
  induction t with
  | nil => simp [Tab.put, Tab.look, h]
  | cons e t ih =>
    obtain ⟨i, b⟩ := e
    by_cases hi : i = k
    · subst hi; simp [Tab.put, Tab.look, h]
    · simp only [Tab.put, hi, if_false, Tab.look, ih]

/-! ### Fields untouched by an update -/

@[simp] theorem State.setCore_floes (s : State) (c : CoreId) (x : Core) : (s.setCore c x).floes = s.floes := rfl
@[simp] theorem State.setCore_mem (s : State) (c : CoreId) (x : Core) : (s.setCore c x).mem = s.mem := rfl
@[simp] theorem State.setCore_bad (s : State) (c : CoreId) (x : Core) : (s.setCore c x).bad = s.bad := rfl
@[simp] theorem State.setCore_weak (s : State) (c : CoreId) (x : Core) : (s.setCore c x).weak = s.weak := rfl
@[simp] theorem State.setCore_unitKeys (s : State) (c : CoreId) (x : Core) : (s.setCore c x).unitKeys = s.unitKeys := rfl
@[simp] theorem State.setCore_net (s : State) (c : CoreId) (x : Core) : (s.setCore c x).net = s.net := rfl
@[simp] theorem State.setCore_walkTurn (s : State) (c : CoreId) (x : Core) : (s.setCore c x).walkTurn = s.walkTurn := rfl
@[simp] theorem State.setCore_hwEnds (s : State) (c : CoreId) (x : Core) : (s.setCore c x).hwEnds = s.hwEnds := rfl
@[simp] theorem State.setCore_keys (s : State) (c : CoreId) (x : Core) : (s.setCore c x).keys = s.keys := rfl
@[simp] theorem State.setCore_ctrlKeys (s : State) (c : CoreId) (x : Core) : (s.setCore c x).ctrlKeys = s.ctrlKeys := rfl
@[simp] theorem State.setCore_chans (s : State) (c : CoreId) (x : Core) : (s.setCore c x).chans = s.chans := rfl
@[simp] theorem State.setCore_hostOut (s : State) (c : CoreId) (x : Core) : (s.setCore c x).hostOut = s.hostOut := rfl
@[simp] theorem State.setCore_mfault (s : State) (c : CoreId) (x : Core) : (s.setCore c x).mfault = s.mfault := rfl
@[simp] theorem State.setCore_apol (s : State) (c : CoreId) (x : Core) : (s.setCore c x).apol = s.apol := rfl
@[simp] theorem State.setCore_alog (s : State) (c : CoreId) (x : Core) : (s.setCore c x).alog = s.alog := rfl
@[simp] theorem State.setCore_pcap (s : State) (c : CoreId) (x : Core) : (s.setCore c x).pcap = s.pcap := rfl
@[simp] theorem State.setCore_tmax (s : State) (c : CoreId) (x : Core) : (s.setCore c x).tmax = s.tmax := rfl
@[simp] theorem State.setCore_pwr (s : State) (c : CoreId) (x : Core) : (s.setCore c x).pwr = s.pwr := rfl
@[simp] theorem State.setCore_mecc (s : State) (c : CoreId) (x : Core) : (s.setCore c x).mecc = s.mecc := rfl
@[simp] theorem State.setCore_failed (s : State) (c : CoreId) (x : Core) : (s.setCore c x).failed = s.failed := rfl
@[simp] theorem State.setCore_rollback (s : State) (c : CoreId) (x : Core) : (s.setCore c x).rollback = s.rollback := rfl
@[simp] theorem State.setCore_measures (s : State) (c : CoreId) (x : Core) : (s.setCore c x).measures = s.measures := rfl
@[simp] theorem State.setCore_i3c (s : State) (c : CoreId) (x : Core) : (s.setCore c x).i3c = s.i3c := rfl
@[simp] theorem State.setCore_flash (s : State) (c : CoreId) (x : Core) : (s.setCore c x).flash = s.flash := rfl
@[simp] theorem State.setCore_firmware (s : State) (c : CoreId) (x : Core) : (s.setCore c x).firmware = s.firmware := rfl
@[simp] theorem State.setCore_fid (s : State) (c : CoreId) (x : Core) : (s.setCore c x).fid = s.fid := rfl
@[simp] theorem State.setCore_fretry (s : State) (c : CoreId) (x : Core) : (s.setCore c x).fretry = s.fretry := rfl
@[simp] theorem State.setCore_fdrop (s : State) (c : CoreId) (x : Core) : (s.setCore c x).fdrop = s.fdrop := rfl
@[simp] theorem State.setCore_flost (s : State) (c : CoreId) (x : Core) : (s.setCore c x).flost = s.flost := rfl
@[simp] theorem State.setCore_lostTab (s : State) (c : CoreId) (x : Core) : (s.setCore c x).lostTab = s.lostTab := rfl
@[simp] theorem State.setCore_ports (s : State) (c : CoreId) (x : Core) : (s.setCore c x).ports = s.ports := rfl
@[simp] theorem State.setCore_agenda (s : State) (c : CoreId) (x : Core) : (s.setCore c x).agenda = s.agenda := rfl
@[simp] theorem State.setCore_cur (s : State) (c : CoreId) (x : Core) : (s.setCore c x).cur = s.cur := rfl
@[simp] theorem State.setCore_free (s : State) (c : CoreId) (x : Core) : (s.setCore c x).free = s.free := rfl
@[simp] theorem State.setCore_keyWrites (s : State) (c : CoreId) (x : Core) : (s.setCore c x).keyWrites = s.keyWrites := rfl
@[simp] theorem State.setCore_failing (s : State) (c : CoreId) (x : Core) : (s.setCore c x).failing = s.failing := rfl
@[simp] theorem State.setCore_loading (s : State) (c : CoreId) (x : Core) : (s.setCore c x).loading = s.loading := rfl
@[simp] theorem State.setCore_rings (s : State) (c : CoreId) (x : Core) : (s.setCore c x).rings = s.rings := rfl

@[simp] theorem State.mapCore_floes (s : State) (c : CoreId) (f : Core → Core) : (s.mapCore c f).floes = s.floes := rfl
@[simp] theorem State.mapCore_mem (s : State) (c : CoreId) (f : Core → Core) : (s.mapCore c f).mem = s.mem := rfl
@[simp] theorem State.mapCore_bad (s : State) (c : CoreId) (f : Core → Core) : (s.mapCore c f).bad = s.bad := rfl
@[simp] theorem State.mapCore_weak (s : State) (c : CoreId) (f : Core → Core) : (s.mapCore c f).weak = s.weak := rfl
@[simp] theorem State.mapCore_unitKeys (s : State) (c : CoreId) (f : Core → Core) : (s.mapCore c f).unitKeys = s.unitKeys := rfl
@[simp] theorem State.mapCore_net (s : State) (c : CoreId) (f : Core → Core) : (s.mapCore c f).net = s.net := rfl
@[simp] theorem State.mapCore_walkTurn (s : State) (c : CoreId) (f : Core → Core) : (s.mapCore c f).walkTurn = s.walkTurn := rfl
@[simp] theorem State.mapCore_hwEnds (s : State) (c : CoreId) (f : Core → Core) : (s.mapCore c f).hwEnds = s.hwEnds := rfl
@[simp] theorem State.mapCore_keys (s : State) (c : CoreId) (f : Core → Core) : (s.mapCore c f).keys = s.keys := rfl
@[simp] theorem State.mapCore_ctrlKeys (s : State) (c : CoreId) (f : Core → Core) : (s.mapCore c f).ctrlKeys = s.ctrlKeys := rfl
@[simp] theorem State.mapCore_chans (s : State) (c : CoreId) (f : Core → Core) : (s.mapCore c f).chans = s.chans := rfl
@[simp] theorem State.mapCore_hostOut (s : State) (c : CoreId) (f : Core → Core) : (s.mapCore c f).hostOut = s.hostOut := rfl
@[simp] theorem State.mapCore_mfault (s : State) (c : CoreId) (f : Core → Core) : (s.mapCore c f).mfault = s.mfault := rfl
@[simp] theorem State.mapCore_apol (s : State) (c : CoreId) (f : Core → Core) : (s.mapCore c f).apol = s.apol := rfl
@[simp] theorem State.mapCore_alog (s : State) (c : CoreId) (f : Core → Core) : (s.mapCore c f).alog = s.alog := rfl
@[simp] theorem State.mapCore_pcap (s : State) (c : CoreId) (f : Core → Core) : (s.mapCore c f).pcap = s.pcap := rfl
@[simp] theorem State.mapCore_tmax (s : State) (c : CoreId) (f : Core → Core) : (s.mapCore c f).tmax = s.tmax := rfl
@[simp] theorem State.mapCore_pwr (s : State) (c : CoreId) (f : Core → Core) : (s.mapCore c f).pwr = s.pwr := rfl
@[simp] theorem State.mapCore_mecc (s : State) (c : CoreId) (f : Core → Core) : (s.mapCore c f).mecc = s.mecc := rfl
@[simp] theorem State.mapCore_failed (s : State) (c : CoreId) (f : Core → Core) : (s.mapCore c f).failed = s.failed := rfl
@[simp] theorem State.mapCore_rollback (s : State) (c : CoreId) (f : Core → Core) : (s.mapCore c f).rollback = s.rollback := rfl
@[simp] theorem State.mapCore_measures (s : State) (c : CoreId) (f : Core → Core) : (s.mapCore c f).measures = s.measures := rfl
@[simp] theorem State.mapCore_i3c (s : State) (c : CoreId) (f : Core → Core) : (s.mapCore c f).i3c = s.i3c := rfl
@[simp] theorem State.mapCore_flash (s : State) (c : CoreId) (f : Core → Core) : (s.mapCore c f).flash = s.flash := rfl
@[simp] theorem State.mapCore_firmware (s : State) (c : CoreId) (f : Core → Core) : (s.mapCore c f).firmware = s.firmware := rfl
@[simp] theorem State.mapCore_fid (s : State) (c : CoreId) (f : Core → Core) : (s.mapCore c f).fid = s.fid := rfl
@[simp] theorem State.mapCore_fretry (s : State) (c : CoreId) (f : Core → Core) : (s.mapCore c f).fretry = s.fretry := rfl
@[simp] theorem State.mapCore_fdrop (s : State) (c : CoreId) (f : Core → Core) : (s.mapCore c f).fdrop = s.fdrop := rfl
@[simp] theorem State.mapCore_flost (s : State) (c : CoreId) (f : Core → Core) : (s.mapCore c f).flost = s.flost := rfl
@[simp] theorem State.mapCore_lostTab (s : State) (c : CoreId) (f : Core → Core) : (s.mapCore c f).lostTab = s.lostTab := rfl
@[simp] theorem State.mapCore_ports (s : State) (c : CoreId) (f : Core → Core) : (s.mapCore c f).ports = s.ports := rfl
@[simp] theorem State.mapCore_agenda (s : State) (c : CoreId) (f : Core → Core) : (s.mapCore c f).agenda = s.agenda := rfl
@[simp] theorem State.mapCore_cur (s : State) (c : CoreId) (f : Core → Core) : (s.mapCore c f).cur = s.cur := rfl
@[simp] theorem State.mapCore_free (s : State) (c : CoreId) (f : Core → Core) : (s.mapCore c f).free = s.free := rfl
@[simp] theorem State.mapCore_keyWrites (s : State) (c : CoreId) (f : Core → Core) : (s.mapCore c f).keyWrites = s.keyWrites := rfl
@[simp] theorem State.mapCore_failing (s : State) (c : CoreId) (f : Core → Core) : (s.mapCore c f).failing = s.failing := rfl
@[simp] theorem State.mapCore_loading (s : State) (c : CoreId) (f : Core → Core) : (s.mapCore c f).loading = s.loading := rfl
@[simp] theorem State.mapCore_rings (s : State) (c : CoreId) (f : Core → Core) : (s.mapCore c f).rings = s.rings := rfl

@[simp] theorem State.mapMe_floes (s : State) (f : Core → Core) : (s.mapMe f).floes = s.floes := rfl
@[simp] theorem State.mapMe_mem (s : State) (f : Core → Core) : (s.mapMe f).mem = s.mem := rfl
@[simp] theorem State.mapMe_bad (s : State) (f : Core → Core) : (s.mapMe f).bad = s.bad := rfl
@[simp] theorem State.mapMe_weak (s : State) (f : Core → Core) : (s.mapMe f).weak = s.weak := rfl
@[simp] theorem State.mapMe_unitKeys (s : State) (f : Core → Core) : (s.mapMe f).unitKeys = s.unitKeys := rfl
@[simp] theorem State.mapMe_net (s : State) (f : Core → Core) : (s.mapMe f).net = s.net := rfl
@[simp] theorem State.mapMe_walkTurn (s : State) (f : Core → Core) : (s.mapMe f).walkTurn = s.walkTurn := rfl
@[simp] theorem State.mapMe_hwEnds (s : State) (f : Core → Core) : (s.mapMe f).hwEnds = s.hwEnds := rfl
@[simp] theorem State.mapMe_keys (s : State) (f : Core → Core) : (s.mapMe f).keys = s.keys := rfl
@[simp] theorem State.mapMe_ctrlKeys (s : State) (f : Core → Core) : (s.mapMe f).ctrlKeys = s.ctrlKeys := rfl
@[simp] theorem State.mapMe_chans (s : State) (f : Core → Core) : (s.mapMe f).chans = s.chans := rfl
@[simp] theorem State.mapMe_hostOut (s : State) (f : Core → Core) : (s.mapMe f).hostOut = s.hostOut := rfl
@[simp] theorem State.mapMe_mfault (s : State) (f : Core → Core) : (s.mapMe f).mfault = s.mfault := rfl
@[simp] theorem State.mapMe_apol (s : State) (f : Core → Core) : (s.mapMe f).apol = s.apol := rfl
@[simp] theorem State.mapMe_alog (s : State) (f : Core → Core) : (s.mapMe f).alog = s.alog := rfl
@[simp] theorem State.mapMe_pcap (s : State) (f : Core → Core) : (s.mapMe f).pcap = s.pcap := rfl
@[simp] theorem State.mapMe_tmax (s : State) (f : Core → Core) : (s.mapMe f).tmax = s.tmax := rfl
@[simp] theorem State.mapMe_pwr (s : State) (f : Core → Core) : (s.mapMe f).pwr = s.pwr := rfl
@[simp] theorem State.mapMe_mecc (s : State) (f : Core → Core) : (s.mapMe f).mecc = s.mecc := rfl
@[simp] theorem State.mapMe_failed (s : State) (f : Core → Core) : (s.mapMe f).failed = s.failed := rfl
@[simp] theorem State.mapMe_rollback (s : State) (f : Core → Core) : (s.mapMe f).rollback = s.rollback := rfl
@[simp] theorem State.mapMe_measures (s : State) (f : Core → Core) : (s.mapMe f).measures = s.measures := rfl
@[simp] theorem State.mapMe_i3c (s : State) (f : Core → Core) : (s.mapMe f).i3c = s.i3c := rfl
@[simp] theorem State.mapMe_flash (s : State) (f : Core → Core) : (s.mapMe f).flash = s.flash := rfl
@[simp] theorem State.mapMe_firmware (s : State) (f : Core → Core) : (s.mapMe f).firmware = s.firmware := rfl
@[simp] theorem State.mapMe_fid (s : State) (f : Core → Core) : (s.mapMe f).fid = s.fid := rfl
@[simp] theorem State.mapMe_fretry (s : State) (f : Core → Core) : (s.mapMe f).fretry = s.fretry := rfl
@[simp] theorem State.mapMe_fdrop (s : State) (f : Core → Core) : (s.mapMe f).fdrop = s.fdrop := rfl
@[simp] theorem State.mapMe_flost (s : State) (f : Core → Core) : (s.mapMe f).flost = s.flost := rfl
@[simp] theorem State.mapMe_lostTab (s : State) (f : Core → Core) : (s.mapMe f).lostTab = s.lostTab := rfl
@[simp] theorem State.mapMe_ports (s : State) (f : Core → Core) : (s.mapMe f).ports = s.ports := rfl
@[simp] theorem State.mapMe_agenda (s : State) (f : Core → Core) : (s.mapMe f).agenda = s.agenda := rfl
@[simp] theorem State.mapMe_cur (s : State) (f : Core → Core) : (s.mapMe f).cur = s.cur := rfl
@[simp] theorem State.mapMe_free (s : State) (f : Core → Core) : (s.mapMe f).free = s.free := rfl
@[simp] theorem State.mapMe_keyWrites (s : State) (f : Core → Core) : (s.mapMe f).keyWrites = s.keyWrites := rfl
@[simp] theorem State.mapMe_failing (s : State) (f : Core → Core) : (s.mapMe f).failing = s.failing := rfl
@[simp] theorem State.mapMe_loading (s : State) (f : Core → Core) : (s.mapMe f).loading = s.loading := rfl
@[simp] theorem State.mapMe_rings (s : State) (f : Core → Core) : (s.mapMe f).rings = s.rings := rfl

@[simp] theorem State.mapCtxAt_floes (s : State) (c : CoreId) (k : CtxId) (f : Ctx → Ctx) : (s.mapCtxAt c k f).floes = s.floes := rfl
@[simp] theorem State.mapCtxAt_mem (s : State) (c : CoreId) (k : CtxId) (f : Ctx → Ctx) : (s.mapCtxAt c k f).mem = s.mem := rfl
@[simp] theorem State.mapCtxAt_bad (s : State) (c : CoreId) (k : CtxId) (f : Ctx → Ctx) : (s.mapCtxAt c k f).bad = s.bad := rfl
@[simp] theorem State.mapCtxAt_weak (s : State) (c : CoreId) (k : CtxId) (f : Ctx → Ctx) : (s.mapCtxAt c k f).weak = s.weak := rfl
@[simp] theorem State.mapCtxAt_unitKeys (s : State) (c : CoreId) (k : CtxId) (f : Ctx → Ctx) : (s.mapCtxAt c k f).unitKeys = s.unitKeys := rfl
@[simp] theorem State.mapCtxAt_net (s : State) (c : CoreId) (k : CtxId) (f : Ctx → Ctx) : (s.mapCtxAt c k f).net = s.net := rfl
@[simp] theorem State.mapCtxAt_walkTurn (s : State) (c : CoreId) (k : CtxId) (f : Ctx → Ctx) : (s.mapCtxAt c k f).walkTurn = s.walkTurn := rfl
@[simp] theorem State.mapCtxAt_hwEnds (s : State) (c : CoreId) (k : CtxId) (f : Ctx → Ctx) : (s.mapCtxAt c k f).hwEnds = s.hwEnds := rfl
@[simp] theorem State.mapCtxAt_keys (s : State) (c : CoreId) (k : CtxId) (f : Ctx → Ctx) : (s.mapCtxAt c k f).keys = s.keys := rfl
@[simp] theorem State.mapCtxAt_ctrlKeys (s : State) (c : CoreId) (k : CtxId) (f : Ctx → Ctx) : (s.mapCtxAt c k f).ctrlKeys = s.ctrlKeys := rfl
@[simp] theorem State.mapCtxAt_chans (s : State) (c : CoreId) (k : CtxId) (f : Ctx → Ctx) : (s.mapCtxAt c k f).chans = s.chans := rfl
@[simp] theorem State.mapCtxAt_hostOut (s : State) (c : CoreId) (k : CtxId) (f : Ctx → Ctx) : (s.mapCtxAt c k f).hostOut = s.hostOut := rfl
@[simp] theorem State.mapCtxAt_mfault (s : State) (c : CoreId) (k : CtxId) (f : Ctx → Ctx) : (s.mapCtxAt c k f).mfault = s.mfault := rfl
@[simp] theorem State.mapCtxAt_apol (s : State) (c : CoreId) (k : CtxId) (f : Ctx → Ctx) : (s.mapCtxAt c k f).apol = s.apol := rfl
@[simp] theorem State.mapCtxAt_alog (s : State) (c : CoreId) (k : CtxId) (f : Ctx → Ctx) : (s.mapCtxAt c k f).alog = s.alog := rfl
@[simp] theorem State.mapCtxAt_pcap (s : State) (c : CoreId) (k : CtxId) (f : Ctx → Ctx) : (s.mapCtxAt c k f).pcap = s.pcap := rfl
@[simp] theorem State.mapCtxAt_tmax (s : State) (c : CoreId) (k : CtxId) (f : Ctx → Ctx) : (s.mapCtxAt c k f).tmax = s.tmax := rfl
@[simp] theorem State.mapCtxAt_pwr (s : State) (c : CoreId) (k : CtxId) (f : Ctx → Ctx) : (s.mapCtxAt c k f).pwr = s.pwr := rfl
@[simp] theorem State.mapCtxAt_mecc (s : State) (c : CoreId) (k : CtxId) (f : Ctx → Ctx) : (s.mapCtxAt c k f).mecc = s.mecc := rfl
@[simp] theorem State.mapCtxAt_failed (s : State) (c : CoreId) (k : CtxId) (f : Ctx → Ctx) : (s.mapCtxAt c k f).failed = s.failed := rfl
@[simp] theorem State.mapCtxAt_rollback (s : State) (c : CoreId) (k : CtxId) (f : Ctx → Ctx) : (s.mapCtxAt c k f).rollback = s.rollback := rfl
@[simp] theorem State.mapCtxAt_measures (s : State) (c : CoreId) (k : CtxId) (f : Ctx → Ctx) : (s.mapCtxAt c k f).measures = s.measures := rfl
@[simp] theorem State.mapCtxAt_i3c (s : State) (c : CoreId) (k : CtxId) (f : Ctx → Ctx) : (s.mapCtxAt c k f).i3c = s.i3c := rfl
@[simp] theorem State.mapCtxAt_flash (s : State) (c : CoreId) (k : CtxId) (f : Ctx → Ctx) : (s.mapCtxAt c k f).flash = s.flash := rfl
@[simp] theorem State.mapCtxAt_firmware (s : State) (c : CoreId) (k : CtxId) (f : Ctx → Ctx) : (s.mapCtxAt c k f).firmware = s.firmware := rfl
@[simp] theorem State.mapCtxAt_fid (s : State) (c : CoreId) (k : CtxId) (f : Ctx → Ctx) : (s.mapCtxAt c k f).fid = s.fid := rfl
@[simp] theorem State.mapCtxAt_fretry (s : State) (c : CoreId) (k : CtxId) (f : Ctx → Ctx) : (s.mapCtxAt c k f).fretry = s.fretry := rfl
@[simp] theorem State.mapCtxAt_fdrop (s : State) (c : CoreId) (k : CtxId) (f : Ctx → Ctx) : (s.mapCtxAt c k f).fdrop = s.fdrop := rfl
@[simp] theorem State.mapCtxAt_flost (s : State) (c : CoreId) (k : CtxId) (f : Ctx → Ctx) : (s.mapCtxAt c k f).flost = s.flost := rfl
@[simp] theorem State.mapCtxAt_lostTab (s : State) (c : CoreId) (k : CtxId) (f : Ctx → Ctx) : (s.mapCtxAt c k f).lostTab = s.lostTab := rfl
@[simp] theorem State.mapCtxAt_ports (s : State) (c : CoreId) (k : CtxId) (f : Ctx → Ctx) : (s.mapCtxAt c k f).ports = s.ports := rfl
@[simp] theorem State.mapCtxAt_agenda (s : State) (c : CoreId) (k : CtxId) (f : Ctx → Ctx) : (s.mapCtxAt c k f).agenda = s.agenda := rfl
@[simp] theorem State.mapCtxAt_cur (s : State) (c : CoreId) (k : CtxId) (f : Ctx → Ctx) : (s.mapCtxAt c k f).cur = s.cur := rfl
@[simp] theorem State.mapCtxAt_free (s : State) (c : CoreId) (k : CtxId) (f : Ctx → Ctx) : (s.mapCtxAt c k f).free = s.free := rfl
@[simp] theorem State.mapCtxAt_keyWrites (s : State) (c : CoreId) (k : CtxId) (f : Ctx → Ctx) : (s.mapCtxAt c k f).keyWrites = s.keyWrites := rfl
@[simp] theorem State.mapCtxAt_failing (s : State) (c : CoreId) (k : CtxId) (f : Ctx → Ctx) : (s.mapCtxAt c k f).failing = s.failing := rfl
@[simp] theorem State.mapCtxAt_loading (s : State) (c : CoreId) (k : CtxId) (f : Ctx → Ctx) : (s.mapCtxAt c k f).loading = s.loading := rfl
@[simp] theorem State.mapCtxAt_rings (s : State) (c : CoreId) (k : CtxId) (f : Ctx → Ctx) : (s.mapCtxAt c k f).rings = s.rings := rfl

@[simp] theorem State.mapCtx_floes (s : State) (f : Ctx → Ctx) : (s.mapCtx f).floes = s.floes := rfl
@[simp] theorem State.mapCtx_mem (s : State) (f : Ctx → Ctx) : (s.mapCtx f).mem = s.mem := rfl
@[simp] theorem State.mapCtx_bad (s : State) (f : Ctx → Ctx) : (s.mapCtx f).bad = s.bad := rfl
@[simp] theorem State.mapCtx_weak (s : State) (f : Ctx → Ctx) : (s.mapCtx f).weak = s.weak := rfl
@[simp] theorem State.mapCtx_unitKeys (s : State) (f : Ctx → Ctx) : (s.mapCtx f).unitKeys = s.unitKeys := rfl
@[simp] theorem State.mapCtx_net (s : State) (f : Ctx → Ctx) : (s.mapCtx f).net = s.net := rfl
@[simp] theorem State.mapCtx_walkTurn (s : State) (f : Ctx → Ctx) : (s.mapCtx f).walkTurn = s.walkTurn := rfl
@[simp] theorem State.mapCtx_hwEnds (s : State) (f : Ctx → Ctx) : (s.mapCtx f).hwEnds = s.hwEnds := rfl
@[simp] theorem State.mapCtx_keys (s : State) (f : Ctx → Ctx) : (s.mapCtx f).keys = s.keys := rfl
@[simp] theorem State.mapCtx_ctrlKeys (s : State) (f : Ctx → Ctx) : (s.mapCtx f).ctrlKeys = s.ctrlKeys := rfl
@[simp] theorem State.mapCtx_chans (s : State) (f : Ctx → Ctx) : (s.mapCtx f).chans = s.chans := rfl
@[simp] theorem State.mapCtx_hostOut (s : State) (f : Ctx → Ctx) : (s.mapCtx f).hostOut = s.hostOut := rfl
@[simp] theorem State.mapCtx_mfault (s : State) (f : Ctx → Ctx) : (s.mapCtx f).mfault = s.mfault := rfl
@[simp] theorem State.mapCtx_apol (s : State) (f : Ctx → Ctx) : (s.mapCtx f).apol = s.apol := rfl
@[simp] theorem State.mapCtx_alog (s : State) (f : Ctx → Ctx) : (s.mapCtx f).alog = s.alog := rfl
@[simp] theorem State.mapCtx_pcap (s : State) (f : Ctx → Ctx) : (s.mapCtx f).pcap = s.pcap := rfl
@[simp] theorem State.mapCtx_tmax (s : State) (f : Ctx → Ctx) : (s.mapCtx f).tmax = s.tmax := rfl
@[simp] theorem State.mapCtx_pwr (s : State) (f : Ctx → Ctx) : (s.mapCtx f).pwr = s.pwr := rfl
@[simp] theorem State.mapCtx_mecc (s : State) (f : Ctx → Ctx) : (s.mapCtx f).mecc = s.mecc := rfl
@[simp] theorem State.mapCtx_failed (s : State) (f : Ctx → Ctx) : (s.mapCtx f).failed = s.failed := rfl
@[simp] theorem State.mapCtx_rollback (s : State) (f : Ctx → Ctx) : (s.mapCtx f).rollback = s.rollback := rfl
@[simp] theorem State.mapCtx_measures (s : State) (f : Ctx → Ctx) : (s.mapCtx f).measures = s.measures := rfl
@[simp] theorem State.mapCtx_i3c (s : State) (f : Ctx → Ctx) : (s.mapCtx f).i3c = s.i3c := rfl
@[simp] theorem State.mapCtx_flash (s : State) (f : Ctx → Ctx) : (s.mapCtx f).flash = s.flash := rfl
@[simp] theorem State.mapCtx_firmware (s : State) (f : Ctx → Ctx) : (s.mapCtx f).firmware = s.firmware := rfl
@[simp] theorem State.mapCtx_fid (s : State) (f : Ctx → Ctx) : (s.mapCtx f).fid = s.fid := rfl
@[simp] theorem State.mapCtx_fretry (s : State) (f : Ctx → Ctx) : (s.mapCtx f).fretry = s.fretry := rfl
@[simp] theorem State.mapCtx_fdrop (s : State) (f : Ctx → Ctx) : (s.mapCtx f).fdrop = s.fdrop := rfl
@[simp] theorem State.mapCtx_flost (s : State) (f : Ctx → Ctx) : (s.mapCtx f).flost = s.flost := rfl
@[simp] theorem State.mapCtx_lostTab (s : State) (f : Ctx → Ctx) : (s.mapCtx f).lostTab = s.lostTab := rfl
@[simp] theorem State.mapCtx_ports (s : State) (f : Ctx → Ctx) : (s.mapCtx f).ports = s.ports := rfl
@[simp] theorem State.mapCtx_agenda (s : State) (f : Ctx → Ctx) : (s.mapCtx f).agenda = s.agenda := rfl
@[simp] theorem State.mapCtx_cur (s : State) (f : Ctx → Ctx) : (s.mapCtx f).cur = s.cur := rfl
@[simp] theorem State.mapCtx_free (s : State) (f : Ctx → Ctx) : (s.mapCtx f).free = s.free := rfl
@[simp] theorem State.mapCtx_keyWrites (s : State) (f : Ctx → Ctx) : (s.mapCtx f).keyWrites = s.keyWrites := rfl
@[simp] theorem State.mapCtx_failing (s : State) (f : Ctx → Ctx) : (s.mapCtx f).failing = s.failing := rfl
@[simp] theorem State.mapCtx_loading (s : State) (f : Ctx → Ctx) : (s.mapCtx f).loading = s.loading := rfl
@[simp] theorem State.mapCtx_rings (s : State) (f : Ctx → Ctx) : (s.mapCtx f).rings = s.rings := rfl

@[simp] theorem State.mapEpAt_floes (s : State) (c : CoreId) (e : EpId) (f : Endpoint → Endpoint) : (s.mapEpAt c e f).floes = s.floes := rfl
@[simp] theorem State.mapEpAt_mem (s : State) (c : CoreId) (e : EpId) (f : Endpoint → Endpoint) : (s.mapEpAt c e f).mem = s.mem := rfl
@[simp] theorem State.mapEpAt_bad (s : State) (c : CoreId) (e : EpId) (f : Endpoint → Endpoint) : (s.mapEpAt c e f).bad = s.bad := rfl
@[simp] theorem State.mapEpAt_weak (s : State) (c : CoreId) (e : EpId) (f : Endpoint → Endpoint) : (s.mapEpAt c e f).weak = s.weak := rfl
@[simp] theorem State.mapEpAt_unitKeys (s : State) (c : CoreId) (e : EpId) (f : Endpoint → Endpoint) : (s.mapEpAt c e f).unitKeys = s.unitKeys := rfl
@[simp] theorem State.mapEpAt_net (s : State) (c : CoreId) (e : EpId) (f : Endpoint → Endpoint) : (s.mapEpAt c e f).net = s.net := rfl
@[simp] theorem State.mapEpAt_walkTurn (s : State) (c : CoreId) (e : EpId) (f : Endpoint → Endpoint) : (s.mapEpAt c e f).walkTurn = s.walkTurn := rfl
@[simp] theorem State.mapEpAt_hwEnds (s : State) (c : CoreId) (e : EpId) (f : Endpoint → Endpoint) : (s.mapEpAt c e f).hwEnds = s.hwEnds := rfl
@[simp] theorem State.mapEpAt_keys (s : State) (c : CoreId) (e : EpId) (f : Endpoint → Endpoint) : (s.mapEpAt c e f).keys = s.keys := rfl
@[simp] theorem State.mapEpAt_ctrlKeys (s : State) (c : CoreId) (e : EpId) (f : Endpoint → Endpoint) : (s.mapEpAt c e f).ctrlKeys = s.ctrlKeys := rfl
@[simp] theorem State.mapEpAt_chans (s : State) (c : CoreId) (e : EpId) (f : Endpoint → Endpoint) : (s.mapEpAt c e f).chans = s.chans := rfl
@[simp] theorem State.mapEpAt_hostOut (s : State) (c : CoreId) (e : EpId) (f : Endpoint → Endpoint) : (s.mapEpAt c e f).hostOut = s.hostOut := rfl
@[simp] theorem State.mapEpAt_mfault (s : State) (c : CoreId) (e : EpId) (f : Endpoint → Endpoint) : (s.mapEpAt c e f).mfault = s.mfault := rfl
@[simp] theorem State.mapEpAt_apol (s : State) (c : CoreId) (e : EpId) (f : Endpoint → Endpoint) : (s.mapEpAt c e f).apol = s.apol := rfl
@[simp] theorem State.mapEpAt_alog (s : State) (c : CoreId) (e : EpId) (f : Endpoint → Endpoint) : (s.mapEpAt c e f).alog = s.alog := rfl
@[simp] theorem State.mapEpAt_pcap (s : State) (c : CoreId) (e : EpId) (f : Endpoint → Endpoint) : (s.mapEpAt c e f).pcap = s.pcap := rfl
@[simp] theorem State.mapEpAt_tmax (s : State) (c : CoreId) (e : EpId) (f : Endpoint → Endpoint) : (s.mapEpAt c e f).tmax = s.tmax := rfl
@[simp] theorem State.mapEpAt_pwr (s : State) (c : CoreId) (e : EpId) (f : Endpoint → Endpoint) : (s.mapEpAt c e f).pwr = s.pwr := rfl
@[simp] theorem State.mapEpAt_mecc (s : State) (c : CoreId) (e : EpId) (f : Endpoint → Endpoint) : (s.mapEpAt c e f).mecc = s.mecc := rfl
@[simp] theorem State.mapEpAt_failed (s : State) (c : CoreId) (e : EpId) (f : Endpoint → Endpoint) : (s.mapEpAt c e f).failed = s.failed := rfl
@[simp] theorem State.mapEpAt_rollback (s : State) (c : CoreId) (e : EpId) (f : Endpoint → Endpoint) : (s.mapEpAt c e f).rollback = s.rollback := rfl
@[simp] theorem State.mapEpAt_measures (s : State) (c : CoreId) (e : EpId) (f : Endpoint → Endpoint) : (s.mapEpAt c e f).measures = s.measures := rfl
@[simp] theorem State.mapEpAt_i3c (s : State) (c : CoreId) (e : EpId) (f : Endpoint → Endpoint) : (s.mapEpAt c e f).i3c = s.i3c := rfl
@[simp] theorem State.mapEpAt_flash (s : State) (c : CoreId) (e : EpId) (f : Endpoint → Endpoint) : (s.mapEpAt c e f).flash = s.flash := rfl
@[simp] theorem State.mapEpAt_firmware (s : State) (c : CoreId) (e : EpId) (f : Endpoint → Endpoint) : (s.mapEpAt c e f).firmware = s.firmware := rfl
@[simp] theorem State.mapEpAt_fid (s : State) (c : CoreId) (e : EpId) (f : Endpoint → Endpoint) : (s.mapEpAt c e f).fid = s.fid := rfl
@[simp] theorem State.mapEpAt_fretry (s : State) (c : CoreId) (e : EpId) (f : Endpoint → Endpoint) : (s.mapEpAt c e f).fretry = s.fretry := rfl
@[simp] theorem State.mapEpAt_fdrop (s : State) (c : CoreId) (e : EpId) (f : Endpoint → Endpoint) : (s.mapEpAt c e f).fdrop = s.fdrop := rfl
@[simp] theorem State.mapEpAt_flost (s : State) (c : CoreId) (e : EpId) (f : Endpoint → Endpoint) : (s.mapEpAt c e f).flost = s.flost := rfl
@[simp] theorem State.mapEpAt_lostTab (s : State) (c : CoreId) (e : EpId) (f : Endpoint → Endpoint) : (s.mapEpAt c e f).lostTab = s.lostTab := rfl
@[simp] theorem State.mapEpAt_ports (s : State) (c : CoreId) (e : EpId) (f : Endpoint → Endpoint) : (s.mapEpAt c e f).ports = s.ports := rfl
@[simp] theorem State.mapEpAt_agenda (s : State) (c : CoreId) (e : EpId) (f : Endpoint → Endpoint) : (s.mapEpAt c e f).agenda = s.agenda := rfl
@[simp] theorem State.mapEpAt_cur (s : State) (c : CoreId) (e : EpId) (f : Endpoint → Endpoint) : (s.mapEpAt c e f).cur = s.cur := rfl
@[simp] theorem State.mapEpAt_free (s : State) (c : CoreId) (e : EpId) (f : Endpoint → Endpoint) : (s.mapEpAt c e f).free = s.free := rfl
@[simp] theorem State.mapEpAt_keyWrites (s : State) (c : CoreId) (e : EpId) (f : Endpoint → Endpoint) : (s.mapEpAt c e f).keyWrites = s.keyWrites := rfl
@[simp] theorem State.mapEpAt_failing (s : State) (c : CoreId) (e : EpId) (f : Endpoint → Endpoint) : (s.mapEpAt c e f).failing = s.failing := rfl
@[simp] theorem State.mapEpAt_loading (s : State) (c : CoreId) (e : EpId) (f : Endpoint → Endpoint) : (s.mapEpAt c e f).loading = s.loading := rfl
@[simp] theorem State.mapEpAt_rings (s : State) (c : CoreId) (e : EpId) (f : Endpoint → Endpoint) : (s.mapEpAt c e f).rings = s.rings := rfl

@[simp] theorem State.mapEp_floes (s : State) (e : EpId) (f : Endpoint → Endpoint) : (s.mapEp e f).floes = s.floes := rfl
@[simp] theorem State.mapEp_mem (s : State) (e : EpId) (f : Endpoint → Endpoint) : (s.mapEp e f).mem = s.mem := rfl
@[simp] theorem State.mapEp_bad (s : State) (e : EpId) (f : Endpoint → Endpoint) : (s.mapEp e f).bad = s.bad := rfl
@[simp] theorem State.mapEp_weak (s : State) (e : EpId) (f : Endpoint → Endpoint) : (s.mapEp e f).weak = s.weak := rfl
@[simp] theorem State.mapEp_unitKeys (s : State) (e : EpId) (f : Endpoint → Endpoint) : (s.mapEp e f).unitKeys = s.unitKeys := rfl
@[simp] theorem State.mapEp_net (s : State) (e : EpId) (f : Endpoint → Endpoint) : (s.mapEp e f).net = s.net := rfl
@[simp] theorem State.mapEp_walkTurn (s : State) (e : EpId) (f : Endpoint → Endpoint) : (s.mapEp e f).walkTurn = s.walkTurn := rfl
@[simp] theorem State.mapEp_hwEnds (s : State) (e : EpId) (f : Endpoint → Endpoint) : (s.mapEp e f).hwEnds = s.hwEnds := rfl
@[simp] theorem State.mapEp_keys (s : State) (e : EpId) (f : Endpoint → Endpoint) : (s.mapEp e f).keys = s.keys := rfl
@[simp] theorem State.mapEp_ctrlKeys (s : State) (e : EpId) (f : Endpoint → Endpoint) : (s.mapEp e f).ctrlKeys = s.ctrlKeys := rfl
@[simp] theorem State.mapEp_chans (s : State) (e : EpId) (f : Endpoint → Endpoint) : (s.mapEp e f).chans = s.chans := rfl
@[simp] theorem State.mapEp_hostOut (s : State) (e : EpId) (f : Endpoint → Endpoint) : (s.mapEp e f).hostOut = s.hostOut := rfl
@[simp] theorem State.mapEp_mfault (s : State) (e : EpId) (f : Endpoint → Endpoint) : (s.mapEp e f).mfault = s.mfault := rfl
@[simp] theorem State.mapEp_apol (s : State) (e : EpId) (f : Endpoint → Endpoint) : (s.mapEp e f).apol = s.apol := rfl
@[simp] theorem State.mapEp_alog (s : State) (e : EpId) (f : Endpoint → Endpoint) : (s.mapEp e f).alog = s.alog := rfl
@[simp] theorem State.mapEp_pcap (s : State) (e : EpId) (f : Endpoint → Endpoint) : (s.mapEp e f).pcap = s.pcap := rfl
@[simp] theorem State.mapEp_tmax (s : State) (e : EpId) (f : Endpoint → Endpoint) : (s.mapEp e f).tmax = s.tmax := rfl
@[simp] theorem State.mapEp_pwr (s : State) (e : EpId) (f : Endpoint → Endpoint) : (s.mapEp e f).pwr = s.pwr := rfl
@[simp] theorem State.mapEp_mecc (s : State) (e : EpId) (f : Endpoint → Endpoint) : (s.mapEp e f).mecc = s.mecc := rfl
@[simp] theorem State.mapEp_failed (s : State) (e : EpId) (f : Endpoint → Endpoint) : (s.mapEp e f).failed = s.failed := rfl
@[simp] theorem State.mapEp_rollback (s : State) (e : EpId) (f : Endpoint → Endpoint) : (s.mapEp e f).rollback = s.rollback := rfl
@[simp] theorem State.mapEp_measures (s : State) (e : EpId) (f : Endpoint → Endpoint) : (s.mapEp e f).measures = s.measures := rfl
@[simp] theorem State.mapEp_i3c (s : State) (e : EpId) (f : Endpoint → Endpoint) : (s.mapEp e f).i3c = s.i3c := rfl
@[simp] theorem State.mapEp_flash (s : State) (e : EpId) (f : Endpoint → Endpoint) : (s.mapEp e f).flash = s.flash := rfl
@[simp] theorem State.mapEp_firmware (s : State) (e : EpId) (f : Endpoint → Endpoint) : (s.mapEp e f).firmware = s.firmware := rfl
@[simp] theorem State.mapEp_fid (s : State) (e : EpId) (f : Endpoint → Endpoint) : (s.mapEp e f).fid = s.fid := rfl
@[simp] theorem State.mapEp_fretry (s : State) (e : EpId) (f : Endpoint → Endpoint) : (s.mapEp e f).fretry = s.fretry := rfl
@[simp] theorem State.mapEp_fdrop (s : State) (e : EpId) (f : Endpoint → Endpoint) : (s.mapEp e f).fdrop = s.fdrop := rfl
@[simp] theorem State.mapEp_flost (s : State) (e : EpId) (f : Endpoint → Endpoint) : (s.mapEp e f).flost = s.flost := rfl
@[simp] theorem State.mapEp_lostTab (s : State) (e : EpId) (f : Endpoint → Endpoint) : (s.mapEp e f).lostTab = s.lostTab := rfl
@[simp] theorem State.mapEp_ports (s : State) (e : EpId) (f : Endpoint → Endpoint) : (s.mapEp e f).ports = s.ports := rfl
@[simp] theorem State.mapEp_agenda (s : State) (e : EpId) (f : Endpoint → Endpoint) : (s.mapEp e f).agenda = s.agenda := rfl
@[simp] theorem State.mapEp_cur (s : State) (e : EpId) (f : Endpoint → Endpoint) : (s.mapEp e f).cur = s.cur := rfl
@[simp] theorem State.mapEp_free (s : State) (e : EpId) (f : Endpoint → Endpoint) : (s.mapEp e f).free = s.free := rfl
@[simp] theorem State.mapEp_keyWrites (s : State) (e : EpId) (f : Endpoint → Endpoint) : (s.mapEp e f).keyWrites = s.keyWrites := rfl
@[simp] theorem State.mapEp_failing (s : State) (e : EpId) (f : Endpoint → Endpoint) : (s.mapEp e f).failing = s.failing := rfl
@[simp] theorem State.mapEp_loading (s : State) (e : EpId) (f : Endpoint → Endpoint) : (s.mapEp e f).loading = s.loading := rfl
@[simp] theorem State.mapEp_rings (s : State) (e : EpId) (f : Endpoint → Endpoint) : (s.mapEp e f).rings = s.rings := rfl

@[simp] theorem State.setFloe_cores (s : State) (i : FloeId) (x : Floe) : (s.setFloe i x).cores = s.cores := rfl
@[simp] theorem State.setFloe_mem (s : State) (i : FloeId) (x : Floe) : (s.setFloe i x).mem = s.mem := rfl
@[simp] theorem State.setFloe_bad (s : State) (i : FloeId) (x : Floe) : (s.setFloe i x).bad = s.bad := rfl
@[simp] theorem State.setFloe_weak (s : State) (i : FloeId) (x : Floe) : (s.setFloe i x).weak = s.weak := rfl
@[simp] theorem State.setFloe_unitKeys (s : State) (i : FloeId) (x : Floe) : (s.setFloe i x).unitKeys = s.unitKeys := rfl
@[simp] theorem State.setFloe_net (s : State) (i : FloeId) (x : Floe) : (s.setFloe i x).net = s.net := rfl
@[simp] theorem State.setFloe_walkTurn (s : State) (i : FloeId) (x : Floe) : (s.setFloe i x).walkTurn = s.walkTurn := rfl
@[simp] theorem State.setFloe_hwEnds (s : State) (i : FloeId) (x : Floe) : (s.setFloe i x).hwEnds = s.hwEnds := rfl
@[simp] theorem State.setFloe_keys (s : State) (i : FloeId) (x : Floe) : (s.setFloe i x).keys = s.keys := rfl
@[simp] theorem State.setFloe_ctrlKeys (s : State) (i : FloeId) (x : Floe) : (s.setFloe i x).ctrlKeys = s.ctrlKeys := rfl
@[simp] theorem State.setFloe_chans (s : State) (i : FloeId) (x : Floe) : (s.setFloe i x).chans = s.chans := rfl
@[simp] theorem State.setFloe_hostOut (s : State) (i : FloeId) (x : Floe) : (s.setFloe i x).hostOut = s.hostOut := rfl
@[simp] theorem State.setFloe_mfault (s : State) (i : FloeId) (x : Floe) : (s.setFloe i x).mfault = s.mfault := rfl
@[simp] theorem State.setFloe_apol (s : State) (i : FloeId) (x : Floe) : (s.setFloe i x).apol = s.apol := rfl
@[simp] theorem State.setFloe_alog (s : State) (i : FloeId) (x : Floe) : (s.setFloe i x).alog = s.alog := rfl
@[simp] theorem State.setFloe_pcap (s : State) (i : FloeId) (x : Floe) : (s.setFloe i x).pcap = s.pcap := rfl
@[simp] theorem State.setFloe_tmax (s : State) (i : FloeId) (x : Floe) : (s.setFloe i x).tmax = s.tmax := rfl
@[simp] theorem State.setFloe_pwr (s : State) (i : FloeId) (x : Floe) : (s.setFloe i x).pwr = s.pwr := rfl
@[simp] theorem State.setFloe_mecc (s : State) (i : FloeId) (x : Floe) : (s.setFloe i x).mecc = s.mecc := rfl
@[simp] theorem State.setFloe_failed (s : State) (i : FloeId) (x : Floe) : (s.setFloe i x).failed = s.failed := rfl
@[simp] theorem State.setFloe_rollback (s : State) (i : FloeId) (x : Floe) : (s.setFloe i x).rollback = s.rollback := rfl
@[simp] theorem State.setFloe_measures (s : State) (i : FloeId) (x : Floe) : (s.setFloe i x).measures = s.measures := rfl
@[simp] theorem State.setFloe_i3c (s : State) (i : FloeId) (x : Floe) : (s.setFloe i x).i3c = s.i3c := rfl
@[simp] theorem State.setFloe_flash (s : State) (i : FloeId) (x : Floe) : (s.setFloe i x).flash = s.flash := rfl
@[simp] theorem State.setFloe_firmware (s : State) (i : FloeId) (x : Floe) : (s.setFloe i x).firmware = s.firmware := rfl
@[simp] theorem State.setFloe_fid (s : State) (i : FloeId) (x : Floe) : (s.setFloe i x).fid = s.fid := rfl
@[simp] theorem State.setFloe_fretry (s : State) (i : FloeId) (x : Floe) : (s.setFloe i x).fretry = s.fretry := rfl
@[simp] theorem State.setFloe_fdrop (s : State) (i : FloeId) (x : Floe) : (s.setFloe i x).fdrop = s.fdrop := rfl
@[simp] theorem State.setFloe_flost (s : State) (i : FloeId) (x : Floe) : (s.setFloe i x).flost = s.flost := rfl
@[simp] theorem State.setFloe_lostTab (s : State) (i : FloeId) (x : Floe) : (s.setFloe i x).lostTab = s.lostTab := rfl
@[simp] theorem State.setFloe_ports (s : State) (i : FloeId) (x : Floe) : (s.setFloe i x).ports = s.ports := rfl
@[simp] theorem State.setFloe_agenda (s : State) (i : FloeId) (x : Floe) : (s.setFloe i x).agenda = s.agenda := rfl
@[simp] theorem State.setFloe_cur (s : State) (i : FloeId) (x : Floe) : (s.setFloe i x).cur = s.cur := rfl
@[simp] theorem State.setFloe_free (s : State) (i : FloeId) (x : Floe) : (s.setFloe i x).free = s.free := rfl
@[simp] theorem State.setFloe_keyWrites (s : State) (i : FloeId) (x : Floe) : (s.setFloe i x).keyWrites = s.keyWrites := rfl
@[simp] theorem State.setFloe_failing (s : State) (i : FloeId) (x : Floe) : (s.setFloe i x).failing = s.failing := rfl
@[simp] theorem State.setFloe_loading (s : State) (i : FloeId) (x : Floe) : (s.setFloe i x).loading = s.loading := rfl
@[simp] theorem State.setFloe_rings (s : State) (i : FloeId) (x : Floe) : (s.setFloe i x).rings = s.rings := rfl

@[simp] theorem State.mapFloe_cores (s : State) (i : FloeId) (f : Floe → Floe) : (s.mapFloe i f).cores = s.cores := rfl
@[simp] theorem State.mapFloe_mem (s : State) (i : FloeId) (f : Floe → Floe) : (s.mapFloe i f).mem = s.mem := rfl
@[simp] theorem State.mapFloe_bad (s : State) (i : FloeId) (f : Floe → Floe) : (s.mapFloe i f).bad = s.bad := rfl
@[simp] theorem State.mapFloe_weak (s : State) (i : FloeId) (f : Floe → Floe) : (s.mapFloe i f).weak = s.weak := rfl
@[simp] theorem State.mapFloe_unitKeys (s : State) (i : FloeId) (f : Floe → Floe) : (s.mapFloe i f).unitKeys = s.unitKeys := rfl
@[simp] theorem State.mapFloe_net (s : State) (i : FloeId) (f : Floe → Floe) : (s.mapFloe i f).net = s.net := rfl
@[simp] theorem State.mapFloe_walkTurn (s : State) (i : FloeId) (f : Floe → Floe) : (s.mapFloe i f).walkTurn = s.walkTurn := rfl
@[simp] theorem State.mapFloe_hwEnds (s : State) (i : FloeId) (f : Floe → Floe) : (s.mapFloe i f).hwEnds = s.hwEnds := rfl
@[simp] theorem State.mapFloe_keys (s : State) (i : FloeId) (f : Floe → Floe) : (s.mapFloe i f).keys = s.keys := rfl
@[simp] theorem State.mapFloe_ctrlKeys (s : State) (i : FloeId) (f : Floe → Floe) : (s.mapFloe i f).ctrlKeys = s.ctrlKeys := rfl
@[simp] theorem State.mapFloe_chans (s : State) (i : FloeId) (f : Floe → Floe) : (s.mapFloe i f).chans = s.chans := rfl
@[simp] theorem State.mapFloe_hostOut (s : State) (i : FloeId) (f : Floe → Floe) : (s.mapFloe i f).hostOut = s.hostOut := rfl
@[simp] theorem State.mapFloe_mfault (s : State) (i : FloeId) (f : Floe → Floe) : (s.mapFloe i f).mfault = s.mfault := rfl
@[simp] theorem State.mapFloe_apol (s : State) (i : FloeId) (f : Floe → Floe) : (s.mapFloe i f).apol = s.apol := rfl
@[simp] theorem State.mapFloe_alog (s : State) (i : FloeId) (f : Floe → Floe) : (s.mapFloe i f).alog = s.alog := rfl
@[simp] theorem State.mapFloe_pcap (s : State) (i : FloeId) (f : Floe → Floe) : (s.mapFloe i f).pcap = s.pcap := rfl
@[simp] theorem State.mapFloe_tmax (s : State) (i : FloeId) (f : Floe → Floe) : (s.mapFloe i f).tmax = s.tmax := rfl
@[simp] theorem State.mapFloe_pwr (s : State) (i : FloeId) (f : Floe → Floe) : (s.mapFloe i f).pwr = s.pwr := rfl
@[simp] theorem State.mapFloe_mecc (s : State) (i : FloeId) (f : Floe → Floe) : (s.mapFloe i f).mecc = s.mecc := rfl
@[simp] theorem State.mapFloe_failed (s : State) (i : FloeId) (f : Floe → Floe) : (s.mapFloe i f).failed = s.failed := rfl
@[simp] theorem State.mapFloe_rollback (s : State) (i : FloeId) (f : Floe → Floe) : (s.mapFloe i f).rollback = s.rollback := rfl
@[simp] theorem State.mapFloe_measures (s : State) (i : FloeId) (f : Floe → Floe) : (s.mapFloe i f).measures = s.measures := rfl
@[simp] theorem State.mapFloe_i3c (s : State) (i : FloeId) (f : Floe → Floe) : (s.mapFloe i f).i3c = s.i3c := rfl
@[simp] theorem State.mapFloe_flash (s : State) (i : FloeId) (f : Floe → Floe) : (s.mapFloe i f).flash = s.flash := rfl
@[simp] theorem State.mapFloe_firmware (s : State) (i : FloeId) (f : Floe → Floe) : (s.mapFloe i f).firmware = s.firmware := rfl
@[simp] theorem State.mapFloe_fid (s : State) (i : FloeId) (f : Floe → Floe) : (s.mapFloe i f).fid = s.fid := rfl
@[simp] theorem State.mapFloe_fretry (s : State) (i : FloeId) (f : Floe → Floe) : (s.mapFloe i f).fretry = s.fretry := rfl
@[simp] theorem State.mapFloe_fdrop (s : State) (i : FloeId) (f : Floe → Floe) : (s.mapFloe i f).fdrop = s.fdrop := rfl
@[simp] theorem State.mapFloe_flost (s : State) (i : FloeId) (f : Floe → Floe) : (s.mapFloe i f).flost = s.flost := rfl
@[simp] theorem State.mapFloe_lostTab (s : State) (i : FloeId) (f : Floe → Floe) : (s.mapFloe i f).lostTab = s.lostTab := rfl
@[simp] theorem State.mapFloe_ports (s : State) (i : FloeId) (f : Floe → Floe) : (s.mapFloe i f).ports = s.ports := rfl
@[simp] theorem State.mapFloe_agenda (s : State) (i : FloeId) (f : Floe → Floe) : (s.mapFloe i f).agenda = s.agenda := rfl
@[simp] theorem State.mapFloe_cur (s : State) (i : FloeId) (f : Floe → Floe) : (s.mapFloe i f).cur = s.cur := rfl
@[simp] theorem State.mapFloe_free (s : State) (i : FloeId) (f : Floe → Floe) : (s.mapFloe i f).free = s.free := rfl
@[simp] theorem State.mapFloe_keyWrites (s : State) (i : FloeId) (f : Floe → Floe) : (s.mapFloe i f).keyWrites = s.keyWrites := rfl
@[simp] theorem State.mapFloe_failing (s : State) (i : FloeId) (f : Floe → Floe) : (s.mapFloe i f).failing = s.failing := rfl
@[simp] theorem State.mapFloe_loading (s : State) (i : FloeId) (f : Floe → Floe) : (s.mapFloe i f).loading = s.loading := rfl
@[simp] theorem State.mapFloe_rings (s : State) (i : FloeId) (f : Floe → Floe) : (s.mapFloe i f).rings = s.rings := rfl

/-! ### Reading after an update -/

@[simp] theorem State.setCore_core (s : State) (c : CoreId) (x : Core) : (s.setCore c x).core c = x :=
  Tab.look_put_same _ _ _ _

theorem State.setCore_core_other (s : State) (c c' : CoreId) (x : Core) (h : c ≠ c') :
    (s.setCore c x).core c' = s.core c' :=
  Tab.look_put_other _ _ _ _ _ fun e => h (BitVec.eq_of_toNat_eq e)

@[simp] theorem State.mapCore_core (s : State) (c : CoreId) (f : Core → Core) : (s.mapCore c f).core c = f (s.core c) :=
  s.setCore_core c _

theorem State.mapCore_core_other (s : State) (c c' : CoreId) (f : Core → Core) (h : c ≠ c') :
    (s.mapCore c f).core c' = s.core c' := s.setCore_core_other c c' _ h

@[simp] theorem State.mapMe_me (s : State) (f : Core → Core) : (s.mapMe f).me = f s.me := s.mapCore_core _ f

@[simp] theorem Core.mapCtx_ctx (x : Core) (k : CtxId) (f : Ctx → Ctx) : (x.mapCtx k f).ctx k = f (x.ctx k) :=
  Tab.look_put_same _ _ _ _

theorem Core.mapCtx_ctx_other (x : Core) (k k' : CtxId) (f : Ctx → Ctx) (h : k ≠ k') :
    (x.mapCtx k f).ctx k' = x.ctx k' :=
  Tab.look_put_other _ _ _ _ _ fun e => h (BitVec.eq_of_toNat_eq e)

@[simp] theorem State.mapCtxAt_core (s : State) (c : CoreId) (k : CtxId) (f : Ctx → Ctx) :
    (s.mapCtxAt c k f).core c = (s.core c).mapCtx k f := s.mapCore_core c _

theorem State.mapCtxAt_core_other (s : State) (c c' : CoreId) (k : CtxId) (f : Ctx → Ctx) (h : c ≠ c') :
    (s.mapCtxAt c k f).core c' = s.core c' := s.mapCore_core_other c c' _ h

@[simp] theorem State.mapCtxAt_ctxAt (s : State) (c : CoreId) (k : CtxId) (f : Ctx → Ctx) :
    (s.mapCtxAt c k f).ctxAt c k = f (s.ctxAt c k) := by simp [State.ctxAt]

@[simp] theorem State.mapCtx_ctx (s : State) (f : Ctx → Ctx) : (s.mapCtx f).ctx = f s.ctx :=
  s.mapCtxAt_ctxAt _ _ f

@[simp] theorem State.mapCtx_me (s : State) (f : Ctx → Ctx) : (s.mapCtx f).me = s.me.mapCtx s.cur.ctx f :=
  s.mapCtxAt_core _ _ f

@[simp] theorem Core.mapEp_ep (x : Core) (e : EpId) (f : Endpoint → Endpoint) : (x.mapEp e f).ep e = f (x.ep e) :=
  Tab.look_put_same _ _ _ _

theorem Core.mapEp_ep_other (x : Core) (e e' : EpId) (f : Endpoint → Endpoint) (h : e ≠ e') :
    (x.mapEp e f).ep e' = x.ep e' :=
  Tab.look_put_other _ _ _ _ _ fun h' => h (BitVec.eq_of_toNat_eq h')

@[simp] theorem State.mapEpAt_epAt (s : State) (c : CoreId) (e : EpId) (f : Endpoint → Endpoint) :
    (s.mapEpAt c e f).epAt c e = f (s.epAt c e) := by simp [State.epAt, State.mapEpAt]

@[simp] theorem State.mapFloe_floe (s : State) (i : FloeId) (f : Floe → Floe) : (s.mapFloe i f).floe i = f (s.floe i) :=
  Tab.look_put_same _ _ _ _

theorem State.mapFloe_floe_other (s : State) (i j : FloeId) (f : Floe → Floe) (h : i ≠ j) :
    (s.mapFloe i f).floe j = s.floe j :=
  Tab.look_put_other _ _ _ _ _ fun e => h (BitVec.eq_of_toNat_eq e)

/-! ### What a context's completion leaves -/

@[simp] theorem Ctx.settle_pc (c : Ctx) : c.settle.pc = c.pc := rfl
@[simp] theorem Ctx.settle_oddPc (c : Ctx) : c.settle.oddPc = c.oddPc := rfl
@[simp] theorem Ctx.settle_g (c : Ctx) : c.settle.g = c.g := rfl
@[simp] theorem Ctx.settle_v (c : Ctx) : c.settle.v = c.v := rfl
@[simp] theorem Ctx.settle_p (c : Ctx) : c.settle.p = c.p := rfl
@[simp] theorem Ctx.settle_q (c : Ctx) : c.settle.q = c.q := rfl
@[simp] theorem Ctx.settle_x (c : Ctx) : c.settle.x = c.x := rfl
@[simp] theorem Ctx.settle_lc (c : Ctx) : c.settle.lc = c.lc := rfl
@[simp] theorem Ctx.settle_lb (c : Ctx) : c.settle.lb = c.lb := rfl
@[simp] theorem Ctx.settle_le (c : Ctx) : c.settle.le = c.le := rfl
@[simp] theorem Ctx.settle_fst (c : Ctx) : c.settle.fst = c.fst := rfl
@[simp] theorem Ctx.settle_slim (c : Ctx) : c.settle.slim = c.slim := rfl
@[simp] theorem Ctx.settle_tvec (c : Ctx) : c.settle.tvec = c.tvec := rfl
@[simp] theorem Ctx.settle_epc (c : Ctx) : c.settle.epc = c.epc := rfl
@[simp] theorem Ctx.settle_skip (c : Ctx) : c.settle.skip = c.skip := rfl
@[simp] theorem Ctx.settle_act (c : Ctx) : c.settle.act = c.act := rfl
@[simp] theorem Ctx.settle_frec0 (c : Ctx) : c.settle.frec0 = c.frec0 := rfl
@[simp] theorem Ctx.settle_frec1 (c : Ctx) : c.settle.frec1 = c.frec1 := rfl
@[simp] theorem Ctx.settle_frec2 (c : Ctx) : c.settle.frec2 = c.frec2 := rfl
@[simp] theorem Ctx.settle_frec3 (c : Ctx) : c.settle.frec3 = c.frec3 := rfl
@[simp] theorem Ctx.settle_life (c : Ctx) : c.settle.life = c.life := rfl
@[simp] theorem Ctx.settle_wasWaiting (c : Ctx) : c.settle.wasWaiting = c.wasWaiting := rfl
@[simp] theorem Ctx.settle_heldStop (c : Ctx) : c.settle.heldStop = c.heldStop := rfl
@[simp] theorem Ctx.settle_forfeit (c : Ctx) : c.settle.forfeit = c.forfeit := rfl
@[simp] theorem Ctx.settle_lastIssue (c : Ctx) : c.settle.lastIssue = c.lastIssue := rfl
@[simp] theorem Ctx.settle_stoppedAt (c : Ctx) : c.settle.stoppedAt = c.stoppedAt := rfl
@[simp] theorem Ctx.settle_waitingAt (c : Ctx) : c.settle.waitingAt = c.waitingAt := rfl
@[simp] theorem Ctx.settle_pend (c : Ctx) : c.settle.pend = c.pend := rfl
@[simp] theorem Ctx.settle_ovf (c : Ctx) : c.settle.ovf = c.ovf := rfl
@[simp] theorem Ctx.settle_ops (c : Ctx) : c.settle.ops = c.ops := rfl
@[simp] theorem Ctx.settle_nextOp (c : Ctx) : c.settle.nextOp = c.nextOp := rfl
@[simp] theorem Ctx.settle_issued (c : Ctx) : c.settle.issued = c.issued := rfl
@[simp] theorem Ctx.settle_shadow (c : Ctx) : c.settle.shadow = c.shadow := rfl
@[simp] theorem Ctx.settle_fbuf (c : Ctx) : c.settle.fbuf = c.fbuf := rfl
@[simp] theorem Ctx.settle_gang (c : Ctx) : c.settle.gang = c.gang := rfl
@[simp] theorem Ctx.settle_gangLate (c : Ctx) : c.settle.gangLate = c.gangLate := rfl
@[simp] theorem Ctx.settle_leaving (c : Ctx) : c.settle.leaving = c.leaving := rfl
@[simp] theorem Ctx.settle_frame (c : Ctx) : c.settle.frame = c.frame := rfl
@[simp] theorem Ctx.settle_gangSlot (c : Ctx) : c.settle.gangSlot = c.gangSlot := rfl
@[simp] theorem Ctx.goto_g (c : Ctx) (t : W) : (c.goto t).g = c.g := rfl
@[simp] theorem Ctx.goto_v (c : Ctx) (t : W) : (c.goto t).v = c.v := rfl
@[simp] theorem Ctx.goto_p (c : Ctx) (t : W) : (c.goto t).p = c.p := rfl
@[simp] theorem Ctx.goto_q (c : Ctx) (t : W) : (c.goto t).q = c.q := rfl
@[simp] theorem Ctx.goto_x (c : Ctx) (t : W) : (c.goto t).x = c.x := rfl
@[simp] theorem Ctx.goto_lc (c : Ctx) (t : W) : (c.goto t).lc = c.lc := rfl
@[simp] theorem Ctx.goto_lb (c : Ctx) (t : W) : (c.goto t).lb = c.lb := rfl
@[simp] theorem Ctx.goto_le (c : Ctx) (t : W) : (c.goto t).le = c.le := rfl
@[simp] theorem Ctx.goto_fst (c : Ctx) (t : W) : (c.goto t).fst = c.fst := rfl
@[simp] theorem Ctx.goto_slim (c : Ctx) (t : W) : (c.goto t).slim = c.slim := rfl
@[simp] theorem Ctx.goto_tvec (c : Ctx) (t : W) : (c.goto t).tvec = c.tvec := rfl
@[simp] theorem Ctx.goto_epc (c : Ctx) (t : W) : (c.goto t).epc = c.epc := rfl
@[simp] theorem Ctx.goto_skip (c : Ctx) (t : W) : (c.goto t).skip = c.skip := rfl
@[simp] theorem Ctx.goto_act (c : Ctx) (t : W) : (c.goto t).act = c.act := rfl
@[simp] theorem Ctx.goto_frec0 (c : Ctx) (t : W) : (c.goto t).frec0 = c.frec0 := rfl
@[simp] theorem Ctx.goto_frec1 (c : Ctx) (t : W) : (c.goto t).frec1 = c.frec1 := rfl
@[simp] theorem Ctx.goto_frec2 (c : Ctx) (t : W) : (c.goto t).frec2 = c.frec2 := rfl
@[simp] theorem Ctx.goto_frec3 (c : Ctx) (t : W) : (c.goto t).frec3 = c.frec3 := rfl
@[simp] theorem Ctx.goto_wasWaiting (c : Ctx) (t : W) : (c.goto t).wasWaiting = c.wasWaiting := rfl
@[simp] theorem Ctx.goto_heldStop (c : Ctx) (t : W) : (c.goto t).heldStop = c.heldStop := rfl
@[simp] theorem Ctx.goto_forfeit (c : Ctx) (t : W) : (c.goto t).forfeit = c.forfeit := rfl
@[simp] theorem Ctx.goto_lastIssue (c : Ctx) (t : W) : (c.goto t).lastIssue = c.lastIssue := rfl
@[simp] theorem Ctx.goto_stoppedAt (c : Ctx) (t : W) : (c.goto t).stoppedAt = c.stoppedAt := rfl
@[simp] theorem Ctx.goto_waitingAt (c : Ctx) (t : W) : (c.goto t).waitingAt = c.waitingAt := rfl
@[simp] theorem Ctx.goto_pend (c : Ctx) (t : W) : (c.goto t).pend = c.pend := rfl
@[simp] theorem Ctx.goto_ovf (c : Ctx) (t : W) : (c.goto t).ovf = c.ovf := rfl
@[simp] theorem Ctx.goto_ops (c : Ctx) (t : W) : (c.goto t).ops = c.ops := rfl
@[simp] theorem Ctx.goto_nextOp (c : Ctx) (t : W) : (c.goto t).nextOp = c.nextOp := rfl
@[simp] theorem Ctx.goto_issued (c : Ctx) (t : W) : (c.goto t).issued = c.issued := rfl
@[simp] theorem Ctx.goto_shadow (c : Ctx) (t : W) : (c.goto t).shadow = c.shadow := rfl
@[simp] theorem Ctx.goto_gang (c : Ctx) (t : W) : (c.goto t).gang = c.gang := rfl
@[simp] theorem Ctx.goto_gangLate (c : Ctx) (t : W) : (c.goto t).gangLate = c.gangLate := rfl
@[simp] theorem Ctx.goto_leaving (c : Ctx) (t : W) : (c.goto t).leaving = c.leaving := rfl
@[simp] theorem Ctx.goto_frame (c : Ctx) (t : W) : (c.goto t).frame = c.frame := rfl
@[simp] theorem Ctx.goto_gangSlot (c : Ctx) (t : W) : (c.goto t).gangSlot = c.gangSlot := rfl

end Sys2Proof.Machine
end

