-- ==== Sys2Proof/Laws/Issue.lean ====
section
/-! SUPPORT. How an instruction ends: the shared operations that check operands, run an effect and complete. -/

namespace Sys2Proof.Machine

section
variable {s t : State} {src dst vec : List Reg} {l : List W} {k : List W → State → Res State} {len : Nat}

/-- An issue whose operands are read and whose effect succeeds completes. -/
theorem State.issue_ok (h : s.operands src dst vec = .ok l) (hk : k l s = .ok t) :
    s.issue len src dst vec k = .next (t.done len src) := by
  simp [State.issue, State.withOperands, h, Res.bind, hk, State.finish, State.done]

/-- An issue whose effect traps takes the trap in the state it began in. -/
theorem State.issue_trap {e : Trap} (h : s.operands src dst vec = .ok l) (hk : k l s = .trap e) :
    s.issue len src dst vec k = .next (s.trap e) := by
  simp [State.issue, State.withOperands, h, Res.bind, hk, State.finish]

/-- An issue whose effect waits is BLOCKED in the state the effect leaves. -/
theorem State.issue_block {w : Wait} (h : s.operands src dst vec = .ok l) (hk : k l s = .block w t) :
    s.issue len src dst vec k = .next (t.block w) := by
  simp [State.issue, State.withOperands, h, Res.bind, hk, State.finish]

/-- An issue whose operand check traps, or waits. -/
theorem State.issue_illegal {e : Trap} (h : s.operands src dst vec = .trap e) :
    s.issue len src dst vec k = .next (s.trap e) := by
  simp [State.issue, State.withOperands, h, Res.bind, State.finish]

theorem State.issue_waits {w : Wait} (h : s.operands src dst vec = .block w t) :
    s.issue len src dst vec k = .next (t.block w) := by
  simp [State.issue, State.withOperands, h, Res.bind, State.finish]

/-- The same for an instruction that sets the PC itself. -/
theorem State.issueJump_ok (h : s.operands src dst vec = .ok l) (hk : k l s = .ok t) :
    s.issueJump src dst vec k = .next (t.takeWords src) := by
  simp [State.issueJump, State.withOperands, h, Res.bind, hk, State.finishJump]

theorem State.issueJump_trap {e : Trap} (h : s.operands src dst vec = .ok l) (hk : k l s = .trap e) :
    s.issueJump src dst vec k = .next (s.trap e) := by
  simp [State.issueJump, State.withOperands, h, Res.bind, hk, State.finishJump]

theorem State.issueJump_illegal {e : Trap} (h : s.operands src dst vec = .trap e) :
    s.issueJump src dst vec k = .next (s.trap e) := by
  simp [State.issueJump, State.withOperands, h, Res.bind, State.finishJump]

/-- An issue always answers a next state. -/
theorem State.issue_next : ∃ t, s.issue len src dst vec k = .next t := by
  unfold State.issue State.finish
  split <;> exact ⟨_, rfl⟩

theorem State.issueJump_next : ∃ t, s.issueJump src dst vec k = .next t := by
  unfold State.issueJump State.finishJump
  split <;> exact ⟨_, rfl⟩

end

/-- One, two or three operands and a result. -/
theorem State.alu1_ok {s : State} {len : Nat} {d a : Reg} {f : W → W} {x : W} (h : s.operands [a] [d] [] = .ok [x]) :
    s.alu1 len d a f = .next (s.doneG len [a] d (f x)) := State.issue_ok h rfl

theorem State.alu2_ok {s : State} {len : Nat} {d a b : Reg} {f : W → W → W} {x y : W}
    (h : s.operands [a, b] [d] [] = .ok [x, y]) :
    s.alu2 len d a b f = .next (s.doneG len [a, b] d (f x y)) := State.issue_ok h rfl

theorem State.cmpP_ok {s : State} {d : BitVec 3} {a b : Reg} {f : W → W → Bool} {x y : W}
    (h : s.operands [a, b] [] [] = .ok [x, y]) :
    s.cmpP d a b f = .next (s.doneP [a, b] d (f x y)) := State.issue_ok h rfl

end Sys2Proof.Machine
end

