-- ==== Sys2Proof/Laws/Memory.lean ====
section
/-! SUPPORT. Memory: every operation that writes it keeps the canonical form, a byte written reads back, and
every other byte reads as before. -/

namespace Sys2Proof.Machine

/-- The first key of a memory, if it has one, is above a. -/
def Memory.above (a : Nat) : List Host.Cell → Bool
  | [] => true
  | (b, _) :: _ => decide (a < b)

theorem Memory.wf_cons (a : Nat) (b : Byte) (m : List Host.Cell) :
    Memory.wf ((a, b) :: m) = true ↔ b ≠ 0 ∧ Memory.above a m = true ∧ Memory.wf m = true := by
  cases m with
  | nil => simp [Memory.wf, Memory.above]
  | cons c m => simp [Memory.wf, Memory.above, and_assoc]

theorem memWrite_above (a k : Nat) (v : Byte) (m : List Host.Cell) (hk : a < k)
    (h : Memory.above a m = true) (hm : Memory.wf m = true) : Memory.above a (memWrite m k v) = true := by
  cases m with
  | nil => rw [memWrite]; split <;> simp [Memory.above, hk]
  | cons c m =>
    obtain ⟨c, b⟩ := c
    have hc : a < c := by simpa [Memory.above] using h
    have hm' := (Memory.wf_cons c b m).1 hm
    simp only [memWrite]
    split
    · split <;> simp [Memory.above, hc, hk]
    · split
      · split
        · cases m with
          | nil => rfl
          | cons d m => have : c < d.1 := by simpa [Memory.above] using hm'.2.1
                        simp [Memory.above]; omega
        · simp [Memory.above, hk]
      · simp [Memory.above, hc]

/-- A write keeps the canonical form. -/
theorem memWrite_wf (m : List Host.Cell) (k : Nat) (v : Byte) (h : Memory.wf m = true) :
    Memory.wf (memWrite m k v) = true := by
  induction m with
  | nil =>
    rw [memWrite]
    split
    · rfl
    · next hv => exact (Memory.wf_cons _ _ _).2 ⟨hv, rfl, rfl⟩
  | cons c m ih =>
    obtain ⟨c, b⟩ := c
    obtain ⟨hb, ha, hm⟩ := (Memory.wf_cons c b m).1 h
    simp only [memWrite]
    split
    · split
      · exact h
      · next hv => exact (Memory.wf_cons _ _ _).2 ⟨hv, by simpa [Memory.above], h⟩
    · split
      · next hk =>
        split
        · exact hm
        · next hv => exact (Memory.wf_cons _ _ _).2 ⟨hv, by rw [hk]; exact ha, hm⟩
      · exact (Memory.wf_cons _ _ _).2 ⟨hb, memWrite_above c k v m (by omega) ha hm, ih hm⟩

theorem memWrites_wf (l : List Byte) (m : List Host.Cell) (k : Nat) (h : Memory.wf m = true) :
    Memory.wf (memWrites m k l) = true := by
  induction l generalizing m k with
  | nil => exact h
  | cons b l ih => exact ih _ _ (memWrite_wf m k b h)

theorem memRead_of_above (a k : Nat) (m : List Host.Cell) (hk : k ≤ a) (h : Memory.above a m = true)
    (hm : Memory.wf m = true) : memRead m k = 0 := by
  induction m generalizing a with
  | nil => rfl
  | cons c m ih =>
    obtain ⟨c, b⟩ := c
    have hc : a < c := by simpa [Memory.above] using h
    obtain ⟨-, ha, hm⟩ := (Memory.wf_cons c b m).1 hm
    simp only [memRead, if_neg (show ¬ c = k by omega)]
    exact ih c (by omega) ha hm

/-- A byte read after a write of one byte. -/
theorem memRead_memWrite (m : List Host.Cell) (k a : Nat) (v : Byte) (h : Memory.wf m = true) :
    memRead (memWrite m k v) a = if a = k then v else memRead m a := by
  induction m with
  | nil =>
    rw [memWrite]
    split
    · next hv => simp [memRead, hv]
    · by_cases ha : a = k
      · simp [memRead, ha]
      · simp [memRead, ha, Ne.symm ha]
  | cons c m ih =>
    obtain ⟨c, b⟩ := c
    obtain ⟨hb, hab, hm⟩ := (Memory.wf_cons c b m).1 h
    have above : k < c → memRead ((c, b) :: m) k = 0 := fun hk =>
      memRead_of_above k k _ (Nat.le_refl k) (by simpa [Memory.above]) h
    simp only [memWrite]
    split
    · next hk =>
      split
      · next hv => split
                   · next ha => rw [ha, hv]; exact above hk
                   · rfl
      · simp only [memRead]
        by_cases ha : a = k
        · simp [ha]
        · rw [if_neg (fun e => ha e.symm), if_neg ha]
    · split
      · next hk =>
        subst hk
        split
        · next hv =>
          by_cases ha : a = k
          · rw [if_pos ha, ha, hv]; exact memRead_of_above k k m (Nat.le_refl k) hab hm
          · simp [memRead, ha, Ne.symm ha]
        · by_cases ha : a = k
          · simp [memRead, ha]
          · simp [memRead, ha, Ne.symm ha]
      · next hk =>
        simp only [memRead, ih hm]
        by_cases hc : c = a
        · rw [if_pos hc, if_neg (by omega), if_pos hc]
        · rw [if_neg hc, if_neg hc]

/-- Bytes outside those written read as before. -/
theorem memRead_memWrites_of_outside (l : List Byte) (m : List Host.Cell) (k a : Nat)
    (h : Memory.wf m = true) (ha : a < k ∨ k + l.length ≤ a) :
    memRead (memWrites m k l) a = memRead m a := by
  induction l generalizing m k with
  | nil => rfl
  | cons b l ih =>
    simp only [List.length_cons] at ha
    rw [memWrites, ih _ _ (memWrite_wf m k b h) (by omega), memRead_memWrite m k a b h, if_neg (by omega)]

/-- Bytes written read back. -/
theorem memReads_memWrites (l : List Byte) (m : List Host.Cell) (k : Nat) (h : Memory.wf m = true) :
    memReads (memWrites m k l) k l.length = l := by
  induction l generalizing m k with
  | nil => rfl
  | cons b l ih =>
    have hw := memWrite_wf m k b h
    rw [List.length_cons, memReads, memWrites, ih _ _ hw,
      memRead_memWrites_of_outside l _ (k + 1) k hw (by omega), memRead_memWrite m k k b h, if_pos rfl]

/-! ### The state's writes -/

theorem memOk_of_mem_eq {s t : State} (e : t.mem = s.mem) (h : s.memOk) : t.memOk := by
  unfold State.memOk; rw [e]; exact h

@[simp] theorem wake_mem (s : State) (k n : Nat) : (s.wake k n).mem = s.mem := by
  unfold State.wake; split <;> rfl

@[simp] theorem wr_mem (s : State) (k : Nat) (l : List Byte) : (s.wr k l).mem = memWrites s.mem k l := by
  simp [State.wr]

theorem wr_memOk (s : State) (k : Nat) (l : List Byte) (h : s.memOk) : (s.wr k l).memOk := by
  unfold State.memOk; rw [wr_mem]; exact memWrites_wf l _ k h

theorem wrN_memOk (s : State) (k n v : Nat) (h : s.memOk) : (s.wrN k n v).memOk := wr_memOk s k _ h

theorem wr8_memOk (s : State) (k : Nat) (v : W) (h : s.memOk) : (s.wr8 k v).memOk := wrN_memOk s k 8 _ h

theorem wrWords_memOk (s : State) (k : Nat) (l : List W) (h : s.memOk) : (s.wrWords k l).memOk :=
  wr_memOk s k _ h

/-- A fold keeps the canonical form if each of its steps does. -/
theorem foldl_memOk {α : Type} (f : State → α → State) (hf : ∀ s a, s.memOk → (f s a).memOk) (l : List α)
    (s : State) (h : s.memOk) : (l.foldl f s).memOk := by
  induction l generalizing s with
  | nil => exact h
  | cons a l ih => exact ih _ (hf s a h)

theorem writeUnits_memOk (l : List Nat) (b : List Byte) (s : State) (h : s.memOk) : (s.writeUnits l b).memOk := by
  induction l generalizing b s with
  | nil => exact h
  | cons k l ih => exact ih _ _ (wr_memOk s k _ h)

theorem writeUnder_memOk (s t : State) (slot pa : Nat) (l : List Byte) (h : s.memOk)
    (e : s.writeUnder slot pa l = some t) : t.memOk := by
  unfold State.writeUnder at e
  split at e
  · cases e
    refine wr_memOk _ _ _ (foldl_memOk _ (fun t u ht => ?_) _ s h)
    split
    · exact ht
    · exact memOk_of_mem_eq rfl (wr_memOk t (u * 64) _ ht)
  · cases e

theorem writeKeys_memOk (l : List (Nat × W)) (s : State) (h : s.memOk) : (s.writeKeys l).memOk :=
  foldl_memOk _ (fun s p hs => wr8_memOk s p.1 p.2 hs) l s h

/-- Memory at reset is in its canonical form. -/
theorem reset_memOk : State.reset.memOk := rfl

theorem withFetchWord_memOk (s : State) (nbits w : Nat) (h : s.memOk) : (s.withFetchWord nbits w).memOk :=
  memWrites_wf _ _ _ h

end Sys2Proof.Machine
end

