-- ==== Sys2Proof/Tests/Slice0.lean ====
section
/-! SUPPORT. The model's own tests: what well-formedness refuses, words written out from the encoding tables, and
for each statement states that meet its hypotheses, with results taken from the rule where one is given. -/

set_option Elab.async false
set_option linter.unusedTactic false
set_option linter.unreachableTactic false
set_option linter.unnecessarySeqFocus false

namespace Sys2Proof.Tests

open Sys2Proof.Machine

/-! ### Well-formedness: each check refuses an ill-formed term -/

theorem test_wf_rounding :
    ([.fadd 1 2 3 5 0, .fsub 1 2 3 6 0, .fmul 1 2 3 5 0, .fdiv 1 2 3 6 0, .fsqrt 1 2 5 0, .fmadd 1 2 3 6 0,
      .fmsub 1 2 3 5 0, .fnmadd 1 2 3 6 0, .fnmsub 1 2 3 5 0, .gadd 1 2 5 0 3, .gsub 1 2 6 0 3, .gschur 1 5 3,
      .gsolve 1 6 3, .gdamp 1 2 5 3] : List Instr).all (fun i => !i.wf) = true := by decide +kernel

theorem test_wf_scopes :
    ([.amoadd 1 2 3 5 1, .amoadd 1 2 3 1 0, .amofaddD 1 2 3 7 3, .amofaddS 1 2 3 1 0, .amomin 1 2 3 6 2, .amomax 1 2 3 1 0,
      .amominu 1 2 3 5 1, .amomaxu 1 2 3 1 0, .amoswap 1 2 3 7 1, .amocas 1 2 3 1 0, .amoand 1 2 3 5 3, .amoor 1 2 3 1 0,
      .amoxor 1 2 3 6 1, .nwait 1 2 3 1 0 0, .nwait 1 2 3 5 1 0, .fence 5, .fence 7, .lda 1 2 0 3 5, .stl 1 2 3 6] :
      List Instr).all (fun i => !i.wf) = true := by decide +kernel

theorem test_wf_loads :
    ([.lda 1 2 1 3 0, .gld 1 2 1 40 3, .wrd 1 2 1 40 3, .wamo 1 2 40 12, .wamo 1 2 40 31] : List Instr).all
      (fun i => !i.wf) = true := by decide +kernel

theorem test_wf_conversions :
    ([.fcvt 1 2 1 1 0 0, .fcvt 1 2 1 2 0 5, .fcvt 1 2 1 2 1 0, .fcvt 1 2 7 1 1 0, .fcvt 1 2 7 8 0 0, .fcvt 1 2 0 1 0 0,
      .fcvt 1 2 15 1 0 0, .fcvt 1 2 1 15 0 0, .fround 1 2 1 2 0, .fround 1 2 7 7 0, .fround 1 2 1 1 6] : List Instr).all
      (fun i => !i.wf) = true ∧ (Instr.fcvt 1 2 5 1 1 0).wf = true ∧ (Instr.fcvt 1 2 7 8 0 7).wf = true := by
  decide +kernel

theorem test_wf_fields :
    ([.loop 5 3 33, .loop 5 0 1, .loopi 3 33 1, .loopi 0 1 1, .vcmpeqInt 1 2 3 0 3, .vcmpltInt 1 2 3 0 3,
      .vcmpltu 1 2 3 0 3, .vcvtf 1 2 0 3, .send 1 0 2 5, .send 1 5 2 5, .recv 1 0 2 5, .recv 1 7 2 5, .probe 1 6 5,
      .tzero 3 0, .gzero 1 0, .gzero 1 17, .yield 0, .yield 16, .gang 1 0, .mfs 5 2, .mts 5 0x102, .cAddi 0 1, .cLi 0 1,
      .cJr 0, .illegalInstruction, .launch, .timerExpiry 0] : List Instr).all (fun i => !i.wf) = true := by decide +kernel

/-! ### Decoding: words written out from the encoding tables (Tables 3.1 to 3.9) -/

theorem test_words_0 :
    decodeWord 0b0000000_00111_00110_00101_000_00000_11 = some (.add 5 6 7) ∧
    decodeWord 0b1111111_11111_00110_00101_000_00001_11 = some (.addi 5 6 4095) ∧
    decodeWord 0b0011000_01000_00110_00101_010_00010_11 = some (.extu 5 6 12 8) ∧
    decodeWord 0b0000111_00011_00010_00001_101_00000_11 = some (.sel 1 2 3 7) ∧
    decodeWord 0b0001001_00000_00101_00100_110_00010_11 = some (.msghPack 4 5 9) ∧
    decodeWord 0b0000000_01010_01001_01000_000_00011_11 = some (.mul 8 9 10) ∧
    decodeWord 0b1111111_00100_00011_11110_000_00100_11 = some (.beq 3 4 4094) ∧
    decodeWord 0b1111111_11111_11111_00001_000_00101_11 = some (.jal 1 131071) := by decide +kernel

theorem test_words_1 :
    decodeWord 0b1000000_00001_00101_00001_000_00110_11 = some (.loop 5 2 33) ∧
    decodeWord 0b0000000_00101_00100_00011_011_00110_11 = some (.peq 3 4 5) ∧
    decodeWord 0b1000000_00001_00110_00101_011_00111_11 = some (.ldD 5 6 2049) ∧
    decodeWord 0b0111111_11111_00110_00101_011_01000_11 = some (.stD 5 6 2047) ∧
    decodeWord 0b0000000_00100_00000_00001_100_01000_11 = some (.enter 1 4) ∧
    decodeWord 0b1101001_00010_00110_00101_000_01001_11 = some (.gld 5 6 1 41 2) ∧
    decodeWord 0b0111111_01011_00110_00101_110_01001_11 = some (.wamo 5 6 63 11) ∧
    decodeWord 0b1001100_00111_00110_00101_100_01010_11 = some (.amocas 5 6 7 4 3) := by decide +kernel

theorem test_words_2 :
    decodeWord 0b0000001_00111_00110_00101_110_01010_11 = some (.nwait 5 6 7 0 0 1) ∧
    decodeWord 0b0000011_00000_00000_00000_000_01011_11 = some (.fence 3) ∧
    decodeWord 0b0010010_00000_00110_00101_001_01011_11 = some (.lda 5 6 0 2 2) ∧
    decodeWord 0b0000000_00000_00000_00000_011_01011_11 = some .ifence ∧
    decodeWord 0b0000100_00011_00010_00001_100_01011_11 = some (.waitc 4 3 2 1) ∧
    decodeWord 0b1110001_00011_00010_00001_000_01100_11 = some (.fadd 1 2 3 7 1) ∧
    decodeWord 0b0000010_00011_00010_00001_000_01101_11 = some (.fmadd 1 2 3 0 2) ∧
    decodeWord 0b0001000_00010_00010_00001_000_01110_11 = some (.fcvt 1 2 1 2 0 0) := by decide +kernel

theorem test_words_3 :
    decodeWord 0b0100000_00011_00010_00001_010_01111_11 = some (.vaddFp 1 2 3 1 2) ∧
    decodeWord 0b0100000_00011_00010_00001_110_01111_11 = some (.vaddInt 1 2 3 1 2) ∧
    decodeWord 0b0011100_00011_00010_00001_100_01111_11 = some (.qand 1 2 3) ∧
    decodeWord 0b1111111_11111_00110_01111_000_10000_11 = some (.vld 15 6 4095) ∧
    decodeWord 0b1110000_00011_00010_00001_000_10001_11 = some (.vperm 1 2 3 3 2) ∧
    decodeWord 0b0011100_10001_01000_00111_000_10010_11 = some (.send 7 1 200 40) ∧
    decodeWord 0b0000000_00001_01000_00111_000_10011_11 = some (.connect 7 40) ∧
    decodeWord 0b1101000_00000_00000_00111_001_10100_11 = some (.cpgoRemote 7 40) := by decide +kernel

theorem test_words_4 :
    decodeWord 0b0000011_00111_00110_00001_001_10101_11 = some (.tmma 6 7 1 33) ∧
    decodeWord 0b0000101_00111_00110_00001_010_10110_11 = some (.gadd 6 7 0 1 33) ∧
    decodeWord 0b0101000_00000_00110_00000_010_10111_11 = some (.rput 6 40) ∧
    decodeWord 0b0000000_00111_00110_00000_011_11000_11 = some (.spawn 6 7) ∧
    decodeWord 0b0000011_00000_00000_00110_111_11000_11 = some (.gang 6 3) ∧
    decodeWord 0b0000001_00111_00110_00101_000_11001_11 = some (.startPc 5 6 7) ∧
    decodeWord 0b1000100_00110_00001_00000_110_11001_11 = some (.fbar 6 33) ∧
    decodeWord 0b0000000_00000_00100_00000_101_11001_11 = some (.semwait 4) := by decide +kernel

theorem test_words_5 :
    decodeWord 0b1111111_11111_00110_00011_001_11010_11 = some (.xld 3 6 4095) ∧
    decodeWord 0b0000001_01000_00000_00101_000_11011_11 = some (.mfs 5 40) ∧
    decodeWord 0b0000000_00000_00000_00000_010_11011_11 = some .eret ∧
    decodeWord 0b0000000_00111_00000_00000_011_11011_11 = some (.trap 7) ∧
    decodeWord 0b111111_00101_000_00 = some (.cAddi 5 63) ∧
    decodeWord 0b000001_00101_000_01 = some (.cBeqz 5 1) ∧
    decodeWord 0b111111_11111_010_01 = some (.cJ 2047) ∧
    decodeWord 0b000000_00000_101_10 = some .cNop := by decide +kernel

/-! ### States for the witnesses -/

theorem ok_of {α : Type} [DecidableEq α] {r : Res α} {a : α}
    (h : (match r with | .ok b => decide (b = a) | _ => false) = true) : r = .ok a := by
  cases r <;> simp_all

theorem trap_of {α : Type} {r : Res α} {t : Trap}
    (h : (match r with | .trap u => decide (u = t) | _ => false) = true) : r = .trap t := by
  cases r <;> simp_all

theorem next_of {o : Out} {t : State} (h : (match o with | .next u => decide (u = t) | _ => false) = true) :
    o = .next t := by
  cases o <;> simp_all

/-- The next state, where there is one. -/
def nextSt : Out → State
  | .next t => t
  | _ => State.reset

/-- The value of a check that passes. -/
def okVal {α : Type} : Res α → Option α
  | .ok a => some a
  | _ => none

/-- A leaf that maps to the pool of core 0 at the page's own offset, with permissions perm. -/
def leafAt (page perm : Nat) : W := mkW [(1, 63), (1, 61), (page, 12), (1, 11), (perm, 6)]

/-- A launched core: sixteen pages from 0x30000 readable, writable and executable, one accumulator bank. -/
def tcore : Core :=
  { Core.init with
    launched := true, xroot := 1, part := 0x00043A0000000000
    tlb := [⟨0, 0x30, 16, leafAt 0x30 7⟩, ⟨0, 0x50, 1, leafAt 0x50 0⟩, ⟨0, 0x60, 1, 0x80000000000609C0⟩,
      ⟨0, 0x70, 1, leafAt 0x10 7⟩, ⟨0, 0x71, 1, leafAt 0x31 7 ||| 0x2000000000⟩, ⟨0, 0x2FF, 1, leafAt 0x2FF 7⟩] }

/-- A running context: register n holds 0x31000 + 64 * n, but for those given. -/
def tctx (l : List (Nat × W)) : Ctx :=
  { Ctx.init with
    life := .runnable, pc := 0x30100, tvec := 0x30400, p := 0b10
    g := Vector.ofFn fun i => if i.val = 0 then 0 else ((l.find? fun p => p.1 == i.val).map (·.2)).getD
      (BitVec.ofNat 64 (0x31000 + 64 * i.val)) }

/-- The module with context k of core 0 about to issue. -/
def tst (k : CtxId) (l : List (Nat × W)) (f : Ctx → Ctx := id) (x : Core → Core := id) : State :=
  { State.reset with cur := ⟨0, k, 0⟩, cores := [(0, x { tcore with ctxs := [(k.toNat, f (tctx l))] })] }

/-! ### Witnesses and results, statement by statement -/

theorem wit_RegisterOperands :
    let s := tst 1 [(5, 7), (6, 9)]
    s.plain [5, 6, 31] ∧ s.plain [0, 7] ∧ (∀ r ∈ ([0, 15] : List Reg), r.toNat < vcapOf s.me.part) ∧
    s.operands [5, 6] [7] [15] = .ok [7, 9] ∧ s.operands [0] [] [] = .ok [0] := by
  unfold State.plain
  and_intros <;> first | exact ok_of (by decide +kernel) | decide +kernel

/-- At the lowest general and vector caps, 16 and 0, register 16 and vector 0 do not exist (R15). -/
theorem wit_RegisterOperands_caps :
    let s := tst 1 [] id fun x => { x with part := 0x0004300000000000 }
    gcapOf s.me.part = 16 ∧ vcapOf s.me.part = 0 ∧ (s.aliasOf 1).isSome = false ∧
    s.operands [16, 5] [7] [] = .trap { cause := 0x02 } ∧ s.operands [] [16] [] = .trap { cause := 0x02 } ∧
    s.operands [] [] [0] = .trap { cause := 0x02 } ∧ s.plain [15] ∧
    exec (.add 7 16 5) s = .next (s.trap { cause := 0x02 }) := by
  unfold State.plain
  and_intros <;> first | exact trap_of (by decide +kernel) | exact next_of (by decide +kernel) | decide +kernel

theorem wit_IntegerRegisterResults :
    let s := tst 1 [(5, 0x7FFFFFFFFFFFFFFF), (6, 1)]
    s.operands [5, 6] [7] [] = .ok [0x7FFFFFFFFFFFFFFF, 1] ∧
    exec (.add 7 5 6) s = .next (s.doneG 4 [5, 6] 7 0x8000000000000000) ∧
    exec (.addss 7 5 6) s = .next (s.doneG 4 [5, 6] 7 0x7FFFFFFFFFFFFFFF) ∧
    exec (.addw 7 5 6) s = .next (s.doneG 4 [5, 6] 7 0) ∧
    exec (.sel 7 5 6 1) s = .next (s.doneG 4 [5, 6] 7 0x7FFFFFFFFFFFFFFF) ∧
    exec (.addsl 7 5 6 3) s = .next (s.doneG 4 [5, 6] 7 0x8000000000000007) := by
  and_intros <;> first | exact ok_of (by decide +kernel) | exact next_of (by decide +kernel) | decide +kernel

/-- Endpoint 3 bound as g30 and endpoint 4 as g31, both owned by context 1; n messages are in g30's slots. -/
def streams (rx tx : EpSt) (lacnt : BitVec 7) (n : Nat) : State :=
  let s := tst 1 [] id fun x => { x with eps := [
    (3, { st := rx, owner := 1, proto := 9, bindAs := 1, base := 0x38000, slotu := 2, depth := 3, pdepth := 3 }),
    (4, { st := tx, owner := 1, proto := 9, role := 1, bindAs := 2, slotu := 2, depth := 3, pdepth := 3, lacnt := lacnt })] }
  (List.range n).foldl (fun s i => (s.wr8 (poolKey 0 0x38000 + 32 * i) (hdrWord 1 0 i 8)).wr8
    (poolKey 0 0x38010 + 32 * i) (BitVec.ofNat 64 (100 + i))) s

theorem wit_StreamNamesPopAndPush :
    (let s := streams .open .open 3 2
     s.aliasOf 1 = some 3 ∧ s.aliasOf 2 = some 4 ∧ hdrF (s.slotHeader 0 3 0) = true ∧ hdrF (s.slotHeader 0 3 1) = true ∧
     hdrCls (s.slotHeader 0 3 1) = 1 ∧ hdrTyp (s.slotHeader 0 3 1) = 0 ∧ 2 ≤ (s.ep 3).slots ∧ (s.ep 4).full = false ∧
     exec (.add 31 30 30) s = .next (((s.transmit 0 4 1 0 (leBytes 8 201)).takeWords [30, 30]).complete 4)) ∧
    (let s := streams .open .open 4 2
     (s.ep 4).full = true ∧ exec (.add 31 30 30) s = .next (s.block { kind := 2, ep := 4, alias_ := true })) ∧
    (let s := streams .open .open 0 0
     hdrF (s.slotHeader 0 3 0) = false ∧ exec (.add 31 30 30) s = .next (s.block { kind := 1, ep := 3, alias_ := true })) ∧
    (let s := streams .peerClosed .open 0 0
     (s.ep 3).st = .peerClosed ∧ exec (.add 31 30 30) s = .next (s.trap { cause := 0x06, detail := 3 })) := by
  (and_intros <;> first | decide +kernel | (show @Eq Out _ _; exact next_of (by decide +kernel)) | (show @Eq (Res _) _ _; exact ok_of (by decide +kernel)) | (show @Eq (Res _) _ _; exact trap_of (by decide +kernel)))

/-- Other uses of the names: two fields of g30 and one plain one; a one-slot endpoint; the first word present and the second
absent; a message that is no word; an engine that holds the slot. -/
theorem wit_StreamNamesPopAndPush_operands :
    (let s := streams .open .open 3 2
     s.legalNames [30, 5, 30] [9] [] = true ∧ s.operands [30, 5, 30] [9] [] = .ok [100, 0x31140, 101] ∧
     s.legalNames [5] [31] [] = true ∧ s.legalNames [30] [31] [] = true ∧ s.operands [30] [31] [] = .ok [100] ∧
     exec (.addi 9 30 1) s = .next (((s.mapCtx fun c => { c with g := c.g.set 9 101 }).takeWords [30]).complete 4) ∧
     s.heldAt 0 (poolKey 0 0x38000) 24 true = false) ∧
    (let s := streams .open .open 0 1
     hdrF (s.slotHeader 0 3 0) = true ∧ hdrF (s.slotHeader 0 3 1) = false ∧
     exec (.add 31 30 30) s = .next (s.block { kind := 1, ep := 3, alias_ := true }) ∧ s.operands [30, 5] [9] [] = .ok [100, 0x31140]) ∧
    (let s := (streams .open .open 0 1).mapEp 3 fun ep => { ep with depth := 0 }
     (s.ep 3).slots = 1 ∧ exec (.add 9 30 30) s = .next (s.block { kind := 1, ep := 3, alias_ := true })) ∧
    (let s := (streams .open .open 0 2).wr8 (poolKey 0 0x38000) (hdrWord 0 0 0 0)
     hdrCls (s.slotHeader 0 3 0) = 0 ∧ exec (.addi 9 30 1) s = .next (s.trap { cause := 0x06, detail := 3 })) ∧
    (let s := streams .open .lost 0 2
     (s.ep 4).st = .lost ∧ exec (.addi 31 5 1) s = .next (s.trap { cause := 0x06, detail := 4 })) ∧
    (let s := (streams .open .open 0 2).mapMe fun x => { x with gqueue := [⟨1, 1000, 2, .loadf, 0, [poolKey 0 0x38000], 0, true⟩] }
     s.heldAt 0 (poolKey 0 0x38000) 24 true = true ∧ exec (.add 9 30 30) s = .next (s.block { kind := 5, ep := 3, alias_ := true })) := by
  (and_intros <;> first | decide +kernel | (show @Eq Out _ _; exact next_of (by decide +kernel)) | (show @Eq (Res _) _ _; exact ok_of (by decide +kernel)) | (show @Eq (Res _) _ _; exact trap_of (by decide +kernel)))

theorem wit_ImmediateMultiplyAndFieldResults :
    let s := tst 1 [(5, 0xFEDCBA9876543210), (6, 67), (7, 0x0000000800000004), (8, 0)]
    s.operands [5] [9] [] = .ok [0xFEDCBA9876543210] ∧ s.operands [5, 6] [9] [] = .ok [0xFEDCBA9876543210, 67] ∧
    s.operands [5] [5] [] = .ok [0xFEDCBA9876543210] ∧ s.operands [0] [9] [] = .ok [0] ∧ s.operands [0, 6] [9] [] = .ok [0, 67] ∧
    s.operands [5, 7, 5] [5] [] = .ok [0xFEDCBA9876543210, 0x0000000800000004, 0xFEDCBA9876543210] ∧
    s.operands [5, 5] [5] [] = .ok [0xFEDCBA9876543210, 0xFEDCBA9876543210] ∧
    exec (.addi 9 5 0xFFF) s = .next (s.doneG 4 [5] 9 0xFEDCBA987654320F) ∧
    exec (.addhi 9 5 1) s = .next (s.doneG 4 [5] 9 0xFEDCBA9876544210) ∧
    exec (.sltiu 9 5 0xFFF) s = .next (s.doneG 4 [5] 9 1) ∧
    exec (.sll 9 5 6) s = .next (s.doneG 4 [5, 6] 9 0xF6E5D4C3B2A19080) ∧
    exec (.srai 9 5 4) s = .next (s.doneG 4 [5] 9 0xFFEDCBA987654321) ∧
    exec (.rev8 9 5) s = .next (s.doneG 4 [5] 9 0x1032547698BADCFE) ∧
    exec (.clz 9 8) s = .next (s.doneG 4 [8] 9 64) ∧ exec (.ctz 9 5) s = .next (s.doneG 4 [5] 9 4) ∧
    exec (.cLi 9 63) s = .next (s.doneG 2 [0] 9 0xFFFFFFFFFFFFFFFF) ∧
    exec (.cMv 9 6) s = .next (s.doneG 2 [0, 6] 9 67) ∧
    exec (.mulhu 9 5 5) s = .next (s.doneG 4 [5, 5] 9 0xFDBAC097C8DC5ACC) ∧
    exec (.extu 9 5 8 60) s = .next (s.doneG 4 [5] 9 15) ∧ exec (.exts 9 5 0 60) s = .next (s.doneG 4 [5] 9 0) ∧
    exec (.extsr 9 5 7) s = .next (s.doneG 4 [5, 7] 9 0x21) ∧
    exec (.ins 9 6 8 56) s = .next (s.doneG 4 [6, 9] 9 0x4300000000031240) := by
  (and_intros <;> first | decide +kernel | (show @Eq Out _ _; exact next_of (by decide +kernel)) | (show @Eq (Res _) _ _; exact ok_of (by decide +kernel)) | (show @Eq (Res _) _ _; exact trap_of (by decide +kernel)))

theorem wit_DivisionRecomposes :
    (let s := tst 1 [(5, 0x8000000000000000), (6, 0xFFFFFFFFFFFFFFFF), (7, 0)]
     s.operands [5, 6] [9] [] = .ok [0x8000000000000000, 0xFFFFFFFFFFFFFFFF] ∧
     s.operands [5, 7] [9] [] = .ok [0x8000000000000000, 0] ∧
     exec (.div 9 5 6) s = .next (((s.setG 9 0x8000000000000000).forfeits 4).done 4 [5, 6]) ∧
     exec (.rem 9 5 7) s = .next (((s.setG 9 0x8000000000000000).forfeits 4).done 4 [5, 7])) := by
  (and_intros <;> first | decide +kernel | (show @Eq Out _ _; exact next_of (by decide +kernel)) | (show @Eq (Res _) _ _; exact ok_of (by decide +kernel)) | (show @Eq (Res _) _ _; exact trap_of (by decide +kernel)))

/-- Layout 2 has two fields, of 8 and 16 bits; layout 3 has fields of 64 and 1 bits. -/
def layouts (k : CtxId) : State := tst k [(5, 0x1FF), (6, 0x12345), (7, 0x8100000000000F07)] id fun x => { x with
  layouts := (x.layouts.set 2 0x81000000000003C7).set 3 0x810000000000003F }

theorem wit_MessageHeaders :
    (let s := layouts 1
     s.me.layouts[2].getLsbD 63 = true ∧ s.operands [5, 6] [9] [] = .ok [0x1FF, 0x12345] ∧ 5 + 2 ≤ gcapOf s.me.part ∧
     s.operands [5] [5, 6] [] = .ok [0x1FF] ∧ s.me.layouts[4].getLsbD 63 = false ∧ gcapOf s.me.part < 31 + 2 ∧
     exec (.msghPack 9 5 2) s = .next (s.doneG 4 [5, 6] 9 0x2345FF) ∧
     exec (.msghPack 9 31 2) s = .next (s.trap { cause := 0x02 }) ∧
     exec (.msghLoad 7 2) s = .next (s.trap { cause := 0x02 }) ∧
     s.operands [] [9] [] = .ok [] ∧ s.operands [7] [] [] = .ok [0x8100000000000F07]) ∧
    (let s := tst 0 [(5, 0x810000000000003F), (6, 0x800000000000003F), (7, 0x0100000000000FFF)]
     s.operands [5] [] [] = .ok [0x810000000000003F] ∧ s.operands [6] [] [] = .ok [0x800000000000003F] ∧
     s.operands [7] [] [] = .ok [0x0100000000000FFF] ∧ exec (.msghLoad 5 15) s = .next (s.trap { cause := 0x02 }) ∧
     (nextSt (exec (.msghLoad 6 15) s)).me.layouts[15] = 0x800000000000003F ∧
     (nextSt (exec (.msghLoad 7 15) s)).me.layouts[15] = 0x0100000000000FFF) := by
  (and_intros <;> first | decide +kernel | (show @Eq Out _ _; exact next_of (by decide +kernel)) | (show @Eq (Res _) _ _; exact ok_of (by decide +kernel)) | (show @Eq (Res _) _ _; exact trap_of (by decide +kernel)))

theorem wit_BranchesAndJumps :
    let s := tst 1 [(5, 0xFFFFFFFFFFFFFFFF), (6, 1)]
    s.operands [5, 6] [] [] = .ok [0xFFFFFFFFFFFFFFFF, 1] ∧ s.operands [5, 0] [] [] = .ok [0xFFFFFFFFFFFFFFFF, 0] ∧
    s.operands [] [9] [] = .ok [] ∧ s.operands [5] [9] [] = .ok [0xFFFFFFFFFFFFFFFF] ∧ s.operands [] [0] [] = .ok [] ∧
    s.operands [] [1] [] = .ok [] ∧ s.operands [5] [0] [] = .ok [0xFFFFFFFFFFFFFFFF] ∧ s.ctx.heldStop = false ∧
    exec (.blt 5 6 0xFFA) s = .next ((s.completeTo 0x300F4).takeWords [5, 6]) ∧
    exec (.bltu 5 6 0xFFA) s = .next ((s.complete 4).takeWords [5, 6]) ∧
    exec (.bpt 1 2) s = .next (s.completeTo 0x30104) ∧ exec (.bpf 1 2) s = .next (s.complete 4) ∧
    exec (.jal 9 0x1FFFF) s = .next (((s.setG 9 0x30104).completeTo 0x300FE).takeWords []) ∧
    exec (.cJal 4) s = .next (((s.setG 1 0x30102).completeTo 0x30108).takeWords []) ∧
    exec (.jalr 9 6 0) s = .next (((s.setG 9 0x30104).completeTo 1).takeWords [6]) := by
  (and_intros <;> first | decide +kernel | (show @Eq Out _ _; exact next_of (by decide +kernel)) | (show @Eq (Res _) _ _; exact ok_of (by decide +kernel)) | (show @Eq (Res _) _ _; exact trap_of (by decide +kernel)))

theorem wit_oddTarget :
    let s := tst 1 [] fun c => { c with oddPc := some 0x30201 }
    s.ctx.gangLate = none ∧
    s.issueOnce = .next (s.trap { cause := 0x03, addr := 0x30201, fpc := some 0x30201, insn := some 0 }) := by
  (and_intros <;> first | decide +kernel | (show @Eq Out _ _; exact next_of (by decide +kernel)) | (show @Eq (Res _) _ _; exact ok_of (by decide +kernel)) | (show @Eq (Res _) _ _; exact trap_of (by decide +kernel)))

theorem wit_LoopsStart :
    (let s := tst 1 [(5, 0x100000002)] fun c => { c with lc := c.lc.set 2 1, le := c.le.set 2 0x30110 }
     s.operands [5] [] [] = .ok [0x100000002] ∧ (s.ctx.lc[1] = 0 ∧ (0x30110 : Nat) ≤ s.ctx.le[2].toNat) ∧
     ¬ (s.ctx.lc[2] = 0 ∨ (0x30112 : Nat) ≤ s.ctx.le[2].toNat) ∧
     exec (.loop 5 1 9) s = .next (s.trap { cause := 0x02 }) ∧
     (let t := (nextSt (exec (.loop 5 1 8) s)).ctx
      t.lc = #v[0, 0xFFFFFFFF, 1] ∧ t.le[1] = 0x30110 ∧ t.lb[1] = 0x30104 ∧ t.pc = 0x30104)) ∧
    (let s := (tst 1 [(5, 0)]).wr8 (poolKey 0 0x30110) 0x0016
     s.operands [5] [] [] = .ok [0] ∧ (okVal (s.lenAt 0x30110)).map (fun p => p.1) = some 2 ∧
     (nextSt (exec (.loop 5 0 8) s)).ctx.pc = 0x30112 ∧ (nextSt (exec (.loopi 0 8 0) s)).ctx.pc = 0x30112) := by
  (and_intros <;> first | decide +kernel | (show @Eq Out _ _; exact next_of (by decide +kernel)) | (show @Eq (Res _) _ _; exact ok_of (by decide +kernel)) | (show @Eq (Res _) _ _; exact trap_of (by decide +kernel)))

theorem wit_LoopEndAndCompletion :
    let ends (a b c : BitVec 32) : Ctx := { Ctx.init with lc := #v[a, b, c], le := #v[8, 8, 8], lb := #v[0x10, 0x20, 0x30] }
    (Ctx.init.loopNext 8 4).2 = 12 ∧
    ((ends 2 1 1).loopNext 8 4).2 = 0x10 ∧ ((ends 0 2 1).loopNext 8 4).2 = 0x20 ∧ ((ends 0 0 2).loopNext 8 4).2 = 0x30 ∧
    ((ends 1 0 0).loopNext 8 4).2 = 12 ∧ ((ends 1 2 5).loopNext 8 4).2 = 0x20 ∧ ((ends 1 1 1).loopNext 8 4).2 = 12 ∧
    ((ends 1 1 1).loopNext 8 4).1.lc = #v[0, 0, 0] ∧ ((ends 1 1 2).loopNext 8 4).2 = 0x30 ∧ ((ends 1 1 0).loopNext 8 4).2 = 12 ∧
    ((ends 1 0 2).loopNext 8 4).2 = 0x30 ∧ ((ends 1 0 1).loopNext 8 4).1.lc = #v[0, 0, 0] ∧ ((ends 0 1 0).loopNext 8 4).1.lc = #v[0, 0, 0] ∧
    ((ends 0 1 2).loopNext 8 4).2 = 0x30 ∧ ((ends 0 1 1).loopNext 8 4).1.lc = #v[0, 0, 0] ∧ ((ends 0 0 1).loopNext 8 4).2 = 12 ∧
    (tst 1 []).ctx.heldStop = false ∧ (tst 1 [] fun c => { c with heldStop := true }).ctx.heldStop = true ∧
    ((tst 1 [] fun c => { c with heldStop := true }).complete 4).ctx.life = .stopped ∧
    ((tst 1 []).ctx.lc[2] = 0 ∨ (tst 1 []).ctx.le[2] ≠ (tst 1 []).ctx.pc) := by
  (and_intros <;> first | decide +kernel | (show @Eq Out _ _; exact next_of (by decide +kernel)) | (show @Eq (Res _) _ _; exact ok_of (by decide +kernel)) | (show @Eq (Res _) _ _; exact trap_of (by decide +kernel)))

theorem wit_PredicatesAndIllegalInstructions :
    let s := tst 1 [(5, 0xFFFFFFFFFFFFFFFF), (6, 1)]
    s.operands [5, 6] [] [] = .ok [0xFFFFFFFFFFFFFFFF, 1] ∧ s.operands [] [9] [] = .ok [] ∧
    s.operands [5] [] [] = .ok [0xFFFFFFFFFFFFFFFF] ∧ decodeWord (0 : BitVec 32).toNat = none ∧
    exec (.pandn 7 1 0) s = .next ((s.setP 7 true).complete 4) ∧ exec (.porn 7 0 1) s = .next ((s.setP 7 false).complete 4) ∧
    exec (.plt 7 5 6) s = .next (s.doneP [5, 6] 7 true) ∧ exec (.pltu 7 5 6) s = .next (s.doneP [5, 6] 7 false) ∧
    exec (.pget 9) s = .next (s.doneG 4 [] 9 2) := by
  (and_intros <;> first | decide +kernel | (show @Eq Out _ _; exact next_of (by decide +kernel)) | (show @Eq (Res _) _ _; exact ok_of (by decide +kernel)) | (show @Eq (Res _) _ _; exact trap_of (by decide +kernel)))

theorem wit_ReadAfterWrite :
    let s := (tst 1 []).wr (poolKey 0 0x31000) [1, 0, 3]
    (tst 1 []).memOk ∧ s.memOk ∧ s.mem.length = 2 ∧ memRead s.mem (poolKey 0 0x31002) = 3 ∧ s.rd (poolKey 0 0x31000) 4 = 0x30001 ∧
    (s.wrN (poolKey 0 0x31000) 2 0x12345).rd (poolKey 0 0x31000) 2 = 0x2345 ∧ Memory.wf ([] : List Host.Cell) = true ∧
    (s.wr (poolKey 0 0x31000) [0, 0, 0]).mem = [] := by
  unfold State.memOk
  (and_intros <;> first | decide +kernel | (show @Eq Out _ _; exact next_of (by decide +kernel)) | (show @Eq (Res _) _ _; exact ok_of (by decide +kernel)) | (show @Eq (Res _) _ _; exact trap_of (by decide +kernel)))

/-- The page entry that translates an address. -/
def hit (s : State) (va : W) : Option TlbEnt :=
  s.me.tlb.find? fun e => e.hits (s.me.xroot.extractLsb' 56 8) (va.toNat / 4096)

theorem wit_LocalAccessChecks :
    (let s := tst 1 []
     s.access 0x31001 8 8 { r := true } = .trap { cause := 0x08, addr := 0x31001 } ∧ s.me.xroot.getLsbD 0 = true ∧
     s.access 0x10000000000000 8 8 { r := true } = .trap { cause := 0x09, detail := 0x302, addr := 0x10000000000000 } ∧
     s.ctx.walkFail = none ∧ hit s 0x50008 = some ⟨0, 0x50, 1, leafAt 0x50 0⟩ ∧
     s.access 0x50008 8 8 { r := true } = .trap { cause := 0x0A, detail := 4, addr := 0x50008 } ∧
     (hit s 0x60000).map (fun e => e.pte.toNat / 2 ^ 61 % 4) = some 0 ∧
     s.access 0x60000 8 8 { r := true, w := true } = .trap { cause := 0x0B, addr := 0x60000 } ∧
     (hit s 0x70000).map (fun e => e.home 0x70000) = some (.pool 0 0x10000) ∧
     s.access 0x70000 8 8 { r := true } = .trap { cause := 0x0B, addr := 0x70000 } ∧
     (hit s 0x71000).map (fun e => e.home 0x71000) = some (.pool 1 0x31000) ∧
     s.access 0x71000 8 8 { r := true } = .trap { cause := 0x0B, addr := 0x71000 } ∧
     (hit s 0x2FFFF8).map (fun e => e.home 0x2FFFF8) = some (.pool 0 0x2FFFF8) ∧
     s.access 0x2FFFF8 8 8 { w := true } = .ok (poolKey 0 0x2FFFF8) ∧
     s.access 0x30000 1 1 { r := true } = .ok (poolKey 0 0x30000)) ∧
    (let s := tst 1 [] id fun x => { x with xroot := 0 }
     s.access 0x31000 8 8 { r := true } = .trap { cause := 0x09, detail := 0x301, addr := 0x31000 }) ∧
    (let s := { tst 1 [] with bad := [poolKey 0 0x31008] }
     s.badIn (poolKey 0 0x3100C) 4 = some (poolKey 0 0x31008) ∧ s.badIn (poolKey 0 0x31010) 4 = none ∧
     s.access 0x3100C 4 4 { r := true } = .trap { cause := 0x11, addr := 0x31008 } ∧
     -- a store narrower than a dword merges with it, one of a dword does not (R137)
     s.access 0x3100C 4 4 { w := true } = .trap { cause := 0x11, addr := 0x31008 } ∧
     s.access 0x31008 8 8 { w := true } = .ok (poolKey 0 0x31008)) ∧
    (let s := tst 1 [] fun c => { c with walkFail := some ⟨0x90, 0x203⟩ }
     s.access 0x90000 8 8 { r := true } = .trap { cause := 0x09, detail := 0x203, addr := 0x90000 }) ∧
    (let s := tst 1 []
     hit s 0x90000 = none ∧ (match s.access 0x90000 8 8 { r := true } with
       | .block w t => w.kind == 6 && w.hold && (t.floe 0).walks.map (fun w => w.page) == [0x90]
       | _ => false) = true) ∧
    (let s := tst 1 [] id fun x => { x with gqueue := [⟨1, 1000, 2, .loadf, 0, [poolKey 0 0x31010], 0, true⟩] }
     s.me.excluded 0x31000 8 false = false ∧ s.me.gaussHolds (poolKey 0 0x31000) 8 = false ∧ s.me.gaussHolds (poolKey 0 0x31010) 8 = true ∧
     (match s.access 0x31010 8 8 { r := true } with | .block w _ => w.kind == 5 | _ => false) = true) := by
  (and_intros <;> first | decide +kernel | (show @Eq Out _ _; exact next_of (by decide +kernel)) | (show @Eq (Res _) _ _; exact ok_of (by decide +kernel)) | (show @Eq (Res _) _ _; exact trap_of (by decide +kernel)))

/-- Bytes at the address in register 5. -/
def loaded : State := (tst 1 [(2, 0x31000)]).wr8 (poolKey 0 0x31140) 0xFEDCBA9876543280

theorem wit_LoadsReadMemory :
    let s := loaded
    s.operands [5] [9] [] = .ok [0x31140] ∧ s.operands [2] [9] [] = .ok [0x31000] ∧ s.operands [5] [] [9] = .ok [0x31140] ∧
    s.operands [5] [] [] = .ok [0x31140] ∧ s.access 0x31140 8 8 { r := true } = .ok (poolKey 0 0x31140) ∧
    s.access 0x31138 8 8 { r := true } = .ok (poolKey 0 0x31138) ∧
    s.access (0x31000 + 40 * 8) 8 8 { r := true } = .ok (poolKey 0 0x31140) ∧
    s.access (0x31140 - 128) 128 128 { r := true } = .trap { cause := 0x08, addr := 0x310C0 } ∧
    s.access (0x31180) 128 128 { r := true } = .ok (poolKey 0 0x31180) ∧
    exec (.ldB 9 5 0) s = .next (s.doneG 4 [5] 9 0xFFFFFFFFFFFFFF80) ∧
    exec (.ldHu 9 5 3) s = .next (s.doneG 4 [5] 9 0xFEDC) ∧ exec (.ldW 9 5 1) s = .next (s.doneG 4 [5] 9 0xFFFFFFFFFEDCBA98) ∧
    exec (.ldD 0 5 0) s = .next (s.done 4 [5]) ∧ exec (.cLdD 9 40) s = .next (s.doneG 2 [2] 9 0xFEDCBA9876543280) ∧
    exec (.lda 9 5 1 2 3) s = .next (s.doneG 4 [5] 9 0x76543280) ∧
    (nextSt (exec (.xld 7 5 0) s)).ctx.x[7] = 0xFEDCBA9876543280 ∧
    (nextSt (exec (.vld 9 6 0xFFF) s)).ctx.rv 9 = 0xFEDCBA9876543280 <<< 512 := by
  (and_intros <;> first | decide +kernel | (show @Eq Out _ _; exact next_of (by decide +kernel)) | (show @Eq (Res _) _ _; exact ok_of (by decide +kernel)) | (show @Eq (Res _) _ _; exact trap_of (by decide +kernel)))

theorem wit_StoresWriteMemory :
    let s := tst 1 [(2, 0x31000), (6, 0x31180), (9, 0x1122334455667788)]
    s.operands [5, 9] [] [] = .ok [0x31140, 0x1122334455667788] ∧ s.operands [2, 9] [] [] = .ok [0x31000, 0x1122334455667788] ∧
    s.operands [6] [] [9] = .ok [0x31180] ∧ s.access 0x31142 2 2 { w := true } = .ok (poolKey 0 0x31142) ∧
    s.access 0x310F8 8 8 { w := true } = .ok (poolKey 0 0x310F8) ∧ s.unfenced 1 = false ∧
    s.access 0x31180 128 128 { w := true } = .ok (poolKey 0 0x31180) ∧
    (tst 1 [(9, 3)] fun c => { c with ops := [⟨0, .gstore, 1, false, true, none⟩] }).unfenced 4 = true ∧
    exec (.stl 5 9 3 4) (tst 1 [(9, 3)] fun c => { c with ops := [⟨0, .gstore, 1, false, true, none⟩] }) =
      .next ((tst 1 [(9, 3)] fun c => { c with ops := [⟨0, .gstore, 1, false, true, none⟩] }).block { kind := 5 }) ∧
    (nextSt (exec (.stH 9 5 1) s)).mem = [(poolKey 0 0x31142, 0x88), (poolKey 0 0x31143, 0x77)] ∧
    (nextSt (exec (.cStW 9 63) s)).rd (poolKey 0 0x310FC) 4 = 0x55667788 ∧
    (nextSt (exec (.stD 9 5 0xFFF) s)).rd (poolKey 0 0x31138) 8 = 0x1122334455667788 ∧
    exec (.vst 9 6 0) s = .next ((s.wrN (poolKey 0 0x31180) 128 (s.ctx.rv 9).toNat).done 4 [6]) := by
  (and_intros <;> first | decide +kernel | (show @Eq Out _ _; exact next_of (by decide +kernel)) | (show @Eq (Res _) _ _; exact ok_of (by decide +kernel)) | (show @Eq (Res _) _ _; exact trap_of (by decide +kernel)))

theorem wit_LoadAndStoreFrames :
    let s := loaded
    s.memOk ∧ s.plain [9, 5] ∧ s.plain [0, 5] ∧ s.weak = [] ∧ s.ctx.heldStop = false ∧ s.ctx.lc = #v[0, 0, 0] ∧
    s.access (0x31140 + (0 : W) * 8) 8 8 { r := true } = .ok (poolKey 0 0x31140) ∧
    s.access (0x31140 + (0 : W) * 8) 8 8 { w := true } = .ok (poolKey 0 0x31140) := by
  unfold State.memOk State.plain
  (and_intros <;> first | decide +kernel | (show @Eq Out _ _; exact next_of (by decide +kernel)) | (show @Eq (Res _) _ _; exact ok_of (by decide +kernel)) | (show @Eq (Res _) _ _; exact trap_of (by decide +kernel)))

/-- Of two siblings that watch the stored dword, the one whose condition the new value meets latches it (R175). -/
theorem wit_LoadAndStoreFrames_watches :
    (let s := (loaded.mapCtxAt 0 2 fun c => { c with life := .blocked, watch := some ⟨poolKey 0 0x31140, 0x31240, true, none⟩ }).mapCtxAt 0 3
       fun c => { c with life := .blocked, watch := some ⟨poolKey 0 0x31140, 0x31240, false, none⟩ }
     let t := nextSt (exec (.stD 9 5 0) s)
     (s.ctxAt 0 2).watch.isSome = true ∧ t.rd8 (poolKey 0 0x31140) = 0x31240 ∧
     [(t.ctxAt 0 2).watch.map (·.got), (t.ctxAt 0 3).watch.map (·.got)] =
       [2, 3].map fun j => (s.ctxAt 0 j).watch.map fun w => if w.test 0x31240 = true then some 0x31240 else none) := by
  (and_intros <;> first | decide +kernel | (show @Eq Out _ _; exact next_of (by decide +kernel)) | (show @Eq (Res _) _ _; exact ok_of (by decide +kernel)) | (show @Eq (Res _) _ _; exact trap_of (by decide +kernel)))

theorem wit_FramesEnterAndLeave :
    (let s := tst 1 [(2, 0x31048)]
     s.operands [9] [] [] = .ok [0x31240] ∧ (0x31048 : Nat) % 16 ≠ 0 ∧
     exec (.enter 9 1) s = .next (s.trap { cause := 0x08, addr := 0x31048 })) ∧
    (let s := tst 1 [(2, 0x31040)] fun c => { c with slim := 0x31020 }
     s.ctx.slim.toNat ≤ (0x31040 : Nat) - 16 * 2 ∧ ¬ s.ctx.slim.toNat ≤ (0x31040 : Nat) - 16 * 3 ∧
     s.operands [] [9] [] = .ok [] ∧
     exec (.enter 9 3) s = .next (s.trap { cause := 0x0C, addr := 0x31010 }) ∧
     (nextSt (exec (.enter 0 2) s)).ctx.g[2] = 0x31020 ∧ exec (.enter 9 0) s = .next (s.trap { cause := 0x02 }) ∧
     s.access (0x31040 - 8) 8 8 { w := true } = .ok (poolKey 0 0x31038) ∧
     (nextSt (exec (.enter 9 2) s)).rd8 (poolKey 0 0x31038) = 0x31240 ∧
     (nextSt (exec (.leave 0 2) s)).ctx.g[2] = 0x31060 ∧ exec (.leave 9 0) s = .next (s.trap { cause := 0x02 }) ∧
     s.access (0x31060 - 8) 8 8 { r := true } = .ok (poolKey 0 0x31058) ∧ (nextSt (exec (.leave 9 2) s)).ctx.g[9] = 0) := by
  (and_intros <;> first | decide +kernel | (show @Eq Out _ _; exact next_of (by decide +kernel)) | (show @Eq (Res _) _ _; exact ok_of (by decide +kernel)) | (show @Eq (Res _) _ _; exact trap_of (by decide +kernel)))

/-- A deferred fault that a fence covers. -/
def fault1 : Deferred := ⟨0x11, 5, 0x31000, 0x30100, 3, 0, some (.gstore, 1), none, some 3, true⟩

theorem wit_FencesExtensionsAndNwait :
    (let s := tst 1 [(6, 7)]
     s.ctx.pend.find? (fun f => f.fence) = none ∧ s.operands [6] [] [] = .ok [7] ∧ s.operands [] [9] [] = .ok [] ∧
     exec (.fence 4) s = .next (s.complete 4) ∧ exec (.xget 9 7) s = .next (s.doneG 4 [] 9 0)) ∧
    (let s := tst 1 [] fun c => { c with ops := [⟨0, .gstore, 1, false, true, none⟩] }
     (s.ctx.ops.any fun o => o.fence && !o.done) = true ∧ exec (.fence 1) s = .next (s.block { kind := 5 }) ∧
     exec (.fence 0) s = .next (s.complete 4)) ∧
    (let s := tst 1 [] fun c => { c with pend := [fault1] }
     s.ctx.pend.find? (fun f => f.fence) = some fault1 ∧ (nextSt (exec (.fence 1) s)).ctx.frec1 = 0x30100 ∧
     (nextSt (exec (.fence 1) s)).ctx.pend = []) ∧
    (let s := (tst 1 [(6, 7)]).wr8 (poolKey 0 0x31140) 7
     s.operands [5, 6] [9] [] = .ok [0x31140, 7] ∧ s.access 0x31140 8 8 { r := true } = .ok (poolKey 0 0x31140) ∧
     s.ctx.watch = none ∧ s.rd8 (poolKey 0 0x31140) = 7 ∧
     exec (.nwait 9 5 6 0 0 1) s = .next ((s.setG 9 7).done 4 [5, 6])) ∧
    (let s := (tst 1 [(6, 8)]).wr8 (poolKey 0 0x31140) 7
     (nextSt (exec (.nwait 9 5 6 0 0 0) s)).ctx.watch = some ⟨poolKey 0 0x31140, 8, false, none⟩ ∧
     ((nextSt (exec (.nwait 9 5 6 0 0 0) s)).wr8 (poolKey 0 0x31140) 9).ctx.watch =
       some ⟨poolKey 0 0x31140, 8, false, some 9⟩) ∧
    (let s := tst 1 [(6, 8)] fun c => { c with watch := some ⟨poolKey 0 0x31140, 8, false, some 9⟩ }
     exec (.nwait 9 5 6 0 0 0) s = .next ((s.setG 9 9).done 4 [5, 6])) ∧
    (let s := tst 1 [(6, 8)] fun c => { c with watch := some ⟨poolKey 0 0x31140, 8, false, none⟩ }
     exec (.nwait 9 5 6 0 0 0) s = .next (s.block { kind := 4 })) := by
  (and_intros <;> first | decide +kernel | (show @Eq Out _ _; exact next_of (by decide +kernel)) | (show @Eq (Res _) _ _; exact ok_of (by decide +kernel)) | (show @Eq (Res _) _ _; exact trap_of (by decide +kernel)))

theorem wit_AtomicsReadModifyWrite :
    let s := (tst 1 [(6, 0xFFFFFFFFFFFFFFFF), (9, 0xFEDCBA9876543280)]).wr8 (poolKey 0 0x31140) 0xFEDCBA9876543280
    s.unfenced 1 = false ∧ s.operands [5, 6] [9] [] = .ok [0x31140, 0xFFFFFFFFFFFFFFFF] ∧
    s.operands [5, 6, 9] [9] [] = .ok [0x31140, 0xFFFFFFFFFFFFFFFF, 0xFEDCBA9876543280] ∧
    s.access 0x31140 8 8 { r := true, w := true } = .ok (poolKey 0 0x31140) ∧
    s.access 0x31140 4 4 { r := true, w := true } = .ok (poolKey 0 0x31140) ∧
    (nextSt (exec (.amoadd 9 5 6 1 3) s)).rd8 (poolKey 0 0x31140) = 0xFEDCBA987654327F ∧
    (nextSt (exec (.amomax 9 5 6 0 0) s)).rd8 (poolKey 0 0x31140) = 0xFFFFFFFFFFFFFFFF ∧
    (nextSt (exec (.amomaxu 9 5 6 0 0) s)).rd8 (poolKey 0 0x31140) = 0xFFFFFFFFFFFFFFFF ∧
    (nextSt (exec (.amominu 9 5 6 0 0) s)).rd8 (poolKey 0 0x31140) = 0xFEDCBA9876543280 ∧
    (nextSt (exec (.amocas 9 5 6 0 0) s)).rd8 (poolKey 0 0x31140) = 0xFFFFFFFFFFFFFFFF ∧
    (nextSt (exec (.amoswap 9 5 6 0 0) s)).ctx.g[9] = 0xFEDCBA9876543280 := by
  (and_intros <;> first | decide +kernel | (show @Eq Out _ _; exact next_of (by decide +kernel)) | (show @Eq (Res _) _ _; exact ok_of (by decide +kernel)) | (show @Eq (Res _) _ _; exact trap_of (by decide +kernel)))

theorem wit_RepresentableValuesRoundToThemselves :
    (0xC004000000000000 : Nat) < 2 ^ f64.width ∧ f64.decode 0xC004000000000000 = .fin true 0x14000000000000 (-51) ∧
    f64.roundTo 0 true 0x14000000000000 (-51) = ⟨0xC004000000000000, 0, false⟩ ∧
    (∃ m e, e5m2.decode 1 = .fin false m e ∧ (e5m2.roundTo 3 false m e).v = 1 ∧ (e5m2.roundTo 3 false m e).f = 0) ∧
    (∃ m e, e4m3.decode 0x7E = .fin false m e ∧ (e4m3.roundTo 1 false m e).v = 0x7E ∧ (e4m3.roundTo 1 false m e).f = 0) ∧
    (∃ e, f16.decode 0x8000 = .fin true 0 e ∧ (f16.roundTo 2 true 0 e).v = 0x8000) := by
  refine ⟨by decide, ?_, ?_, ⟨1, -16, ?_⟩, ⟨14, 5, ?_⟩, ⟨-24, ?_⟩⟩ <;> (and_intros <;> first | decide +kernel | (show @Eq Out _ _; exact next_of (by decide +kernel)) | (show @Eq (Res _) _ _; exact ok_of (by decide +kernel)) | (show @Eq (Res _) _ _; exact trap_of (by decide +kernel)))

/-- What rounding does on each side of its cases: a tie to even, one up and one down by the mode, the overflow with its two
results, the value that rounds to the smallest normal and is tiny or not (Tables 2.4, 2.5). -/
theorem wit_RepresentableValuesRoundToThemselves_others :
    1 ≤ f32.emin - f32.fb + 200 ∧ (0 : Int) ≤ -24 + 200 ∧
    f32.roundTo 0 false 0x2000001 (-24) = ⟨0x40000000, 1, false⟩ ∧ f32.roundTo 0 false 0x2000003 (-24) = ⟨0x40000001, 1, false⟩ ∧
    f32.roundTo 0 false 0x2000002 (-24) = ⟨0x40000000, 1, false⟩ ∧ f32.roundTo 0 false 0x2000006 (-24) = ⟨0x40000002, 1, false⟩ ∧
    f32.roundTo 2 false 0x2000001 (-24) = ⟨0x40000001, 1, false⟩ ∧ f32.roundTo 2 true 0x2000001 (-24) = ⟨0xC0000000, 1, false⟩ ∧
    f32.roundTo 0 false 1 128 = ⟨0x7F800000, 5, false⟩ ∧ f32.roundTo 1 false 1 128 = ⟨0x7F7FFFFF, 5, false⟩ ∧
    f32.roundTo 0 false 1 128 true = ⟨0x7F7FFFFF, 5, false⟩ ∧ e4m3.roundTo 0 true 1 9 = ⟨0xFF, 5, false⟩ ∧
    f32.roundTo 0 false 0x1FFFFFF (-151) = ⟨0x800000, 1, true⟩ ∧ f32.roundTo 0 false 0x1FFFFFD (-151) = ⟨0x7FFFFF, 3, true⟩ := by
  (and_intros <;> first | decide +kernel | (show @Eq Out _ _; exact next_of (by decide +kernel)) | (show @Eq (Res _) _ _; exact ok_of (by decide +kernel)) | (show @Eq (Res _) _ _; exact trap_of (by decide +kernel)))

/-- Operands for each clause: quiet and signalling NaN, infinities, zeros, a negative number; results from R44, R45. -/
theorem wit_FloatSpecialOperands :
    (f32.decode 0x7FC00001).isNan = true ∧ (f32.decode 0x7F800001).isSig = true ∧ (f32.decode 0x7FC00001).isSig = false ∧
    (f32.decode 0x3F800000).isNan = false ∧ f32.decode 0xFF800000 = .inf true ∧ f32.decode 0x7F800000 = .inf false ∧
    (∃ e, f32.decode 0x80000000 = .fin true 0 e) ∧ (∃ m e, f32.decode 0xBF800000 = .fin true m e ∧ m ≠ 0) ∧
    (f32.add 0 0x7FC00001 0x7F800001).f = 16 ∧ (f32.add 0 0x7FC00001 0x3F800000).f = 0 ∧ (f32.add 0 0x3F800000 0x7F800001).f = 16 ∧
    (f32.add 0 0x7F800000 0xFF800000).f = 16 ∧ (f32.add 0 0x7F800000 0x7F800000) = ⟨0x7F800000, 0, false⟩ ∧
    (f32.mul 0 0x7F800000 0x80000000).f = 16 ∧ (f32.div 0 0 0x80000000).f = 16 ∧
    (f32.div 0 0x3F800000 0x80000000).v = 0xFF800000 ∧ (f32.div 0 0x3F800000 0x80000000).f = 8 ∧
    (f32.sqrt 0 0xBF800000).f = 16 ∧ (f32.div 0 0xBF800000 0xFF800000) = ⟨0, 0, false⟩ ∧
    (f32.sub 0 0x7F800000 0x7F800000).f = 16 ∧ (f32.sub 0 0x7F800000 0xFF800000) = ⟨0x7F800000, 0, false⟩ ∧
    (f32.mul 0 0x80000000 0x7F800000).f = 16 ∧ (f32.sqrt 0 0x7F800001) = ⟨0x7FC00001, 16, false⟩ ∧ (f32.sqrt 0 0xFF800000).f = 16 ∧
    (f32.fma 0 false false 0x7FC00001 0x3F800000 0x7F800001) = ⟨0x7FC00001, 16, false⟩ ∧
    (f32.fma 0 false false 0x3F800000 0x7FC00002 0x3F800000) = ⟨0x7FC00002, 0, false⟩ ∧
    (f32.fma 0 false false 0x7F800000 0 0x7FC00003) = ⟨0x7FC00003, 16, false⟩ ∧
    (f32.fma 0 false false 0 0x7F800000 0x3F800000).f = 16 ∧
    (f32.fma 0 false false 0x7F800000 0x3F800000 0xFF800000).f = 16 ∧
    (f32.fma 0 true false 0x7F800000 0x3F800000 0xFF800000) = ⟨0xFF800000, 0, false⟩ := by
  refine ⟨?_, ?_, ?_, ?_, ?_, ?_, ⟨-149, ?_⟩, ⟨0x800000, -23, ?_⟩, ?_⟩ <;> (and_intros <;> first | decide +kernel | (show @Eq Out _ _; exact next_of (by decide +kernel)) | (show @Eq (Res _) _ _; exact ok_of (by decide +kernel)) | (show @Eq (Res _) _ _; exact trap_of (by decide +kernel)))

/-- Finite operands of each operation, with rounded and zero results (R41 to R43); comparisons, minimum, class; conversions. -/
theorem wit_FloatSpecialOperands_finite :
    (∃ m e n p, f32.decode 0x3F800000 = .fin false m e ∧ f32.decode 0x40400000 = .fin false n p ∧ 0 ≤ e + 400 ∧ 0 ≤ p + 400 ∧
      0 ≤ e + p + 400 ∧ 0 ≤ e - p + 400 ∧ 0 ≤ e + 2 * 400 ∧ 1 ≤ f32.emin - f32.fb + 400 ∧ m ≠ 0 ∧ n ≠ 0) ∧
    f32.add 0 0x3F800000 0x40400000 = ⟨0x40800000, 0, false⟩ ∧ f32.add 0 0x3F800000 0x33800000 = ⟨0x3F800000, 1, false⟩ ∧
    f32.add 0 0x3F800000 0xBF800000 = ⟨0, 0, false⟩ ∧ f32.sub 2 0x3F800000 0x3F800000 = ⟨0, 0, false⟩ ∧
    f32.add 3 0x3F800000 0xBF800000 = ⟨0x80000000, 0, false⟩ ∧
    f32.add 0 0x80000000 0x80000000 = ⟨0x80000000, 0, false⟩ ∧ f32.mul 0 0x3FC00000 0x40000000 = ⟨0x40400000, 0, false⟩ ∧
    f32.mul 0 0x80000000 0x3F800000 = ⟨0x80000000, 0, false⟩ ∧ f32.div 0 0x3F800000 0x40400000 = ⟨0x3EAAAAAB, 1, false⟩ ∧
    f32.div 0 0 0xBF800000 = ⟨0x80000000, 0, false⟩ ∧ f32.sqrt 0 0x40000000 = ⟨0x3FB504F3, 1, false⟩ ∧
    f32.sqrt 0 0x80000000 = ⟨0x80000000, 0, false⟩ ∧ f32.fma 0 false true 0x40000000 0x40400000 0x3F800000 = ⟨0x40A00000, 0, false⟩ ∧
    f32.compare 1 0xBF800000 0x3F800000 = (true, 0) ∧ f32.compare 0 0x80000000 0 = (true, 0) ∧ f32.compare 2 0x7FC00000 0 = (false, 16) ∧
    f32.minmax false false 0 0x80000000 = ⟨0x80000000, 0, false⟩ ∧ f32.minmax true false 0x7FC00000 0x3F800000 = ⟨0x3F800000, 0, false⟩ ∧
    f32.minmax true true 0x7FC00001 0x3F800000 = ⟨0x7FC00001, 0, false⟩ ∧
    f32.classify 0xFF800000 = 1 ∧ f32.classify 0x80000001 = 4 ∧ f32.classify 0x7F800001 = 256 ∧ f32.classify 0x3F800000 = 64 ∧
    f32.signInject 1 0x3F800000 0 = 0xBF800000 ∧ f16.convert 0 false (.fin false 1 16) = ⟨0x7C00, 5, false⟩ ∧
    f16.convert 0 true (.fin false 1 16) = ⟨0x7C00, 5, false⟩ ∧ e5m2.convert 0 true (.fin false 1 16) = ⟨0x7B, 5, false⟩ ∧
    f32.convert 0 false (.ofInt (-16777217)) = ⟨0xCB800000, 1, false⟩ ∧ e4m3.convert 0 true (.inf true) = ⟨0xFE, 16, false⟩ ∧
    toInt 32 true 0 (.fin true 5 (-1)) = (-2, 1) ∧ toInt 32 true 0 (.fin false 1 31) = (2 ^ 31 - 1, 16) ∧
    toInt 32 false 0 (.fin true 1 0) = (0, 16) ∧ toInt 64 true 1 (.inf true) = (-2 ^ 63, 16) ∧ toInt 32 true 0 (.nan false 0 true) = (2 ^ 31 - 1, 16) := by
  refine ⟨⟨0x800000, -23, 0xC00000, -22, ?_⟩, ?_⟩ <;> (and_intros <;> decide +kernel)


theorem wit_ScalarFloatResults :
    (let s := tst 1 [(5, 0x3FF0000000000000), (6, 0x4000000000000000), (9, 0x4008000000000000)]
     s.operands [5, 6] [9] [] = .ok [0x3FF0000000000000, 0x4000000000000000] ∧
     s.operands [5] [9] [] = .ok [0x3FF0000000000000] ∧
     s.operands [5, 6, 9] [9] [] = .ok [0x3FF0000000000000, 0x4000000000000000, 0x4008000000000000] ∧
     s.operands [5, 6] [] [] = .ok [0x3FF0000000000000, 0x4000000000000000] ∧
     exec (.fadd 9 5 6 7 0) s = .next ((s.setG 9 0x4008000000000000).done 4 [5, 6]) ∧
     exec (.fmadd 9 5 6 0 0) s = .next ((s.setG 9 0x4014000000000000).done 4 [5, 6, 9]) ∧
     (nextSt (exec (.fdiv 9 5 9 0 0) s)).ctx.g[9] = 0x3FD5555555555555 ∧
     (nextSt (exec (.fdiv 9 5 9 2 0) s)).ctx.g[9] = 0x3FD5555555555556 ∧
     (nextSt (exec (.fdiv 9 5 9 0 0) s)).ctx.fst = 1 ∧ (nextSt (exec (.fsqrt 9 6 1 0) s)).ctx.g[9] = 0x3FF6A09E667F3BCC ∧
     (nextSt (exec (.fcvt 9 9 14 1 0 0) s)).ctx.g[9] = 3 ∧
     exec (.flt 3 5 6 0) s = .next ((s.setP 3 true).done 4 [5, 6]) ∧
     exec (.fclass 9 5 0) s = .next ((s.setG 9 0x40).done 4 [5])) ∧
    (let s := tst 1 [(5, 0x3F800000), (6, 0)] fun c => { c with fst := 0x800 }
     s.operands [5, 6] [9] [] = .ok [0x3F800000, 0] ∧ (f32.div 0 0x3F800000 0).f &&& (s.ctx.fst.extractLsb' 8 5) ≠ 0 ∧
     (let t := (nextSt (exec (.fdiv 9 5 6 0 1) s)).ctx
      t.frec0 &&& 0x3F = 7 ∧ t.g[9] = 0x31240 ∧ t.fst = 0x800 ∧ t.epc = 0x30100)) := by
  (and_intros <;> first | decide +kernel | (show @Eq Out _ _; exact next_of (by decide +kernel)) | (show @Eq (Res _) _ _; exact ok_of (by decide +kernel)) | (show @Eq (Res _) _ _; exact trap_of (by decide +kernel)))

/-- A vector of w-bit lanes. -/
def lanes (w : Nat) (l : List Nat) : V :=
  BitVec.ofNat 1024 (((List.range l.length).zip l).foldl (fun a p => a + p.2 * 2 ^ (w * p.1)) 0)

/-- Vector registers 1 and 2 hold the lanes given, register 3 holds lane numbers; mask 1 governs lane 0 only. -/
def vecs (w : Nat) (a b : List Nat) (l : List (Nat × W) := []) : State :=
  tst 1 l fun c => { c with
    v := ((c.v.set 1 (lanes w a)).set 2 (lanes w b)).set 3 (lanes w (List.range (1024 / w))), q := c.q.set 1 1 }

/-- Lane i of vector register d after an instruction. -/
def laneOf (w : Nat) (o : Out) (d : Reg) (i : Nat) : Nat := laneAt w ((nextSt o).ctx.rv d) i

theorem wit_VectorFloatLanes :
    (let s := vecs 32 [0x3F800000, 0x40000000] [0x40000000, 0x3F800000]
     (∀ r ∈ ([3, 1, 2] : List Reg), r.toNat < vcapOf s.me.part) ∧ s.laneOn 0 32 31 = true ∧ s.laneOn 1 32 1 = false ∧
     laneOf 32 (exec (.vaddFp 3 1 2 0 1) s) 3 0 = 0x40400000 ∧ laneOf 32 (exec (.vaddFp 3 1 2 1 1) s) 3 1 = 1 ∧
     laneOf 32 (exec (.vminFp 3 1 2 0 1) s) 3 1 = 0x3F800000) ∧
    (let s := (vecs 32 [0x3F800000] [0]).mapCtx fun c => { c with fst := 0x1000 }
     (f32.div 0 0 0).f &&& (s.ctx.fst.extractLsb' 8 5) ≠ 0 ∧
     (let t := (nextSt (exec (.vdiv 3 1 2 0 1) s)).ctx
      t.frec0 &&& 0x3F = 7 ∧ t.frec0.toNat / 2 ^ 51 % 128 = 1 ∧ t.v = s.ctx.v)) := by
  (and_intros <;> first | decide +kernel | (show @Eq Out _ _; exact next_of (by decide +kernel)) | (show @Eq (Res _) _ _; exact ok_of (by decide +kernel)) | (show @Eq (Res _) _ _; exact trap_of (by decide +kernel)))

theorem wit_VectorIntegerLanes :
    (let s := vecs 16 [0x8000, 0xFFFF, 3] [0x8000, 2, 17]
     (∀ r ∈ ([3, 1, 2] : List Reg), r.toNat < vcapOf s.me.part) ∧
     laneOf 16 (exec (.vaddInt 3 1 2 0 2) s) 3 0 = 0 ∧ laneOf 16 (exec (.vaddss 3 1 2 0 2) s) 3 0 = 0x8000 ∧
     laneOf 16 (exec (.vaddus 3 1 2 0 2) s) 3 1 = 0xFFFF ∧ laneOf 16 (exec (.vmulh 3 1 2 0 2) s) 3 0 = 0x4000 ∧
     laneOf 16 (exec (.vminInt 3 1 2 0 2) s) 3 1 = 0xFFFF ∧ laneOf 16 (exec (.vminu 3 1 2 0 2) s) 3 1 = 2 ∧
     laneOf 16 (exec (.vsll 3 1 2 0 2) s) 3 2 = 6 ∧ laneOf 16 (exec (.vsra 3 1 2 0 2) s) 3 1 = 0xFFFF ∧
     laneOf 16 (exec (.vmla 3 1 2 0 2) s) 3 2 = 53 ∧ laneOf 16 (exec (.vmla 3 1 2 1 2) s) 3 2 = 2) ∧
    laneOf 8 (exec (.vandn 3 1 2 1 3) (vecs 8 [0xFF, 0xFF, 0xFF] [0x0F, 0xF0, 1])) 3 1 = 0x0F ∧
    laneOf 8 (exec (.vandn 3 1 2 1 3) (vecs 8 [0xFF, 0xFF, 0xFF] [0x0F, 0xF0, 1])) 3 2 = 2 := by
  (and_intros <;> first | decide +kernel | (show @Eq Out _ _; exact next_of (by decide +kernel)) | (show @Eq (Res _) _ _; exact ok_of (by decide +kernel)) | (show @Eq (Res _) _ _; exact trap_of (by decide +kernel)))

theorem wit_VectorComparesAndMasks :
    let s := vecs 16 [0x8000, 2, 3] [1, 2, 2] [(5, 0xF0)]
    (∀ r ∈ ([3, 1, 2] : List Reg), r.toNat < vcapOf s.me.part) ∧ (2 : BitVec 2) ≠ 3 ∧ s.operands [] [9] [] = .ok [] ∧
    s.operands [5] [] [] = .ok [0xF0] ∧
    (nextSt (exec (.vcmpltInt 2 1 2 0 2) s)).ctx.q[2] = 1 ∧ (nextSt (exec (.vcmpltu 2 2 1 0 2) s)).ctx.q[2] = 5 ∧
    (nextSt (exec (.vcmpeqInt 2 1 2 1 2) s)).ctx.q[2] = 0xFFFFFFFFFFFFFFFE ∧
    (nextSt (exec (.vcmpeqFp 2 1 2 0 2) s)).ctx.q[2] = 0xFFFFFFFFFFFFFFFA ∧
    laneOf 16 (exec (.vselInt 3 1 2 1 2) s) 3 2 = 2 ∧ (nextSt (exec (.qandn 2 0 1) s)).ctx.q[2] = 0xFFFFFFFFFFFFFFFE ∧
    (nextSt (exec (.qput 2 5) s)).ctx.q[2] = 0xF0 ∧ exec (.qput 0 5) s = .next (s.done 4 [5]) := by
  (and_intros <;> first | decide +kernel | (show @Eq Out _ _; exact next_of (by decide +kernel)) | (show @Eq (Res _) _ _; exact ok_of (by decide +kernel)) | (show @Eq (Res _) _ _; exact trap_of (by decide +kernel)))

/-- A NaN in lane 1 with the invalid exception enabled: the compare traps there and writes nothing (R124). -/
theorem wit_VectorComparesAndMasks_traps :
    let s := (vecs 16 [0x3C00, 0x7C01, 0x7C01] [0, 0, 0]).mapCtx fun c => { c with fst := 0x1000 }
    (∀ r ∈ ([1, 2] : List Reg), r.toNat < vcapOf s.me.part) ∧ ((fpFmt 2).compare 0 0x7C01 0).2 &&& (s.ctx.fst.extractLsb' 8 5) ≠ 0 ∧
    (nextSt (exec (.vcmpeqFp 2 1 2 0 2) s)).ctx.frec0 &&& 0x3F = 7 ∧ (nextSt (exec (.vcmpeqFp 2 1 2 0 2) s)).ctx.frec0.extractLsb' 51 7 = 1 ∧
    (nextSt (exec (.vcmpeqFp 2 1 2 0 2) s)).ctx.q = s.ctx.q := by
  (and_intros <;> first | decide +kernel | (show @Eq Out _ _; exact next_of (by decide +kernel)) | (show @Eq (Res _) _ _; exact ok_of (by decide +kernel)) | (show @Eq (Res _) _ _; exact trap_of (by decide +kernel)))

theorem wit_VectorReductions :
    (let s := vecs 16 [5, 0xFFFE, 7] []
     s.operands [] [9] [1] = .ok [] ∧ s.operands [] [9] [1, 2] = .ok [] ∧ s.laneOn 0 16 0 = true ∧
     exec (.vredsumInt 9 1 0 2) s = .next (s.doneG 4 [] 9 10) ∧
     exec (.vredminInt 9 1 0 2) s = .next (s.doneG 4 [] 9 0xFFFFFFFFFFFFFFFE) ∧
     exec (.vredmaxInt 9 1 1 2) s = .next (s.doneG 4 [] 9 5)) ∧
    (let s := (vecs 16 [5] []).mapCtx fun c => { c with q := c.q.set 1 0 }
     ((List.range 64).filter (s.laneOn 1 16)) = [] ∧ exec (.vredminInt 9 1 1 2) s = .next (s.doneG 4 [] 9 0)) ∧
    (let s := vecs 64 [0x3FF0000000000000, 0x4000000000000000] [0x4000000000000000, 0x3FF0000000000000]
     exec (.vredsumFp 9 1 0 0) s = .next (s.doneG 4 [] 9 0x4008000000000000) ∧
     exec (.vdot 9 1 2 0 0) s = .next (s.doneG 4 [] 9 0x4010000000000000)) ∧
    (let s := (vecs 64 [0x7FF0000000000000, 0xFFF0000000000000] []).mapCtx fun c => { c with fst := 0x1000 }
     (f64.add 0 0x7FF0000000000000 0xFFF0000000000000).f &&& (s.ctx.fst.extractLsb' 8 5) ≠ 0 ∧
     (nextSt (exec (.vredsumFp 9 1 0 0) s)).ctx.frec0 &&& 0x3F = 7) := by
  (and_intros <;> first | decide +kernel | (show @Eq Out _ _; exact next_of (by decide +kernel)) | (show @Eq (Res _) _ _; exact ok_of (by decide +kernel)) | (show @Eq (Res _) _ _; exact trap_of (by decide +kernel)))

/-- A lane alone, an odd lane that is off, the first level of a dot product, and its NaN and infinity cases (R55, R56). -/
theorem wit_VectorReductions_trees :
    tree (fun a b => f64.add 0 a b) [none, some (1, 7)] = (7, [], false) ∧
    (tree (fun a b => f64.add 0 a b) [some (0, 0x3FF0000000000000), none, some (2, 0x4000000000000000)]).1 = 0x4008000000000000 ∧
    (let d := dotLevel f64 0 1 ((List.range 16).map fun j => (j, 0x4000000000000000, 0x3FF0000000000000 + j))
     d.1 = some (0, 0x4000000000000000) :: List.replicate 7 none) ∧
    (let d := dotLevel f64 0 3 ((List.range 16).map fun j => (j, 0x7FF0000000000000, if j = 0 then 0 else 0x3FF0000000000000))
     d.1.head? = some (some (0, f64.dnan)) ∧ d.2.1.map (·.f) = [16]) ∧
    (let d := dotLevel f64 0 3 ((List.range 16).map fun j => (j, 0x7FF0000000000000, 0x3FF0000000000000))
     d.1.head? = some (some (0, 0x7FF0000000000000))) ∧
    (let d := dotLevel f64 0 3 ((List.range 16).map fun j => (j, 0x3FF0000000000000, 0x3FF0000000000000))
     d.1.head? = some (some (0, 0x4000000000000000))) := by
  (and_intros <;> first | decide +kernel | (show @Eq Out _ _; exact next_of (by decide +kernel)) | (show @Eq (Res _) _ _; exact ok_of (by decide +kernel)) | (show @Eq (Res _) _ _; exact trap_of (by decide +kernel)))

theorem wit_VectorPermutes :
    let s := vecs 64 [10, 11, 12, 13, 14, 15, 16, 17, 18, 19, 20, 21, 22, 23, 24, 25] [17, 0, 15] [(5, 2), (6, 16), (7, 99)]
    (∀ r ∈ ([3, 1, 2] : List Reg), r.toNat < vcapOf s.me.part) ∧ s.operands [5] [] [3, 1] = .ok [2] ∧
    s.operands [5] [] [3] = .ok [2] ∧ s.operands [7, 5] [] [3] = .ok [99, 2] ∧ s.operands [7, 6] [] [3] = .ok [99, 16] ∧
    s.operands [6] [9] [1] = .ok [16] ∧
    laneOf 64 (exec (.vperm 3 1 2 0 0) s) 3 0 = 11 ∧ laneOf 64 (exec (.vzip 3 1 2 0 0) s) 3 3 = 0 ∧
    laneOf 64 (exec (.vziph 3 1 2 0 0) s) 3 2 = 19 ∧ laneOf 64 (exec (.vslideup 3 1 5 0 0) s) 3 1 = 0 ∧
    laneOf 64 (exec (.vslideup 3 1 5 0 0) s) 3 2 = 10 ∧ laneOf 64 (exec (.vslidedn 3 1 5 0 0) s) 3 13 = 25 ∧
    laneOf 64 (exec (.vslidedn 3 1 5 0 0) s) 3 14 = 0 ∧ laneOf 64 (exec (.vbcast 3 7 1 0) s) 3 0 = 99 ∧
    laneOf 64 (exec (.vbcast 3 7 1 0) s) 3 1 = 1 ∧ laneOf 64 (exec (.vins 3 7 5 0) s) 3 2 = 99 ∧
    exec (.vins 3 7 6 0) s = .next (s.done 4 [7, 6]) ∧ exec (.vext 9 1 6 0) s = .next (s.doneG 4 [6] 9 0) ∧
    exec (.vext 9 1 5 0) s = .next (s.doneG 4 [5] 9 12) ∧ laneOf 64 (exec (.vcompress 3 1 1 0) s) 3 0 = 10 ∧
    laneOf 64 (exec (.vcompress 3 1 1 0) s) 3 1 = 0 := by
  (and_intros <;> first | decide +kernel | (show @Eq Out _ _; exact next_of (by decide +kernel)) | (show @Eq (Res _) _ _; exact ok_of (by decide +kernel)) | (show @Eq (Res _) _ _; exact trap_of (by decide +kernel)))

theorem wit_VectorElementAccesses :
    let s := (vecs 64 [7, 8] [0, 64] [(6, 24)]).wr8 (poolKey 0 0x31158) 5
    s.operands [5, 6] [] [3] = .ok [0x31140, 24] ∧ s.operands [5] [] [3, 2] = .ok [0x31140] ∧ s.operands [5] [] [3] = .ok [0x31140] ∧
    s.elements 8 { r := true } [(0, 0x31140), (1, 0x31158)] = .ok [(0, poolKey 0 0x31140), (1, poolKey 0 0x31158)] ∧
    s.elements 8 { w := true } [(0, 0x31140)] = .ok [(0, poolKey 0 0x31140)] ∧
    s.elements 8 { r := true } [(0, 0x31140), (1, 0x31141)] = .trap { cause := 0x08, addr := 0x31141, lane := 1 } ∧
    s.access 0x31141 8 8 { r := true } = .trap { cause := 0x08, addr := 0x31141 } ∧
    s.reach 0x31141 8 8 { r := true } = .trap { cause := 0x08, addr := 0x31141 } ∧
    (match s.reach 0x31140 8 8 { r := true } with | .ok _ => true | _ => false) = true ∧
    -- lane 0's data error comes after lane 1's address check, before lane 1's access (R132)
    (let t := { s with bad := [poolKey 0 0x31140] }
     t.elements 8 { r := true } [(0, 0x31140), (1, 0x31141)] = .trap { cause := 0x08, addr := 0x31141, lane := 1 } ∧
     t.elements 8 { r := true } [(3, 0x31158), (4, 0x31140)] = .trap { cause := 0x11, addr := 0x31140, lane := 4 }) ∧
    laneOf 64 (exec (.vlds 3 5 6 0 0) s) 3 1 = 5 ∧ laneOf 64 (exec (.vldb 3 5 1 0) s) 3 0 = 0 ∧
    (nextSt (exec (.vscatter 1 5 2 1 0) s)).rd8 (poolKey 0 0x31140) = 7 := by
  (and_intros <;> first | decide +kernel | (show @Eq Out _ _; exact next_of (by decide +kernel)) | (show @Eq (Res _) _ _; exact ok_of (by decide +kernel)) | (show @Eq (Res _) _ _; exact trap_of (by decide +kernel)))

theorem wit_TrapEntryGoesToTheHandler :
    let s := tst 1 [] fun c => { c with pend := [fault1, fault1, fault1], fst := 3 }
    let t : Trap := { cause := 0x3F, detail := 0xFFF, lane := 127, exc := 31, addr := 7 }
    s.ctx.act = false ∧ s.ctx.tvec ≠ 0 ∧ s.ctx.heldStop = false ∧ t.cause < 64 ∧ t.detail < 4096 ∧ t.lane < 128 ∧
    s.ctx.pend.length ≤ 3 ∧ (s.trap t).ctx.pc = 0x30400 ∧ (s.trap t).ctx.epc = 0x30100 ∧
    (s.trap t).ctx.frec0 = 0x8FFFC00000FFF03F ∧ (s.trap t).ctx.frec2 = 7 ∧ (s.trap { cause := 0x0D }).ctx.skip = true := by
  (and_intros <;> first | decide +kernel | (show @Eq Out _ _; exact next_of (by decide +kernel)) | (show @Eq (Res _) _ _; exact ok_of (by decide +kernel)) | (show @Eq (Res _) _ _; exact trap_of (by decide +kernel)))

theorem wit_TrapWithoutHandlerStops :
    (let s := tst 1 [] fun c => { c with act := true, epc := 8 }
     s.ctx.act = true ∧ s.cur.ctx ≠ 0 ∧ s.me.events.length < 64 ∧ (s.trap { cause := 0x08, addr := 5 }).ctx.life = .stopped ∧
     (s.trap { cause := 0x08, addr := 5 }).ctx.epc = 8 ∧ (s.trap { cause := 0x08, addr := 5 }).ctx.frec0.toNat / 2 ^ 60 = 10 ∧
     (s.trap { cause := 0x08, addr := 5 }).me.events = [0x8310000800030100]) ∧
    (let s := tst 1 [] fun c => { c with tvec := 0 }
     s.ctx.tvec = 0 ∧ (s.trap { cause := 0x3F }).ctx.life = .stopped) ∧
    (let s := tst 0 [] fun c => { c with tvec := 0 }
     s.cur.ctx = 0 ∧ (s.trap { cause := 0x01 }).me.cfault = 0x8000000000000001 ∧ (s.trap { cause := 0x01 }).failed = true) := by
  (and_intros <;> first | decide +kernel | (show @Eq Out _ _; exact next_of (by decide +kernel)) | (show @Eq (Res _) _ _; exact ok_of (by decide +kernel)) | (show @Eq (Res _) _ _; exact trap_of (by decide +kernel)))

theorem wit_ReturnFromTrap :
    (let s := tst 1 []
     s.ctx.act = false ∧ exec .eret s = .next (s.trap { cause := 0x02 }) ∧
     exec (.trap 0xFFF) s = .next (s.trap { cause := 0x0D, detail := 0xFFF }) ∧ exec .brk s = .next (s.trap { cause := 0x0E })) ∧
    (let s := tst 1 [] fun c => { c with act := true, epc := 0x30200 }
     s.ctx.skip = false ∧ exec .eret s = .next ((s.mapCtx fun c => { c with act := false }).completeTo 0x30200)) ∧
    (let s := (tst 1 [] fun c => { c with act := true, skip := true, epc := 0x30200, lc := #v[2, 0, 0], le := #v[0x30200, 0, 0],
                                           lb := #v[0x30080, 0, 0] }).wr8 (poolKey 0 0x30200) 0x007001EF
     (okVal (s.lenAt 0x30200)).map (fun p => p.1) = some 4 ∧ (nextSt (exec .eret s)).ctx.act = false ∧
     (nextSt (exec .eret s)).ctx.pc = 0x30080 ∧ (nextSt (exec .eret s)).ctx.lc = #v[1, 0, 0]) ∧
    (let s := tst 1 [] fun c => { c with act := true, skip := true, epc := 0x90000 }
     (match s.lenAt 0x90000 with | .block _ _ => true | _ => false) = true ∧ (nextSt (exec .eret s)).ctx.act = true ∧
     (nextSt (exec .eret s)).ctx.life = .blocked) ∧
    (let s := tst 1 [] fun c => { c with act := true, skip := true, epc := 0x50000 }
     (match s.lenAt 0x50000 with | .trap _ => true | _ => false) = true ∧ (nextSt (exec .eret s)).ctx.life = .stopped) := by
  (and_intros <;> first | decide +kernel | (show @Eq Out _ _; exact next_of (by decide +kernel)) | (show @Eq (Res _) _ _; exact ok_of (by decide +kernel)) | (show @Eq (Res _) _ _; exact trap_of (by decide +kernel)))

theorem wit_SystemRegisters :
    (let s := tst 1 [(5, 0x80000000000000FF), (6, 0x9F)] fun c => { c with fst := 0x1FF, act := true, frec0 := 0x8000000000000011 }
     s.operands [] [9] [] = .ok [] ∧ s.operands [5] [] [] = .ok [0x80000000000000FF] ∧ s.operands [6] [] [] = .ok [0x9F] ∧
     (0x9F : W).toNat / 32 % 8 < 5 ∧ 5 ≤ (0x80000000000000FF : W).toNat / 32 % 8 ∧
     exec (.mfs 9 1) s = .next (s.doneG 4 [] 9 0x1F) ∧ exec (.mfs 9 0x100) s = .next (s.doneG 4 [] 9 1) ∧
     (nextSt (exec (.mts 6 0) s)).ctx.fst = 0x9F ∧ exec (.mts 5 0) s = .next (s.trap { cause := 0x02 }) ∧
     (nextSt (exec (.mts 5 0x18) s)).ctx.le[0] = 0x80000000000000FE ∧ (nextSt (exec (.mts 5 0x28) s)).ctx.frec0 = 0x8000000000000011 ∧
     (nextSt (exec (.mts 6 0x28) s)).ctx.frec0 = 0x11 ∧ (nextSt (exec (.mts 6 1) s)).ctx.fst = 0x1FF ∧
     exec (.mts 6 0x2B) s = .next (s.trap { cause := 0x02 }) ∧ exec (.fstWrite 0xA0) s = .next (s.trap { cause := 0x02 }) ∧
     (nextSt (exec (.frec0Write 0) s)).ctx.frec0 = 0x11) := by
  (and_intros <;> first | decide +kernel | (show @Eq Out _ _; exact next_of (by decide +kernel)) | (show @Eq (Res _) _ _; exact ok_of (by decide +kernel)) | (show @Eq (Res _) _ _; exact trap_of (by decide +kernel)))

theorem wit_EventsTimerWatchdog :
    (let s := tst 0 [(6, 0xE000000012345678)] id fun x => { x with events := [0xA100000000000000, 0x8500000000000001], lost := 2 }
     s.cur.ctx = 0 ∧ s.operands [] [9] [] = .ok [] ∧ s.operands [6] [] [] = .ok [0xE000000012345678] ∧ (s.core 0).timer = 0 ∧
     (nextSt (exec (.evget 9) s)).ctx.g[9] = 0x8500000000000001 ∧ (nextSt (exec (.evget 9) s)).me.events = [0xA100000000000000] ∧
     (nextSt (exec (.evstat 9) s)).ctx.g[9] = 0x2000000000002 ∧ (nextSt (exec (.evstat 9) s)).me.lost = 0 ∧
     (nextSt (exec (.evpost 6) s)).me.events = [0xA100000000000000, 0x8500000000000001, 0xE500000012345678] ∧
     (nextSt (exec (.tmset 6) s)).me.timer = 0xE000000012345678 ∧ (nextSt (exec (.timerExpiry 0) s)).me.events.length = 2) ∧
    (let s := tst 0 []
     s.me.events = [] ∧ exec (.evwait 9) s = .next (s.block { kind := 5 }) ∧ exec (.evget 9) s = .next (s.doneG 4 [] 9 0) ∧
     (nextSt (exec (.timerExpiry 0) s)).me.events = [0xA100000000000000]) ∧
    (let s := tst 1 [] fun c => { c with forfeit := 3 }
     s.cur.ctx ≠ 0 ∧ exec (.evwait 9) s = .next (s.trap { cause := 0x02 }) ∧ (nextSt (exec .forfeitedTurn s)).ctx.forfeit = 2) ∧
    (let s := tst 1 [] (fun c => { c with wait := some { kind := 1, ep := 63 }, life := .blocked, stall := 10 }) fun x => { x with wdlim := 10 }
     (s.ctxAt 0 1).wait = some { kind := 1, ep := 63 } ∧ (s.ctxAt 0 1).life = .blocked ∧ (s.core 0).wdlim ≠ 0 ∧
     (s.core 0).wdlim.toNat ≤ (s.ctxAt 0 1).stall ∧ (nextSt (exec (.watchdogExpiry 0 1) s)).me.events = [0xA41003F100030100]) := by
  (and_intros <;> first | decide +kernel | (show @Eq Out _ _; exact next_of (by decide +kernel)) | (show @Eq (Res _) _ _; exact ok_of (by decide +kernel)) | (show @Eq (Res _) _ _; exact trap_of (by decide +kernel)))

theorem wit_EventQueueBounded :
    let full (e : W) : Core := { Core.init with events := List.replicate 64 e, lost := 65535 }
    (full 0xA100000000000000).post 0xA100000000000000 = full 0xA100000000000000 ∧
    ({ full 0x8500000000000000 with lost := 65534 }.post 0xA100000000000000).lost = 65535 ∧
    ((full 0x8500000000000000).post 0xA100000000000000).lost = 65535 ∧
    (Core.init.post 0xA100000000000000).events = [0xA100000000000000] ∧
    ({ Core.init with events := [0x8200000500000000] }.post 0x8200000600000000).events.length = 2 ∧
    ({ Core.init with events := [0x8200000500000000] }.post 0x8200000500000001).events.length = 1 ∧
    ({ Core.init with events := [0x8410000000000000] }.post 0x8410000100000000).events.length = 1 ∧
    -- events of one cycle: a TIMER behind the SOFT of an earlier cycle, before the TRAP and the SOFT of this one
    ({ Core.init with events := [0x8500000000000001, 0x8310000000000000, 0x8510000000000002], newEvents := 2 }.post
      0xA100000000000000).events = [0x8500000000000001, 0xA100000000000000, 0x8310000000000000, 0x8510000000000002] := by
  (and_intros <;> first | decide +kernel | (show @Eq Out _ _; exact next_of (by decide +kernel)) | (show @Eq (Res _) _ _; exact ok_of (by decide +kernel)) | (show @Eq (Res _) _ _; exact trap_of (by decide +kernel)))

theorem wit_SemaphoresAndBarriers :
    (let s := tst 1 [(6, 0xFFFFFFFF)] id fun x => { x with sems := x.sems.set 3 2 }
     s.ctx.granted = false ∧ s.me.semWait.contains (3, s.cur.ctx) = false ∧ s.me.sems[3] ≠ 0 ∧ s.me.sems[31] = 0 ∧
     (s.floe s.myFloe).fsems[63] = 0 ∧ (s.floe s.myFloe).fsemWait.contains (63, s.cur.core, s.cur.ctx) = false ∧
     s.operands [6] [] [] = .ok [0xFFFFFFFF] ∧ s.operands [] [9] [] = .ok [] ∧ s.unfencedFloe = false ∧ s.me.semWait = [] ∧
     (nextSt (exec (.semwait 3) s)).me.sems[3] = 1 ∧ (nextSt (exec (.semwait 31) s)).ctx.life = .blocked ∧
     (nextSt (exec (.semwait 31) s)).me.semWait = [(31, 1)] ∧ (nextSt (exec (.sempost 6 3) s)).me.sems[3] = 0xFFFFFFFF ∧
     (nextSt (exec (.fspost 6 63) s)).floes.length = 1 ∧ exec (.semget 9 3) s = .next (s.doneG 4 [] 9 2) ∧
     (nextSt (exec (.fswait 63) s)).ctx.life = .blocked ∧ s.ctx.gang = none) ∧
    (let s := tst 1 [(6, 2)] id fun x => { x with semWait := [(4, 5), (3, 2), (3, 4), (3, 6)] }
     -- two grants of the three waiters for semaphore 3, the earliest first
     (nextSt (exec (.sempost 6 3) s)).me.semWait = [(4, 5), (3, 6)] ∧ (nextSt (exec (.sempost 6 3) s)).me.sems[3] = 0 ∧
     ((nextSt (exec (.sempost 6 3) s)).ctxAt 0 4).req.isSome = true ∧ ((nextSt (exec (.sempost 6 3) s)).ctxAt 0 6).req = none) ∧
    (let s := (tst 1 [(6, 1)]).mapFloe 0 fun f => { f with fsemWait := [(63, 5, 1), (63, 2, 1)] }
     s.unfencedFloe = false ∧ ((nextSt (exec (.fspost 6 63) s)).floe 0).fsemWait = [(63, 2, 1)] ∧
     ((nextSt (exec (.fsset 6 63) s)).floe 0).fsems[63] = 0) ∧
    (let s := (tst 1 [] fun c => { c with gang := some ⟨4, 0, 2⟩ }).mapFloe 0 fun f => { f with fsemWait := [(63, 7, 1), (63, 2, 1), (63, 3, 1)] }
     -- core 0's member comes before those of cores 2 and 3, behind core 7, which is not of its gang
     ((nextSt (exec (.fswait 63) s)).floe 0).fsemWait = [(63, 7, 1), (63, 0, 1), (63, 2, 1), (63, 3, 1)]) ∧
    (let s := tst 1 [] id fun x => { x with semWait := [(3, 1)] }
     s.ctx.granted = false ∧ s.me.semWait.contains (3, s.cur.ctx) = true ∧ exec (.semwait 3) s = .next (s.block { kind := 3 })) ∧
    (let s := (tst 1 []).mapFloe 0 fun f => { f with fsemWait := [(63, 0, 1)] }
     s.ctx.granted = false ∧ (s.floe s.myFloe).fsemWait.contains (63, s.cur.core, s.cur.ctx) = true ∧
     exec (.fswait 63) s = .next (s.block { kind := 3 })) ∧
    (let s := (tst 1 []).mapFloe 0 fun f => { f with fsems := f.fsems.set 63 1 }
     (s.floe s.myFloe).fsems[63] ≠ 0 ∧ ((nextSt (exec (.fswait 63) s)).floe 0).fsems[63] = 0) ∧
    (let s := tst 1 [] fun c => { c with req := some ⟨0, some (.value 1 0)⟩, wait := some { kind := 3 } }
     s.ctx.granted = true ∧ exec (.semwait 3) s = .next (s.complete 4) ∧ exec (.fswait 3) s = .next (s.complete 4)) ∧
    (let s := tst 1 [] fun c => { c with ops := [⟨0, .gstore, 1, false, true, none⟩] }
     s.unfencedFloe = true ∧ exec (.fspost 6 3) s = .next (s.block { kind := 5 })) := by
  (and_intros <;> first | decide +kernel | (show @Eq Out _ _; exact next_of (by decide +kernel)) | (show @Eq (Res _) _ _; exact ok_of (by decide +kernel)) | (show @Eq (Res _) _ _; exact trap_of (by decide +kernel)))

theorem wit_fbar :
    (let s := tst 1 [(6, 2), (7, 1), (8, 0)]
     s.operands [6] [] [] = .ok [2] ∧ s.ctx.granted = false ∧ (s.floe s.myFloe).fbarWait.contains (3, s.cur.core, s.cur.ctx) = false ∧
     s.unfencedFloe = false ∧ exec (.fbar 8 3) s = .next (s.trap { cause := 0x02 }) ∧
     ((nextSt (exec (.fbar 6 3) s)).floe 0).fsems[3] = 1 ∧ (nextSt (exec (.fbar 6 3) s)).ctx.life = .blocked ∧
     ((nextSt (exec (.fbar 7 3) s)).floe 0).fsems[3] = 0 ∧ (nextSt (exec (.fbar 7 3) s)).ctx.pc = 0x30104) ∧
    (let s := tst 1 [(6, 2)] fun c => { c with req := some ⟨0, some (.value 1 0)⟩, wait := some { kind := 3 } }
     s.ctx.granted = true ∧ exec (.fbar 6 3) s = .next (s.done 4 [6])) ∧
    (let s := (tst 1 [(6, 2)]).mapFloe 0 fun f => { f with fbarWait := [(3, 0, 1)] }
     s.ctx.granted = false ∧ (s.floe s.myFloe).fbarWait.contains (3, s.cur.core, s.cur.ctx) = true ∧
     exec (.fbar 6 3) s = .next (s.block { kind := 3 })) ∧
    (let s := tst 1 [(6, 2)] fun c => { c with ops := [⟨0, .gstore, 1, false, true, none⟩] }
     s.unfencedFloe = true ∧ exec (.fbar 6 3) s = .next (s.block { kind := 5 })) := by
  (and_intros <;> first | decide +kernel | (show @Eq Out _ _; exact next_of (by decide +kernel)) | (show @Eq (Res _) _ _; exact ok_of (by decide +kernel)) | (show @Eq (Res _) _ _; exact trap_of (by decide +kernel)))

theorem wit_CoreRegisters :
    (let s := tst 0 [(5, 0x010), (6, 0xFFFFFFFFFFFFFFFF), (7, 0x00F), (8, 0x088)]
     exec (.rdcore 9 7) s = .next (s.doneG 4 [7] 9 0x01C0000000000000) ∧ exec (.rdcore 9 8) s = .next (s.doneG 4 [8] 9 0) ∧
     exec (.wrcore 7 6) s = .next (s.trap { cause := 0x02 }) ∧ exec (.wrcore 8 5) s = .next (s.trap { cause := 0x02 }) ∧
     (nextSt (exec (.wrcore 7 5) s)).me.win[7] = 0x01C0000000000010) ∧
    (let s := tst 0 [(5, 0x038), (6, 0x8000000000000000 + 64 * 2 ^ 22 + 0x40000), (7, 0x8000000000000000 + 65 * 2 ^ 22 + 0x40000),
                     (8, 0x80000000003C0000), (10, 0x8000000000000000 + 1 * 2 ^ 22 + 0x2FE00)]
     -- the scratchpad of this core is 0x30000 to 0x2F0000 (Table 8.7)
     (nextSt (exec (.wrcore 5 6) s)).me.gmbox = 0x8000000010040000 ∧ exec (.wrcore 5 7) s = .next (s.trap { cause := 0x02 }) ∧
     exec (.wrcore 5 8) s = .next (s.trap { cause := 0x02 }) ∧ exec (.wrcore 5 10) s = .next (s.trap { cause := 0x02 }) ∧
     exec (.gmboxWrite 0x8000000010040000) s = .next (s.mapMe fun m => { m with gmbox := 0x8000000010040000 })) ∧
    (let s := tst 0 [(5, 0x048), (6, 0x50000), (7, 0x2F0008), (8, 0x2FFF8), (10, 0x400050000)] id fun x => { x with dqlim := 0x51000 }
     -- a base above dqlim takes it along, and then no byte lies outside the scratchpad
     (nextSt (exec (.wrcore 5 6) s)).me.dqlim = 0x51000 ∧ exec (.wrcore 5 8) s = .next (s.trap { cause := 0x02 }) ∧
     (nextSt (exec (.wrcore 5 7) s)).me.dqlim = 0x2F0008 ∧ (nextSt (exec (.wrcore 5 10) s)).me.dqbase = 0x400050000) ∧
    (let s := tst 0 [(5, 0x050), (6, 0x2F0000), (7, 0x2F0008), (8, 0x4FFF8), (10, 0x400050000)] id fun x => { x with dqbase := 0x50000 }
     (nextSt (exec (.wrcore 5 6) s)).me.dqlim = 0x2F0000 ∧ exec (.wrcore 5 7) s = .next (s.trap { cause := 0x02 }) ∧
     exec (.wrcore 5 8) s = .next (s.trap { cause := 0x02 }) ∧ exec (.wrcore 5 10) s = .next (s.trap { cause := 0x02 })) ∧
    (let s := tst 0 [(5, 0x070), (6, 3), (7, 0x068), (8, 0x80)] id fun x => { x with eps := [(16, { st := .open, owner := 3 }), (17, { st := .open, owner := 1 })] }
     exec (.wrcore 5 6) s = .next (s.trap { cause := 0x02 }) ∧ exec (.epownWrite 1 3) s = .next (s.trap { cause := 0x02 }) ∧
     (s.me.ep 17).owner = 1 ∧ ((nextSt (exec (.epownWrite 1 0x13) s)).me.ep 17).owner = 1 ∧
     ((nextSt (exec (.wrcore 7 8) s)).me.ep 1).owner = 8) ∧
    (let s := tst 0 [(5, 0x10), (6, 0xFFFFFFFFFFFFFFFF), (7, 0x18), (8, 0x30)] id fun x => { x with dqlim := 0x48FF8 }
     s.operands [5] [9] [] = .ok [0x10] ∧ s.operands [5, 6] [] [] = .ok [0x10, 0xFFFFFFFFFFFFFFFF] ∧ s.cur.ctx = 0 ∧
     exec (.rdcore 9 5) s = .next (s.doneG 4 [5] 9 0) ∧ (nextSt (exec (.wrcore 5 6) s)).me.wdlim = 0xFFFFFFFF ∧
     (nextSt (exec (.wrcore 7 6) s)).me.spbase = 0xFFFFFFFFFFFFC000 ∧ exec (.wrcore 8 6) s = .next (s.trap { cause := 0x02 }) ∧
     (nextSt (exec (.windowRegisterWrite 7 0x8800000000000005) s)).me.win[7] = 0x89C0000000000005 ∧
     exec (.windowRegisterWrite 7 0x8A00000000000005) s = .next (s.trap { cause := 0x02 }) ∧
     (0x0000123456780001 : W) &&& 0x00FFFF000000FFFE = 0x0000120000000000 ∧ (0x0100001234560001 : W) &&& 0x00FFFF000000FFFE = 0 ∧
     (nextSt (exec (.xrootWrite 0x0100001234560001) s)).me.tlb = [] ∧ exec (.xrootWrite 2) s = .next (s.trap { cause := 0x02 }) ∧
     dequeOk s.me.part 0x48000 s.me.dqlim.toNat = true ∧ (nextSt (exec (.dqbaseWrite 0x48007) s)).me.dqbase = 0x48000 ∧
     dequeOk s.me.part s.me.dqbase.toNat 0x38000 = false) ∧
    (let s := tst 0 [] id fun x => { x with dqbase := 0x48000 }
     exec (.dqlimWrite 0x47FF8) s = .next (s.trap { cause := 0x02 }) ∧ dequeOk s.me.part 0x48000 0x48FF8 = true ∧
     (nextSt (exec (.dqlimWrite 0x48FF8) s)).me.dqlim = 0x48FF8 ∧ (s.me.ep 31).st = .unbound ∧
     ((nextSt (exec (.epownWrite 1 0xF000000000000002) s)).me.ep 31).owner = 15 ∧
     ((nextSt (exec (.epownWrite 1 0xF000000000000002) s)).me.ep 16).owner = 2 ∧
     (nextSt (exec (.gmboxWrite 0x7FFFFFFFFFFFFFFF) s)).me.gmbox = 0x1FFFFE00) ∧
    (let s := tst 1 []
     s.cur.ctx ≠ 0 ∧ exec (.wrcore 5 6) s = .next (s.trap { cause := 0x02 }) ∧
     exec (.jdomWrite 0) s = .next (s.trap { cause := 0x02 }) ∧ exec (.xrootWrite 1) s = .next (s.trap { cause := 0x02 })) := by
  (and_intros <;> first | decide +kernel | (show @Eq Out _ _; exact next_of (by decide +kernel)) | (show @Eq (Res _) _ _; exact ok_of (by decide +kernel)) | (show @Eq (Res _) _ _; exact trap_of (by decide +kernel)))

theorem wit_InvalidationDropsTranslations :
    (let s := tst 0 []
     s.cur.ctx = 0 ∧ s.ctx.req = none ∧ (0x31000 + 4 * 512 : W).toNat / 2 ^ 9 % 8 < 5 ∧ (0x31000 + 4 * 512 : W).toNat / 2 ^ 52 = 0 ∧
     ¬ (0x31000 + 5 * 512 : W).toNat / 2 ^ 9 % 8 < 5 ∧ exec (.tlbinvWrite 0x31A00) s = .next (s.trap { cause := 0x02 }) ∧
     (nextSt (exec (.tlbinvWrite 0x31800) s)).me.inval = some 0x31800 ∧
     (nextSt (exec (.tlbinvWrite 0x31800) s)).ctx.life = .blocked) ∧
    (let s := tst 0 [] (fun c => { c with req := some ⟨0, none⟩ }) fun x => { x with inval := some 0x31000 }
     (s.core 0).inval = some 0x31000 ∧ inScope 0 0 0 = true ∧ inScope 0 0 1 = false ∧ (s.ctxAt 0 0).req = some ⟨0, none⟩ ∧
     ((nextSt (exec (.tlbinvDropComplete 0) s)).core 0).tlb.length = 5 ∧
     ((nextSt (exec (.tlbinvDropComplete 0) s)).ctxAt 0 0).req = some ⟨0, some (.value 0 0)⟩) ∧
    (let s := tst 0 [(5, 0x060), (6, 0x31800), (7, 0x31A00)]
     s.operands [5, 6] [] [] = .ok [0x060, 0x31800] ∧ (nextSt (exec (.wrcore 5 6) s)).me.inval = some 0x31800 ∧
     exec (.wrcore 5 7) s = .next (s.trap { cause := 0x02 }) ∧ exec (.tlbinvDropComplete 0) s = .next s) ∧
    (let s := tst 0 [(5, 0x060), (6, 0x31800)] fun c => { c with req := some ⟨0, some (.value 0 0)⟩ }
     exec (.tlbinvWrite 0x31800) s = .next s ∧ exec (.wrcore 5 6) s = .next (s.done 4 [5, 6])) ∧
    (let f : Floe := { Floe.init with
       tcache := [⟨0, 0x30, 16, leafAt 0x30 7⟩, ⟨1, 0x30, 16, leafAt 0x30 7⟩], walks := [⟨1, 0x30, 1, 0x80000, [(0, 1)], [], true, false⟩] }
     let s : State := { tst 0 [] (fun c => { c with req := some ⟨0, none⟩ }) (fun x => { x with inval := some 0x31200 }) with
       floes := [(0, f), (1, f)] }
     -- scope 1, the floe: floe 0 drops the entry of address space 0 and marks its walk, floe 1 keeps both
     let u := nextSt (exec (.tlbinvDropComplete 0) s)
     (u.floe 0).tcache.length = 1 ∧ (u.floe 0).walks.map (fun w => w.dead) = [true] ∧ u.floe 1 = f ∧
     (u.core 0).tlb.length = 5) := by
  (and_intros <;> first | decide +kernel | (show @Eq Out _ _; exact next_of (by decide +kernel)) | (show @Eq (Res _) _ _; exact ok_of (by decide +kernel)) | (show @Eq (Res _) _ _; exact trap_of (by decide +kernel)))

/-- Context 0 issues; context 2 is in the life given. -/
def supervised (l : List (Nat × W)) (life : Life) (f : Ctx → Ctx := id) : State :=
  (tst 0 l).mapCtxAt 0 2 fun c => f { c with life := life, g := c.g.set 31 77, pc := 0x30200 }

theorem wit_contextRegisters :
    (let s := supervised [(5, 0x001F0002), (6, 0x003F0002), (7, 0x8080002), (8, 0x00380002)] .stopped
     s.operands [5] [9] [] = .ok [0x001F0002] ∧ s.operands [5, 6] [] [] = .ok [0x001F0002, 0x003F0002] ∧ s.cur.ctx = 0 ∧
     (s.me.ctx 2).life = .stopped ∧ 31 < gcapOf s.me.part ∧ exec (.rdctx 9 5) s = .next (s.doneG 4 [5] 9 77) ∧
     exec (.rdctx 9 6) s = .next (s.doneG 4 [6] 9 0x30200) ∧ exec (.rdctx 9 8) s = .next (s.doneG 4 [8] 9 0) ∧
     ((nextSt (exec (.wrctx 6 5) s)).ctxAt 0 2).pc = 0x001F0002 ∧ ((nextSt (exec (.wrctx 7 5) s)).ctxAt 0 2).slim = 0x001F0002) ∧
    (let s := supervised [(5, 0x001F0002)] .runnable
     exec (.rdctx 9 5) s = .next (s.trap { cause := 0x02 })) ∧
    (let s := (supervised [(5, 0x001F0002)] .stopped).mapMe fun x => { x with part := 0x0004300000000000 }
     gcapOf s.me.part ≤ 31 ∧ exec (.rdctx 9 5) s = .next (s.trap { cause := 0x02 })) ∧
    (let s := supervised [(5, 0x0FFF0002), (6, 0x01F20002), (7, 0x00300002), (8, 0x08000002), (9, 0xA5), (10, 0x00270002), (11, 0x00050002)] .stopped
     -- x7, g5, v15 <191:128>, q0 and fst; 0xFFF is no register
     exec (.rdctx 9 5) s = .next (s.trap { cause := 0x02 }) ∧ ((nextSt (exec (.wrctx 6 9) s)).ctxAt 0 2).v[15] = 0xA5 <<< 128 ∧
     exec (.rdctx 9 7) s = .next (s.doneG 4 [7] 9 0xFFFFFFFFFFFFFFFF) ∧ ((nextSt (exec (.wrctx 10 9) s)).ctxAt 0 2).x[7] = 0xA5 ∧
     ((nextSt (exec (.wrctx 11 9) s)).ctxAt 0 2).g[5] = 0xA5 ∧ exec (.wrctx 8 9) s = .next (s.trap { cause := 0x02 })) ∧
    (let s := supervised [(5, 0x00380002)] .spilled
     (s.me.ctx 2).life = .spilled ∧ s.ctx.req = none ∧
     exec (.rdctx 9 5) s = .next ((s.mapCtx fun c => { c with req := some ⟨34, none⟩ }).block { kind := 5 }) ∧
     exec (.wrctx 5 5) s = .next ((s.mapCtx fun c => { c with req := some ⟨50, none⟩ }).block { kind := 5 })) ∧
    (let s := (supervised [(5, 0x00380002)] .spilled).mapCtx fun c => { c with req := some ⟨34, some (.value 0 0)⟩ }
     exec (.rdctx 9 5) s = .next (s.doneG 4 [5] 9 0)) ∧
    (let s := (supervised [(5, 0x00380002)] .spilled).mapCtx fun c => { c with req := some ⟨34, some (.failed fault1)⟩ }
     exec (.rdctx 9 5) s = .next (s.trap { cause := 0x11, addr := 0x31000 })) ∧
    (let s := tst 1 [] fun c => { c with forfeit := 250 }
     (nextSt (exec (.yield 15) s)).ctx.forfeit = 255) := by
  (and_intros <;> first | decide +kernel | (show @Eq Out _ _; exact next_of (by decide +kernel)) | (show @Eq (Res _) _ _; exact ok_of (by decide +kernel)) | (show @Eq (Res _) _ _; exact trap_of (by decide +kernel)))

theorem wit_ContextsUnderSupervision :
    (let s := supervised [(5, 2), (6, 0x30201)] .stopped
     s.operands [5] [9] [] = .ok [2] ∧ s.operands [5, 6] [9] [] = .ok [2, 0x30201] ∧ (s.me.ctx 2).wasWaiting = false ∧
     (s.me.ctx 2).ops = [] ∧ (nextSt (exec (.start 9 5) s)).ctx.g[9] = 4 ∧
     ((nextSt (exec (.start 9 5) s)).ctxAt 0 2).life = .runnable ∧ (nextSt (exec (.stop 9 5) s)).ctx.g[9] = 4 ∧
     ((nextSt (exec (.reap 9 5) s)).ctxAt 0 2) = Ctx.init ∧ ((nextSt (exec (.startPc 9 5 6) s)).ctxAt 0 2).oddPc = some 0x30201) ∧
    (let s := supervised [(5, 2), (6, 0x30200)] .free
     exec (.start 9 5) s = .next (s.trap { cause := 0x02 }) ∧ s.ctx.req = none ∧ s.me.freeFrames ≠ [] ∧
     ((nextSt (exec (.startPc 9 5 6) s)).ctxAt 0 2).life = .runnable ∧ (nextSt (exec (.startPc 9 5 6) s)).ctx.g[9] = 0) ∧
    (let s := supervised [(5, 2)] .runnable
     (s.me.ctx 2).gang = none ∧ (s.me.ctx 2).wait = none ∧ (s.me.ctx 2).req = none ∧
     (allEps.all fun e => (s.me.ep e).st != .connecting) = true ∧ ((nextSt (exec (.stop 9 5) s)).ctxAt 0 2).life = .stopped ∧
     (nextSt (exec (.start 9 5) s)).ctx.g[9] = 1 ∧ (nextSt (exec (.reap 9 5) s)).ctx.g[9] = 1) ∧
    (let s := supervised [(5, 2)] .stopped fun c => { c with ops := [⟨0, .gstore, 1, false, true, none⟩] }
     (s.me.ctx 2).ops ≠ [] ∧ exec (.reap 9 5) s = .next (s.block { kind := 5 })) ∧
    (let s := supervised [(5, 2)] .stopped fun c => { c with wasWaiting := true }
     (s.me.ctx 2).wasWaiting = true ∧ ((nextSt (exec (.start 9 5) s)).ctxAt 0 2).life = .waiting) ∧
    (let s := supervised [(5, 2)] .waiting
     (nextSt (exec (.stop 9 5) s)).ctx.g[9] = 3 ∧ ((nextSt (exec (.stop 9 5) s)).ctxAt 0 2).wasWaiting = true) ∧
    (let s := supervised [(5, 2)] .blocked fun c => { c with wait := some { kind := 6, hold := true } }
     (nextSt (exec (.stop 9 5) s)).ctx.g[9] = 10 ∧ ((nextSt (exec (.stop 9 5) s)).ctxAt 0 2).heldStop = true) ∧
    (let s := supervised [(5, 2)] .spilled
     s.me.freeFrames ≠ [] ∧ s.ctx.req = none ∧ (nextSt (exec (.start 9 5) s)).me.reload = some 2 ∧
     (nextSt (exec (.start 9 5) s)).ctx.life = .blocked) ∧
    (let s := (supervised [(5, 2)] .spilled).mapCtx fun c => { c with req := some ⟨11, some (.value 0 0)⟩ }
     (nextSt (exec (.start 9 5) s)).ctx.g[9] = 5 ∧ ((nextSt (exec (.start 9 5) s)).ctxAt 0 2).life = .runnable) ∧
    (let s := (supervised [(5, 2)] .spilled).mapCtx fun c => { c with req := some ⟨11, some (.failed fault1)⟩ }
     exec (.start 9 5) s = .next (s.trap { cause := 0x11, addr := 0x31000 })) ∧
    (let s := (supervised [(5, 2)] .runnable).mapCtx fun c => { c with req := some ⟨12, some (.value 5 0)⟩ }
     (nextSt (exec (.start 9 5) s)).ctx.g[9] = 5) ∧
    (let others := (List.range 9).map fun i => (3 + i, { Ctx.init with life := .runnable, frame := 1 + i })
     let s := (supervised [(5, 2)] .spilled).mapMe fun x => { x with part := 0x00042A0000000000, ctxs := x.ctxs ++ others }
     (s.me.ctx 2).life = .spilled ∧ s.me.freeFrames = [] ∧ s.me.victim = none ∧ (nextSt (exec (.start 9 5) s)).ctx.g[9] = 7) ∧
    (let s := supervised [(5, 0x10)] .stopped
     exec (.start 9 5) s = .next (s.trap { cause := 0x02 }) ∧ exec (.reap 9 5) s = .next (s.trap { cause := 0x02 })) := by
  (and_intros <;> first | decide +kernel | (show @Eq Out _ _; exact next_of (by decide +kernel)) | (show @Eq (Res _) _ _; exact ok_of (by decide +kernel)) | (show @Eq (Res _) _ _; exact trap_of (by decide +kernel)))

/-- A STOP of a context that waits in a load of an endpoint: withdrawn while the request is on its way, held once the value is
fixed (R31, R351). -/
theorem wit_ContextsUnderSupervision_reads :
    (let r : MemReq := ⟨⟨0, 2, 0, 0, 0⟩, 1000, 5, 1, 1, false, 0x400, 0x60400, 8, 0, [], 0, []⟩
     let s0 := supervised [(5, 2)] .blocked fun c => { c with req := some ⟨1000, none⟩, wait := some { kind := 1, ep := 5 } }
     let s : State := { (s0.mapMe fun x => { x with eps := [(5, { st := .open, owner := 2, gen := 1, state := 1, sseq := 7, lacnt := 1 })] }) with
       net := [{ src := 0, kind := 0, adapt := false, esc := false, vc := false, len := 1, dmod := 0, dst := .ctrl 1, rev := 0, fcls := 0,
                 fin := none, via := none, place := .queued 0 0, flow := none, body := .mem r }] }
     let t := nextSt (exec (.stop 9 5) s)
     t.ctx.g[9] = 2 ∧ (t.ctxAt 0 2).life = .stopped ∧ t.net = [] ∧ (t.ep 5).sseq = 6 ∧ (t.ep 5).state = 0 ∧
     -- performed, the request is no longer among the packets: the STOP is held until the value comes, and while it stands unread
     (nextSt (exec (.stop 9 5) { s with net := [] })).ctx.g[9] = 10 ∧
     ((nextSt (exec (.stop 9 5) { s with net := [] })).ctxAt 0 2).heldStop = true ∧
     (nextSt (exec (.stop 9 5) (s.mapCtxAt 0 2 fun c => { c with life := .runnable, wait := none, req := some ⟨1000, some (.value 7 0)⟩ }))).ctx.g[9] = 10) := by
  (and_intros <;> first | decide +kernel | (show @Eq Out _ _; exact next_of (by decide +kernel)) | (show @Eq (Res _) _ _; exact ok_of (by decide +kernel)) | (show @Eq (Res _) _ _; exact trap_of (by decide +kernel)))

/-- A transition of Table 9.4: action, type 7, next state, class; a tile of 1 by 16 bytes in class 3. -/
def trans (action goesTo cls : Nat) : Nat :=
  action + 7 * 16 + goesTo * 2 ^ 12 + cls * 2 ^ 18 + if cls = 3 then 15 * 2 ^ 30 + 8 * 2 ^ 36 else 0

/-- An image with one transition in each state. -/
def imageOf (ts : List Nat) : List Byte :=
  (([0x58A5 * 2 ^ 48 + 2 ^ 40 + ts.length * 2 ^ 32 + ts.length * 2 ^ 16, 1, 0, 0, 0, 0, 0, 0] ++
    (List.range ts.length).map fun i => i + 256) ++ ts).flatMap fun w => leBytes 8 w

/-- The states: send of classes 0, 1, 2, 3; select; recv of classes 0, 1, 2, 3; offer; delegate; its receipt; close. -/
def image1 : List Byte :=
  imageOf [trans 0 1 0, trans 0 2 1, trans 0 0 2, trans 0 0 3, trans 3 1 0, trans 1 1 0, trans 1 1 1, trans 1 1 2, trans 1 1 3,
    trans 2 3 0, trans 4 1 5, trans 5 1 5, 6]

/-- Endpoint 5 of context 1, open under that image in state n, its peer endpoint 6 of core 8; a message with header h and
payload 9 stands in its first slot. -/
def chan (n : BitVec 6) (h : W) (f : Endpoint → Endpoint := id) (l : List (Nat × W) := []) : State :=
  ((tst 1 l id fun x => { x with
    eps := [(5, f { st := .open, owner := 1, proto := 16, state := n, base := 0x38000, slotu := 9, depth := 3, pdepth := 3, gen := 1,
                    paddr := locWord 0 8 6, pgen := 1 })]
    protos := [(16, ⟨image1, 3, 4, 9, false⟩)] }).wr8 (poolKey 0 0x38000) h).wr8 (poolKey 0 0x38010) 9

theorem wit_ChannelMessages :
    (let s := chan 0 0
     s.ctx.pend.find? (fun f => f.ep == some 5) = none ∧ (s.ep 5).owner = s.cur.ctx ∧ (s.ep 5).st = .open ∧ (s.ep 5).full = false ∧
     s.operands [] [] [] = .ok [] ∧ s.matchOut 5 0 7 0 = .ok (1, 0) ∧ (s.trans 5).find? (fun t => t.typ == 8) = none ∧
     ((nextSt (exec (.send 0 0 7 5) s)).ep 5).state = 1 ∧ ((nextSt (exec (.send 0 0 7 5) s)).ep 5).lacnt = 1 ∧
     (nextSt (exec (.send 0 0 7 5) s)).net.map (fun q => q.body) = [.msg 6 1 0 7 0 0 []] ∧
     exec (.send 0 0 8 5) s = .next (s.trap { cause := 0x06, detail := 5 })) ∧
    (let s := chan 0 0 fun ep => { ep with lacnt := 4 }
     (s.ep 5).full = true ∧ exec (.send 0 0 7 5) s = .next (s.block { kind := 2, ep := 5 })) ∧
    (let s := chan 0 0 fun ep => { ep with owner := 2 }
     (s.ep 5).owner ≠ s.cur.ctx ∧ exec (.send 0 0 7 5) s = .next (s.trap { cause := 0x05, detail := 5 })) ∧
    (let s := chan 4 0
     s.matchOut 5 3 7 0 = .ok (1, 0) ∧ (nextSt (exec (.select 7 5) s)).net.map (fun q => q.body) = [.msg 6 1 0 7 0 0 []]) ∧
    (let s := chan 1 0 id [(9, 0x1234)]
     s.matchOut 5 0 7 1 = .ok (2, 8) ∧ s.operands [9] [] [] = .ok [0x1234] ∧
     (nextSt (exec (.send 9 1 7 5) s)).net.map (fun q => q.body) = [.msg 6 1 1 7 0 0 [0x34, 0x12, 0, 0, 0, 0, 0, 0]]) ∧
    (let s := chan 3 0 id [(9, 0x38000)]
     s.matchOut 5 0 7 3 = .ok (0, 16) ∧ s.localUnits 0x38000 { r := true } 16 = .ok [poolKey 0 0x38000] ∧
     (nextSt (exec (.send 9 3 7 5) s)).net.length = 1) ∧
    (chan 2 0).matchOut 5 0 7 2 = .ok (0, 128) ∧ (chan 2 0).operands [] [] [9] = .ok [] := by
  (and_intros <;> first | decide +kernel | (show @Eq Out _ _; exact next_of (by decide +kernel)) | (show @Eq (Res _) _ _; exact ok_of (by decide +kernel)) | (show @Eq (Res _) _ _; exact trap_of (by decide +kernel)))

theorem wit_ChannelMessages_received :
    (let s := chan 5 (hdrWord 0 7 0 0)
     hdrF (s.slotHeader 0 5 0) = true ∧ hdrTyp (s.slotHeader 0 5 0) = 7 ∧ hdrCls (s.slotHeader 0 5 0) = 0 ∧
     s.matchIn 5 7 0 = .ok (1, 0) ∧ ((nextSt (exec (.recv 0 0 7 5) s)).ep 5).head = 1 ∧
     ((nextSt (exec (.recv 0 0 7 5) s)).ep 5).owed = 1) ∧
    (let s := chan 5 0
     hdrF (s.slotHeader 0 5 0) = false ∧ exec (.recv 0 0 7 5) s = .next (s.block { kind := 1, ep := 5 })) ∧
    (let s := chan 6 (hdrWord 1 7 0 8)
     s.operands [] [9] [] = .ok [] ∧ hdrCls (s.slotHeader 0 5 0) = 1 ∧ s.matchIn 5 7 1 = .ok (1, 8) ∧
     (nextSt (exec (.recv 9 1 7 5) s)).ctx.g[9] = 9) ∧
    (let s := chan 7 (hdrWord 2 7 0 128)
     hdrCls (s.slotHeader 0 5 0) = 2 ∧ s.matchIn 5 7 2 = .ok (1, 128) ∧ (nextSt (exec (.recv 9 2 7 5) s)).ctx.rv 9 = 9) ∧
    (let s := chan 8 (hdrWord 3 7 0 16) id [(9, 0x39000)]
     hdrCls (s.slotHeader 0 5 0) = 3 ∧ hdrLen (s.slotHeader 0 5 0) = 16 ∧ s.matchIn 5 7 3 = .ok (1, 16) ∧ (s.ep 5).proto ≠ 8 ∧
     s.localUnits 0x39000 { w := true } 16 = .ok [poolKey 0 0x39000] ∧
     (nextSt (exec (.recv 9 3 7 5) s)).rd8 (poolKey 0 0x39000) = 9) ∧
    (let s := chan 9 (hdrWord 0 7 0 0)
     kindOf (s.trans 5) = some .offer ∧ ((s.trans 5).find? fun r => r.action == 2 && r.typ == 7).map (·.goesTo) = some 3 ∧
     (nextSt (exec (.offer 9 5) s)).ctx.g[9] = 7 ∧ ((nextSt (exec (.offer 9 5) s)).ep 5).state = 3) := by
  (and_intros <;> first | decide +kernel | (show @Eq Out _ _; exact next_of (by decide +kernel)) | (show @Eq (Res _) _ _; exact ok_of (by decide +kernel)) | (show @Eq (Res _) _ _; exact trap_of (by decide +kernel)))

/-- The Gaussian engine of core 0 works on the dword at k. -/
def engaged (s : State) (k : Nat) : State :=
  s.mapMe fun x => { x with gqueue := [⟨1, 1000, 2, .loadf, 0, [k], 0, true⟩] }

/-- RECV waits for an engine that holds the slot's header. -/
theorem wit_ChannelMessages_held :
    (let s := engaged (chan 5 (hdrWord 0 7 0 0)) (poolKey 0 0x38000)
     s.heldAt 0 (poolKey 0 0x38000) 16 true = true ∧ exec (.recv 0 0 7 5) s = .next (s.block { kind := 5 })) ∧
    (let s := engaged (chan 5 (hdrWord 0 7 0 0)) (poolKey 0 0x38010)
     s.heldAt 0 (poolKey 0 0x38000) 16 true = false ∧ s.heldAt 0 (poolKey 0 0x38010) 0 false = false ∧
     ((nextSt (exec (.recv 0 0 7 5) s)).ep 5).head = 1) := by
  (and_intros <;> first | decide +kernel | (show @Eq Out _ _; exact next_of (by decide +kernel)) | (show @Eq (Res _) _ _; exact ok_of (by decide +kernel)) | (show @Eq (Res _) _ _; exact trap_of (by decide +kernel)))

/-- A one-flit packet of core 8 to a unit of this module. -/
def packet (dst : Dest) (body : Body) (place : Place) : Packet :=
  { src := 8, kind := 0, adapt := true, esc := false, vc := false, len := 1, dmod := 0, dst, rev := 0, fcls := 0, fin := none
    via := none, place, flow := none, body }

/-- A packet that has arrived at its unit, alone in the module. -/
def came (s : State) (dst : Dest) (body : Body) : State :=
  { s with net := [packet dst body .arrived] }

theorem wit_ChannelArrivals :
    (let s := came (chan 0 0 fun ep => { ep with lacnt := 2 }) (.core 0) (.msg 5 1 1 7 0 1 [1, 0, 0, 0, 0, 0, 0, 0])
     (s.arrived 0).map (fun q => (q.dst, q.body)) = some (.core 0, .msg 5 1 1 7 0 1 [1, 0, 0, 0, 0, 0, 0, 0]) ∧
     (1 : BitVec 16) = (s.epAt 0 5).gen ∧ (s.epAt 0 5).st = .open ∧
     hdrF (s.rd8 ((s.epAt 0 5).slotKey 0 ((s.epAt 0 5).slotOf 0))) = false ∧
     (nextSt (exec (.messageArrival 0) s)).rd8 (poolKey 0 0x38000) = 0x9070000000000008 ∧
     ((nextSt (exec (.messageArrival 0) s)).epAt 0 5).lacnt = 1 ∧ (nextSt (exec (.messageArrival 0) s)).net = []) ∧
    (let s := came (chan 0 (hdrWord 1 7 0 8)) (.core 0) (.msg 5 1 1 7 0 0 [])
     hdrF (s.rd8 (poolKey 0 0x38000)) = true ∧ (nextSt (exec (.messageArrival 0) s)).net = s.net.map fun q => { q with parked := true }) ∧
    (let s := came (chan 0 0 fun ep => { ep with st := .connecting, request := some ⟨0, 6, 0, .builtin 9 0, 0, 3, 0⟩ }) (.core 0)
       (.msg 5 2 1 7 0 0 [])
     -- the first message of the channel comes before the result of its CONNECT, and waits
     (2 : BitVec 16) = (s.epAt 0 5).gen + 1 ∧
     (nextSt (exec (.messageArrival 0) s)).net = s.net.map fun q => { q with parked := true }) ∧
    (let s := came (chan 0 0 fun ep => { ep with st := .delegating }) (.core 0) (.msg 5 1 1 7 0 0 [])
     (s.epAt 0 5).boundrx = false ∧ ((nextSt (exec (.messageArrival 0) s)).epAt 0 5).held = [.msg 5 1 1 7 0 0 []]) ∧
    (let s := came (chan 0 0 fun ep => { ep with st := .lost }) (.core 0) (.msg 5 1 1 7 0 0 [])
     exec (.messageArrival 0) s = .next (s.takePacket 0)) ∧
    (let s := came (chan 0 0 fun ep => { ep with st := .peerClosed, lacnt := 4 }) (.core 0) (.credit 5 1 3)
     exec (.creditPacketArrival 0) s = .next (s.takePacket 0)) ∧
    (let s := came (chan 0 0 fun ep => { ep with st := .unbound }) (.core 0) (.loss 5 1 2)
     exec (.lossPacketArrival 0) s = .next (s.takePacket 0)) ∧
    (let s := came (chan 0 0 fun ep => { ep with st := .lost }) (.core 0) (.redirect 5 1 (locW (locWord 0 16 2) 4) (locW (locWord 0 8 6) 1))
     (nextSt (exec (.redirectArrival 0) s)).net.map (fun q => (q.dst, q.body)) = [(.core 8, .loss 6 1 1)]) ∧
    (let s := came (chan 0 0 fun ep => { ep with sseq := 9 }) (.core 0) (.redirect 5 1 (locW (locWord 0 16 2) 4) (locW (locWord 0 8 6) 1))
     (nextSt (exec (.redirectArrival 0) s)).net.map (fun q => (q.dst, q.body)) = [(.core 8, .redirectAck 6 1 9)]) ∧
    (let s := came (chan 0 0) (.core 0) (.bound 5 1 (locW (locWord 0 16 2) 4))
     exec (.boundArrival 0) s = .next (s.takePacket 0)) ∧
    (let s := came ((chan 0 0).mapCtx fun c => { c with life := .stopped }) (.core 0) (.msg 5 1 1 7 0 0 [])
     (s.ctxAt 0 (s.epAt 0 5).owner).life = .stopped ∧ (nextSt (exec (.messageArrival 0) s)).me.events = [0xC210000500000000]) ∧
    (let s := came (chan 0 0) (.core 0) (.msg 5 2 1 7 0 0 [])
     (2 : BitVec 16) ≠ (s.epAt 0 5).gen ∧ exec (.messageArrival 0) s = .next (s.takePacket 0)) ∧
    (let s := came (chan 0 0 fun ep => { ep with lacnt := 4 }) (.core 0) (.credit 5 1 3)
     (s.epAt 0 5).st ≠ .delegating ∧ ((nextSt (exec (.creditPacketArrival 0) s)).epAt 0 5).lacnt = 1) ∧
    (let s := came (chan 0 0) (.core 0) (.close 5 1)
     ((nextSt (exec (.closePacketArrival 0) s)).epAt 0 5).st = .peerClosed) ∧
    (let s := came (chan 0 0) (.core 0) (.loss 5 1 2)
     (s.ctxAt 0 (s.epAt 0 5).owner).pend.length < 4 ∧ ((nextSt (exec (.lossPacketArrival 0) s)).epAt 0 5).st = .lost ∧
     (nextSt (exec (.lossPacketArrival 0) s)).ctx.pend.map (fun f => (f.cause, f.detail)) = [(0x14, 5)]) ∧
    (let s := came (chan 0 0 fun ep => { ep with st := .delegating }) (.core 0) (.bound 5 1 (locW (locWord 0 16 2) 4))
     (s.epAt 0 5).st = .delegating ∧ (nextSt (exec (.boundArrival 0) s)).net ≠ s.net) ∧
    (let s := came (chan 0 0) (.core 0) (.redirect 5 1 (locW (locWord 0 16 2) 4) (locW (locWord 0 8 6) 1))
     ((nextSt (exec (.redirectArrival 0) s)).epAt 0 5).paddr = locWord 0 16 2 ∧
     ((nextSt (exec (.redirectArrival 0) s)).epAt 0 5).pgen = 4) ∧
    (let s := came (chan 0 0 fun ep => { ep with st := .delegating }) (.core 0) (.redirectAck 5 1 3)
     exec (.redirectAckArrival 0) s =
       .next (((s.takePacket 0).mapEpAt 0 5 fun ep => { ep with first := some 3 }).endForward 0 5)) := by
  (and_intros <;> first | decide +kernel | (show @Eq Out _ _; exact next_of (by decide +kernel)) | (show @Eq (Res _) _ _; exact ok_of (by decide +kernel)) | (show @Eq (Res _) _ _; exact trap_of (by decide +kernel)))

/-- Arrivals that wait for an engine that holds the slots they need; a delegated NOTE, which has no peer to redirect. -/
theorem wit_ChannelArrivals_held :
    (let s := came (engaged (chan 0 0) (poolKey 0 0x38000)) (.core 0) (.msg 5 1 1 7 0 0 [])
     s.slotHeld 0 5 0 0 = true ∧ (nextSt (exec (.messageArrival 0) s)).net = s.net.map fun q => { q with parked := true }) ∧
    (let s := came (engaged (chan 0 0) (poolKey 0 0x38000)) (.core 0) (.loss 5 1 2)
     s.slotsHeld 0 5 true = true ∧ (nextSt (exec (.lossPacketArrival 0) s)).net = s.net.map fun q => { q with parked := true }) ∧
    (let s := came (engaged (chan 0 0 fun ep => { ep with st := .delegating }) (poolKey 0 0x38000)) (.core 0) (.bound 5 1 (locW (locWord 0 16 2) 4))
     s.slotsHeld 0 5 false = true ∧ (nextSt (exec (.boundArrival 0) s)).net = s.net.map fun q => { q with parked := true }) ∧
    (let s := chan 0 0 fun ep => { ep with st := .delegating, proto := 10 }
     (s.epAt 0 5).held = [] ∧ s.unreceived 0 5 = [] ∧ (s.takeBound 0 5 4096).net = [] ∧ ((s.takeBound 0 5 4096).ep 5).holder = 4096) ∧
    (let s := (chan 0 0).mapEp 5 fun ep => { ep with owner := 2 }
     (s.ctxAt 0 2).life = .free ∧ (s.msgEvent 0 5 true) = s) ∧
    (let s := (chan 0 0).mapCtx fun c => { c with life := .stopped }
     (s.msgEvent 0 5 true).me.events = [0xC210000500000000]) := by
  (and_intros <;> first | decide +kernel | (show @Eq Out _ _; exact next_of (by decide +kernel)) | (show @Eq (Res _) _ _; exact ok_of (by decide +kernel)) | (show @Eq (Res _) _ _; exact trap_of (by decide +kernel)))

/-- Table 22.5: a request of the new holder before REDIRECT counts at the end of the DELEGATING endpoint, and its answer goes
to that endpoint. -/
theorem test_request_before_redirect :
    (let s : State := { chan 0 0 (fun ep => { ep with st := .delegating, boundrx := true, holder := locW (locWord 0 16 2) 4 }) with
       hwEnds := [⟨0, 0, 5, 1, 1, 0, 8, 8, 0, 0⟩] }
     (s.hwTakes 16 2 4).hwEnds.map (fun h => h.rseq) = [9] ∧ (s.hwTakes 16 2 5).hwEnds.map (fun h => h.rseq) = [8] ∧
     (s.hwReply 0 0 16 2 4 true 8 (.marker 0)).hwEnds.map (fun h => h.sseq) = [9] ∧
     (s.hwReply 0 0 16 2 4 true 8 (.marker 0)).net.map (fun q => (q.dst, q.body)) = [(.core 0, .reply 5 1 (some 8) (.marker 0))] ∧
     (s.hwReply 0 0 16 3 4 true 8 (.marker 0)).net = []) := by
  (and_intros <;> first | decide +kernel | (show @Eq Out _ _; exact next_of (by decide +kernel)) | (show @Eq (Res _) _ _; exact ok_of (by decide +kernel)) | (show @Eq (Res _) _ _; exact trap_of (by decide +kernel)))

/-- Binding operands in x0, x1, x2 with endpoint 5 not bound. -/
def binder (x0 x1 : W) (f : Endpoint → Endpoint := id) (l : List (Nat × W) := []) : State :=
  tst 1 l (fun c => { c with x := (c.x.set 0 x0).set 1 x1 }) fun x => { x with eps := [(5, f { owner := 1 })] }

/-- A buffer word: base 0x38000, slots of 2 units, depth code 3 (R222). -/
def buf2 : W := 0x0000000020C38000

/-- A request from endpoint 6 of core 8 to endpoint 5 of core 0 under STREAM. -/
def request1 (role : Nat) : ConnReq := ⟨locW (locWord 0 8 6) 1, 5, 0, .builtin 9 role, 0, 3, 0⟩

theorem wit_SessionsOpen :
    (let s := binder 9 buf2 id [(9, locW (locWord 0 8 6) 1)]
     s.operands [9] [] [] = .ok [locW (locWord 0 8 6) 1] ∧ s.ctx.req = none ∧ (s.ep 5).owner = s.cur.ctx ∧ (s.ep 5).st = .unbound ∧
     (9 : W).toNat ≤ 10 ∧ bufferOk 9 buf2 = true ∧ s.me.bufferFits (s.me.binding 9 buf2) = true ∧
     s.peerOk (locW (locWord 0 8 6) 1) = true ∧ recoveryOk (s.ctx.rx 2) = true ∧ peerFits 9 (locW (locWord 0 8 6) 1) = true ∧
     ((nextSt (exec (.connect 9 5) s)).ep 5).st = .connecting ∧ (nextSt (exec (.connect 9 5) s)).ctx.req = some ⟨2, none⟩ ∧
     (s.ep 5).asked = none ∧ ((nextSt (exec (.accept 5) s)).ep 5).accept = true) ∧
    (let s := (binder 9 buf2).mapCtx fun c => { c with req := some ⟨2, some (.value 0 0)⟩ }
     exec (.connect 9 5) s = .next (s.done 4 [9]) ∧ exec (.accept 5) s = .next (s.done 4 [])) ∧
    (let s := (binder 9 buf2).mapCtx fun c => { c with req := some ⟨2, some .mismatch⟩ }
     exec (.connect 9 5) s = .next ((s.unload 0 1).trap { cause := 0x10, detail := 5 })) ∧
    (let s := binder 10 buf2
     s.operands [] [] [] = .ok [] ∧ bufferOk 10 buf2 = true ∧ s.me.bufferFits (s.me.binding 10 buf2) = true ∧
     ((nextSt (exec (.accept 5) s)).ep 5).st = .open ∧ ((nextSt (exec (.accept 5) s)).ep 5).gen = 1) ∧
    (let s := came (binder 9 buf2) (.core 0) (.connReq (request1 0))
     (s.arrived 0).map (fun q => (q.dst, q.body)) = some (.core 0, .connReq (request1 0)) ∧ (request1 0).pgen = (s.epAt 0 5).gen ∧
     ((nextSt (exec (.connectionRequestArrival 0) s)).epAt 0 5).asked = some (request1 0)) ∧
    (let s := came (binder 9 buf2 fun ep => { ep with st := .connecting, accept := true, proto := 9, role := 1 }) (.core 0)
       (.connReq (request1 0))
     (s.epAt 0 5).st = .connecting ∧ dual (request1 0).proto ((s.core 0).protoOf (s.epAt 0 5)) = true ∧
     dual (request1 1).proto ((s.core 0).protoOf (s.epAt 0 5)) = false ∧
     ((nextSt (exec (.connectionRequestArrival 0) s)).epAt 0 5).st = .open ∧
     ((nextSt (exec (.connectionRequestArrival 0) s)).epAt 0 5).paddr = locWord 0 8 6) ∧
    (let s := came (binder 9 buf2 fun ep => { ep with st := .connecting, request := some (request1 0) }) (.core 0)
       (.connRes 5 true (locW (locWord 0 8 6) 1) 3)
     (s.epAt 0 5).request = some (request1 0) ∧ ((nextSt (exec (.connectionResultArrival 0) s)).epAt 0 5).st = .open ∧
     (nextSt (exec (.connectionResultArrival 0) s)).ctx.req = some ⟨2, some (.value 0 0)⟩) ∧
    (let s := came (binder 9 buf2 fun ep => { ep with asked := some (request1 0) }) (.core 0)
       (.withdraw 5 0 (locW (locWord 0 8 6) 1))
     (request1 0).src = locW (locWord 0 8 6) 1 ∧ ((nextSt (exec (.connectWithdrawal 0) s)).epAt 0 5).asked = none ∧
     (nextSt (exec (.connectWithdrawal 0) s)).net.map (fun q => (q.dst, q.body)) = [(.core 8, .withdrawn 6)]) := by
  (and_intros <;> first | decide +kernel | (show @Eq Out _ _; exact next_of (by decide +kernel)) | (show @Eq (Res _) _ _; exact ok_of (by decide +kernel)) | (show @Eq (Res _) _ _; exact trap_of (by decide +kernel)))

/-- The table entry that holds `image1`, and the request of a CONNECT that names it by its address. -/
def userBinder (x0 : W) (req : Option Req) (f : Endpoint → Endpoint := id) : State :=
  (((binder x0 0x38000 f [(9, locW (locWord 0 8 6) 1)]).mapMe fun x => { x with protos := [(16, ⟨image1, 3, 4, 9, false⟩)] }).mapCtx fun c =>
    { c with req := req })

theorem wit_SessionsOpen_userImages :
    (let s := userBinder 0x38000 (some ⟨1, some (.loaded 16 none)⟩)
     bufferOk 0x38000 0x38000 = true ∧ s.me.bufferFits (s.me.binding 16 0x38000) = true ∧ peerFits 16 (locW (locWord 0 8 6) 1) = true ∧
     ((nextSt (exec (.connect 9 5) s)).ep 5).st = .connecting ∧ ((nextSt (exec (.connect 9 5) s)).ep 5).proto = 16 ∧
     ((nextSt (exec (.accept 5) s)).ep 5).accept = true) ∧
    (let s := userBinder 0x38000 none
     (nextSt (exec (.connect 9 5) s)).ctx.req = some ⟨1, none⟩ ∧ (nextSt (exec (.accept 5) s)).ctx.req = some ⟨1, none⟩) ∧
    (let s := userBinder 0x38000 (some ⟨1, some (.loaded 16 none)⟩) fun ep => { ep with st := .open }
     exec (.connect 9 5) s = .next ((s.unload 0 1).trap { cause := 0x06, detail := 5 + 64 * 11 })) ∧
    (let s := binder 9 buf2 (fun ep => { ep with st := .lost }) [(9, locW (locWord 0 8 6) 1)]
     exec (.connect 9 5) s = .next ((s.unload 0 1).trap { cause := 0x14, detail := 5 })) ∧
    (let s := binder 0 buf2 id [(9, locW (locWord 0 8 6) 1)]
     peerFits 0 (locW (locWord 0 8 6) 1) = false ∧
     exec (.connect 9 5) s = .next ((s.unload 0 1).trap { cause := 0x06, detail := 5 + 64 * 9 }) ∧
     exec (.accept 5) s = .next ((s.unload 0 1).trap { cause := 0x06, detail := 5 + 64 * 9 })) ∧
    (let s := binder 9 (buf2 + 0x300000) id [(9, locW (locWord 0 8 6) 1)]
     bufferOk 9 (buf2 + 0x300000) = true ∧ s.me.bufferFits (s.me.binding 9 (buf2 + 0x300000)) = false ∧
     exec (.connect 9 5) s = .next ((s.unload 0 1).trap { cause := 0x06, detail := 5 + 64 * 10 })) := by
  (and_intros <;> first | decide +kernel | (show @Eq Out _ _; exact next_of (by decide +kernel)) | (show @Eq (Res _) _ _; exact ok_of (by decide +kernel)) | (show @Eq (Res _) _ _; exact trap_of (by decide +kernel)))

/-- The request of a CONNECT under `image1`, from the job domain given. -/
def request2 (dom : Nat) : ConnReq := ⟨locW (locWord 0 8 6) 1, 5, 0, .image image1, dom, 3, 0⟩

/-- Context 2 of core 0 waits in a CONNECT of endpoint 5 to endpoint 6 of core 8, where the request stands or does not. -/
def connecting (there : Bool) : State :=
  let r : ConnReq := ⟨locW (locWord 0 0 5) 0, 6, 0, .builtin 9 0, 0, 3, 0⟩
  let s := supervised [(5, 2)] .blocked fun c => { c with req := some ⟨2, none⟩, wait := some { kind := 1, ep := 5 } }
  (s.mapMe fun x => { x with eps := [(5, { owner := 2, st := .connecting, proto := 9, paddr := locWord 0 8 6, request := some r })] }).setCore 8
    { tcore with eps := [(6, { owner := 1, asked := if there then some r else none })] }

theorem wit_SessionsOpen_withdrawals :
    (let s := connecting true
     (nextSt (exec (.stop 9 5) s)).ctx.g[9] = 10 ∧ ((nextSt (exec (.stop 9 5) s)).ctxAt 0 2).heldStop = true ∧
     (nextSt (exec (.stop 9 5) s)).net.map (fun q => (q.dst, q.body)) = [(.core 8, .withdraw 6 0 (locW (locWord 0 0 5) 0))]) ∧
    (let s := connecting false
     (nextSt (exec (.stop 9 5) s)).ctx.g[9] = 2 ∧ ((nextSt (exec (.stop 9 5) s)).ctxAt 0 2).life = .stopped ∧
     ((nextSt (exec (.stop 9 5) s)).epAt 0 5).st = .unbound ∧ (nextSt (exec (.stop 9 5) s)).net = []) ∧
    (let s := came (((connecting true).mapEpAt 0 5 fun ep => { ep with withdrawn := true }).mapCtxAt 0 2 fun c => { c with heldStop := true })
       (.core 0) (.withdrawn 5)
     ((nextSt (exec (.connectWithdrawal 0) s)).epAt 0 5).st = .unbound ∧
     ((nextSt (exec (.connectWithdrawal 0) s)).ctxAt 0 2).life = .stopped) ∧
    (let s := came ((userBinder 0x38000 (some ⟨2, none⟩) fun ep => { ep with st := .connecting, accept := true, proto := 16 }).mapMe fun x =>
       { x with jdom := 1 }) (.core 0) (.connReq (request2 2))
     -- an image of another job domain is a mismatch
     (s.core 0).jdom = 1 ∧ ((nextSt (exec (.connectionRequestArrival 0) s)).epAt 0 5).st = .unbound ∧
     (nextSt (exec (.connectionRequestArrival 0) s)).ctx.req = some ⟨2, some .mismatch⟩ ∧
     (nextSt (exec (.connectionRequestArrival 0) s)).net.map (fun q => q.dst) = [.core 8]) ∧
    (let s := came (binder 9 buf2 fun ep => { ep with st := .connecting, request := some (request1 0) }) (.core 0) (.connRes 5 false 0 0)
     ((nextSt (exec (.connectionResultArrival 0) s)).epAt 0 5).st = .unbound ∧
     (nextSt (exec (.connectionResultArrival 0) s)).ctx.req = some ⟨2, some .mismatch⟩) ∧
    (let s := came (binder 9 buf2) (.core 0) (.connRes 5 true (locW (locWord 0 8 6) 1) 3)
     exec (.connectionResultArrival 0) s = .next (s.takePacket 0)) ∧
    (let s := came (binder 9 buf2) (.ctrl 3) (.connReq (request1 0))
     (nextSt (exec (.connectionRequestArrival 0) s)).hwEnds.map (fun h => (h.core, h.ep, h.cgen, h.gen)) = [(8, 6, 1, 1)] ∧
     (nextSt (exec (.connectionRequestArrival 0) s)).net.map (fun q => (q.dst, q.body)) = [(.core 8, .connRes 6 true 1 0)]) := by
  (and_intros <;> first | decide +kernel | (show @Eq Out _ _; exact next_of (by decide +kernel)) | (show @Eq (Res _) _ _; exact ok_of (by decide +kernel)) | (show @Eq (Res _) _ _; exact trap_of (by decide +kernel)))

/-- A STOP of a context in CONNECT: with the result on its way, with the request in flight, with a peer that no module has; and
a result that waits for an engine at the endpoint's slots. -/
theorem wit_SessionsOpen_stops :
    (let s := { connecting true with net := [packet (.core 0) (.connRes 5 true (locW (locWord 0 8 6) 1) 3) .arrived] }
     (nextSt (exec (.stop 9 5) s)).ctx.g[9] = 10 ∧ ((nextSt (exec (.stop 9 5) s)).ctxAt 0 2).heldStop = true ∧
     (nextSt (exec (.stop 9 5) s)).net = s.net ∧ ((nextSt (exec (.stop 9 5) s)).ep 5).withdrawn = false) ∧
    (let s := { connecting false with net := [packet (.core 8) (.connReq ⟨locW (locWord 0 0 5) 0, 6, 0, .builtin 9 0, 0, 3, 0⟩) (.queued 0 0)] }
     (nextSt (exec (.stop 9 5) s)).ctx.g[9] = 2 ∧ (nextSt (exec (.stop 9 5) s)).net = []) ∧
    (let s := (connecting true).mapEp 5 fun ep => { ep with paddr := locWord 7 8 6 }
     s.isModule 7 = false ∧ (nextSt (exec (.stop 9 5) s)).ctx.g[9] = 2 ∧ ((nextSt (exec (.stop 9 5) s)).ep 5).st = .unbound) ∧
    (let s := came (engaged (binder 9 buf2 fun ep => { (ep.bindTo ((tst 1 []).me.binding 9 buf2) .connecting) with request := some (request1 0) })
       (poolKey 0 0x38000)) (.core 0) (.connRes 5 true (locW (locWord 0 8 6) 1) 3)
     s.slotsHeld 0 5 true = true ∧ exec (.connectionResultArrival 0) s = .next (s.park 0)) ∧
    (let s := engaged (binder 10 buf2) (poolKey 0 0x38000)
     ((s.mapEp 5 fun ep => ep.bindTo (s.me.binding 10 buf2) .connecting).slotsHeld 0 5 true) = true ∧
     exec (.accept 5) s = .next (s.block { kind := 5 })) := by
  (and_intros <;> first | decide +kernel | (show @Eq Out _ _; exact next_of (by decide +kernel)) | (show @Eq (Res _) _ _; exact ok_of (by decide +kernel)) | (show @Eq (Res _) _ _; exact trap_of (by decide +kernel)))

/-- An image of one state whose only transition closes, in the scratchpad at 0x38000. -/
def withImage : State :=
  ((binder 0x38000 buf2).wr (poolKey 0 0x38000) (imageOf [6])).mapCtx fun c => { c with req := some ⟨1, none⟩ }

theorem wit_protocolImageLoad :
    (s : State) → s = withImage →
    (s.ctxAt 0 1).req = some ⟨1, none⟩ ∧ (s.ctxAt 0 1).rx 0 = 0x38000 ∧
    (match s.loadImage 0 0x38000 with | .ok (n, x) _ => n == 16 && x.protos.length == 1 | _ => false) = true ∧
    (match s.loadImage 0 0x38001 with | .bad t _ => t.cause == 0x06 && t.detail == 64 | _ => false) = true ∧
    (nextSt (exec (.protocolImageLoad 0 1) s)).ctx.req = some ⟨1, some (.loaded 16 (some none))⟩ := by
  rintro s rfl
  (and_intros <;> first | decide +kernel | (show @Eq Out _ _; exact next_of (by decide +kernel)) | (show @Eq (Res _) _ _; exact ok_of (by decide +kernel)) | (show @Eq (Res _) _ _; exact trap_of (by decide +kernel)))

theorem wit_SessionsEndAndMove :
    (let s := (chan 10 0 id [(9, 6)]).mapMe fun x => { x with eps := x.eps ++ [(6, { st := .open, owner := 1, proto := 9 })] }
     s.operands [9] [] [] = .ok [(6 : EpId).zeroExtend 64] ∧ s.ctx.pend = [] ∧ (s.ep 5).owner = s.cur.ctx ∧
     (s.ep 6).owner = s.cur.ctx ∧ (s.ep 5).st = .open ∧ s.carrierMove 5 4 7 = .ok 1 ∧ (s.ep 6).st = .open ∧ (s.ep 6).bindAs = 0 ∧
     (s.ep 6).counted = false ∧ (s.ep 5).full = false ∧ ((nextSt (exec (.delegate 9 7 5) s)).ep 6).st = .delegating ∧
     ((nextSt (exec (.delegate 9 7 5) s)).ep 6).carrier = some (5, 1) ∧ ((nextSt (exec (.delegate 9 7 5) s)).ep 5).state = 1) ∧
    (let s := (((chan 11 (hdrWord 5 7 0 48) id [(9, 6)]).wr8 (poolKey 0 0x38018) (locW (locWord 0 24 2) 4)).wr8
         (poolKey 0 0x38038) 9).mapMe (fun x => { x with eps := x.eps ++ [(6, { owner := 1 })] }) |>.mapCtx fun c =>
           { c with x := (c.x.set 0 9).set 1 (buf2 + 0x1000) }
     (s.ep 6).st = .unbound ∧ s.carrierMove 5 5 7 = .ok 1 ∧ hdrCls (s.slotHeader 0 5 0) = 5 ∧
     bufferOk 9 (buf2 + 0x1000) = true ∧ s.me.bufferFits (s.me.binding 9 (buf2 + 0x1000)) = true ∧
     s.me.fprint 9 = s.rd8 ((s.ep 5).slotKey 0 (s.ep 5).head.toNat + 56) ∧
     ((nextSt (exec (.delegateRx 9 7 5) s)).ep 6).st = .open ∧ ((nextSt (exec (.delegateRx 9 7 5) s)).ep 6).gen = 1 ∧
     ((nextSt (exec (.delegateRx 9 7 5) s)).ep 6).sseq = 9 ∧
     ((nextSt (exec (.delegateRx 9 7 5) s)).ep 6).paddr = locWord 0 24 2) ∧
    (let s := chan 0 0 fun ep => { ep with st := .lost }
     (s.ep 5).st = .lost ∧ ((nextSt (exec (.close 5) s)).ep 5).st = .unbound) ∧
    (let s := chan 12 0
     (s.ep 5).isUser = true ∧ (s.trans 5).any (fun r => r.action == 6) = true ∧
     (nextSt (exec (.close 5) s)).net.map (fun q => q.body) = [.close 6 1]) ∧
    (let s := chan 0 0 fun ep => { ep with owner := 2 }
     (s.ep 5).owner ≠ s.cur.ctx ∧ exec (.close 5) s = .next (s.trap { cause := 0x05, detail := 5 })) ∧
    (let s := chan 0 0 fun ep => { ep with proto := 9 }
     (s.ep 5).role = 0 ∧ (allEps.all fun f => f == 5 || (s.ep f).bindAs != 1) = true ∧
     ((nextSt (exec (.sbindG30 5) s)).ep 5).bindAs = 1 ∧ ((nextSt (exec (.sbindOff 5) s)).ep 5).bindAs = 0 ∧
     exec (.probe 9 3 5) s = .next (s.doneG 4 [] 9 ((s.ep 5).word 3))) ∧
    (let s := chan 0 0 (fun ep => { ep with proto := 9, role := 1 }) [(9, 0x20)]
     ((nextSt (exec (.sbindG31 5) s)).ep 5).bindAs = 2 ∧ s.operands [9] [9] [] = .ok [0x20] ∧
     exec (.waite 9) s = .next (s.block { kind := 1 })) ∧
    (let s := (chan 10 0 (fun ep => { ep with lacnt := 4 }) [(9, 6)]).mapMe fun x => { x with eps := x.eps ++ [(6, { st := .open, owner := 1, proto := 9 })] }
     (s.ep 5).full = true ∧ exec (.delegate 9 7 5) s = .next (s.block { kind := 2, ep := 5 })) ∧
    (let s := ((chan 11 0 id [(9, 6)]).mapMe fun x => { x with eps := x.eps ++ [(6, { owner := 1 })] }).mapCtx fun c =>
       { c with x := (c.x.set 0 9).set 1 (buf2 + 0x1000) }
     hdrF (s.slotHeader 0 5 0) = false ∧ exec (.delegateRx 9 7 5) s = .next (s.block { kind := 1, ep := 5 })) ∧
    (let s := chan 0 0
     (s.trans 5).any (fun r => r.action == 6) = false ∧ exec (.close 5) s = .next (s.trap { cause := 0x06, detail := 5 })) ∧
    (let s := chan 0 0 fun ep => { ep with st := .unbound }
     exec (.close 5) s = .next (s.trap { cause := 0x06, detail := 5 + 64 * 11 })) ∧
    (let s := chan 0 (hdrWord 0 7 0 0) (fun ep => { ep with st := .delegating }) [(9, 0x20)]
     -- an unreceived message makes a DELEGATING endpoint ready
     exec (.close 5) s = .next (s.trap { cause := 0x06, detail := 5 + 64 * 12 }) ∧ exec (.waite 9) s = .next (s.doneG 4 [9] 9 5)) ∧
    (let s := chan 0 0 fun ep => { ep with proto := 1, state := 2 }
     (s.ep 5).counted = true ∧ exec (.close 5) s = .next (s.block { kind := 5, ep := 5 })) ∧
    (let s := (chan 0 0 fun ep => { ep with proto := 9 }).mapMe fun x => { x with eps := x.eps ++ [(6, { st := .open, owner := 1, proto := 9, bindAs := 1 })] }
     exec (.sbindG30 5) s = .next (s.trap { cause := 0x02 }) ∧ exec (.sbindG31 5) s = .next (s.trap { cause := 0x06, detail := 5 + 64 * 9 })) ∧
    (let s := chan 0 (hdrWord 1 7 0 8) fun ep => { ep with owner := 2 }
     exec (.probe 9 0 5) s = .next (s.trap { cause := 0x05, detail := 5 }) ∧
     exec (.probe 9 4 5) { s with cur := ⟨0, 0, 0⟩ } = .next (State.doneG { s with cur := ⟨0, 0, 0⟩ } 4 [] 9 (hdrWord 1 7 0 8))) ∧
    (let s := chan 5 (hdrWord 0 7 0 0) id [(9, 0x20), (8, 0x40)]
     exec (.waite 9) s = .next (s.doneG 4 [9] 9 5) ∧ exec (.waite 8) s = .next (s.trap { cause := 0x02 })) := by
  (and_intros <;> first | decide +kernel | (show @Eq Out _ _; exact next_of (by decide +kernel)) | (show @Eq (Res _) _ _; exact ok_of (by decide +kernel)) | (show @Eq (Res _) _ _; exact trap_of (by decide +kernel)))

/-- Waits for an engine at the slot; DELEGATE.RX with an illegal buffer word. -/
theorem wit_SessionsEndAndMove_held :
    (let s := ((engaged (chan 11 (hdrWord 5 7 0 48) id [(9, 6)]) (poolKey 0 0x38000)).mapMe fun x =>
         { x with eps := x.eps ++ [(6, { owner := 1 })] }).mapCtx fun c => { c with x := (c.x.set 0 9).set 1 (buf2 + 0x1000) }
     s.heldAt 0 (poolKey 0 0x38000) 16 true = true ∧ exec (.delegateRx 9 7 5) s = .next (s.block { kind := 5 }) ∧
     exec (.probe 8 4 5) s = .next (s.block { kind := 5 }) ∧
     (let u := s.mapCtx fun c => { c with g := c.g.set 9 0x20 }
      exec (.waite 9) u = .next (u.block { kind := 5 }))) ∧
    (let s := ((chan 11 0 id [(9, 6)]).mapMe fun x => { x with eps := x.eps ++ [(6, { owner := 1 })] }).mapCtx fun c =>
       { c with x := (c.x.set 0 9).set 1 0 }
     bufferOk (s.ctx.rx 0) (s.ctx.rx 1) = false ∧ exec (.delegateRx 9 7 5) s = .next (s.trap { cause := 0x02 })) := by
  (and_intros <;> first | decide +kernel | (show @Eq Out _ _; exact next_of (by decide +kernel)) | (show @Eq (Res _) _ _; exact ok_of (by decide +kernel)) | (show @Eq (Res _) _ _; exact trap_of (by decide +kernel)))

/-- Endpoint 5 of context 1 under built-in n, its peer the hardware unit given. -/
def unitChan (n : BitVec 5) (unit : BitVec 36) (slotu : BitVec 9) (l : List (Nat × W)) (f : Endpoint → Endpoint := id) : State :=
  tst 1 l (fun c => { c with x := c.x.set 5 0x39000 }) fun x => { x with
    eps := [(5, f { st := .open, owner := 1, proto := n, phw := true, paddr := unit, gen := 1, slotu := slotu, pdepth := 3,
                    base := 0x38000, depth := 3 })] }

def org1 : Origin := ⟨0, 1, 0, 0x30100, 0⟩

theorem wit_GlobalAndWindowAccesses :
    (let s := unitChan 0 0x1000 9 [(6, 0x60040), (7, 0x60041), (9, 0x31400), (10, 0x60080)]
     s.ctx.pend.find? (fun f => f.ep == some 5) = none ∧ (s.ep 5).owner = s.cur.ctx ∧ (s.ep 5).st = .open ∧
     (s.ep 5).proto.toNat = 0 ∧ 128 + 16 ≤ (s.ep 5).slotu.toNat * 16 ∧ (s.ep 5).state.toNat < (s.ep 5).pdepth.toNat + 1 ∧
     s.operands [6] [9] [] = .ok [0x60040] ∧ s.ctx.req = none ∧ (okVal (s.xlate 0x60040 cXLATE)).map (fun e =>
       decide (e.home 0x60040 = .backing 0x60040 0) && ({ r := true } : Need).granted e.pte) = some true ∧
     s.me.storeq = [] ∧ (0x60040 : W).toNat % 8 = 0 ∧ (s.ctx.count .gload) < 65535 ∧
     (nextSt (exec (.gld 9 6 1 5 3) s)).ctx.req = some ⟨1000, none⟩ ∧ (nextSt (exec (.gld 9 6 1 5 3) s)).ctx.life = .blocked ∧
     exec (.gld 9 7 0 5 3) s = .next (s.trap { cause := 0x08, addr := 0x60041 }) ∧
     s.operands [10, 9] [] [] = .ok [0x60080, 0x31400] ∧ s.access 0x31400 128 128 { w := true } = .ok (poolKey 0 0x31400) ∧
     (0x60080 : W).toNat % 128 = 0 ∧ (nextSt (exec (.gvld 9 10 5) s)).ctx.count .gload = 1) ∧
    (let s := unitChan 0 0x1000 9 [] fun ep => { ep with owner := 2 }
     (s.ep 5).owner ≠ s.cur.ctx ∧ exec (.gld 9 6 1 5 3) s = .next (s.trap { cause := 0x05, detail := 5 })) ∧
    (let s := (unitChan 0 0x1000 9 [(6, 0x60040)]).mapCtx fun c => { c with req := some ⟨1000, some (.value 0x80 0)⟩ }
     exec (.gld 9 6 0 5 0) s = .next (s.doneG 4 [6] 9 0xFFFFFFFFFFFFFF80) ∧
     exec (.wrd 9 6 1 5 0) s = .next (s.doneG 4 [6] 9 0x80) ∧ exec (.wamo 9 6 5 0) s = .next (s.doneG 4 [6, 9] 9 0x80)) ∧
    (let s := (unitChan 0 0x1000 9 [(6, 0x60040)]).mapCtx fun c => { c with req := some ⟨1000, some (.failed fault1)⟩ }
     exec (.gld 9 6 0 5 0) s = .next (s.trap fault1.asTrap)) ∧
    (let s := unitChan 1 0x1000 9 [(6, 0x60040), (9, 0x1234), (8, 0x31400), (10, 0x60080)]
     (s.ep 5).proto.toNat = 1 ∧ s.operands [6, 9] [] [] = .ok [0x60040, 0x1234] ∧ s.ctx.count .gstore < 65535 ∧ s.weak = [] ∧
     (nextSt (exec (.gst 9 6 5 1) s)).ctx.count .gstore = 1 ∧ s.access 0x31400 128 128 { r := true } = .ok (poolKey 0 0x31400) ∧
     (nextSt (exec (.gvst 8 10 5) s)).ctx.count .gstore = 1) ∧
    (let s := unitChan 2 0x2008 9 [(6, 0x3FFFF8), (9, 0x1234), (8, 0x3FFF80), (7, 127)]
     (s.ep 5).proto.toNat = 2 ∧ (0x3FFFF8 : W).toNat < 2 ^ 22 ∧ (0x3FFFF8 : W).toNat % 8 = 0 ∧
     (nextSt (exec (.wrd 9 6 0 5 3) s)).ctx.life = .blocked ∧ (nextSt (exec (.wwr 9 6 5 3) s)).ctx.count .gstore = 1 ∧
     s.operands [6, 9] [9] [] = .ok [0x3FFFF8, 0x1234] ∧ (nextSt (exec (.wamo 9 6 5 0) s)).ctx.life = .blocked ∧
     s.operands [8, 7] [] [9] = .ok [0x3FFF80, 127]) ∧
    (let s := (unitChan 2 0x2008 9 [(8, 0x3FFF80), (7, 127)]).mapCtx fun c => { c with x := c.x.set 5 (0x2FFFE8 + 2 ^ 22) }
     let x5 := s.ctx.rx 5
     x5.extractLsb' 28 36 = 0 ∧ (127 : W).toNat < 64 * ((x5.extractLsb' 22 6).toNat + 1) ∧ (x5.extractLsb' 0 22).toNat % 8 = 0 ∧
     (x5.extractLsb' 0 22).toNat + 8 * 2 + 7 ≤ 0x2FFFFF ∧ (nextSt (exec (.wpm 9 8 7 5) s)).ctx.count .gstore = 1) := by
  (and_intros <;> first | decide +kernel | (show @Eq Out _ _; exact next_of (by decide +kernel)) | (show @Eq (Res _) _ _; exact ok_of (by decide +kernel)) | (show @Eq (Res _) _ _; exact trap_of (by decide +kernel)))

/-- Core 0 with window 0 open to its module for every access, over the offsets 0x31000 to 0x31FFF, and a hardware end. -/
def windowed : State :=
  { (tst 1 [] id fun x => { x with win := x.win.set 0 (mkW [(15, 60), (3, 57), (0x31FFF, 22), (0x31000, 0)]) }).setCore 8
      { tcore with eps := [(5, { st := .open, owner := 1, gen := 1 })] } with
    hwEnds := [⟨0x2000, 8, 5, 1, 1, 2, 0, 0, 0, 0⟩], ctrlKeys := [(1 * 128, [1])] }

def winReq (k : WinKind) (off : Nat) : WinReq := ⟨⟨8, 1, 0, 0, 0⟩, 1000, 5, 1, 8, k, off, 8, [7, 0, 0, 0, 0, 0, 0, 0]⟩
def wpm1 : WpmReq := ⟨⟨8, 1, 0, 0, 0⟩, 5, 1, 8, 0x31000, List.replicate 128 1, 3, 0x31100, 1⟩
def memReq (w : Bool) : MemReq := ⟨⟨8, 1, 0, 0, 0⟩, 1000, 5, 1, 1, w, 0x400, 0x60400, 8, 0, [7, 0, 0, 0, 0, 0, 0, 0], 0, []⟩

theorem wit_ControllersAndWindowsServe :
    (let s := came windowed (.ctrl 1) (.mem (memReq false))
     (s.arrived 0).map (fun q => (q.dst, q.body)) = some (.ctrl 1, .mem (memReq false)) ∧ servingCtrl 0x400 = 1 ∧
     (s.ctrlRead 0 0x400 8).map (fun r => r.1) = some [0, 0, 0, 0, 0, 0, 0, 0] ∧
     (nextSt (exec (.memrdRequest 0) s)).net.length = 1) ∧
    (let s := { came windowed (.ctrl 1) (.mem (memReq false)) with ctrlKeys := [] }
     (s.ctrlRead 0 0x400 8).isNone = true ∧ (nextSt (exec (.memrdRequest 0) s)).net.length = 1) ∧
    (let s := came windowed (.ctrl 1) (.mem (memReq true))
     (s.ctrlWrite 0 0x400 [7]).isSome = true ∧ (nextSt (exec (.memwrRequest 0) s)).mem = [(0x400, 7)] ∧
     ((nextSt (exec (.memwrRequest 0) s)).unitKeys = [(16, [1])])) ∧
    (let s := { came windowed (.ctrl 1) (.mem (memReq true)) with hwEnds := [] }
     (s.takePacket 0).hwFind 8 5 1 = none ∧ exec (.memwrRequest 0) s = .next (s.takePacket 0)) ∧
    (let s := (came windowed (.ctrl 1) (.mem (memReq true))).mapEpAt 8 5 fun ep => { ep with st := .lost }
     ((s.takePacket 0).hwFind 8 5 1).isSome = true ∧ (s.epAt 8 5).st ≠ .unbound) ∧
    (let s := (came windowed (.ctrl 1) (.mem (memReq true))).mapEpAt 8 5 fun ep => { ep with st := .unbound }
     -- a request of an endpoint that is gone writes no byte
     (nextSt (exec (.memwrRequest 0) s)).mem = []) ∧
    (let s := came windowed (.ctrl 1) (.mem { memReq false with fwd := [(0, 9, ⟨8, 1, 0, 0, 0⟩), (2, 7, ⟨8, 1, 0, 0, 0⟩)] })
     -- bytes that the store queue forwards lie over those of the home
     (nextSt (exec (.memrdRequest 0) s)).net.map (fun q => q.body) =
       [.reply 5 1 (some 0) (.memReply { memReq false with fwd := [(0, 9, ⟨8, 1, 0, 0, 0⟩), (2, 7, ⟨8, 1, 0, 0, 0⟩)] } .ok [9, 0, 7, 0, 0, 0, 0, 0])]) ∧
    (let s := came windowed (.ctrl 2) (.mem (memReq true))
     servingCtrl 0x400 ≠ 2 ∧ (nextSt (exec (.requestForward 0) s)).net.map (fun q => q.dst) = [.ctrl 1]) ∧
    (let s := came windowed (.port 0) (.win (winReq .read 0x31000))
     s.granted 0 62 8 0x31000 8 = true ∧ s.held 0 0x31000 8 false = false ∧ s.badIn (poolKey 0 0x31000) 8 = none ∧ s.weak = [] ∧
     (nextSt (exec (.windowAccessArrival 0) s)).net.map (fun q => (q.dst, q.body)) =
       [(.core 8, .reply 5 1 (some 0) (.winReply (winReq .read 0x31000) .ok 0 0))]) ∧
    (let s := came windowed (.port 0) (.win (winReq .read 0x31FF9))
     s.granted 0 62 8 0x31FF8 8 = true ∧ s.granted 0 62 8 0x31FF9 8 = false ∧
     ((nextSt (exec (.windowAccessArrival 0) s)).core 0).nackcnt = 1) ∧
    (let s := came windowed (.port 0) (.win (winReq .write 0x31000))
     (nextSt (exec (.windowAccessArrival 0) s)).rd8 (poolKey 0 0x31000) = 7) ∧
    (let s := came windowed (.port 0) (.win (winReq (.amo 7 0) 0x31000))
     s.granted 0 60 8 0x31000 8 = true ∧ (nextSt (exec (.windowAccessArrival 0) s)).rd8 (poolKey 0 0x31000) = 7) ∧
    (let s := came windowed (.port 0) (.wpm wpm1)
     s.granted 0 61 8 0x31000 128 = true ∧ s.granted 0 61 8 0x31100 16 = true ∧ s.held 0 0x31000 128 true = false ∧
     s.held 0 0x31100 16 true = false ∧ s.bad = [] ∧ (nextSt (exec (.wpmArrival 0) s)).rd8 (poolKey 0 0x31100) = 1 ∧
     (nextSt (exec (.wpmArrival 0) s)).rd8 (poolKey 0 0x31108) = 8) ∧
    (let s := came windowed (.port 0) (.wpm { wpm1 with rcd := 0x31FF8 })
     s.granted 0 61 8 0x31FF8 16 = false ∧ ((nextSt (exec (.wpmArrival 0) s)).core 0).nackcnt = 1) ∧
    (let s := (came windowed (.port 0) (.wpm wpm1)).wr8 (poolKey 0 0x31108) 8
     (nextSt (exec (.wpmArrival 0) s)).rd8 (poolKey 0 0x31100) = 0) := by
  (and_intros <;> first | decide +kernel | (show @Eq Out _ _; exact next_of (by decide +kernel)) | (show @Eq (Res _) _ _; exact ok_of (by decide +kernel)) | (show @Eq (Res _) _ _; exact trap_of (by decide +kernel)))

/-- A read waits for an earlier write of its context; a failing location; a write of bytes under no key; what a load of a store
that is performed no longer takes from the queue. -/
theorem wit_ControllersAndWindowsServe_order :
    (let r := winReq .read 0x31000
     let w := { winReq .write 0x31004 with org := ⟨8, 1, 0, 0, 0⟩ }
     let s0 := came windowed (.port 0) (.win { r with org := ⟨8, 1, 1, 0, 0⟩ })
     let s := { s0 with net := s0.net ++ [packet (.port 0) (.win w) (.queued 1 1)] }
     s.ownWrites (.port 0) { r with org := ⟨8, 1, 1, 0, 0⟩ } = true ∧ exec (.windowAccessArrival 0) s = .next (s.park 0) ∧
     s0.ownWrites (.port 0) { r with org := ⟨8, 1, 1, 0, 0⟩ } = false) ∧
    (let s := { came windowed (.port 0) (.win (winReq .read 0x31000)) with bad := [poolKey 0 0x31000] }
     (nextSt (exec (.windowAccessArrival 0) s)).net.map (fun q => q.body) =
       [.reply 5 1 (some 0) (.winReply (winReq .read 0x31000) (.dataErr 0x31000) 0 0)]) ∧
    (let s := came (engaged windowed (poolKey 0 0x31000)) (.port 0) (.win (winReq .read 0x31000))
     s.held 0 0x31000 8 false = true ∧ exec (.windowAccessArrival 0) s = .next (s.park 0)) ∧
    (let s := (came windowed (.port 0) (.win (winReq .write 0x31000))).mapEpAt 8 5 fun ep => { ep with st := .connecting }
     (nextSt (exec (.windowAccessArrival 0) s)).mem = []) ∧
    (let s := { came windowed (.ctrl 1) (.mem (memReq true)) with ctrlKeys := [] }
     s.ctrlWrite 0 0x400 [7] = none ∧ (nextSt (exec (.memwrRequest 0) s)).net.map (fun q => q.body) =
       [.reply 5 1 (some 0) (.memReply (memReq true) (.dataErr 0x400) [])]) ∧
    (let w := (memReq true).org
     let r := { memReq false with fwd := [(0, 9, w)], org := { w with op := 1 } }
     let s := { came windowed (.ctrl 1) (.mem (memReq true)) with net := (came windowed (.ctrl 1) (.mem (memReq true))).net ++
                  [packet (.ctrl 1) (.mem r) (.queued 0 0)] }
     (nextSt (exec (.memwrRequest 0) s)).net.filterMap (fun q => match q.body with | .mem x => some x.fwd | _ => none) = [[]]) := by
  (and_intros <;> first | decide +kernel | (show @Eq Out _ _; exact next_of (by decide +kernel)) | (show @Eq (Res _) _ _; exact ok_of (by decide +kernel)) | (show @Eq (Res _) _ _; exact trap_of (by decide +kernel)))

/-- Context 1 of core 0 waits for transaction 1000 of endpoint 5. -/
def waiting1 : State :=
  (unitChan 0 0x1000 9 [] fun ep => { ep with state := 1 }).mapCtx fun c => { c with req := some ⟨1000, none⟩, life := .blocked }

/-- A reply on endpoint 5 that stands in its slot. -/
def placed (b : Body) : State :=
  { waiting1 with net := [{ packet (.core 0) (.reply 5 1 (some 0) b) .arrived with parked := true, placed := true }] }

theorem wit_repliesArrive :
    (let r : MemReq := ⟨org1, 1000, 5, 1, 1, false, 0x400, 0x60400, 8, 0, [], 0, []⟩
     let s := came waiting1 (.core 0) (.reply 5 1 (some 0) (.memReply r .ok [7, 0, 0, 0, 0, 0, 0, 0]))
     (s.epAt 0 5).st = .open ∧ (s.epAt 0 5).gen = 1 ∧ (s.epAt 0 5).rseq = 0 ∧ (s.placeReply 0 0 5 0 (.memReply r .ok [7, 0, 0, 0, 0, 0, 0, 0])).isSome = true ∧
     (nextSt (exec (.memrdReplyArrival 0) s)).ctx.req = some ⟨1000, some (.value 7 0)⟩) ∧
    (let r : MemReq := ⟨org1, 0, 5, 1, 1, false, 0x400, 0x60400, 128, 0, [], poolKey 0 0x31400, []⟩
     let s := placed (.memReply r .ok (List.replicate 128 7))
     (s.core 0).excluded (r.dst - poolKey 0 0) 128 true = false ∧ (s.core 0).gaussHolds r.dst 128 = false ∧
     (nextSt (exec (.memrdReplyArrival 0) s)).rd (poolKey 0 0x31400) 2 = 0x707) ∧
    (let r : MemReq := ⟨org1, 0, 5, 1, 1, true, 0x400, 0x60400, 8, 0, [], 0, []⟩
     let s := came waiting1 (.core 0) (.reply 5 1 (some 0) (.memReply r (.dataErr 0x60400) []))
     ((nextSt (exec (.memwrAckArrival 0) s)).ep 5).state = 0) ∧
    (let q : WinReq := ⟨org1, 1000, 5, 1, 0, .read, 8, 8, []⟩
     let s := came waiting1 (.core 0) (.reply 5 1 (some 0) (.winReply q .ok 7 0))
     (winAnswer (.winReply q .ok 7 0)).map (fun q => (q.1, q.2.1, q.2.2.1)) = some (org1, 1000, 8) ∧
     (nextSt (exec (.windowReplyArrival 0) s)).ctx.req = some ⟨1000, some (.value 7 0)⟩) ∧
    (let q : WinReq := ⟨org1, 1000, 5, 1, 0, .read, 8, 8, []⟩
     -- the second answer of a channel stands in its slot until the first has been taken; one of another generation is discarded
     let s := came waiting1 (.core 0) (.reply 5 1 (some 1) (.winReply q .ok 7 0))
     let u := came waiting1 (.core 0) (.reply 5 2 (some 0) (.winReply q .ok 7 0))
     (nextSt (exec (.windowReplyArrival 0) s)).net.map (fun q => q.placed) = [true] ∧
     exec (.windowReplyArrival 0) u = .next (u.takePacket 0)) ∧
    (let q : WinReq := ⟨org1, 1000, 5, 1, 0, .read, 8, 8, []⟩
     let s := came (waiting1.wr8 (poolKey 0 0x38000) (hdrWord 1 7 0 8)) (.core 0) (.reply 5 1 (some 0) (.winReply q .ok 7 0))
     let u := came (waiting1.mapEp 5 fun ep => { ep with st := .delegating }) (.core 0) (.reply 5 1 (some 0) (.winReply q .ok 7 0))
     s.placeReply 0 0 5 0 (.winReply q .ok 7 0) = none ∧ (nextSt (exec (.windowReplyArrival 0) s)).net.map (fun q => q.parked) = [true] ∧
     ((nextSt (exec (.windowReplyArrival 0) u)).ep 5).held = [.reply 5 1 (some 0) (.winReply q .ok 7 0)]) ∧
    (let q : WinReq := ⟨org1, 1000, 5, 1, 0, .read, 8, 8, []⟩
     let s := came waiting1 (.core 0) (.reply 5 1 (some 0) (.winReply q .nack 0 0))
     ((nextSt (exec (.negativeAcknowledgement 0) s)).ctx.req.bind (·.ans)).isSome = true) ∧
    (let s := came waiting1 (.core 0) (.reply 5 1 (some 0) (.wpmReply ⟨org1, 5, 1, 0, 0x31000, [], 3, 0x31100, 1⟩ (.dataErr 0x31100)))
     ((nextSt (exec (.windowReplyArrival 0) s)).ep 5).state = 0) := by
  (and_intros <;> first | decide +kernel | (show @Eq Out _ _; exact next_of (by decide +kernel)) | (show @Eq (Res _) _ _; exact ok_of (by decide +kernel)) | (show @Eq (Res _) _ _; exact trap_of (by decide +kernel)))

/-- A copy of one untyped byte from 0x31000 to 0x31008 under tag 3. -/
def shadow1 : Vector W 32 := (((Vector.replicate 32 0).set 0 0x31000).set 1 0x31008).set 2 3

def desc1 : CopyDesc := ⟨0, 1, 0, 1, 3, 0x30100, 0, 0, shadow1.toList⟩

theorem wit_CopiesAndWaits_launch :
    (let s := tst 1 [(6, 5)] fun c => { c with shadow := shadow1 }
     s.operands [6] [] [] = .ok [5] ∧ s.operands [] [9] [] = .ok [] ∧ (23 : Reg) ≠ 6 ∧ (23 : Reg) ≠ 7 ∧ (23 : Reg).toNat < 24 ∧
     ¬ (24 : Reg).toNat < 24 ∧ launchOk s.ctx.shadow.toList = true ∧ s.me.owned = [] ∧ s.ctx.count .copy < 65535 ∧
     (nextSt (exec (.cpwr 6 23) s)).ctx.shadow[23] = 5 ∧ exec (.cpwr 6 24) s = .next (s.trap { cause := 0x02 }) ∧
     exec (.cprd 9 1) s = .next (s.doneG 4 [] 9 0x31008) ∧ exec (.cprd 9 31) s = .next (s.doneG 4 [] 9 0) ∧
     exec (.cprd 9 6) s = .next (s.trap { cause := 0x02 }) ∧ (nextSt (exec (.cpgo 9) s)).ctx.g[9] = 1 ∧
     (nextSt (exec (.cpgo 9) s)).me.copies.length = 1 ∧
     (nextSt (exec (.cpgo 9) s)).me.chunks[3] = 0xFFFFFFFFFFFFFFFE) ∧
    (let s := tst 1 [] fun c => { c with shadow := shadow1.set 2 0x40 }
     launchOk s.ctx.shadow.toList = false ∧ exec (.cpgo 9) s = .next (s.trap { cause := 0x02 })) ∧
    (let s := tst 1 [] (fun c => { c with shadow := shadow1 }) fun x => { x with owned := [⟨3, 1, 1, 0, none, none⟩] }
     (s.me.owned.any fun o => o.tag == 3) = true ∧ exec (.cpgo 9) s = .next (s.trap { cause := 0x02, detail := 3 })) ∧
    (let s := (unitChan 3 0x3008 9 []).mapCtx fun c => { c with shadow := shadow1 }
     s.ctx.pend = [] ∧ (s.ep 5).owner = s.cur.ctx ∧ (s.ep 5).st = .open ∧ (s.ep 5).proto.toNat = 3 ∧ 1 ≤ (s.ep 5).slotu.toNat ∧
     (s.ep 5).state.toNat < (s.ep 5).pdepth.toNat + 1 ∧ (nextSt (exec (.cpgoRemote 9 5) s)).net.length = 1) ∧
    (let s := came { unitChan 3 0x3000 9 [] with hwEnds := [⟨0x3000, 0, 5, 1, 1, 3, 0, 0, 0, 0⟩] } (.port 0) (.copyReq 5 1 desc1)
     (s.arrived 0).map (fun q => (q.dst, q.body)) = some (.port 0, .copyReq 5 1 desc1) ∧ (s.hwFind 0 5 1).isSome = true ∧
     (s.epAt 0 5).st ≠ .unbound ∧ (s.epAt 0 5).gen = 1 ∧
     ((nextSt (exec (.copyRequestArrival 0) s)).core 0).copies.length = 1) ∧
    (let s := came (tst 1 []) (.port 0) (.copyReq 5 1 desc1)
     -- the channel is gone: the copy begins nowhere
     (s.epAt 0 5).st = .unbound ∧ exec (.copyRequestArrival 0) s = .next (s.takePacket 0)) := by
  (and_intros <;> first | decide +kernel | (show @Eq Out _ _; exact next_of (by decide +kernel)) | (show @Eq (Res _) _ _; exact ok_of (by decide +kernel)) | (show @Eq (Res _) _ _; exact trap_of (by decide +kernel)))

/-- Core 0's engine performs that copy for its context 1. -/
def copying (f : CopyRun → CopyRun := id) : State :=
  (tst 1 [(5, 0x48)] (fun c => { c with ops := [⟨0, .copy, 1, false, true, none⟩] }) fun x => { x with
    copies := [f (newCopy desc1 none)], owned := [⟨3, 1, 1, 0, none, none⟩], cbm := 0x40 }).wr8 (poolKey 0 0x31000) 0xAB

theorem wit_CopiesAndWaits_engine :
    (let s := copying
     (s.findCopy 0 3).map (fun q => (q.1, q.2.done)) = some (0, 0xFFFFFFFFFFFFFFFE) ∧ s.chunkAnswer 0 3 0 = none ∧
     chunkSpan desc1.shadow 0 = (0, 1) ∧ shSgs desc1.shadow = false ∧ shAdd desc1.shadow = false ∧
     shSrcFmt desc1.shadow = shDstFmt desc1.shadow ∧ shSrcFmt desc1.shadow ≠ 15 ∧ (shCtl desc1.shadow).getLsbD 63 = false ∧
     (match s.engRead 0 0x31000 1 0 with
      | .ok w t => w == 0xAB && (match t.engWrite 0 0x31008 [0xAB] 0 with | .ok _ _ => true | _ => false)
      | _ => false) = true ∧
     (nextSt (exec (.copyChunkDone 0 3 0) s)).rd8 (poolKey 0 0x31008) = 0xAB ∧
     (nextSt (exec (.copyChunkDone 0 3 0) s)).me.chunks[3] = 1) ∧
    (let s := { copying with bad := [poolKey 0 0x31000] }
     (match s.engRead 0 0x31000 1 0 with | .bad _ _ => true | _ => false) = true ∧
     ((nextSt (exec (.copyChunkDone 0 3 0) s)).me.copies.map fun r => r.fail.isSome) = [true]) ∧
    (let s := copying fun r => { r with done := BitVec.allOnes 64 }
     (shCtl desc1.shadow).getLsbD 58 = false ∧ (nextSt (exec (.copyComplete 0 3) s)).me.cbm = 0x48 ∧
     (nextSt (exec (.copyComplete 0 3) s)).me.owned = []) ∧
    (let s := copying fun r => { r with fail := some ⟨0x11, 0x31000, 64⟩ }
     (s.ctxAt 0 1).pend.length < 4 ∧
     (nextSt (exec (.copyFailure 0 3) s)).ctx.pend.map (fun f => (f.cause, f.detail, f.addr)) = [(0x11, 67, 0x31000)]) ∧
    (let s := came ((unitChan 3 0x3008 9 [] fun ep => { ep with state := 1 }).mapMe fun x => { x with owned := [⟨3, 1, 1, 0, none, some 5⟩] })
       (.core 0) (.reply 5 1 (some 0) (.copyAns desc1 none 0))
     (s.epAt 0 5).st = .open ∧ (s.epAt 0 5).gen = 1 ∧ (s.epAt 0 5).rseq = 0 ∧
     (s.placeReply 0 0 5 0 (.copyAns desc1 none 0)).isSome = true ∧ (nextSt (exec (.copyAnswerArrival 0) s)).me.cbm = 8 ∧
     ((nextSt (exec (.copyAnswerArrival 0) s)).ep 5).state = 0) ∧
    (let s := came (unitChan 3 0x3008 9 [] fun ep => { ep with st := .lost }) (.core 0) (.reply 5 1 (some 0) (.copyAns desc1 none 0))
     exec (.copyAnswerArrival 0) s = .next (s.takePacket 0)) ∧
    (let s := copying fun r => { r with ep := some (5, 1) }
     -- a remote copy whose endpoint is gone writes nothing more
     (s.findCopy 0 3).map (fun q => s.lives q.2) = some false ∧ (nextSt (exec (.copyChunkDone 0 3 0) s)).me.copies = [] ∧
     (nextSt (exec (.copyComplete 0 3) s)).me.copies = []) := by
  (and_intros <;> first | decide +kernel | (show @Eq Out _ _; exact next_of (by decide +kernel)) | (show @Eq (Res _) _ _; exact ok_of (by decide +kernel)) | (show @Eq (Res _) _ _; exact trap_of (by decide +kernel)))

/-- A run of the engine of core 0 for a copy with these shadow registers. -/
def runOf (l : List (Nat × W)) : CopyRun :=
  newCopy { desc1 with shadow := (List.range 32).map fun i => ((l.find? fun p => p.1 == i).map (·.2)).getD 0 } none

/-- The engine of core 0 at work on it, with seven at 0x31000. -/
def atWork (r : CopyRun) : State :=
  (tst 1 [] id fun x => { x with copies := [r], owned := [⟨3, 1, 1, 0, none, none⟩] }).wr8 (poolKey 0 0x31000) 7

/-- Elements moved one by one in the order given. -/
def moved (r : CopyRun) (l : List Nat) (s : State) : Option State :=
  l.foldl (fun w i => w.bind fun q => match q.copyValue 0 r.d i r.sg with
    | .ok (v, _, _) t => match t.engWrite 0 (shDstAddr r.d.shadow i) (leBytes (shDstSize r.d.shadow) v) (shDstFmt r.d.shadow) with
      | .ok _ u => some u
      | _ => none
    | _ => none) (some s)

theorem freeOrder_two (b : Nat) : freeOrder b 2 = [0, 1] ∨ freeOrder b 2 = [1, 0] := by
  simp only [freeOrder, List.range, List.range.loop, List.foldr, insertFree]; split <;> simp

/-- A chunk of two elements, in either order; a conversion; a chain of segments; a bit-plane block; a failure that leaves Chunks
all ones. -/
theorem wit_CopiesAndWaits_chunks :
    (let r := runOf [(0, 0x31000), (1, 0x31100), (2, 3), (8, mkW [(1, 48), (1, 0)]), (16, 1)]
     shSgs r.d.shadow = false ∧ chunkSpan r.d.shadow 0 = (0, 2) ∧
     (∀ l ∈ [[0, 1], [1, 0]], (moved r l { atWork r with free := 2 }).map (fun u => u.rd8 (poolKey 0 0x31100)) = some 7)) ∧
    (let r := runOf [(0, 0x31000), (1, 0x31100), (2, mkW [(2, 41), (3, 37), (3, 0)])]
     let s := (atWork r).wr8 (poolKey 0 0x31000) 0x3FC00000
     chunkSpan r.d.shadow 0 = (0, 1) ∧ convertElem r.d.shadow 0 0x3FC00000 = (0x3E00, 0) ∧
     (nextSt (exec (.copyChunkDone 0 3 0) s)).rd8 (poolKey 0 0x31100) = 0x3E00) ∧
    (let r := { runOf [(1, 0x31100), (2, mkW [(1, 57), (3, 0)])] with sg := ⟨0x31080, 0, 0, 0⟩ }
     let s := (((atWork r).wr8 (poolKey 0 0x31080) 0x31000).wr8 (poolKey 0 0x31088) 1).wr8 (poolKey 0 0x31090) 0x310A0
     r.reached 0 = true ∧ chunkSpan r.d.shadow 0 = (0, 1) ∧ (nextSt (exec (.copyChunkDone 0 3 0) s)).rd8 (poolKey 0 0x31100) = 7 ∧
     (nextSt (exec (.copyChunkDone 0 3 0) s)).me.copies.map (fun q => q.sg) = [⟨0x310A0, 1, 0x31001, 0⟩] ∧
     (let u := (atWork { r with sg := ⟨0, 1, 0, 0⟩ })
      (nextSt (exec (.copyChunkDone 0 3 0) u)).me.copies.map (fun q => q.fail) = [some ⟨0x13, 0, 0⟩]) ∧
     (let u := (atWork { r with sg := ⟨0, 1, 0x31000, 1⟩ })
      (nextSt (exec (.copyChunkDone 0 3 0) u)).rd8 (poolKey 0 0x31100) = 7)) ∧
    (let r := { runOf [(1, 0x31100), (2, mkW [(1, 57), (3, 0)]), (8, mkW [(1, 48), (1, 0)]), (16, 1)] with sg := ⟨0, 1, 0x31000, 2⟩ }
     let s := { atWork r with free := 2 }
     chunkSpan r.d.shadow 0 = (0, 2) ∧ (match s.engRead 0 0x31000 1 0 with
       | .ok b t => b == 7 && (match t.engRead 0 0x31001 1 0 with
         | .ok c u => c == 0 && ([[0, 1], [1, 0]].all fun l => (l.foldl (fun w m => w.bind fun (q : State) =>
             match q.engWrite 0 (shDstAddr r.d.shadow m) (leBytes 1 (if m = 0 then 7 else 0)) 0 with
             | .ok _ v => some v | _ => none) (some u)).isSome)
         | _ => false)
       | _ => false) = true) ∧
    (let r := runOf [(0, 0x30E00), (1, 0x32000), (2, mkW [(1, 53), (8, 45), (15, 41), (13, 37), (3, 0)]), (8, mkW [(31, 48)]), (9, mkW [(31, 48)]),
       (16, 8), (17, 256)]
     let s := (((atWork r).mapMe fun x => { x with tlb := [⟨0, 0x30, 1, leafAt 0x30 7 ||| mkW [(15, 50)]⟩, ⟨0, 0x31, 1, leafAt 0x31 7 ||| mkW [(15, 50)]⟩] }).wr8 (poolKey 0 0x30E00) 7).wr8
       (poolKey 0 0x31200) 0x3C00
     chunkSpan r.d.shadow 0 = (0, 64) ∧ (match s.planeFault 0 r.d.shadow 0x30E00 with | .ok _ t => t == s | _ => false) = true ∧
     (match s.engRead 0 0x30E00 1 15 with | .ok b t => b == 7 && t == s | _ => false) = true ∧
     (match s.engRead 0 0x31200 2 15 with | .ok b t => b == 0x3C00 && t == s | _ => false) = true ∧
     -- bit 0 of planes 0 and 4: (-128 + 8) times 1.0
     (match s.copyValue 0 r.d 0 r.sg with | .ok (v, f, _) t => v == 2 ^ 64 - 120 && f == 0 && t == s | _ => false) = true) ∧
    ((let s := copying fun r => { r with fail := some ⟨0x11, 0x31000, 64⟩ }
      (nextSt (exec (.copyFailure 0 3) s)).me.chunks[3]) = BitVec.allOnes 64) := by
  (and_intros <;> first | decide +kernel | (show @Eq Out _ _; exact next_of (by decide +kernel)) | (show @Eq (Res _) _ _; exact ok_of (by decide +kernel)) | (show @Eq (Res _) _ _; exact trap_of (by decide +kernel)))

/-- A reducing copy of one 8-byte integer under key 9. -/
def desc2 : CopyDesc := { desc1 with shadow := (((shadow1.set 1 0x31040).set 2 (3 + 13 * 2 ^ 37 + 13 * 2 ^ 41 + 2 ^ 56)).set 3 9).toList }

/-- Core 0's engine performs that copy. -/
def reducing (f : Core → Core := id) : State := tst 1 [] id fun x => f { x with copies := [newCopy desc2 none] }

theorem wit_CopiesAndWaits_reduce :
    (let s := came ((reducing).wr8 (poolKey 0 0x31040) 5) (.port 0) (.chunk desc2 0 0 0 [(0x31040, 7)])
     ((s.core 0).copies.any fun r => r.d == desc2 && s.lives r) = true ∧ (s.engGrant 0 0 60 0x31040 (portSize 0) 0x31040).isNone = true ∧ s.held 0 0x31040 (portSize 0) true = false ∧ s.bad = [] ∧
     s.weak = [] ∧ (shadowReg desc2.shadow 3).truncate 32 = (9 : BitVec 32) ∧ (s.core 0).redKeys = [] ∧
     (nextSt (exec (.reduceChunkArrival 0) s)).rd8 (poolKey 0 0x31040) = 12 ∧
     ((nextSt (exec (.reduceChunkArrival 0) s)).core 0).redKeys = [(0, 9, 1)]) ∧
    (let s := came (tst 1 []) (.port 0) (.chunk desc2 0 0 0 [(0x31040, 7)])
     ((s.core 0).copies.any fun r => r.d == desc2 && s.lives r) = false ∧
     exec (.reduceChunkArrival 0) s = .next (s.takePacket 0)) ∧
    (let s := came ((tst 1 []).setCore 8 { tcore with copies := [newCopy desc2 none] }) (.port 0) (.chunk desc2 0 8 0 [(0x31040, 7)])
     -- core 0 has no window open to the engine of core 8
     ((s.core 8).copies.any fun r => r.d == desc2 && s.lives r) = true ∧ (s.engGrant 8 0 60 0x31040 (portSize 0) 0x31040).isSome = true ∧
     (nextSt (exec (.reduceChunkArrival 0) s)).net.length = 1) ∧
    (let s := came (reducing fun x => { x with redKeys := (List.range 32).map fun i => (8, BitVec.ofNat 32 i, 1) }) (.port 0)
       (.chunk desc2 0 0 0 [(0x31040, 7)])
     -- no record is free for a key of its own
     ((nextSt (exec (.reduceChunkArrival 0) s)).core 0).redKeys.length = 32 ∧ (nextSt (exec (.reduceChunkArrival 0) s)).mem = []) ∧
    (let s := came ((reducing fun x => { x with redKeys := [(0, 9, 1)] }).wr8 (poolKey 0 0x31040) 5) (.port 0)
       (.chunk desc2 0 0 0 [(0x31040, 7)])
     (s.core 0).redKeys.find? (fun q => q.1 == desc2.owner && q.2.1 == 9) = some (0, 9, 1) ∧
     (nextSt (exec (.reduceChunkArrival 0) s)).rd8 (poolKey 0 0x31040) = 5) ∧
    (let s := tst 1 [(6, 9), (7, 0x31040), (8, 0x100000000)]
     s.operands [6, 7] [] [] = .ok [9, 0x31040] ∧ (okVal (s.xlate 0x31040 cXLATE)).map (fun e => e.home 0x31040) = some (.pool 0 0x31040) ∧
     s.me.owned = [] ∧ (nextSt (exec (.cpret 6 7) s)).ctx.count .copy = 1 ∧
     exec (.cpret 8 7) s = .next (s.trap { cause := 0x02 })) ∧
    (let s := came (tst 1 [] id fun x => { x with redKeys := [(0, 9, 1), (1, 9, 1)] }) (.port 0) (.keyRetire org1 9)
     ((nextSt (exec (.keyRetirementArrival 0) s)).core 0).redKeys = [(1, 9, 1)] ∧
     (nextSt (exec (.keyRetirementArrival 0) s)).net.map (fun q => q.body) = [.keyRetired org1]) ∧
    (let s := came (tst 1 [] fun c => { c with ops := [⟨0, .copy, 1, false, true, none⟩] }) (.core 0) (.keyRetired org1)
     (nextSt (exec (.keyRetirementAcknowledgement 0) s)).ctx.ops = []) := by
  (and_intros <;> first | decide +kernel | (show @Eq Out _ _; exact next_of (by decide +kernel)) | (show @Eq (Res _) _ _; exact ok_of (by decide +kernel)) | (show @Eq (Res _) _ _; exact trap_of (by decide +kernel)))

theorem wit_CopiesAndWaits_waits :
    (let s := tst 1 [(5, 0x48), (6, 0x40), (7, 0), (8, 3), (10, 64)] (fun c => { c with ops := [⟨0, .copy, 1, false, true, none⟩] }) fun x =>
       { x with cbm := 0x40, chunks := x.chunks.set 3 0x40 }
     s.ctx.pend = [] ∧ s.operands [5] [9] [] = .ok [0x48] ∧ s.operands [8, 6] [9] [] = .ok [3, 0x40] ∧ s.ctx.count .copy = 1 ∧
     exec (.waitc 0 1 0 0) s = .next (s.done 4 []) ∧ exec (.waitc 0 0 0 0) s = .next (s.block { kind := 5 }) ∧
     exec (.waitany 9 5) s = .next (s.doneG 4 [5] 9 0x40) ∧ exec (.waitany 9 7) s = .next (s.trap { cause := 0x02 }) ∧
     exec (.waitany 9 8) s = .next (s.block { kind := 5 }) ∧ exec (.waitall 6) s = .next (s.done 4 [6]) ∧
     exec (.waitall 5) s = .next (s.block { kind := 5 }) ∧ exec (.ffr 9 5) s = .next (s.doneG 4 [5] 9 6) ∧
     exec (.ffr 9 8) s = .next (s.doneG 4 [8] 9 64) ∧ (nextSt (exec (.ffrClr 9 5) s)).me.cbm = 0 ∧
     exec (.waitchAny 9 8 6) s = .next (s.doneG 4 [8, 6] 9 0x40) ∧ exec (.waitchAll 9 8 5) s = .next (s.block { kind := 5 }) ∧
     exec (.waitchAny 9 8 8) s = .next (s.block { kind := 5 }) ∧ exec (.waitchAll 9 8 6) s = .next (s.doneG 4 [8, 6] 9 0x40) ∧
     exec (.waitchAny 9 10 6) s = .next (s.trap { cause := 0x02 }) ∧ exec (.waitchAll 9 8 7) s = .next (s.trap { cause := 0x02 })) ∧
    (let s := tst 1 [(5, 8)] fun c => { c with pend := [{ fault1 with op := some (.gstore, 1), tag := some 3 }], issued := c.issued.set 1 1 }
     (1 : Nat) + 0 ≤ s.ctx.issued[1] ∧ (8 : W).getLsbD 3 = true ∧ (nextSt (exec (.waitc 0 0 0 0) s)).ctx.frec0.toNat % 64 = 0x11 ∧
     (nextSt (exec (.waitall 5) s)).ctx.pend = []) := by
  (and_intros <;> first | decide +kernel | (show @Eq Out _ _; exact next_of (by decide +kernel)) | (show @Eq (Res _) _ _; exact ok_of (by decide +kernel)) | (show @Eq (Res _) _ _; exact trap_of (by decide +kernel)))

/-- x6 of a binary64 step without strides. -/
def x6a : W := mkW [(1, 4), (1, 8), (16, 16), (16, 32)]

/-- A step of one product. -/
def mma1 : MmaArgs := ⟨0x31000, 0x31040, x6a, 0, 1, 1, 1, some 3⟩
def drain1 : DrainArgs := ⟨1, 0x31000, some (5, 1), mkW [(1, 8), (8, 16)], 0, none, 1, 1⟩
def op1 (k : TileKind) : TileOp := ⟨org1, 2, k, none⟩

/-- Tile 2 of core 0 with an operation in progress. -/
def tiling (run : TileRun) (poison : Bool := false) : State :=
  ((tst 1 [] (fun c => { c with ops := [⟨0, .tile, 1, false, true, none⟩] }) fun x => { x with
    mrun := some run, tiles := [(2, { fmt := 2, poison := poison })] }).wr8 (poolKey 0 0x31000) 0x4000000000000000).wr8
      (poolKey 0 0x31040) 0x4008000000000000

theorem wit_TileOperations_issue :
    (let s := tst 1 [(6, 0x31000), (7, 0x31040)] (fun c => { c with x := c.x.set 6 x6a }) fun x => { x with tiles := [(2, { fmt := 2 })] }
     tileExists s.me.part 15 = true ∧ tileExists s.me.part 16 = false ∧ s.me.mqueue.length < 9 ∧ s.me.mrun = none ∧
     s.ctx.count .tile < 65535 ∧ s.operands [] [] [] = .ok [] ∧ s.operands [] [9] [] = .ok [] ∧
     s.operands [6, 7] [] [] = .ok [0x31000, 0x31040] ∧ s.me.fmtAhead 2 = 2 ∧ tileDepth 2 1 1 = some 16 ∧ tileDepth 2 1 2 = none ∧
     (nextSt (exec (.tzero 1 15) s)).me.mqueue.map (fun o => o.kind) = [.zero 1] ∧
     exec (.tzero 1 16) s = .next (s.trap { cause := 0x02 }) ∧ exec (.tstat 9 2) s = .next (s.doneG 4 [] 9 2) ∧
     (nextSt (exec (.tmma 6 7 1 2) s)).me.mqueue.map (fun o => o.kind) = [.mma ⟨0x31000, 0x31040, x6a, 0, 16, 16, 16, some 0⟩]) ∧
    (let s := tst 1 [] id fun x => { x with mqueue := List.replicate 9 (op1 (.zero 1)) }
     9 ≤ s.me.mqueue.length ∧ exec (.tzero 1 15) s = .next (s.block { kind := 2 })) ∧
    (let s := tst 1 [(6, 0x31000), (7, 0x31040)] (fun c => { c with x := c.x.set 6 (mkW [(1, 4), (2, 8)]) }) fun x =>
       { x with tiles := [(2, { fmt := 2 })] }
     exec (.tmma 6 7 0 2) s = .next (s.trap { cause := 0x02 })) ∧
    (let s := (unitChan 5 0x2001 9 [(6, 1 * 2 ^ 37 + 0x31000)]).mapCtx (fun c => { c with x := c.x.set 3 drain1.x3 }) |>.mapMe fun x =>
       { x with tiles := [(2, { fmt := 2 })] }
     drainOk 2 1 = true ∧ peerDest (s.ep 5).phw (s.ep 5).paddr = .port 1 ∧ unitKind (s.ep 5).paddr = 2 ∧
     (s.ep 5).state.toNat < (s.ep 5).pdepth.toNat + 1 ∧ ((nextSt (exec (.tdrain 6 0 2 5) s)).ep 5).state = 1) := by
  (and_intros <;> first | decide +kernel | (show @Eq Out _ _; exact next_of (by decide +kernel)) | (show @Eq (Res _) _ _; exact ok_of (by decide +kernel)) | (show @Eq (Res _) _ _; exact trap_of (by decide +kernel)))

/-- Operands of each tile instruction: registers 6 and 7 for TMMA, 6 and 8 for TDRAIN on endpoint 5, with a wake record at
register 8's address whose first word is w. -/
def matrix (w : W) (f : Ctx → Ctx := id) (x : Core → Core := id) : State :=
  (((unitChan 5 0x2001 9 [(6, 1 * 2 ^ 37 + 0x31000), (7, 0x31040), (8, 0x31200), (10, 0x31000)]).mapCtx fun c =>
    f { c with x := (c.x.set 3 drain1.x3).set 6 x6a }).mapMe fun y => x { y with tiles := [(2, { fmt := 2 })] }).wr8 (poolKey 0 0x31200) w

/-- Eight operations behind one in progress fill the queue; the counter at its limit; a tile that is not there; a wake record. -/
theorem wit_TileOperations_refusals :
    (let s := matrix 0 id fun x => { x with mrun := some { op := op1 (.zero 2) }, mqueue := List.replicate 8 (op1 (.zero 2)) }
     s.me.mqueue.length = 8 ∧ exec (.tzero 1 15) s = .next (s.block { kind := 2 }) ∧ exec (.tmma 10 7 1 2) s = .next (s.block { kind := 2 }) ∧
     exec (.tdrain 6 0 2 5) s = .next (s.block { kind := 2 })) ∧
    (let s := matrix 0 id fun x => { x with mrun := some { op := op1 (.zero 2) }, mqueue := List.replicate 7 (op1 (.zero 2)) }
     (nextSt (exec (.tzero 1 15) s)).me.mqueue.length = 8) ∧
    (let s := matrix 0
     tileExists s.me.part 16 = false ∧ exec (.tmma 10 7 1 16) s = .next (s.trap { cause := 0x02 }) ∧
     exec (.tdrain 6 0 16 5) s = .next (s.trap { cause := 0x02 }) ∧ exec (.tstat 9 16) s = .next (s.trap { cause := 0x02 })) ∧
    (let s := matrix (1 * 2 ^ 37)
     s.localUnits 0x31200 { r := true } 64 = .ok ([0x31200, 0x31210, 0x31220, 0x31230].map (poolKey 0)) ∧
     (nextSt (exec (.tdrain 6 8 2 5) s)).me.mqueue.map (fun o => match o.kind with | .drain m => m.wake | _ => none) =
       [some [1 * 2 ^ 37, 0, 0, 0, 0, 0, 0, 0]]) ∧
    (let s := matrix (2 * 2 ^ 37)
     exec (.tdrain 6 8 2 5) s = .next (s.trap { cause := 0x02 })) ∧
    (let s := (matrix 0).mapCtx fun c => { c with g := c.g.set 8 0x31208 }
     exec (.tdrain 6 8 2 5) s = .next (s.trap { cause := 0x08, addr := 0x31208 })) ∧
    (let s := (matrix 0).mapEp 5 fun ep => { ep with state := 9, pdepth := 3 }
     exec (.tdrain 6 0 2 5) s = .next (s.block { kind := 2, ep := 5 })) ∧
    (let s := (matrix 0).mapCtx fun c => { c with g := c.g.set 6 (1 * 2 ^ 37 + 2 ^ 22) }
     exec (.tdrain 6 0 2 5) s = .next (s.trap { cause := 0x02 })) := by
  (and_intros <;> first | decide +kernel | (show @Eq Out _ _; exact next_of (by decide +kernel)) | (show @Eq (Res _) _ _; exact ok_of (by decide +kernel)) | (show @Eq (Res _) _ _; exact trap_of (by decide +kernel)))


/-- A context whose counter of tile operations stands at n, at its limit too (R278). -/
theorem wit_TileOperations_counter (n : Nat) :
    (matrix 0 fun c => { c with ops := List.replicate n ⟨0, .tile, 1, false, true, none⟩ }).ctx.count .tile = n := by
  show ((List.replicate n (⟨0, .tile, 1, false, true, none⟩ : Op)).filter fun o => o.cls == .tile).length = n
  simp

/-- Endpoint 5 open for drains, with one outstanding. -/
def bound5 (x : Core) : Core := { x with eps := [(5, { st := .open, owner := 1, proto := 5, gen := 1, state := 1 })] }

theorem wit_TileOperations_engine :
    (let s := tst 1 [] id fun x => { x with mqueue := [op1 (.zero 1)] }
     (s.core 0).mrun = none ∧ ((nextSt (exec (.tileOperationStart 0) s)).core 0).mqueue = []) ∧
    (let s := tiling { op := op1 (.zero 1) }
     ((nextSt (exec (.tzeroComplete 0) s)).core 0).tile 2 = { fmt := 1 }) ∧
    (let s := tiling { op := op1 (.mma mma1) }
     (match s.operandAll 0 ⟨0x31000, 16, 1, 0, false, true⟩ 1 1 with
      | .ok ra v => ra.1 == [[0x4000000000000000]] && (match v.operandAll 0 ⟨0x31040, 16, 1, 0, false, false⟩ 1 1 with
        | .ok rb _ => rb.1 == [[0x4008000000000000]] | _ => false)
      | _ => false) = true ∧
     (nextSt (exec (.tmmaOperandsRead 0) s)).me.mrun.map (fun r => r.gotten) = some true ∧
     ((nextSt (exec (.tmmaOperandsRead 0) s)).floe 0).fsems[3] = 1) ∧
    (let s := { tiling { op := op1 (.mma mma1) } with bad := [poolKey 0 0x31000] }
     (match s.operandAll 0 ⟨0x31000, 16, 1, 0, false, true⟩ 1 1 with | .bad _ _ => true | _ => false) = true ∧
     (nextSt (exec (.tmmaOperandsRead 0) s)).me.mrun.map (fun r => r.fail.isSome) = some true) ∧
    (let s := tiling { op := op1 (.mma mma1) } true
     (nextSt (exec (.tmmaOperandsRead 0) s)).me.mrun.map (fun r => r.opsA) = some []) ∧
    (let s := tiling { op := op1 (.mma mma1), gotten := true, opsA := [[0x4000000000000000]], opsB := [[0x4008000000000000]] }
     (1 : Nat) ≤ tileSide 2 ∧ (nextSt (exec (.tmmaStepComplete 0) s)).me.mrun = none ∧
     (nextSt (exec (.tmmaStepComplete 0) s)).rd8 (poolKey 0 (0x2F0000 + 2 * 4096)) = 0x4018000000000000) ∧
    (let s := tiling { op := op1 (.mma mma1), gotten := true } true
     ((nextSt (exec (.tmmaStepComplete 0) s)).me.mrun) = none ∧ (nextSt (exec (.tmmaStepComplete 0) s)).mem = s.mem) ∧
    (let s := tiling { op := op1 (.mma mma1), gotten := true, fail := some ⟨0x11, 0x31000, 0⟩ }
     ((nextSt (exec (.tmmaOperandFailure 0) s)).me.tile 2).poison = true ∧
     (nextSt (exec (.tmmaOperandFailure 0) s)).ctx.pend.map (fun f => (f.cause, f.detail)) = [(0x11, 0x802)]) ∧
    (let s := tst 1 [] id fun x => { x with mqueue := [op1 (.zero 1)], gqueue := [⟨1, 1000, 2, .zero 1, 0, [], 0, true⟩] }
     -- the Gaussian engine holds tile 2
     exec (.tileOperationStart 0) s = .next s) ∧
    (let s := tiling { op := op1 (.drain drain1) }
     (s.epAt 0 5).st = .unbound ∧ exec (.tdrainTileRead 0) s = .next (s.mapCore 0 fun x => { x with mrun := none })) ∧
    (let s := (tiling { op := op1 (.drain drain1) } true).mapMe bound5
     (s.epAt 0 5).st = .open ∧ (s.epAt 0 5).gen = 1 ∧ ((nextSt (exec (.tdrainTileRead 0) s)).epAt 0 5).state = 0 ∧
     (nextSt (exec (.tdrainTileRead 0) s)).ctx.pend.map (fun f => (f.cause, f.detail)) = [(0x13, 0x802)]) ∧
    (let s := (tiling { op := op1 (.drain drain1) }).mapMe bound5
     (nextSt (exec (.tdrainTileRead 0) s)).net.map (fun q => q.dst) = [.port 1] ∧
     (nextSt (exec (.tdrainTileRead 0) s)).me.drains.length = 1) := by
  (and_intros <;> first | decide +kernel | (show @Eq Out _ _; exact next_of (by decide +kernel)) | (show @Eq (Res _) _ _; exact ok_of (by decide +kernel)) | (show @Eq (Res _) _ _; exact trap_of (by decide +kernel)))

def rows1 (off : Nat) : DrainPkt := ⟨⟨8, 1, 0, 0, 0⟩, 8, some (5, 1), 2, 0, off, 16, [[1, 2], [3, 4]], 0, none, none, 0, 2⟩

theorem wit_TileOperations_drains :
    (let s := came windowed (.port 0) (.rows (rows1 0x31000))
     s.granted 0 61 8 0x31000 18 = true ∧ s.held 0 0x31000 18 true = false ∧ s.bad = [] ∧
     (nextSt (exec (.drainRowsArrival 0) s)).rd (poolKey 0 0x31010) 2 = 0x403) ∧
    (let s := (came windowed (.port 0) (.rows (rows1 0x31000))).mapEpAt 8 5 fun ep => { ep with gen := 2 }
     -- the drain's endpoint is gone: nothing is written
     (nextSt (exec (.drainRowsArrival 0) s)).mem = [] ∧ (nextSt (exec (.drainRowsArrival 0) s)).net.length = 1) ∧
    (let s := (came windowed (.port 0) (.rows (rows1 0x31000))).mapMe fun x => { x with gqueue := [⟨1, 1000, 2, .loadf, 0, [poolKey 0 0x31010], 0, true⟩] }
     s.held 0 0x31000 18 true = true ∧ exec (.drainRowsArrival 0) s = .next (s.park 0)) ∧
    (let s := came ((unitChan 5 0x2001 9 [] fun ep => { ep with state := 1, lacnt := 1 }).mapMe fun x => { x with drains := [op1 (.drain drain1)] })
       (.core 0) (.reply 5 1 none (.rowsAck ⟨org1, 0, some (5, 1), 2, 1, 0x31000, 8, [], 1, none, none, 0, 1⟩ .ok))
     ((nextSt (exec (.drainAckArrival 0) s)).ep 5).state = 0 ∧ (nextSt (exec (.drainAckArrival 0) s)).me.drains = []) ∧
    (let s := came windowed (.port 0) (.rows (rows1 0x31FF0))
     s.granted 0 61 8 0x31FF0 18 = false ∧ ((nextSt (exec (.drainRowsArrival 0) s)).core 0).nackcnt = 1) ∧
    (let s := came ((unitChan 5 0x2001 9 [] fun ep => { ep with state := 1 }).mapMe fun x => { x with drains := [op1 (.drain drain1)] })
       (.core 0) (.rowsAck ⟨org1, 0, some (5, 1), 2, 1, 0x31000, 8, [], 1, none, none, 0, 1⟩ .nack)
     (s.epAt 0 5).st ≠ .unbound ∧ (s.epAt 0 5).gen = 1 ∧
     ((s.core 0).drains.find? fun o => o.org == org1 && o.tile == 2 && o.task == none) = some (op1 (.drain drain1)) ∧
     (nextSt (exec (.drainAckArrival 0) s)).ctx.fst = 1 ∧
     (nextSt (exec (.drainAckArrival 0) s)).ctx.pend.map (fun f => (f.cause, f.detail, f.addr)) = [(0x12, 0x802, 0x31000)]) := by
  (and_intros <;> first | decide +kernel | (show @Eq Out _ _; exact next_of (by decide +kernel)) | (show @Eq (Res _) _ _; exact ok_of (by decide +kernel)) | (show @Eq (Res _) _ _; exact trap_of (by decide +kernel)))

/-- An ACQ step waits for what its context launched before; a drain of two packets is taken once both have come. -/
theorem wit_TileOperations_waits :
    (let m := { mma1 with x6 := x6a ||| mkW [(1, 63), (1, 60)] }
     let s := (tiling { op := { op1 (.mma m) with org := { org1 with op := 5 } } }).mapCtx fun c =>
       { c with ops := [⟨2, .gstore, 1, false, false, none⟩] }
     (∃ q ∈ (s.ctxAt 0 1).ops, (q.fence = true ∨ q.cls = .gstore) ∧ q.done = false ∧ q.id < 5) ∧
     exec (.tmmaOperandsRead 0) s = .next s) ∧
    (let a := { rows1 0x31000 with rows := [[1, 2]] }
     let b := { rows1 0x31000 with rows := [[3, 4]], first := 1 }
     let s := came windowed (.port 0) (.rows a)
     let u := { s with net := s.net ++ [packet (.port 0) (.rows b) .arrived] }
     (∀ q ∈ s.net, s.drainWhole q a = none) ∧ exec (.drainRowsArrival 0) s = .next s ∧
     (∀ q ∈ u.net, u.drainWhole q a = some [[1, 2], [3, 4]]) ∧
     (nextSt (exec (.drainRowsArrival 0) u)).rd (poolKey 0 0x31000) 2 = 0x201 ∧
     (nextSt (exec (.drainRowsArrival 0) u)).rd (poolKey 0 0x31010) 2 = 0x403 ∧ (nextSt (exec (.drainRowsArrival 0) u)).net.length = 1) ∧
    (let s := came windowed (.port 0) (.rows (rows1 0x31000))
     (∀ q ∈ s.net, s.drainWhole q (rows1 0x31000) = some [[1, 2], [3, 4]])) ∧
    (let s := came windowed (.port 0) (.rows { rows1 0x31000 with wake := some (List.replicate 8 0) })
     ((nextSt (exec (.drainRowsArrival 0) s)).floe 0) ≠ (s.floe 0)) := by
  (and_intros <;> first | decide +kernel | (show @Eq Out _ _; exact next_of (by decide +kernel)) | (show @Eq (Res _) _ _; exact ok_of (by decide +kernel)) | (show @Eq (Res _) _ _; exact trap_of (by decide +kernel)))

/-- A slot with a message of dimension 1 at 0x31000, header with P; registers: 5 its address, 6 the offset 0. -/
def slot1 (k : CtxId) (f : Ctx → Ctx := id) (x : Core → Core := id) : State :=
  (((tst k [(5, 0x31000), (6, 0)] f x).wr8 (poolKey 0 0x31000) 0x101).wr8 (poolKey 0 0x31010) 0x3FF0000000000000).wr8
    (poolKey 0 0x31018) 0x4000000000000000

def gop (k : GaussKind) (taken : Bool) : GaussOp :=
  ⟨1, 1000, 2, k, 0x31000, [0, 8, 16, 24].map fun o => poolKey 0 (0x31000 + o), 0, taken⟩

theorem wit_GaussianEngine_issue :
    (let s := slot1 1
     s.ctx.req = none ∧ tileExists s.me.part 2 = true ∧ s.operands [] [] [] = .ok [] ∧ s.operands [5] [] [] = .ok [0x31000] ∧
     s.operands [5, 6] [] [] = .ok [0x31000, 0] ∧ s.operands [5] [9] [] = .ok [0x31000] ∧ nonNeg (s.ctx.rx 7) = true ∧
     nonNeg 0x8000000000000001 = false ∧ nonNeg 0x8000000000000000 = true ∧
     (okVal (s.gaussOp 2 .loadf 0x31000 64 0)).isSome = true ∧ (okVal (s.gaussOp 2 .store 0x31000 64 0)).isSome = true ∧
     (okVal (s.gaussOp 2 (.solve 0) 0x31000 8 0)).isSome = true ∧
     (okVal (s.gaussOp 2 (.add false 0 none) 0x31000 64 0)).map (fun o => o.keys) = some (gop .loadf true).keys ∧
     (nextSt (exec (.gzero 2 16) s)).me.gqueue.map (fun o => o.kind) = [.zero 16] ∧
     (nextSt (exec (.gzero 2 16) s)).ctx.life = .blocked ∧ exec (.gzero 16 1) s = .next (s.trap { cause := 0x02 }) ∧
     (nextSt (exec (.gadd 5 6 0 0 2) s)).me.gqueue.map (fun o => o.kind) = [.add false 0 none] ∧
     exec (.gschur 6 0 2) s = .next (s.trap { cause := 0x02 }) ∧ (0x31008 : W).toNat % 64 ≠ 0 ∧
     exec (.gwait 9 6) s = .next (s.trap { cause := 0x02 }) ∧ (nextSt (exec (.gwait 9 5) s)).ctx.req = some ⟨3, none⟩ ∧
     exec (.gmab 9 5) s = .next (s.doneG 4 [5] 9 0)) ∧
    (let s := slot1 1 (fun c => { c with req := some ⟨1000, some (.value 7 1)⟩ })
     (nextSt (exec (.gzero 2 1) s)).ctx.fst = 1 ∧ (nextSt (exec (.gdamp 9 5 0 2) s)).ctx.g[9] = 7) ∧
    (let s := slot1 1 (fun c => { c with req := some ⟨1000, some (.trapped 2 3 4 5)⟩ })
     exec (.gsolve 5 0 2) s = .next (s.trap { cause := 2, detail := 3, addr := 4, exc := 5 })) ∧
    (let s := slot1 1 id fun x => { x with gmbox := 0x8000000000000000 + 1 * 2 ^ 22 + 0x31000, mab := 1 }
     s.me.mailSlot 0x31000 = some 0 ∧ s.me.mab &&& 0x31001 ≠ 0 ∧
     (nextSt (exec (.gadd 5 6 0 1 2) s)).me.gqueue.map (fun o => o.kind) = [.add false 0 (some 0)]) := by
  (and_intros <;> first | decide +kernel | (show @Eq Out _ _; exact next_of (by decide +kernel)) | (show @Eq (Res _) _ _; exact ok_of (by decide +kernel)) | (show @Eq (Res _) _ _; exact trap_of (by decide +kernel)))

theorem wit_GaussianEngine_run :
    (let s := slot1 1 (fun c => { c with req := some ⟨1000, none⟩ }) fun x => { x with gqueue := [gop .loadf false] }
     (s.core 0).tileOps = [] ∧ (match s.gaussKeys 0 (gop .loadf false) with | .ok ks _ => ks.length == 4 | _ => false) = true ∧
     (nextSt (exec (.gaussEngineTake 0) s)).me.gqueue.map (fun o => o.taken) = [true]) ∧
    (let s := slot1 1 (fun c => { c with req := some ⟨1000, none⟩ }) fun x => { x with gqueue := [gop .loadf false], mqueue := [op1 (.zero 1)] }
     (∃ q ∈ (s.core 0).tileOps, q.tile = 2) ∧ exec (.gaussEngineTake 0) s = .next s) ∧
    (let o : GaussOp := ⟨1, 1000, 2, .loadf, 0x50000, [poolKey 0 0x31000], 0, false⟩
     let s := slot1 1 (fun c => { c with req := some ⟨1000, none⟩ }) fun x => { x with gqueue := [o] }
     -- a dword that the contents have added lies in a page that may not be read
     (match s.gaussKeys 0 o with | .bad _ _ => true | _ => false) = true ∧
     (nextSt (exec (.gaussEngineTake 0) s)).me.gqueue = []) ∧
    (let s := slot1 1 (fun c => { c with req := some ⟨1000, none⟩ }) fun x => { x with
       gqueue := [gop (.add false 0 none) true], tiles := [(2, { fmt := 2, dim := 1 })] }
     (match s.gaussRun 0 (gop (.add false 0 none) true) with | .ok _ => true | _ => false) = true ∧
     (match GEnv.sums ⟨0, 2, 0⟩ false 0 1 [0x3FF0000000000000, 0x4000000000000000] Blk.zero 0 with
      | .ok (b, f) => b.eta 0 == 0x3FF0000000000000 && b.lam 0 0 == 0x4000000000000000 && f == 0
      | _ => false) = true ∧
     (nextSt (exec (.gaussEngineFinish 0) s)).ctx.req = some ⟨1000, some (.value 0 0)⟩) ∧
    (let s := slot1 1 (fun c => { c with req := some ⟨1000, none⟩ }) fun x => { x with gqueue := [gop (.add false 0 none) true] }
     (match s.gaussRun 0 (gop (.add false 0 none) true) with | .error _ => true | _ => false) = true ∧
     (nextSt (exec (.gaussEngineFinish 0) s)).ctx.req = some ⟨1000, some (.trapped 2 0 0 0)⟩) ∧
    (let s := slot1 1 id fun x => { x with gqueue := [gop (.zero 16) true] }
     s.memOk ∧ ((nextSt (exec (.gaussEngineFinish 0) s)).me.tile 2).dim = 16) := by
  unfold State.memOk
  (and_intros <;> first | decide +kernel | (show @Eq Out _ _; exact next_of (by decide +kernel)) | (show @Eq (Res _) _ _; exact ok_of (by decide +kernel)) | (show @Eq (Res _) _ _; exact trap_of (by decide +kernel)))

/-- The block at tile 2 of core 0. -/
def blkAt (i : Nat) : Nat := poolKey 0 (0x2F0000 + 2 * 4096 + 8 * i)

/-- The engine has operation k on tile 2, a block of n values with Λ = [[5, 2], [2, 4]] and η = [3, 2]; the slot holds η = 1,
Λ = 2 under header d0, its second dword 0.5; context 1 waits for the answer. -/
def finishing (k : GaussKind) (n : Nat) (d0 : W) (f : GaussOp → GaussOp := id) : State :=
  let s := slot1 1 (fun c => { c with req := some ⟨1000, none⟩ }) fun x => { x with
    tiles := [(2, { fmt := 2, dim := n })], gqueue := [f (gop k true)] }
  [(poolKey 0 0x31000, d0), (poolKey 0 0x31008, 0x3FE0000000000000), (blkAt 0, 0x4014000000000000), (blkAt 1, 0x4000000000000000),
   (blkAt 16, 0x4000000000000000), (blkAt 17, 0x4010000000000000), (blkAt 256, 0x4008000000000000), (blkAt 257, 0x4000000000000000)].foldl
    (fun s q => s.wr8 q.1 q.2) s

/-- The engine's environment with no exception enabled, and that block. -/
def env : GEnv := ⟨0, 2, 0⟩
def block22 : Blk := (finishing .store 2 0x101).readBlk 0 2

/-- Each instruction's result by hand (R290 to R296): the load; a sum; the elimination of the second value; the mean of one value;
the damped message with its residual; the stored message; and the stops. -/
theorem wit_GaussianEngine_results :
    (let s := (finishing .loadf 0 1).wr8 (poolKey 0 0x31008) 0
     let t := nextSt (exec (.gaussEngineFinish 0) s)
     s.memOk ∧ s.bad = [] ∧ (gop .loadf true).keys.length = 2 + 1 + (pairsOf 1).length ∧ (t.me.tile 2).dim = 1 ∧
     (loadedBlk 1 [0x3FF0000000000000, 0x4000000000000000]).lam 0 0 = 0x4000000000000000 ∧
     (loadedBlk 1 [0x3FF0000000000000, 0x4000000000000000]).eta 0 = 0x3FF0000000000000 ∧ t.ctx.req = some ⟨1000, some (.value 0 0)⟩) ∧
    (let t := nextSt (exec (.gaussEngineFinish 0) (finishing .loadf 0 0x101))
     t.ctx.req = some ⟨1000, some (.trapped 2 0 0x31000 0)⟩) ∧
    (let s := finishing (.add true 1 none) 2 0x101
     let t := nextSt (exec (.gaussEngineFinish 0) s)
     slotOk 0x101 = true ∧ (match env.sums true 1 1 [0x3FF0000000000000, 0x4000000000000000] block22 0 with
      | .ok (b, f) => (b.lam 1 1, b.eta 1, b.lam 0 0, f) == (0x4000000000000000, 0x3FF0000000000000, 0x4014000000000000, 0)
      | _ => false) = true ∧ t.ctx.req = some ⟨1000, some (.value 0 0)⟩ ∧ t.me.gqueue = []) ∧
    (let t := nextSt (exec (.gaussEngineFinish 0) (finishing (.add true 2 none) 2 0x101))
     t.ctx.req = some ⟨1000, some (.trapped 2 0 0 0)⟩) ∧
    (let s := finishing (.schur 1 0) 2 0x101
     let t := nextSt (exec (.gaussEngineFinish 0) s)
     (t.me.tile 2).dim = 1 ∧ (match env.schur 0 1 2 block22 0 with
      | .ok (b, f) => (b.lam 0 0, b.eta 0, f) == (0x4010000000000000, 0x4000000000000000, 0)
      | _ => false) = true) ∧
    (let t := nextSt (exec (.gaussEngineFinish 0) (finishing (.schur 1 0x4010000000000000) 2 0x101))
     -- the pivot 4.0 is not above the floor 4.0
     t.ctx.req = some ⟨1000, some (.trapped 0x0F 129 0x4010000000000000 0)⟩) ∧
    (let s := (finishing (.solve 0) 1 0x101 fun o => { o with keys := [poolKey 0 0x31000] }).wr8 (blkAt 0) 0x4010000000000000
     let t := nextSt (exec (.gaussEngineFinish 0) s)
     t.rd8 (poolKey 0 0x31000) = 0x3FE8000000000000 ∧ (t.me.tile 2).dim = 1) ∧
    (let s := finishing (.damp 0) 1 0x101
     let t := nextSt (exec (.gaussEngineFinish 0) s)
     (match env.damp 0x3FE0000000000000 (some [0x3FF0000000000000, 0x4000000000000000]) (block22.message 1) 0 with
      | .ok (l, f) => (l, f) == (([0x4000000000000000, 0x400C000000000000], 0x3FF8000000000000), 0)
      | _ => false) = true ∧ t.ctx.req = some ⟨1000, some (.value 0x3FF8000000000000 0)⟩ ∧ newHeader 0x101 1 true = 0x100000301) ∧
    (let t := nextSt (exec (.gaussEngineFinish 0) (finishing (.damp 0) 9 0x101))
     t.ctx.req = some ⟨1000, some (.trapped 2 0 0 0)⟩) ∧
    (let s := finishing .store 1 0x101
     let t := nextSt (exec (.gaussEngineFinish 0) s)
     block22.message 1 = [0x4008000000000000, 0x4014000000000000] ∧ newHeader 0x101 1 false = 0x100000101 ∧
     t.ctx.req = some ⟨1000, some (.value 0 0)⟩ ∧ t.me.gqueue = []) ∧
    (let s := (finishing .store 1 0x101).mapMe fun x => { x with tiles := [(2, { fmt := 1, dim := 1 })] }
     (nextSt (exec (.gaussEngineFinish 0) s)).ctx.req = some ⟨1000, some (.trapped 2 0 0 0)⟩) ∧
    (dampEntry 0 false 0 7 8).1 = 7 ∧ (dampEntry 0 false 0 7 8).2.1.length = 0 ∧ (dampEntry 0 false 0 7 8).2.2 = f64.inf false ∧ (dampEntry 0 true 0 7 8).1 = 7 ∧ (dampEntry 0 true 0x3FF0000000000000 7 8).1 = 8 ∧
    maxNorm 0x3FF0000000000000 0x4000000000000000 = 0x4000000000000000 ∧ distance 0x4008000000000000 0x3FF0000000000000 = 0x4000000000000000 := by
  unfold State.memOk
  (and_intros <;> first | decide +kernel | (show @Eq Out _ _; exact next_of (by decide +kernel)) | (show @Eq (Res _) _ _; exact ok_of (by decide +kernel)) | (show @Eq (Res _) _ _; exact trap_of (by decide +kernel)))

def gbp1 (m : Nat) : GbpPkt := ⟨⟨8, 1, 0, 0, 0⟩, 5, 1, m, leBytes 8 0x301 ++ List.replicate 24 0, none⟩

/-- Core 0 with a mailbox of two slots at 0x31000, open to endpoint 5 of core 8. -/
def mailed : State := windowed.mapMe fun x => { x with gmbox := 0x8000000000000000 + 2 * 2 ^ 22 + 0x31000 }

theorem wit_GaussianEngine_mail :
    (let s := ((unitChan 6 0x2008 9 [(6, 0x31000)]).wr8 (poolKey 0 0x31000) 0x101)
     s.operands [6] [] [] = .ok [0x31000] ∧ s.ctx.pend = [] ∧ (s.ep 5).owner = s.cur.ctx ∧ (s.ep 5).st = .open ∧
     (s.ep 5).proto.toNat = 6 ∧ s.access 0x31000 8 8 { r := true } = .ok (poolKey 0 0x31000) ∧ slotOk 0x101 = true ∧
     s.accessAll 8 { r := true } (dwordsAt 0x31000 (slotDwords 1)) = .ok ((gop .loadf true).keys) ∧ s.ctx.count .gstore < 65535 ∧ s.weak = [] ∧
     ((nextSt (exec (.gstormSend 6 5) s)).ep 5).state = 1) ∧
    (let s := came mailed (.port 0) (.gbp (gbp1 1))
     (s.core 0).gmbox.getLsbD 63 = true ∧ (1 : Nat) < ((s.core 0).gmbox.extractLsb' 22 7).toNat ∧
     (s.epAt 8 5).st ≠ .unbound ∧ (s.epAt 8 5).gen = 1 ∧ s.held 0 0x31200 32 true = false ∧ s.badIn (poolKey 0 0x31200) 32 = none ∧
     ((nextSt (exec (.gbpArrival 0) s)).core 0).mab = 2 ∧ (nextSt (exec (.gbpArrival 0) s)).rd8 (poolKey 0 0x31200) = 0x301) ∧
    (let s := came mailed (.port 0) (.gbp (gbp1 2))
     ((nextSt (exec (.gbpArrival 0) s)).core 0).nackcnt = 1) ∧
    (let s := came { mailed with bad := [poolKey 0 0x31208] } (.port 0) (.gbp (gbp1 1))
     ((nextSt (exec (.gbpArrival 0) s)).core 0).mab = 0 ∧ (nextSt (exec (.gbpArrival 0) s)).net.map (fun q => q.body) =
       [.reply 5 1 none (.gbpCredit (gbp1 1) (.dataErr 0x31208))]) ∧
    (let s := came (mailed.mapMe fun x => { x with gqueue := [⟨1, 1000, 2, .loadf, 0, [poolKey 0 0x31210], 0, true⟩] }) (.port 0) (.gbp (gbp1 1))
     s.held 0 0x31200 32 true = true ∧ exec (.gbpArrival 0) s = .next (s.parkAs 0 (.gbp { gbp1 1 with slot := some 0x31200 })) ∧
     -- what the arrival found in gmbox stands: it is written there although gmbox has changed since
     (let t := (nextSt (exec (.gbpArrival 0) s)).mapMe fun x => { x with gmbox := 0, gqueue := [] }
      (nextSt (exec (.gbpArrival 0) t)).rd8 (poolKey 0 0x31200) = 0x301)) ∧
    (let s := came (mailed.mapEpAt 8 5 fun ep => { ep with st := .unbound }) (.port 0) (.gbp (gbp1 1))
     (nextSt (exec (.gbpArrival 0) s)).mem = [] ∧ ((nextSt (exec (.gbpArrival 0) s)).core 0).mab = 0) ∧
    -- a waiter for slot 1 wakes as it is filled, and one whose slot was emptied again before its turn completes with 0
    (let s := came (mailed.mapCtx fun c => { c with req := some ⟨3, none⟩, life := .blocked, wait := some { kind := 1, slots := 2 } })
       (.port 0) (.gbp (gbp1 1))
     (nextSt (exec (.gbpArrival 0) s)).ctx.life = .runnable) ∧
    (let s := tst 1 [(5, 2)] fun c => { c with req := some ⟨3, some (.value 0 0)⟩ }
     s.me.mab &&& 2 = 0 ∧ s.ctx.life = .runnable ∧ exec (.gwait 9 5) s = .next (s.doneG 4 [5] 9 0)) ∧
    (let s := tst 1 [(5, 2)] fun c => { c with req := some ⟨3, none⟩ }
     -- one made RUNNABLE to read its word again waits on
     exec (.gwait 9 5) s = .next (s.block { kind := 1, slots := 2 })) ∧
    (let s := came (unitChan 6 0x2008 9 [] fun ep => { ep with state := 1 }) (.core 0) (.reply 5 1 none (.gbpCredit ⟨org1, 5, 1, 1, [], none⟩ .ok))
     (s.epAt 0 5).st = .open ∧ (s.epAt 0 5).gen = 1 ∧ ((nextSt (exec (.gbpCreditArrival 0) s)).ep 5).state = 0) ∧
    (let s := came ((unitChan 6 0x2008 9 [] fun ep => { ep with state := 1 }).mapCtx fun c => { c with ops := [⟨0, .gstore, 1, false, true, none⟩] }) (.core 0)
       (.reply 5 1 none (.gbpCredit ⟨org1, 5, 1, 1, [], none⟩ (.dataErr 0x31208)))
     (nextSt (exec (.gbpCreditArrival 0) s)).ctx.pend.map (fun f => (f.cause, f.detail, f.addr)) = [(0x11, 5, 0x31208)]) ∧
    (let s := came (unitChan 6 0x2008 9 [] fun ep => { ep with st := .lost }) (.core 0) (.reply 5 1 none (.gbpCredit ⟨org1, 5, 1, 1, [], none⟩ .ok))
     exec (.gbpCreditArrival 0) s = .next (s.takePacket 0)) := by
  (and_intros <;> first | decide +kernel | (show @Eq Out _ _; exact next_of (by decide +kernel)) | (show @Eq (Res _) _ _; exact ok_of (by decide +kernel)) | (show @Eq (Res _) _ _; exact trap_of (by decide +kernel)))

/-- A continuation record: queue 0 of floe 0, any core, resuming at 0x30200 with predicates 3 and g4 = 7. -/
def rec1 : List W := [mkW [(1, 36), (3, 16)], 0x30200, 7, 8, 9, 10, 11, 12]

/-- Floe 0 as given, seen by context k of core 0. -/
def floeSt (k : CtxId) (l : List (Nat × W)) (f : Floe → Floe := id) : State := { tst k l with floes := [(0, f Floe.init)] }

theorem wit_FloesDispense_registers :
    (let s := floeSt 0 [(5, 0x040), (6, 9), (7, 0x038), (8, 0x123), (10, 2)] fun x => { x with rdup := 77, ffault := 5 }
     s.operands [5] [9] [] = .ok [0x040] ∧ (s.floe s.myFloe).readReg 0x040 = some 77 ∧ (s.floe s.myFloe).readReg 0x123 = none ∧
     exec (.rdfloe 9 5) s = .next (s.doneG 4 [5] 9 77) ∧ exec (.rdfloe 9 7) s = .next (s.doneG 4 [7] 9 5) ∧
     exec (.rdfloe 9 8) s = .next (s.trap { cause := 0x02 }) ∧ s.isSupervisor = true ∧
     ((s.floe s.myFloe).writeReg 0x040 s.me.xroot 9).isSome = true ∧
     ((nextSt (exec (.wrfloe 5 6) s)).floe 0).rdup = 9 ∧ ((s.floe s.myFloe).writeRing 0 s.me.xroot 6).isSome = true ∧
     ((nextSt (exec (.qringWrite 0 6) s)).floe 0).qring[0] = 6 ∧ ((s.floe s.myFloe).writeDrift 0x10100000064).isSome = true ∧
     ((nextSt (exec (.driftWrite 0x10100000064) s)).floe 0).drift = 0x10100000064 ∧
     ((nextSt (exec (.tscWrite 0x102) s)).floe 0).tsc = 0x102 ∧
     ((s.floe s.myFloe).writeRing 0 s.me.xroot 3).isSome = false ∧
     (nextSt (exec (.qreset 10) s)).queue 0 2 = { s.queue 0 2 with gen := 1 } ∧ exec (.funion 9) s = .next (s.doneG 4 [] 9 0)) ∧
    (let s := floeSt 1 [(5, 0x040), (6, 9)]
     s.isSupervisor = false ∧ exec (.wrfloe 5 6) s = .next (s.trap { cause := 0x02 }) ∧
     exec (.funion 9) s = .next (s.trap { cause := 0x02 }) ∧ exec (.qreset 5) s = .next (s.trap { cause := 0x02 })) := by
  (and_intros <;> first | decide +kernel | (show @Eq Out _ _; exact next_of (by decide +kernel)) | (show @Eq (Res _) _ _; exact ok_of (by decide +kernel)) | (show @Eq (Res _) _ _; exact trap_of (by decide +kernel)))

theorem wit_FloesDispense_queues :
    (let s := (floeSt 1 [(5, 0), (6, 0x10000000001), (7, 5), (8, 0x31000), (10, 0), (11, 0x30101), (12, 0x30208)])
     let t := s.wrWords (poolKey 0 0x31000) rec1
     s.ctx.pend = [] ∧ s.ctx.gang = none ∧ s.ctx.ops = [] ∧ (6 : Nat) < 7 ∧ exec (.qhandle 9 5) s = .next (s.doneG 4 [5] 9 0) ∧
     (nextSt (exec (.qhandle 9 6) s)).net.length = 1 ∧ exec (.qstat 9 5) s = .next (s.doneG 4 [5] 9 0) ∧
     exec (.qstat 9 7) s = .next (s.trap { cause := 0x02 }) ∧
     (match t.readRecord 0x31000 with | .ok r => r.1 == rec1 | _ => false) = true ∧
     (nextSt (exec (.spawn 8 10) t)).ctx.count .gstore = 1 ∧ (nextSt (exec .waitw s)).ctx.life = .waiting ∧
     (nextSt (exec .retire s)).ctx.life = .waiting ∧ (nextSt (exec .disband s)).ctx.life = .waiting ∧
     exec (.suspend 11) s = .next (s.trap { cause := 0x02 }) ∧
     (nextSt (exec (.suspend 12) s)).ctx.life = .waiting ∧ (nextSt (exec (.suspend 12) s)).net.length = 1) ∧
    (let s := (floeSt 1 [(6, 0x10000000001)]).mapCtx fun c => { c with req := some ⟨1000, some (.value 7 0)⟩ }
     exec (.qhandle 9 6) s = .next (s.doneG 4 [6] 9 7)) ∧
    (let s := floeSt 0 []
     exec .waitw s = .next (s.trap { cause := 0x02 }) ∧ exec .retire s = .next (s.trap { cause := 0x02 })) ∧
    (let s := (floeSt 1 [(12, 0x30208)]).mapCtx fun c => { c with ops := [⟨0, .copy, 1, false, true, none⟩] }
     exec (.suspend 12) s = .next (s.block { kind := 5 })) ∧
    (let s := came (floeSt 1 []) (.floe 0) (.enqueue none rec1 none)
     (s.floe 0).ffault = 0 ∧ (s.queue 0 0).bank.length < 256 ∧ (s.queue 0 0).move = none ∧
     (s.arrived 0).map (fun q => (q.dst, q.body)) = some (.floe 0, .enqueue none rec1 none) ∧
     ((nextSt (exec (.enqueueWithoutHandle 0) s)).queue 0 0).bank = [rec1]) ∧
    (let s := came (floeSt 1 []) (.floe 0) (.enqueue (some org1) rec1 (some 0x1000000))
     ((nextSt (exec (.enqueueWithHandle 0) s)).queue 0 0).bank = [] ∧
     (nextSt (exec (.enqueueWithHandle 0) s)).net.map (fun q => q.body) = [.enqueueAck org1 false 0x1000000]) ∧
    (let s := came (floeSt 1 []) (.floe 0) (.task 0 0 true rec1 0)
     ((nextSt (exec (.taskRequest 0) s)).queue 0 0).bank = [rec1] ∧ (nextSt (exec (.taskRequest 0) s)).hostOut = [.launchAnswer true 0]) ∧
    (let s := came ((floeSt 1 []).mapCtx fun c => { c with ops := [⟨0, .gstore, 1, false, true, none⟩] }) (.core 0) (.enqueueAck org1 false 6)
     (nextSt (exec (.enqueueAckArrival 0) s)).ctx.pend.map (fun f => (f.cause, f.detail, f.addr)) = [(0x12, 0, 6)]) := by
  (and_intros <;> first | decide +kernel | (show @Eq Out _ _; exact next_of (by decide +kernel)) | (show @Eq (Res _) _ _; exact ok_of (by decide +kernel)) | (show @Eq (Res _) _ _; exact trap_of (by decide +kernel)))

theorem wit_FloesDispense_deques :
    (let x := fun (x : Core) => { x with dqbase := 0x31000, dqlim := 0x31008 }
     let s := tst 1 [(5, 7), (6, 0), (7, 3 * 2 ^ 37), (8, 1)] id x
     exec (.dqpush 9 6) s = .next (s.trap { cause := 0x02 }) ∧ (nextSt (exec (.dqpush 9 5) s)).rd8 (poolKey 0 0x31000) = 7 ∧
     (nextSt (exec (.dqpush 9 5) s)).ctx.g[9] = 1 ∧ exec (.dqpop 9) s = .next (s.doneG 4 [] 9 0) ∧
     exec (.dqcount 9) s = .next (s.doneG 4 [] 9 0) ∧ (nextSt (exec (.dqsteal 9 7) s)).net.length = 1 ∧
     (7 : W).extractLsb' 0 37 ≠ 0 ∧ (nextSt (exec (.dqsteal 9 7) s)).ctx.life = .blocked) ∧
    (let s := (tst 1 [(7, 3 * 2 ^ 37)] fun c => { c with req := some ⟨1000, some (.value 7 0)⟩ })
     exec (.dqsteal 9 7) s = .next (s.doneG 4 [7] 9 7)) ∧
    (let s := came (tst 1 [] id fun x => { x with dqbase := 0x31000, dqlim := 0x31010, bot := 2 }) (.core 0) (.stealReq ⟨8, 1, 1000⟩)
     (((nextSt (exec (.stealRequestArrival 0) s)).core 0).top = 1) ∧
     (nextSt (exec (.stealRequestArrival 0) s)).net.map (fun q => q.body) = [.stealReply ⟨8, 1, 1000⟩ 0]) ∧
    (let s := came (tst 1 [] fun c => { c with req := some ⟨1000, none⟩ }) (.core 0) (.stealReply ⟨0, 1, 1000⟩ 9)
     (nextSt (exec (.stealReplyArrival 0) s)).ctx.req = some ⟨1000, some (.value 9 0)⟩) ∧
    (let s := came (floeSt 1 []) (.floe 0) (.handleReq ⟨8, 1, 1000⟩ 2)
     (nextSt (exec (.qhandleReplyArrival 0) s)).net.map (fun q => q.body) = [.handleReply ⟨8, 1, 1000⟩ 2]) ∧
    (let s := came (tst 1 [] fun c => { c with req := some ⟨1000, none⟩ }) (.core 0) (.handleReply ⟨0, 1, 1000⟩ 9)
     (nextSt (exec (.qhandleReplyArrival 0) s)).ctx.req = some ⟨1000, some (.value 9 0)⟩) ∧
    (let s : State := { floeSt 1 [] (fun x => { x with drift := 0x10100000064 }) with
       cores := [(0, { tcore with dqbase := 0x31000, dqlim := 0x31020, bot := 4 }), (1, { tcore with dqbase := 0x31000, dqlim := 0x31020 })] }
     (s.floe 0).ffault = 0 ∧ (s.floe 0).drift.extractLsb' 0 32 ≠ 0 ∧ (s.floe 0).visit = none ∧
     ((nextSt (exec (.driftInterval 0) s)).floe 0).visit = some ⟨0, 1, 1, 1⟩ ∧
     (((nextSt (exec (.driftInterval 0) s)).driftOn 0).core 1).bot = 1 ∧ (((nextSt (exec (.driftInterval 0) s)).driftOn 0).core 0).top = 1 ∧
     (((nextSt (exec (.driftInterval 0) s)).driftOn 0).driftOn 0 |>.floe 0).visit = some ⟨1, 2, 0, 0⟩ ∧
     (((nextSt (exec (.driftInterval 0) s)).driftOn 0).driftOn 0 |>.floe 0).dmoves = 1) ∧
    -- the worked example of R321: DTH 2, DMAX 4, the first visit
    (let s : State := { floeSt 1 [] (fun x => { x with drift := 0x40200000064 }) with
       cores := (List.range 8).map fun i => (i, { tcore with dqbase := 0x31000, dqlim := 0x31100, bot := [9, 1, 4, 4, 0, 0, 0, 0].getD i 0 }) }
     ((nextSt (exec (.driftInterval 0) s)).floe 0).visit = some ⟨0, 7, 4, 4⟩) := by
  (and_intros <;> first | decide +kernel | (show @Eq Out _ _; exact next_of (by decide +kernel)) | (show @Eq (Res _) _ _; exact ok_of (by decide +kernel)) | (show @Eq (Res _) _ _; exact trap_of (by decide +kernel)))

theorem wit_FloesDispense_delivers :
    (let s := { tst 1 [] (fun c => { c with life := .waiting }) with
       floes := [(0, { Floe.init with queues := Floe.init.queues.set 0 { bank := [rec1] } })] }
     (s.floe 0).ffault = 0 ∧ s.nextDelivery 0 = some (0, 0, 0, 1) ∧ nthD [] (s.queue 0 0).bank 0 = rec1 ∧
     (nextSt (exec (.dispenserDelivery 0 false) s)).ctx.life = .runnable ∧
     (nextSt (exec (.dispenserDelivery 0 false) s)).ctx.pc = 0x30200 ∧
     (nextSt (exec (.dispenserDelivery 0 false) s)).ctx.g[4] = 7 ∧ (nextSt (exec (.dispenserDelivery 0 false) s)).ctx.p = 3 ∧
     exec (.dispenserDelivery 0 true) s = .next (s.floeFault 0 1)) ∧
    (let s := floeSt 1 [] fun x => { x with queues := x.queues.set 0 { spilled := true, move := some (false, []) } }
     (s.floe 0).ffault = 0 ∧ (s.queue 0 0).move.isSome = true ∧ ((nextSt (exec (.queueMoveComplete 0 0 true) s)).queue 0 0).spilled = false ∧
     exec (.queueMoveComplete 0 0 false) s = .next (s.floeFault 0 3)) := by
  (and_intros <;> first | decide +kernel | (show @Eq Out _ _; exact next_of (by decide +kernel)) | (show @Eq (Res _) _ _; exact ok_of (by decide +kernel)) | (show @Eq (Res _) _ _; exact trap_of (by decide +kernel)))

/-- The choice of R313 among waiting contexts and records; entries of a deque that an engine holds; outstanding operations. -/
theorem wit_FloesDispense_choice :
    (let waiting := fun (at_ : Nat) => ({ tctx [] with life := .waiting, waitingAt := at_ } : Ctx)
     let s := fun (l : List (Nat × Nat)) (bank : List (List W)) => ({ tst 0 [] with
       cores := (List.range 2).map fun c => (c, { tcore with ctxs := l.filterMap fun q => if q.1 / 16 = c then some (q.1 % 16, waiting q.2) else none })
       floes := [(0, { Floe.init with queues := Floe.init.queues.set 0 { bank := bank } })] } : State)
     let late : List W := [mkW [(1, 36), (1, 28)], 0x30200, 0, 0, 0, 0, 0, 0]
     let bound : List W := [mkW [(1, 37)], 0x30200, 0, 0, 0, 0, 0, 0]
     (s [(1, 5), (2, 3)] [rec1]).nextDelivery 0 = some (0, 0, 0, 2) ∧ (s [(18, 3), (2, 3), (3, 3)] [rec1]).nextDelivery 0 = some (0, 0, 0, 2) ∧
     (s [(1, 5), (15, 9)] [late, rec1]).nextDelivery 0 = some (0, 0, 0, 15) ∧ (s [(1, 5)] [late, rec1]).nextDelivery 0 = some (0, 1, 0, 1) ∧
     (s [(1, 5), (17, 9)] [bound]).nextDelivery 0 = some (0, 0, 1, 1) ∧ (s [(1, 5)] [bound]).nextDelivery 0 = none ∧
     (s [(1, 5)] (List.replicate 8 late ++ [rec1])).nextDelivery 0 = none) ∧
    (let s := engaged (tst 1 [(5, 7)] id fun x => { x with dqbase := 0x31000, dqlim := 0x31010, bot := 1 }) (poolKey 0 0x31000)
     s.popHeld 0 = true ∧ exec (.dqpop 9) s = .next (s.block { kind := 5 }) ∧ s.stealHeld 0 = true ∧
     (let u := came s (.core 0) (.stealReq ⟨8, 1, 1000⟩)
      exec (.stealRequestArrival 0) u = .next (u.park 0))) ∧
    (let s := engaged (tst 1 [(5, 7)] id fun x => { x with dqbase := 0x31000, dqlim := 0x31010 }) (poolKey 0 0x31000)
     s.pushHeld 0 = true ∧ exec (.dqpush 9 5) s = .next (s.block { kind := 5 })) ∧
    (let s := (floeSt 1 []).mapCtx fun c => { c with ops := [⟨0, .copy, 1, false, true, none⟩] }
     exec .waitw s = .next (s.block { kind := 5 }) ∧ exec .retire s = .next (s.block { kind := 5 }) ∧ exec .disband s = .next (s.block { kind := 5 })) ∧
    (let s := (floeSt 1 []).mapCtx fun c => { c with gang := some ⟨2, 0, 0⟩ }
     exec .waitw s = .next (s.trap { cause := 0x02 }) ∧ exec .retire s = .next (s.trap { cause := 0x02 })) ∧
    (let s : State := { floeSt 1 [] (fun x => { x with drift := 0x10100000064, visit := some ⟨0, 1, 1, 1⟩ }) with
       cores := [(0, { tcore with dqbase := 0x31000, dqlim := 0x31020, bot := 4 }), (1, { tcore with dqbase := 0x31000, dqlim := 0x31020 })] }
     let u := s.mapMe fun x => { x with gqueue := [⟨1, 1000, 2, .loadf, 0, [poolKey 0 0x31000], 0, true⟩] }
     u.stealHeld 0 = true ∧ u.driftOn 0 = u) := by
  (and_intros <;> first | decide +kernel | (show @Eq Out _ _; exact next_of (by decide +kernel)) | (show @Eq (Res _) _ _; exact ok_of (by decide +kernel)) | (show @Eq (Res _) _ _; exact trap_of (by decide +kernel)))

/-- A binary64 task: one step, formats 1, no semaphores, drained to core 0 at 0x31400. -/
def task1 : List W := [0x31000, 0x31040, 0, mkW [(8, 48), (8, 32), (8, 16), (1, 0)],
  mkW [(1, 60), (1, 56), (2, 46), (1, 42)], 0x31400, 0, 0]

def withTsc (x : Floe) : Floe := { x with tsc := 0x080 }

/-- Memory of core 0 with those dwords at 0x31000. -/
def holding (s : State) (r : List W) : State := s.wrWords (poolKey 0 0x31000) r

theorem wit_TasksAndGangs_issue :
    (let s := holding (floeSt 1 [(5, 0x31000), (6, 0x31040)] withTsc) task1
     s.ctx.count .tile < 65535 ∧ (s.floe s.myFloe).tsc.extractLsb' 6 6 ≠ 0 ∧ s.operands [5] [] [] = .ok [0x31000] ∧
     (match s.readRecord 0x31000 with | .ok r => r.1 == task1 | _ => false) = true ∧ recordOk task1 = true ∧ kplOk 1 1 0 = true ∧
     (nthD 0 task1 3).extractLsb' 0 16 ≠ 0 ∧ tileDepth 2 1 1 ≠ none ∧ nthD 0 task1 6 = 0 ∧
     ((nextSt (exec (.ttask 5) s)).floe 0).tasks.map (fun t => t.record) = [task1] ∧
     (s.ctx.rx 5).extractLsb' 12 52 = 0 ∧ (nthD 0 task1 4).getLsbD 35 = false ∧ s.operands [5, 6] [] [] = .ok [0x31000, 0x31040] ∧
     ((nextSt (exec (.tgroup 5 6) s)).floe 0).groups.map (fun w => (w.array, w.count)) = [(0x31040, 1)]) ∧
    (let s := holding (floeSt 1 [(5, 0x31000)] fun x => { withTsc x with tasks := List.replicate 64 ⟨0, org1, task1, none⟩ }) task1
     64 ≤ (s.floe s.myFloe).tasks.length ∧ exec (.ttask 5) s = .next (s.block { kind := 2 })) ∧
    (let s := holding (floeSt 1 [(5, 0x31000)]) task1
     (s.floe s.myFloe).tsc.extractLsb' 6 6 = 0 ∧ exec (.ttask 5) s = .next (s.trap { cause := 0x02 })) := by
  (and_intros <;> first | decide +kernel | (show @Eq Out _ _; exact next_of (by decide +kernel)) | (show @Eq (Res _) _ _; exact ok_of (by decide +kernel)) | (show @Eq (Res _) _ _; exact trap_of (by decide +kernel)))

/-- A task with a wake record, and the refusals; a full list of groups; the other empty groups. -/
theorem wit_TasksAndGangs_records :
    (let g := task1.set 6 0x31080
     let s := fun (w : W) => (holding (floeSt 1 [(5, 0x31000), (6, 0x31040)] withTsc) g).wr8 (poolKey 0 0x31080) w
     (match (s 0).readRecord 0x31080 with | .ok q => q.1 == List.replicate 8 0 | _ => false) = true ∧
     wakeOk ((nthD 0 g 5).extractLsb' 37 11) (List.replicate 8 0) = true ∧
     ((nextSt (exec (.ttask 5) (s 0))).floe 0).tasks.map (fun t => t.wake) = [some (List.replicate 8 0)] ∧
     exec (.ttask 5) (s (mkW [(1, 36)])) = .next ((s (mkW [(1, 36)])).trap { cause := 0x02 }) ∧
     (let u := (s 0).mapFloe 0 fun x => { x with tasks := List.replicate 64 ⟨0, org1, task1, none⟩ }
      exec (.ttask 5) u = .next (u.block { kind := 2 }))) ∧
    (let s := holding (floeSt 1 [(5, 0x31000)] withTsc) (task1.set 6 0x31088)
     exec (.ttask 5) s = .next (s.trap { cause := 0x02 })) ∧
    (let w : GroupWalk := ⟨0, org1, task1, 0x31000, 1, 0, 0, false⟩
     let s := holding (floeSt 1 [(5, 0x31000), (6, 0x31040)] fun x => { withTsc x with groups := List.replicate 4 w }) task1
     4 ≤ (s.floe s.myFloe).groups.length ∧ exec (.tgroup 5 6) s = .next (s.block { kind := 2 }) ∧
     (let u := s.mapCtx fun c => { c with x := c.x.set 5 0x1000 }
      exec (.tgroup 5 6) u = .next (u.trap { cause := 0x02 }))) ∧
    (let w : GroupWalk := ⟨0, org1, task1, 0x31000, 1, 0, 0, false⟩
     ([[0x31000, 0x31040, 0x31400, mkW [(8, 32)], mkW [(8, 32)], 1, 0, 0], [0x31000, 0x31040, 0x31400, mkW [(8, 0), (8, 32)], 0, 1, 0, 0],
       [0x31000, 0x31040, 0x31400, 8, mkW [(8, 32)], 1, 0, 0]].all fun g =>
         let s := holding (floeSt 1 [] fun x => { withTsc x with groups := [w] }) g
         (groupDepth 2 g).isSome && ((nextSt (exec (.groupWalkTileIssue 0 0) s)).floe 0).groups == []) = true) := by
  (and_intros <;> first | decide +kernel | (show @Eq Out _ _; exact next_of (by decide +kernel)) | (show @Eq (Res _) _ _; exact ok_of (by decide +kernel)) | (show @Eq (Res _) _ _; exact trap_of (by decide +kernel)))

/-- The task on core 0 and its first scheduler tile. -/
def run1 : TaskRun := taskRun ⟨0, org1, task1, none⟩ 0 0

theorem wit_TasksAndGangs_scheduler :
    (let s := floeSt 1 [] fun x => { withTsc x with tasks := [⟨0, org1, task1, none⟩] }
     (s.floe 0).ffault = 0 ∧ (s.floe 0).tasks.find? (s.floe 0).taskReady = some ⟨0, org1, task1, none⟩ ∧ s.freeTile 0 = some (0, 0) ∧
     ((nextSt (exec (.tileTaskIssue 0) s)).floe 0).tasks = [] ∧ ((nextSt (exec (.tileTaskIssue 0) s)).floe 0).runs = [run1] ∧
     ((nextSt (exec (.tileTaskIssue 0) s)).core 0).mqueue.map (fun o => o.kind) = [.zero 2] ∧
     (taskRun ⟨0, org1, task1, none⟩ 0 0).steps = 1) ∧
    (let s := (floeSt 1 [] fun x => { withTsc x with runs := [{ run1 with ended := true, dsem := some 3 }] }).mapCtx fun c =>
       { c with ops := [⟨0, .tile, 1, false, true, none⟩] }
     (s.floe 0).runs.find? (fun r => r.id = 0) = some { run1 with ended := true, dsem := some 3 } ∧
     (nextSt (exec (.tileTaskFinish 0 0) s)).ctx.ops = [] ∧ ((nextSt (exec (.tileTaskFinish 0 0) s)).floe 0).fsems[3] = 1) ∧
    (let w : GroupWalk := ⟨0, org1, task1, 0x31000, 1, 0, 0, false⟩
     let s := holding (floeSt 1 [] fun x => { withTsc x with groups := [w] }) [0x31000, 0x31040, 0x31400, 8, mkW [(8, 32)], 1, 0, 0]
     (s.floe 0).groups.find? (fun w => w.id = 0) = some w ∧ w.stopped = false ∧ w.at_ < w.count ∧
     (match s.engRead 0 0x31000 64 0 with
      | .ok v _ => decide (v / 2 ^ 320 % 2 ^ 64 = 1) && decide (v / 2 ^ 192 % 2 ^ 64 = 8)
      | _ => false) = true ∧
     groupDepth 2 [0x31000, 0x31040, 0x31400, 8, mkW [(8, 32)], 1, 0, 0] = some 16 ∧
     ((nextSt (exec (.groupWalkTileIssue 0 0) s)).floe 0).groups = []) ∧
    (let w : GroupWalk := ⟨0, org1, task1, 0x31000, 1, 0, 0, false⟩
     let s := holding (floeSt 1 [] fun x => { withTsc x with groups := [w] }) [0x31000, 0x31040, 0x31400, 8, 1, 1, 0, 0]
     groupDepth 2 [0x31000, 0x31040, 0x31400, 8, 1, 1, 0, 0] = none ∧
     (nextSt (exec (.groupWalkTileIssue 0 0) s)).ctx.pend.map (fun f => f.cause) = [0x13]) := by
  (and_intros <;> first | decide +kernel | (show @Eq Out _ _; exact next_of (by decide +kernel)) | (show @Eq (Res _) _ _; exact ok_of (by decide +kernel)) | (show @Eq (Res _) _ _; exact trap_of (by decide +kernel)))

theorem wit_TasksAndGangs_gangs :
    (let s := tst 0 []
     s.operands [] [9] [] = .ok [] ∧ s.plain [9] ∧ exec (.gang 9 1) s = .next (s.trap { cause := 0x02 })) ∧
    (let s : State := { tst 1 [] with cores := (tst 1 []).cores ++ [(1, tcore)] }
     s.ctx.gang = none ∧ ((s.core 1).ctx 1).life = .free ∧ (s.core 1).part = s.me.part ∧ (s.core 1).frameFree = true ∧
     (nextSt (exec (.gang 9 1) s)).ctx.gang = some ⟨2, 0, 0⟩ ∧ (nextSt (exec (.gang 9 1) s)).ctx.g[9] = 2 ∧
     ((nextSt (exec (.gang 9 1) s)).ctxAt 1 1).life = .runnable ∧ ((nextSt (exec (.gang 9 1) s)).ctxAt 1 1).g[5] = 0x31140) ∧
    (let held := (List.range 9).map fun i => (2 + i, { Ctx.init with life := .runnable, frame := 1 + i })
     let s : State := { tst 1 [] id (fun x => { x with part := 0x00042A0000000000 }) with
       cores := (tst 1 [] id fun x => { x with part := 0x00042A0000000000 }).cores ++
         [(1, { tcore with part := 0x00042A0000000000, ctxs := held ++ [(11, { Ctx.init with life := .stopped, stoppedAt := 3 })] })] }
     -- core 1 has no free frame, and its spill engine begins for the gang
     (s.core 1).frameFree = false ∧ ((s.core 1).ctx 1).life = .free ∧ (s.core 1).victim = some 11 ∧
     ((nextSt (exec (.gang 9 1) s)).core 1).spill = some (11, 1) ∧ (nextSt (exec (.gang 9 1) s)).ctx.life = .blocked) ∧
    (let s : State := { tst 1 [] with cores := (tst 1 []).cores ++ [(1, { tcore with ctxs := [(1, { Ctx.init with life := .runnable })] })] }
     ((s.core 1).ctx 1).life ≠ .free ∧ exec (.gang 9 1) s = .next ((s.setG 9 0).complete 4)) ∧
    (let g : Gang := ⟨2, 0, 0⟩
     let s : State := { tst 1 [] (fun c => { c with gang := some g }) with
       cores := (tst 1 [] fun c => { c with gang := some g }).cores ++ [(1, { tcore with ctxs := [(1, { tctx [] with gang := some g })] })] }
     s.ctx.gang = some g ∧ (nextSt (exec .disband s)).ctx.life = .blocked ∧
     ((nextSt (exec .disband s)).ctxAt 1 1).leaving = some g) ∧
    (let g : Gang := ⟨2, 0, 0⟩
     let s := tst 1 [] fun c => { c with leaving := some g }
     g.leader = s.cur.core ∧ (s.ctxAt 1 1).leaving ≠ some g ∧
     exec .disband s = .next ((s.mapCtx fun c => { c with leaving := none }).complete 4)) := by
  unfold State.plain
  (and_intros <;> first | decide +kernel | (show @Eq Out _ _; exact next_of (by decide +kernel)) | (show @Eq (Res _) _ _; exact ok_of (by decide +kernel)) | (show @Eq (Res _) _ _; exact trap_of (by decide +kernel)))

/-- Stream 7 at floe 0: from L and port W to port E; `d1` is a node's second dword. -/
def streamed (s : State) (red : Nat) (d1 : W) (out : Nat := 2) (f : Floe → Floe := id) : State :=
  { s with floes := [(0, f { Floe.init with streams := [(7, ⟨mkW [(1, 63), (red, 58), (0b000101 * 64 + out, 0)], d1, 0⟩)] })] }

/-- RED endpoint 5 of context 1, joined to stream 7 as contributor 2 in format fmt. -/
def redChan (fmt : BitVec 2) (l : List (Nat × W)) (f : Endpoint → Endpoint := id) : State :=
  tst 1 l (fun c => { c with x := c.x.set 1 (mkW [(34, 28), (1, 22), (0x38000, 0)]) }) fun x => { x with
    eps := [(5, f { st := .open, owner := 1, proto := 7, paddr := 7, pgen := 0x20 + fmt.zeroExtend 16, gen := 1, base := 0x38000,
                    slotu := 34, depth := 1 })] }

theorem wit_Reductions_endpoints :
    (let s := streamed (redChan 0 [(6, 7), (7, 0x1000), (8, 0x3FF0000000000000), (10, 0x5000000000003)]) 1
       (mkW [(3, 40)])
     let ep := s.ep 5
     s.ctx.pend = [] ∧ ep.owner = s.cur.ctx ∧ ep.st = .open ∧ ep.proto.toNat = 7 ∧ 1 ≤ ep.slotu.toNat ∧ ep.redFmt = 0 ∧
     ep.state.toNat < Nat.min 4 ep.slots ∧ s.usedSlots 0 5 + ep.reservedSlots < ep.slots ∧
     (nextSt (exec (.smark 6) s)).net.map (fun q => q.body) = [.marker 7] ∧ exec (.smark 7) s = .next (s.trap { cause := 0x02 }) ∧
     ((nextSt (exec (.rput 8 5) s)).ep 5).sseq = 1 ∧ (nextSt (exec (.rput 8 5) s)).net.length = 1 ∧
     (0x5000000000003 : W).extractLsb' 12 36 = 0 ∧ (nextSt (exec (.rcorr 8 10 5) s)).net.length = 1 ∧
     exec (.rtopk 8 10 5) s = .next (s.trap { cause := 0x06, detail := 5 }) ∧
     s.operands [0] [9] [] = .ok [0] ∧ exec (.rget 9 0 5) s = .next (s.block { kind := 1, ep := 5 })) ∧
    (let s := streamed (redChan 0 [(8, 1)] fun ep => { ep with state := 4 }) 1 (mkW [(3, 40)])
     Nat.min 4 (s.ep 5).slots ≤ (s.ep 5).state.toNat ∧ exec (.rput 8 5) s = .next (s.block { kind := 2, ep := 5 })) ∧
    (let s := (streamed (redChan 0 []) 1 0).wrWords (poolKey 0 0x38000) [hdrWord 4 4 0 16, 0, mkW [(4, 29)], 9]
     let h := s.slotHeader 0 5 0
     hdrF h = true ∧ (s.rd8 ((s.ep 5).slotKey 0 (s.ep 5).head.toNat + 16)).extractLsb' 24 5 = 0 ∧
     (nextSt (exec (.rget 9 0 5) s)).ctx.g[9] = 9 ∧ ((nextSt (exec (.rget 9 0 5) s)).ep 5).head = 1) ∧
    (let s := holding (streamed (redChan 3 [(6, 0x31000), (7, 2), (8, 0)]) 1 (mkW [(3, 40), (3, 36)]) 2 fun x =>
         { x with streams := [(7, ⟨mkW [(1, 63), (1, 58), (3, 53), (0b000101 * 64 + 2, 0)], mkW [(3, 40), (3, 36)], 0⟩)] })
       [mkW [(1, 32), (0x40000000, 0)], mkW [(2, 32), (0x3F800000, 0)]]
     (s.ep 5).redFmt = 3 ∧ (2 : Nat) ≤ entKm1 (s.entry s.myFloe (s.ep 5).redStream) + 1 ∧
     s.accessAll 8 { r := true } (dwordsAt 0x31000 2) = .ok [poolKey 0 0x31000, poolKey 0 0x31008] ∧
     topOk [mkW [(1, 32), (0x40000000, 0)], mkW [(2, 32), (0x3F800000, 0)]] = true ∧
     ((nextSt (exec (.rtopk 6 7 5) s)).ep 5).sseq = 1 ∧ exec (.rtopk 6 8 5) s = .next (s.trap { cause := 0x02 })) ∧
    (let s := streamed (redChan 0 [(6, mkW [(7, 52), (2, 40), (9, 22)])] fun ep => { ep with st := .unbound, proto := 0 }) 1 (mkW [(3, 40)])
     (s.ep 5).st = .unbound ∧ s.me.bufferFits ⟨7, 0, 0x38000, 34, 1⟩ = true ∧ ((nextSt (exec (.rjoin 6 5) s)).ep 5).sseq = 9 ∧
     ((nextSt (exec (.rjoin 6 5) s)).ep 5).proto = 7 ∧ ((nextSt (exec (.rjoin 6 5) s)).ep 5).gen = 2 ∧
     ((nextSt (exec (.rjoin 6 5) s)).ep 5).redIndex = 2) := by
  (and_intros <;> first | decide +kernel | (show @Eq Out _ _; exact next_of (by decide +kernel)) | (show @Eq (Res _) _ _; exact ok_of (by decide +kernel)) | (show @Eq (Res _) _ _; exact trap_of (by decide +kernel)))

/-- A packet of stream 7 stands at a port of floe 0. -/
def arriving (s : State) (port : Nat) (len : Nat) (body : Body) : State :=
  { s with net := [{ streamPacket 0 len 2 body with place := .standing 0 port .shared }] }

def contrib (ptype : Nat) : RedPkt :=
  { stream := 7, ptype := ptype, epoch := 0, idx := 2, exc := 0, rsh := false, set := 0, fmt := 0, op := 0, km1 := 0, seq := 0
    nbf := 0, bits := 0, val := .scalar 0x3FF0000000000000 }

theorem wit_Reductions_nodes :
    (let s := arriving (streamed (redChan 0 []) 0 0) 0 1 (.red (contrib 0))
     (s.streamHead 0).map (fun q => (q.1, q.2.1)) = some (0, 0) ∧ entV (s.entry 0 7).d0 = true ∧
     (entIn (s.entry 0 7).d0).testBit 0 = true ∧ entRed (s.entry 0 7) = false ∧
     (nextSt (exec (.reductionPacketArrival 0) s)).net.map (fun q => q.place) = [.standing 1 2 .shared]) ∧
    (let s := arriving (streamed (redChan 0 []) 0 0) 3 1 (.red (contrib 0))
     (entIn (s.entry 0 7).d0).testBit 3 = false ∧ ((nextSt (exec (.reductionPacketArrival 0) s)).floe 0).rdrop = 1) ∧
    (let s := arriving (streamed (redChan 0 []) 0 0) 1 1 (.red (contrib 4))
     (entOut (s.entry 0 7).d0).testBit 1 = true ∧
     (nextSt (exec (.reductionPacketArrival 0) s)).net.map (fun q => q.place) = [.arrived, .standing 7 1 .shared]) ∧
    (let s := arriving (streamed (redChan 0 []) 0 0) 2 1 (.red (contrib 4))
     (entOut (s.entry 0 7).d0).testBit 2 = false ∧ ((nextSt (exec (.reductionPacketArrival 0) s)).floe 0).rdrop = 1) ∧
    (let s := { arriving (redChan 0 []) 0 1 (.red (contrib 0)) with floes := [(0, Floe.init)] }
     entV (s.entry 0 7).d0 = false ∧ ((nextSt (exec (.reductionPacketArrival 0) s)).floe 0).rdrop = 1) ∧
    (let s := arriving (streamed (redChan 0 []) 1 (mkW [(2, 52), (2, 40)])) 0 1 (.red (contrib 0))
     entRed (s.entry 0 7) = true ∧
     ((nextSt (exec (.reductionPacketArrival 0) s)).node 0 7).fwd = some true ∧
     (nextSt (exec (.reductionPacketArrival 0) s)).net.map (fun q => (q.body, q.place)) =
       [(.red { contrib 2 with nbf := 1, bits := 1 }, .standing 1 2 .shared)]) ∧
    (let s := streamed (redChan 0 []) 1 (mkW [(2, 52), (3, 40), (100, 0)]) 2 fun x => { x with nodes := [(7, { fwd := some false })] }
     entDl (s.entry 0 7) ≠ 0 ∧ (s.node 0 7).fwd = some false ∧
     ((nextSt (exec (.reductionDeadline 0 7) s)).node 0 7).fwd = some true) ∧
    (let s := came (redChan 0 []) (.core 0) (.buddy 5 1 (contrib 0))
     (s.epAt 0 5).gen = 1 ∧ (s.epAt 0 5).isRed = true ∧
     ((nextSt (exec (.reductionResultArrival 0) s)).rd8 (poolKey 0 0x38018)) = 0x3FF0000000000000) ∧
    (let s := came (tst 1 []) (.floe 0) (.redResult (contrib 4))
     (∀ c ∈ coresOf 0, ∀ e : EpId, (s.epAt c e).isRed = false)) := by
  (and_intros <;> first | decide +kernel | (show @Eq Out _ _; exact next_of (by decide +kernel)) | (show @Eq (Res _) _ _; exact ok_of (by decide +kernel)) | (show @Eq (Res _) _ _; exact trap_of (by decide +kernel)))

/-- A contribution reaches a node of contributors 2 and 3 that has the state given; the rows of Table 16.4a. -/
def atNode (n : Node) (k : RedPkt) : State :=
  arriving (streamed (redChan 0 []) 1 (mkW [(2, 52), (3, 40)]) 2 fun x => { x with nodes := [(7, n)] }) 0 1 (.red k)

theorem wit_Reductions_rows :
    (let s := atNode {} (contrib 0)
     (s.streamHead 0).map (fun q => (q.1, q.2.1)) = some (0, 0) ∧ (s.node 0 7).fwd = none ∧ (s.entry 0 7).marks.getLsbD 0 = false ∧
     ((nextSt (exec (.reductionPacketArrival 0) s)).node 0 7).fwd = some false) ∧
    (let s := atNode { fwd := some false, epoch := 1 } (contrib 0)
     32768 ≤ ((contrib 0).epoch - (s.node 0 7).epoch).toNat ∧ ((nextSt (exec (.reductionPacketArrival 0) s)).floe 0).rstale = 1) ∧
    (let s := atNode { fwd := some true, epoch := 65535 } (contrib 0)
     ((contrib 0).epoch - (s.node 0 7).epoch).toNat = 1 ∧ ((nextSt (exec (.reductionPacketArrival 0) s)).node 0 7).epoch = 0 ∧
     ((nextSt (exec (.reductionPacketArrival 0) s)).node 0 7).fwd = some false) ∧
    (let s := atNode { fwd := some false, epoch := 65535 } (contrib 0)
     ((nextSt (exec (.reductionPacketArrival 0) s)).node 0 7).epoch = 0 ∧
     (nextSt (exec (.reductionPacketArrival 0) s)).net.map (fun q => q.place) = [.standing 1 2 .shared]) ∧
    -- an arrival of a contributor outside the node's range opens it too, and goes up
    (let s := atNode {} { contrib 0 with idx := 9 }
     ((nextSt (exec (.reductionPacketArrival 0) s)).node 0 7).fwd = some false ∧
     (nextSt (exec (.reductionPacketArrival 0) s)).net.map (fun q => q.place) = [.standing 1 2 .shared]) := by
  (and_intros <;> first | decide +kernel | (show @Eq Out _ _; exact next_of (by decide +kernel)) | (show @Eq (Res _) _ _; exact ok_of (by decide +kernel)) | (show @Eq (Res _) _ _; exact trap_of (by decide +kernel)))

theorem wit_Reductions_joined :
    (let s := came (redChan 0 []) (.floe 0) (.redResult (contrib 4))
     0 ∈ coresOf 0 ∧ (s.epAt 0 5).isRed = true ∧ (s.epAt 0 5).redStream = (contrib 4).stream ∧ s.usedSlots 0 5 = 0 ∧
     (∀ c ∈ coresOf 0, ∀ e : EpId, (s.epAt c e).isRed = true → c = 0 ∧ e = 5) ∧
     hdrF (((s.takePacket 0).placeRed 0 5 (contrib 4)).slotHeader 0 5 0) = true ∧
     ((s.takePacket 0).placeRed 0 5 (contrib 4)).rd8 (poolKey 0 0x38018) = 0x3FF0000000000000) ∧
    (let s := ((came (redChan 0 []) (.floe 0) (.redResult (contrib 4))).wr8 (poolKey 0 0x38000) 0x8000000000000000).wr8 (poolKey 0 0x38220) 0x8000000000000000
     (s.epAt 0 5).slots ≤ s.usedSlots 0 5 ∧ (((s.takePacket 0).placeRed 0 5 (contrib 4)).floe 0).rdrop = 1) := by
  (and_intros <;> first | decide +kernel | (show @Eq Out _ _; exact next_of (by decide +kernel)) | (show @Eq (Res _) _ _; exact ok_of (by decide +kernel)) | (show @Eq (Res _) _ _; exact trap_of (by decide +kernel)))

theorem wit_Reductions_refusals :
    (let s := redChan 0 [(6, mkW [(7, 52), (2, 40), (9, 22)])]
     s.operands [6] [] [] = .ok [mkW [(7, 52), (2, 40), (9, 22)]] ∧ s.ctx.pend = [] ∧ (s.ep 5).owner = s.cur.ctx ∧ (s.ep 5).st ≠ .unbound ∧
     exec (.rjoin 6 5) s = .next (s.trap { cause := 0x06, detail := 5 + 64 * 11 })) ∧
    (let s := (redChan 0 [(6, mkW [(7, 52), (2, 40), (9, 22)])] fun ep => { ep with st := .unbound, proto := 0 }).mapCtx fun c =>
       { c with x := c.x.set 1 (mkW [(33, 28), (1, 22), (0x38000, 0)]) }
     (s.ep 5).st = .unbound ∧ exec (.rjoin 6 5) s = .next (s.trap { cause := 0x06, detail := 5 + 64 * 10 })) ∧
    (let s := (redChan 0 [(6, mkW [(7, 52), (2, 40), (9, 22)])] fun ep => { ep with st := .unbound, proto := 0 }).mapCtx fun c =>
       { c with x := c.x.set 1 (mkW [(0, 28), (1, 22), (0x38000, 0)]) }
     exec (.rjoin 6 5) s = .next (s.trap { cause := 0x02 })) := by
  (and_intros <;> first | decide +kernel | (show @Eq Out _ _; exact next_of (by decide +kernel)) | (show @Eq (Res _) _ _; exact ok_of (by decide +kernel)) | (show @Eq (Res _) _ _; exact trap_of (by decide +kernel)))

/-- A term of a node, and a child's result of the positions given. -/
def term (i : Nat) (v : RedVal) : Term := ⟨i, 2 ^ i, v, 0, false, 0, false, false⟩
def partial2 (idx bits : Nat) (v : RedVal) : RedPkt := { contrib 2 with idx := idx, bits := bits, val := v }
def entry3 (op fmt : Nat) : StreamEnt := ⟨mkW [(1, 63), (1, 58), (1, 53), (0b000101 * 64 + 2, 0)], mkW [(2, 52), (3, 40), (op, 38), (fmt, 36)], 0⟩

/-- What a node admits: a second contribution of one index, a child's result in place of a smaller one, a child's that shares some
positions, the 65th term; and the values it forms (R63, R367, R368, R370, R373). -/
theorem wit_Reductions_values :
    (let e := entry3 0 0
     (match takeIn e [term 2 (.scalar 5)] (contrib 0) false with | .dup => true | _ => false) = true ∧
     (match takeIn e [term 3 (.scalar 5)] (contrib 0) true with | .ok l => l.map (fun t => (t.pos, t.foreign)) == [(3, false), (2, true)] | _ => false) = true ∧
     (match takeIn e [⟨2, 4, .scalar 5, 0, false, 0, false, true⟩] (partial2 2 3 (.scalar 7)) false with
      | .ok l => l.map (fun t => t.bits) == [12] | _ => false) = true ∧
     (match takeIn e [⟨2, 12, .scalar 5, 0, false, 0, false, true⟩] (partial2 2 1 (.scalar 7)) false with | .dup => true | _ => false) = true ∧
     (match takeIn e (List.replicate 64 (term 9 (.scalar 5))) (contrib 0) false with | .up => true | _ => false) = true ∧
     nodeFull e [term 2 (.scalar 5), term 3 (.scalar 6)] = true ∧ nodeFull e [term 2 (.scalar 5)] = false) ∧
    nodeValue (entry3 0 2) [term 3 (.scalar 6), term 2 (.scalar 5)] = (.scalar 11, 0) ∧
    nodeValue (entry3 2 2) [term 3 (.scalar (-6)), term 2 (.scalar 5)] = (.scalar (-6), 0) ∧
    nodeValue (entry3 3 1) [term 3 (.scalar 0x3F800000), term 2 (.scalar 0x40000000)] = (.scalar 0x40000000, 0) ∧
    nodeValue (entry3 1 0) [term 3 (.exact 3 true false false false false), term 2 (.exact 4 true false false false true)] =
      (.exact 7 true false false false true, 0) ∧
    termVal (entry3 1 0) { contrib 0 with val := .scalar 1 } = .exact 1 true false false false false ∧
    accRound f64 true (.exact 3 true false false false false) = (3, 0) ∧
    accRound f64 true (.exact (2 ^ 1074 + 2 ^ 1021) true false false false false) = (0x3FF0000000000000, 1) ∧
    accRound f64 true (.exact 0 false false false false false) = (0x8000000000000000, 0) ∧
    accRound f64 false (.exact 0 false false false false false) = (0, 0) ∧ accRound f64 true (.exact 0 true false false false false) = (0, 0) ∧
    accRound f64 true (.exact 0 true false false true true) = (f64.dnan, 16) ∧
    topBefore (mkW [(1, 32), (0x40000000, 0)]) (mkW [(2, 32), (0x3F800000, 0)]) = true ∧
    nodeValue (entry3 0 3) [term 2 (.top [mkW [(1, 32), (0x40000000, 0)], mkW [(2, 32), (0x3F800000, 0)]]),
      term 3 (.top [mkW [(3, 32), (0x40400000, 0)]])] = (.top [mkW [(3, 32), (0x40400000, 0)], mkW [(1, 32), (0x40000000, 0)]], 0) := by
  (and_intros <;> first | decide +kernel | (show @Eq Out _ _; exact next_of (by decide +kernel)) | (show @Eq (Res _) _ _; exact ok_of (by decide +kernel)) | (show @Eq (Res _) _ _; exact trap_of (by decide +kernel)))
/-- The instructions on a RED channel, and a result, wait for an engine that holds the slots; a LOST endpoint traps RJOIN. -/
theorem wit_Reductions_held :
    (let s := engaged (streamed (redChan 0 [(8, 1)]) 1 (mkW [(3, 40)])) (poolKey 0 0x38000)
     s.slotsHeld 0 5 false = true ∧ exec (.rput 8 5) s = .next (s.block { kind := 5 }) ∧
     s.heldAt 0 (poolKey 0 0x38000) 16 true = true ∧ exec (.rget 9 0 5) s = .next (s.block { kind := 5 })) ∧
    (let s := came (engaged (redChan 0 []) (poolKey 0 0x38000)) (.floe 0) (.redResult (contrib 4))
     s.slotsHeld 0 5 true = true ∧ exec (.reductionResultArrival 0) s = .next (s.park 0)) ∧
    (let s := came (engaged (redChan 0 []) (poolKey 0 0x38000)) (.core 0) (.buddy 5 1 (contrib 0))
     exec (.reductionResultArrival 0) s = .next (s.park 0)) ∧
    (let s := engaged (streamed (redChan 0 [(6, mkW [(7, 52), (2, 40), (9, 22)])] fun ep => { ep with st := .unbound, proto := 0 }) 1 (mkW [(3, 40)])) (poolKey 0 0x38000)
     exec (.rjoin 6 5) s = .next (s.block { kind := 5 })) ∧
    (let s := redChan 0 [(6, mkW [(7, 52), (2, 40), (9, 22)])] fun ep => { ep with st := .lost }
     exec (.rjoin 6 5) s = .next (s.trap { cause := 0x14, detail := 5 })) := by
  (and_intros <;> first | decide +kernel | (show @Eq Out _ _; exact next_of (by decide +kernel)) | (show @Eq (Res _) _ _; exact ok_of (by decide +kernel)) | (show @Eq (Res _) _ _; exact trap_of (by decide +kernel)))

/-- A packet stands whole at a lane of router r. -/
def standing (r : FloeId) (port : Nat) (lane : Lane) (dst : Dest) (f : Packet → Packet := id) : State :=
  { tst 1 [] with net := [f { packet dst (.marker 0) (.standing r port lane) with here := 1 }] }

/-- A packet of n flits waits in the crossbar of floe 0. -/
def queued0 (n : Nat) (dst : Dest) (f : Packet → Packet := id) : State :=
  { tst 1 [] with net := [f { packet dst (.marker 0) (.queued 0 0) with len := n, rest := n }] }

/-- Where each packet's flits stand. -/
def places (s : State) : List (Place × Nat × List Held × Nat) := s.net.map fun q => (q.place, q.here, q.behind, q.rest)

theorem wit_NetworkRoutes_packets :
    (let s := standing 0 0 .shared (.core 16)
     (s.net[0]?).map (fun q => (q.place, q.kind, q.dmod)) = some (.standing 0 0 .shared, 0, s.address) ∧ destFloe (.core 16) = 2 ∧
     (∀ q ∈ s.net, s.behind 0 { q with via := none } 1 = false ∧
       s.hop 0 0 { q with via := none } (ways 0 2) = (1, .shared, true)) ∧ linkEnd 0 1 = some (1, 2) ∧
     s.turn 0 1 0 = true ∧
     (nextSt (exec (.packetHeadGrant 0) s)).net.map (fun q => (q.place, q.esc)) = [(.standing 1 2 .shared, false)] ∧
     (nextSt (exec (.packetHeadGrant 0) s)).floes.map (fun q => q.2.granted) = [[(1, 0)]]) ∧
    (let s := standing 0 1 .shared (.core 3)
     destFloe (.core 3) = 0 ∧ destPort (.core 3) = 0 ∧ s.ownedOut 0 0 .shared = false ∧ s.turn 0 0 1 = true ∧
     places (nextSt (exec (.packetHeadGrant 0) s)) = [(.arrived, 1, [], 0)]) ∧
    (let s := standing 0 1 .shared (.core 3) fun q => { q with len := 4, here := 4 }
     places (nextSt (exec (.packetHeadGrant 0) s)) = [(.leaving 0 0 .shared, 1, [⟨0, 1, .shared, 3⟩], 0)] ∧
     (nextSt (exec (.packetHeadGrant 0) s)).ownedOut 0 0 .shared = true) ∧
    (let s := standing 0 1 .shared (.ctrl 0)
     destFloe (.ctrl 0) = 0 ∧ destPort (.ctrl 0) = 5 ∧ linkEnd 0 5 = none ∧ s.turn 0 5 1 = true ∧
     places (nextSt (exec (.packetHeadGrant 0) s)) = [(.arrived, 1, [], 0)]) ∧
    (let s := standing 0 1 .shared (.core 3) fun q => { q with kind := 3 }
     ((nextSt (exec (.packetHeadGrant 0) s)).floe 0).rdrop = 1) ∧
    (let s := standing 0 0 .shared (.core 3) fun q => { q with dmod := 5 }
     (∀ q ∈ s.net, q.dmod ≠ s.address ∧ s.noModule q = true) ∧ (nextSt (exec (.packetHeadGrant 0) s)).fdrop = 1) ∧
    (let s : State := { standing 0 0 .shared (.core 16) with net := (standing 0 0 .shared (.core 16)).net ++ (standing 0 0 .shared (.core 24)).net }
     (∀ q ∈ s.net.drop 1, s.behind 1 q 1 = true ∧ s.admits 0 0 q = some 1) ∧ exec (.packetHeadGrant 1) s = .next s) ∧
    -- four packets of four flits leave the shared lane no room and fill the escape lane
    (let p := fun (i : Nat) => ({ packet (.core 40) (.marker 0) (.standing 1 2 (if i < 3 then .shared else .escape false)) with
                                   len := 4, here := if i < 3 then 4 else 2, rest := if i < 3 then 0 else 2 } : Packet)
     let s : State := { standing 0 0 .shared (.core 16) with net := (standing 0 0 .shared (.core 16)).net ++ (List.range 4).map p }
     s.laneFree 1 2 .shared = 0 ∧ s.laneFree 1 2 (.escape false) = 0 ∧
     (∀ q ∈ s.net.take 1, s.hop 0 0 { q with via := none } (ways 0 2) = (1, .escape false, false)) ∧
     exec (.packetHeadGrant 0) s = .next s) ∧
    (let s : State := { standing 0 2 .shared (.core 16) with net := (standing 0 2 .shared (.core 16)).net ++ (standing 0 0 .shared (.core 24)).net }
     (∀ q ∈ s.net.take 1, s.behind 0 { q with via := none } 1 = false ∧ s.admits 0 2 { q with via := none } = some 1) ∧
     s.turn 0 1 2 = false ∧ exec (.packetHeadGrant 0) s = .next s ∧ s.turn 0 1 0 = true ∧ (s.grant 0 1 0).turn 0 1 2 = true) ∧
    (1 ∈ ways 0 2 ∧ linkEnd 0 1 = some (1, 2)) := by
  (and_intros <;> first | decide +kernel | (show @Eq Out _ _; exact next_of (by decide +kernel)) | (show @Eq (Res _) _ _; exact ok_of (by decide +kernel)) | (show @Eq (Res _) _ _; exact trap_of (by decide +kernel)))

theorem wit_NetworkRoutes_injected :
    (let s := queued0 2 (.core 3)
     (∀ q ∈ s.net, s.noticeGoes q = true ∧ s.behind 0 q 0 = false ∧ q.dmod = s.address ∧ destFloe q.dst = 0 ∧ destPort q.dst = 0) ∧
     places (nextSt (exec (.packetHeadGrant 0) s)) = [(.arrived, 2, [], 0)]) ∧
    (let s := queued0 2 (.core 16)
     (∀ q ∈ s.net, destFloe q.dst ≠ 0 ∧ q.adapt = true ∧ q.len ≤ 12 ∧ q.len ≤ s.laneFree 0 0 .shared) ∧ s.owned 0 0 .shared = false ∧
     places (nextSt (exec (.packetHeadGrant 0) s)) = [(.standing 0 0 .shared, 2, [], 0)]) ∧
    (let s : State := { queued0 2 (.core 16) with net := (queued0 2 (.core 16)).net ++
         (standing 0 0 .shared (.core 16) fun q => { q with len := 11, here := 11 }).net }
     s.laneFree 0 0 .shared = 1 ∧ exec (.packetHeadGrant 0) s = .next s) ∧
    -- an ordered packet stands at L whole, then takes the escape lane flit by flit: two flits in the lane and one in the skid
    -- buffer, since a lane with a flit there shows none free
    (let s := queued0 6 (.core 16) fun q => { q with adapt := false, flow := some 1 }
     places (nextSt (exec (.packetHeadGrant 0) s)) = [(.standing 0 0 .shared, 6, [], 0)]) ∧
    (let s := standing 0 0 .shared (.core 16) fun q => { q with adapt := false, flow := some 1, len := 6, here := 6 }
     let s1 := nextSt (exec (.packetHeadGrant 0) s)
     s.laneFree 1 2 (.escape false) = 2 ∧ s.owned 1 2 (.escape false) = false ∧
     places s1 = [(.standing 1 2 (.escape false), 1, [⟨0, 0, .shared, 5⟩], 0)] ∧ s1.owned 1 2 (.escape false) = true ∧
     places (s1.flit 0 0) = [(.standing 1 2 (.escape false), 2, [⟨0, 0, .shared, 4⟩], 0)] ∧
     places ((s1.flit 0 0).flit 0 0) = [(.standing 1 2 (.escape false), 3, [⟨0, 0, .shared, 3⟩], 0)] ∧
     places (((s1.flit 0 0).flit 0 0).flit 0 0) = [(.standing 1 2 (.escape false), 3, [⟨0, 0, .shared, 3⟩], 0)]) := by
  (and_intros <;> first | decide +kernel | (show @Eq Out _ _; exact next_of (by decide +kernel)) | (show @Eq (Res _) _ _; exact ok_of (by decide +kernel)) | (show @Eq (Res _) _ _; exact trap_of (by decide +kernel)))

theorem wit_NetworkRoutes_streams :
    (let s := arriving (streamed (tst 1 []) 0 0) 0 1 (.marker 7)
     (s.streamHead 0).map (fun q => (q.1, q.2.1)) = some (0, 0) ∧ (entIn (s.entry 0 7).d0).testBit 0 = true ∧
     (s.entry 0 7).marks.getLsbD 0 = false ∧ (∃ i ∈ portsOf 0b000101, (1#6).getLsbD i = false) ∧
     ((nextSt (exec (.streamMarkerArrival 0) s)).entry 0 7).marks = 1) ∧
    (let s := arriving (streamed (tst 1 []) 0 0) 3 1 (.marker 7)
     (entIn (s.entry 0 7).d0).testBit 3 = false ∧ ((nextSt (exec (.streamMarkerArrival 0) s)).floe 0).rdrop = 1) ∧
    (let s := arriving (streamed (tst 1 []) 0 0 2 fun x => { x with streams := [(7, ⟨mkW [(1, 63), (1, 59), (0b000101 * 64 + 2, 0)], 0, 4⟩)] })
       0 1 (.marker 7)
     (∀ i ∈ portsOf 0b000101, (5#6).getLsbD i = true) ∧
     ((nextSt (exec (.streamMarkerArrival 0) s)).entry 0 7).d0 = mkW [(1, 63), (1, 61), (1, 59), (0b000101 * 64 + 2, 0)] ∧
     (nextSt (exec (.streamMarkerArrival 0) s)).net.map (fun q => q.place) = [.standing 1 2 .shared]) := by
  (and_intros <;> first | decide +kernel | (show @Eq Out _ _; exact next_of (by decide +kernel)) | (show @Eq (Res _) _ _; exact ok_of (by decide +kernel)) | (show @Eq (Res _) _ _; exact trap_of (by decide +kernel)))

theorem wit_NetworkRoutes_masks :
    (let s := arriving (streamed (tst 1 []) 0 0) 0 1 (.marker 7)
     (s.net.map fun q => (q.kind, q.mask)) = [(2, 0)] ∧ exec (.packetHeadGrant 0) s = .next s) ∧
    -- the packet is to leave by ports +X and -X; with -X's lane full it leaves by +X alone, and by -X later
    (let m := fun (mask : Nat) => ({ streamPacket 0 1 2 (.marker 7) with place := .standing 0 3 .shared, here := 1, rest := 0, mask := mask } : Packet)
     let full : Packet := { packet (.core 40) (.marker 0) (.standing 7 1 .shared) with len := 12, here := 12 }
     let s : State := { tst 1 [] with net := [m 6] }
     let t : State := { tst 1 [] with net := [m 6, full] }
     (nextSt (exec (.packetHeadGrant 0) s)).net.map (fun q => (q.place, q.mask)) = [(.standing 1 2 .shared, 0), (.standing 7 1 .shared, 0)] ∧
     t.canTake 0 1 2 = false ∧
     (nextSt (exec (.packetHeadGrant 0) t)).net.map (fun q => (q.place, q.mask)) =
       [(.standing 0 3 .shared, 4), (.standing 7 1 .shared, 0), (.standing 1 2 .shared, 0)]) ∧
    -- port L has delivered its marker of the round: a second one there is absorbed
    (let s := arriving (streamed (tst 1 []) 0 0 2 fun x => { x with streams := [(7, ⟨mkW [(1, 63), (0b000101 * 64 + 2, 0)], 0, 1⟩)] }) 0 1 (.marker 7)
     (s.entry 0 7).marks.getLsbD 0 = true ∧ (nextSt (exec (.streamMarkerArrival 0) s)).net = []) ∧
    (let s := arriving (streamed (tst 1 []) 0 0 2 fun x => { x with streams := [(7, ⟨mkW [(1, 63), (0b000101 * 64 + 2, 0)], 0, 4⟩)] }) 2 1 (.marker 7)
     s.lateMarker 0 = none ∧ (entIn (s.entry 0 7).d0).testBit 2 = true ∧ (s.entry 0 7).marks.getLsbD 2 = true ∧
     exec (.streamMarkerArrival 0) s = .next s) ∧
    (let s := tst 1 []
     (linkDie 7).isSome = true ∧ (nextSt (exec (.linkUncorrectableError ⟨7, 5⟩) s)).mfault.extractLsb' 48 8 = 3 ∧
     (nextSt (exec (.linkUncorrectableError ⟨7, 1⟩) s)).mfault.extractLsb' 48 8 = 2 ∧
     (nextSt (exec (.laneBlockedTimeout 7) s)).mfault.extractLsb' 48 8 = 2) := by
  (and_intros <;> first | decide +kernel | (show @Eq Out _ _; exact next_of (by decide +kernel)) | (show @Eq (Res _) _ _; exact ok_of (by decide +kernel)) | (show @Eq (Res _) _ _; exact trap_of (by decide +kernel)))

/-- Packets on their way out of a router or held at one, and where a marker step absorbs none. -/
theorem wit_NetworkRoutes_leaving :
    let out := fun (ports : List (Nat × Port)) (f : Packet → Packet) =>
      ({ standing 0 1 .shared (.core 3) (fun q => f { q with place := .leaving 0 5 .shared, dmod := 1, via := some 0 }) with
         fid := mkW [(3, 19), (1, 0)], ports := ports } : State)
    let up : List (Nat × Port) := [(0, { st := 2, lanes := [12, 2, 2, 2] }), (5, { st := 2, lanes := [12, 2, 2, 2] })]
    let dead : List (Nat × Port) := [(0, { st := 3 }), ((partner 0).toNat, { st := 3 })]
    (let s := out dead fun q => { q with dmod := 5 }
     s.portDown 0 = true ∧ s.portDown (partner 0) = true ∧ (∀ q ∈ s.net, s.bound q = none) ∧
     (nextSt (exec (.packetHeadGrant 0) s)).fdrop = 1 ∧ (nextSt (exec (.packetHeadGrant 0) s)).net = []) ∧
    (let s := out dead fun q => { q with dmod := 0, len := 3, here := 2 }
     (∀ q ∈ s.net, s.bound q ≠ none) ∧ places (nextSt (exec (.packetHeadGrant 0) s)) = [(.queued 0 5, 0, [], 3)]) ∧
    (let s := out up fun q => { q with len := 3, here := 2 }
     s.portDown 0 = false ∧ exec (.packetHeadGrant 0) s = .next s) ∧
    (let s := out up id
     places (nextSt (exec (.packetHeadGrant 0) s)) = [] ∧ (∀ q ∈ s.net, ((s.takePacket 0).leave 0 q).isSome = true)) ∧
    (let s := standing 0 1 .shared (.core 3) fun q => { q with place := .leaving 0 0 .shared, len := 3, here := 3 }
     (∀ q ∈ s.net, q.via = none) ∧ places (nextSt (exec (.packetHeadGrant 0) s)) = [(.arrived, 3, [], 0)]) ∧
    (let s : State := { standing 0 1 .shared (.core 3) with net := (standing 0 1 .shared (.core 3)).net ++
        (standing 0 2 .shared (.core 3) fun q => { q with place := .leaving 0 0 .shared, len := 3, here := 1 }).net }
     s.ownedOut 0 0 .shared = true ∧ exec (.packetHeadGrant 0) s = .next s) ∧
    (let s := standing 0 1 .shared (.core 3) fun q => { q with kind := 3, awaits := some 4 }
     exec (.packetHeadGrant 0) s = .next s) ∧
    (let s := standing 0 3 .shared (.core 3) fun _ => { streamPacket 0 1 2 (.marker 7) with place := .formed 0, here := 1, rest := 0, mask := 2 }
     places (nextSt (exec (.packetHeadGrant 0) s)) = [(.standing 1 2 .shared, 1, [], 0)]) ∧
    -- a notice for a NOTE endpoint of one slot that is taken stays where it is
    (let note : Endpoint := { st := .open, owner := 1, proto := 10, gen := 1, slotu := 1, base := 0x38000 }
     let s : State := { queued0 1 (.core 0) (fun q => { q with body := .notice 5 1 [9] }) with
       cores := [(0, { tcore with eps := [(5, note)] })] }
     let t := s.wr8 (note.slotKey 0 0) (1#64 <<< 63)
     s.noticeGoes ((s.net.head?).getD (packet (.core 0) (.marker 0) .arrived)) = true ∧
     t.noticeGoes ((s.net.head?).getD (packet (.core 0) (.marker 0) .arrived)) = false ∧ exec (.packetHeadGrant 0) t = .next t) ∧
    (let s := arriving (streamed (tst 1 []) 0 0) 0 1 (.marker 7)
     (Nat.testBit 4 0) = false ∧ s.absorbMarkers 0 7 4 = s ∧ (Nat.testBit 5 0) = true ∧ (s.absorbMarkers 0 7 5).net = []) := by
  (and_intros <;> first | decide +kernel | (show @Eq Out _ _; exact next_of (by decide +kernel)) | (show @Eq (Res _) _ _; exact ok_of (by decide +kernel)) | (show @Eq (Res _) _ _; exact trap_of (by decide +kernel)))

/-- Port 0 up in a fabric of 4 modules along its dimension, this one at address 0. -/
def ported (f : Port → Port := id) : State :=
  { tst 1 [] with fid := mkW [(3, 19), (1, 0)], ports := [(0, f { st := 2 }), (5, { st := 2 })] }

/-- The check value that goes with CRC-32C: that of the nine characters "123456789". -/
theorem test_crc32c : crc32c [0x31, 0x32, 0x33, 0x34, 0x35, 0x36, 0x37, 0x38, 0x39] = 0xE3069283 := by decide +kernel

theorem wit_FabricPorts_frames :
    (let fr := frame 0 false 0
     let s := ported
     (0 : BitVec 5).toNat < 20 ∧ (s.port 0).st ≠ 0 ∧ (s.port 0).st ≠ 3 ∧ railHome 0 false = 0 ∧ fr.ftype = 0 ∧ fr.crcOk = true ∧
     fr.seq = (s.port 0).nextRx ∧ ((nextSt (exec (.dataFrameArrival 0 fr) s)).port 0).nextRx = 1 ∧
     ((nextSt (exec (.dataFrameArrival 0 { fr with seq := 5 }) s)).port 0).naked = true ∧
     (nextSt (exec (.dataFrameArrival 0 { fr with seq := 5 }) s)).fretry = 1 ∧
     (nextSt (exec (.nakArrival 0 { fr with ftype := 2 }) s)).fretry = 0 ∧
     ((nextSt (exec (.controlFrameArrival 0 { fr with ftype := 1, lanes := [1, 2, 3, 4] }) s)).port 0).lanes = [1, 2, 3, 4] ∧
     ((nextSt (exec (.resyncArrival 0 { fr with ftype := 3 }) s)).port 0).sent.map (fun f => f.ftype) = [4] ∧
     (nextSt (exec (.lostModuleFrameArrival 0 s.address 1) s)).failed = true ∧
     (nextSt (exec (.lostModuleFrameArrival 0 (s.address + 1) 1) s)).lostTab = [s.address + 1]) ∧
    (let s := ported fun p => { p with naked := true }
     (s.port 0).naked = true ∧ (nextSt (exec (.dataFrameArrival 0 { frame 0 false 0 with crcOk := false }) s)).fretry = 1) ∧
    (let s := ported fun p => { p with st := 0 }
     ¬ (s.port 0).st ≠ 0 ∧ exec (.dataFrameArrival 0 (frame 0 false 0)) s = .next s) ∧
    (let s : State := { ported with lostTab := [77] }
     (77 : BitVec 19) ≠ s.address ∧ (77 : BitVec 19) ∈ s.lostTab ∧ (nextSt (exec (.lostModuleFrameArrival 0 77 9) s)).lostTab = [77]) ∧
    (let s := ported fun p => { p with resync := true }
     portRail (partner 0) = true ∧
     ((nextSt (exec (.resyncAnswerArrival 0 { frame 4 true 0 with ftype := 4 }) s)).port 0).resync = false) := by
  (and_intros <;> first | decide +kernel | (show @Eq Out _ _; exact next_of (by decide +kernel)) | (show @Eq (Res _) _ _; exact ok_of (by decide +kernel)) | (show @Eq (Res _) _ _; exact trap_of (by decide +kernel)))

theorem wit_FabricPorts_ports :
    (let s := ported fun p => { p with unacked := [(frame 0 false 0, 1)] }
     s.portUp 0 = true ∧ s.portUp (partner 0) = true ∧ s.portUp (s.carrier (railHome 0 false)) = true ∧
     (s.port (railHome 0 false)).unacked ≠ [] ∧ ((nextSt (exec (.retryTimeout 0 false) s)).port 0).sent.length = 1 ∧
     (nextSt (exec (.portSilenceTimeout 0) s)).portDown 0 = true ∧ ((nextSt (exec (.portSilenceTimeout 0) s)).port 0).moved = true ∧
     ((nextSt (exec (.controlFrameInterval 0) s)).port 0).sent.map (fun f => f.ftype) = [1]) ∧
    (let s := ported fun p => { p with resync := true }
     (s.port 0).resync = true ∧ (nextSt (exec (.resyncTimeout 0) s)).portDown 0 = true) ∧
    (let s := tst 1 []
     (∀ n : BitVec 5, n.toNat < 20 → s.portUp n = false) ∧ (nextSt (exec (.fidWrite 0xFF00000000000005) s)).fid = 5) ∧
    (let s := ported
     (∃ n : BitVec 5, n.toNat < 20 ∧ s.portUp n = true) ∧ exec (.fidWrite 5) s = .next s) := by
  (and_intros <;> first | decide +kernel | (show @Eq Out _ _; exact next_of (by decide +kernel)) | (show @Eq (Res _) _ _; exact ok_of (by decide +kernel)) | (show @Eq (Res _) _ _; exact trap_of (by decide +kernel)))

theorem wit_FabricPorts_rails :
    -- the rail of a port that fell silent goes to its partner, its frames counted anew (R441)
    (let s := { ported with ports := [(0, { st := 2, unacked := [(frame 0 false 0, 7)] }), (partner 0, { st := 2 })].map fun p => (BitVec.toNat p.1, p.2) }
     s.portUp 0 = true ∧ s.portUp (partner 0) = true ∧
     ((nextSt (exec (.portSilenceTimeout 0) s)).port 0).unacked.map (fun f => f.2) = [0] ∧
     ((nextSt (exec (.portSilenceTimeout 0) s)).port (partner 0)).sent.map (fun f => f.ftype) = [3]) ∧
    (let s := ported fun p => { p with unacked := [(frame 0 false 0, 8)] }
     (∃ f ∈ (s.port 0).unacked, 8 ≤ f.2) ∧ (s.resend 0).portDown 0 = true) ∧
    (let s := ported fun p => { p with st := 1 }
     (s.port 0).st = 1 ∧ ((nextSt (exec (.controlFrameInterval 0) s)).port 0).sent.map (fun f => f.ftype) = [1]) := by
  (and_intros <;> first | decide +kernel | (show @Eq Out _ _; exact next_of (by decide +kernel)) | (show @Eq (Res _) _ _; exact ok_of (by decide +kernel)) | (show @Eq (Res _) _ _; exact trap_of (by decide +kernel)))

/-- Frames sent again: their counts, and nothing while the partner's answer is awaited. -/
theorem wit_FabricPorts_resent :
    (let s := ported fun p => { p with unacked := [({ frame 0 false 0 with slots := [(packet (.core 3) (.marker 0) .arrived, 0)] }, 1)], lanes := [3, 2, 2, 2], nextRx := 9 }
     (∀ f ∈ (s.port 0).unacked, f.2 < 8) ∧ s.canSend 0 = true ∧ (s.port 0).outq = [] ∧ s.carrier 0 = 0 ∧
     ((s.resend 0).port 0).unacked.map (fun f => f.2) = [2] ∧ ((s.resend 0).port 0).sent.map (fun f => f.ack) = [9] ∧
     ((s.resend 0).port 0).lanes = [2, 2, 2, 2] ∧ (s.resend 0).fretry = 1) ∧
    (let s := { ported with ports := [(0, { st := 3, moved := true, unacked := [(frame 0 false 0, 1)] }), ((partner 0).toNat, { st := 2, resync := true })] }
     (∀ f ∈ (s.port 0).unacked, f.2 < 8) ∧ s.canSend 0 = false ∧ s.resend 0 = s) := by
  (and_intros <;> first | decide +kernel | (show @Eq Out _ _; exact next_of (by decide +kernel)) | (show @Eq (Res _) _ _; exact ok_of (by decide +kernel)) | (show @Eq (Res _) _ _; exact trap_of (by decide +kernel)))

/-- An image of a type, its body and signature of zeros. -/
def image0 (ty : Nat) (rollback : Nat := 0) (len : Nat := 0) : Image :=
  ⟨[mkW [(0x5C1F, 48), (ty, 40), (1, 32), (len, 0)], 0, BitVec.ofNat 64 rollback, 0, 0, 0, 0, 0], List.replicate len 0, List.replicate 1280 0⟩

theorem wit_ModuleManagement_loader :
    imageWellFormed (image0 1) = true ∧ imageWellFormed (image0 6 0 64) = true ∧ imageWellFormed (image0 6 0 63) = false ∧
    imageWellFormed (image0 7) = false ∧
    (let s := { tst 1 [] with rollback := [(1, 5)] }
     (s.rollback.look 0 1).toNat ≤ imageRollback (image0 1 5) ∧ ¬ (s.rollback.look 0 1).toNat ≤ imageRollback (image0 1 4) ∧
     exec (.loadConfigurationImage (image0 7)) s = .next { s with hostOut := [.status 1 1] } ∧
     (nextSt (exec .bringUp { s with flash := some (image0 7), alog := 3 })).rollback = [(1, 5)] ∧
     (nextSt (exec .bringUp { s with flash := some (image0 7), alog := 3 })).alog = 0 ∧
     imageType (image0 1 0 63) = 1 ∧ imageWellFormed (image0 1 0 63) = false ∧
     (nextSt (exec .bringUp { s with flash := some (image0 1 0 63) })).measures = [] ∧
     (nextSt (exec .bringUp { s with flash := some (image0 1 0 63) })).flash = some (image0 1 0 63) ∧
     (nextSt (exec .bringUp s)).flash = none) ∧
    (let s := tst 1 []
     s.keys.find 0 = none ∧ exec .launch s = .next { s with hostOut := [.status 5 3] }) ∧
    (let s := { tst 1 [] with keys := [(0, [1])], cores := [(0, { tcore with launched := false, launchPc := some 0x30000 })] }
     s.keys.find 0 = some [1] ∧ (nextSt (exec .launch s)).me.launched = true ∧
     ((nextSt (exec .launch s)).ctxAt 0 0).pc = 0x30000 ∧ ((nextSt (exec .launch s)).ctxAt 0 0).life = .runnable) ∧
    kwUnwrap Config.wrappingKey [] = none ∧ (nextSt (exec (.loadKeySlot 0 []) (tst 1 []))).hostOut = [.status 2 2] := by
  (and_intros <;> first | decide +kernel | (show @Eq Out _ _; exact next_of (by decide +kernel)) | (show @Eq (Res _) _ _; exact ok_of (by decide +kernel)) | (show @Eq (Res _) _ _; exact trap_of (by decide +kernel)))

theorem test_signature_length : (image0 1).sig.length = 1280 := List.length_replicate

/-- The content checks, whatever the bytes of a body are taken to hold. -/
theorem wit_ModuleManagement_content :
    ∀ (s : State) (i : Image),
      (imageBody i = some (.firmware [9]) → imageType i = 1 → s.contentOk i = true) ∧
      (imageBody i = some (.policy 3) → imageType i = 6 → s.contentOk i = false) ∧ (imageBody i = none → s.contentOk i = false) := by
  refine fun s i => ⟨fun h t => ?_, fun h t => ?_, fun h => ?_⟩ <;> simp [State.contentOk, bodyType, *]
  exact ⟨0, by decide, fun x => absurd (by decide) x⟩

/-- A slot write is on its way to each controller, and one write of a slot does not reach it before an older one (R419). -/
theorem wit_ModuleManagement_keys :
    (let s := { tst 1 [] with keys := [(0, [1])], keyWrites := [(3, 0, some [1]), (3, 0, some [2]), (4, 0, some [1])] }
     (nextSt (exec (.keySlotUpdateArrival ⟨3, 0⟩) s)).ctrlKeys = [(3 * 128, [1])] ∧
     (nextSt (exec (.keySlotUpdateArrival ⟨3, 0⟩) s)).keyWrites = [(3, 0, some [2]), (4, 0, some [1])] ∧
     exec (.keySlotUpdateArrival ⟨5, 0⟩) s = .next s ∧
     (nextSt (exec (.invalidateKeySlot 0) s)).keys = [] ∧ (nextSt (exec (.invalidateKeySlot 0) s)).keyWrites.length = 35) := by
  (and_intros <;> first | decide +kernel | (show @Eq Out _ _; exact next_of (by decide +kernel)) | (show @Eq (Res _) _ _; exact ok_of (by decide +kernel)) | (show @Eq (Res _) _ _; exact trap_of (by decide +kernel)))

theorem wit_ModuleManagement_alarms :
    (let s := { tst 1 [] with keys := [(0, [1])] }
     -- the reset policy 0x96: cause 0 and 3 zeroise, 1 and 2 halt, the rest log (Table 21.7)
     (State.reset.apol.extractLsb' 0 2 = 2 ∧ State.reset.apol.extractLsb' 2 2 = 1 ∧ State.reset.apol.extractLsb' 8 2 = 0) ∧
     s.failed = false ∧ s.failing = none ∧
     (nextSt (exec .tamperDetector s)).keys = [] ∧ (nextSt (exec .tamperDetector s)).failed = true ∧
     (nextSt (exec .voltageDetector s)).keys = [(0, [1])] ∧ (nextSt (exec .voltageDetector s)).alog = 2 ∧
     (nextSt (exec .powerThermalTrip s)).failed = true ∧
     -- in the clock cycle of the failure a second alarm still acts (R426)
     (nextSt (exec .voltageDetector s)).failing = some true ∧
     (nextSt (exec .tamperDetector (nextSt (exec .voltageDetector s)))).keys = [] ∧
     (nextSt (exec .tamperDetector (nextSt (exec .voltageDetector s)))).alog = 3) ∧
    (let s := { tst 1 [] with apol := 0 }
     s.apol.extractLsb' 0 2 = 0 ∧ (nextSt (exec .tamperDetector s)).failed = false) ∧
    (let s := { tst 1 [] with apol := 0, loading := true }
     s.loading = true ∧ (nextSt (exec .tamperDetector s)).failed = true) ∧
    (let s := { tst 1 [] with alog := 3 }
     (nextSt (exec (.managementRegisterWrite ⟨none, 0x010⟩ 1) s)).alog = 1 ∧
     (nextSt (exec (.managementRegisterWrite ⟨some 0x3A, 0x018⟩ 700) s)).pcap = 700 ∧
     exec (.managementRegisterWrite ⟨some 0x22, 0x018⟩ 700) s = .next s ∧
     (nextSt (exec (.managementRegisterWrite ⟨none, 0x018⟩ 599) s)).pcap = 2400 ∧
     (nextSt (exec (.managementRegisterWrite ⟨none, 0x040 + 8 * 3⟩ 6) s)).mecc = [(3, 6)] ∧
     exec (.managementRegisterWrite ⟨none, 0x000⟩ 5) s = .next s ∧ (nextSt (exec .moduleReset s)).alog = 3 ∧
     (nextSt (exec .moduleReset s)).cores = []) := by
  (and_intros <;> first | decide +kernel | (show @Eq Out _ _; exact next_of (by decide +kernel)) | (show @Eq (Res _) _ _; exact ok_of (by decide +kernel)) | (show @Eq (Res _) _ _; exact trap_of (by decide +kernel)))

/-- Channel 4 of the host, to generation 1 of endpoint 5 of core 0, whose own generation is 2. -/
def hosted : State :=
  { tst 1 [] id fun x => { x with eps := [(5, { st := .open, owner := 1, proto := 9, phw := true, paddr := 0x6000, gen := 1, pgen := 2 })] } with
    chans := [(4, ⟨0, 5, 1, 0, 2, 2, [], 0, 0⟩)], hwEnds := [⟨0x6000, 0, 5, 1, 2, 9, 0, 0, 0, 0⟩] }

theorem wit_ModuleManagement_host :
    (let s := hosted
     s.chans.find 4 = some ⟨0, 5, 1, 0, 2, 2, [], 0, 0⟩ ∧ s.chans.find 3 = none ∧
     exec (.hostChannelDoorbell 3 []) s = .next s ∧
     ((nextSt (exec (.hostChannelDoorbell 4 [⟨1, 7, [1, 0, 0, 0, 0, 0, 0, 0]⟩]) s)).net.map fun q => q.dst) = [.core 0] ∧
     (nextSt (exec (.launchRingDoorbell [(mkW [(2, 40)], rec1)]) s)).net.map (fun q => q.dst) = [.floe 2] ∧
     (nextSt (exec (.securityRingDoorbell .launch) s)).agenda = [.event .launch]) ∧
    (let s : State := { hosted with net := [{ packet .host (.msg 5 1 1 7 0 1 [9]) .arrived with src := 0 }] }
     (((s.takePacket 0).hwTakes 0 5 1).chanOf 0 5 1).map (fun q => q.1) = some 4 ∧
     (nextSt (exec (.hostChannelMessage 0) s)).hostOut = [.message 4 0 0 1 7 0 [9], .msix 2] ∧
     ((nextSt (exec (.hostChannelMessage 0) s)).chans.find 4).map (fun h => (h.rx, h.lacnt)) = some (1, 1) ∧
     (nextSt (exec (.hostChannelMessage 0) s)).net.map (fun q => q.body) = [.credit 5 1 1]) ∧
    (let s : State := { hosted with net := [{ packet .host (.msg 6 1 1 7 0 1 [9]) .arrived with src := 0 }] }
     (((s.takePacket 0).hwTakes 0 6 1).chanOf 0 6 1).isNone = true ∧ (nextSt (exec (.hostChannelMessage 0) s)).net = []) := by
  (and_intros <;> first | decide +kernel | (show @Eq Out _ _; exact next_of (by decide +kernel)) | (show @Eq (Res _) _ _; exact ok_of (by decide +kernel)) | (show @Eq (Res _) _ _; exact trap_of (by decide +kernel)))

/-- A walk of page 0x30 for context 1 of core 0, at the last level of a table at 0x80000. -/
def walk1 (level : Nat) : Walk := ⟨1, 0x30, level, 0x80000, [(0, 1)], [], false, false⟩

def walking1 (level : Nat) (e : W) : State :=
  { (floeSt 1 [] (fun x => { x with walks := [{ walk1 level with started := true }] })).mapCtx (fun c => { c with life := .blocked }) with
    mem := memWrites [] (entryAddr level 0x80000 0x30) (leBytes 8 e.toNat), ctrlKeys := (List.range 32).map fun m => (m * 128, [1]) }

theorem wit_WalksFillsAndSpills_walks :
    (let s := floeSt 1 [] fun x => { x with walks := [walk1 3] }
     (s.walking 0).length < 16 ∧
     ((List.range 64).map fun i => (0 : BitVec 2) ++ BitVec.ofNat 6 (s.walkTurn.look 0 0 + i)).findSome?
       (fun f => (s.floe f).nextWalk.map fun w => (f, w)) = some (0, walk1 3) ∧
     ((nextSt (exec (.translationWalkStart 0) s)).floe 0).walks = [{ walk1 3 with started := true }]) ∧
    (let s := floeSt 1 [] fun x => { x with walks := (List.range 17).map fun i => { walk1 3 with page := i, started := true } }
     16 ≤ (s.walking 0).length ∧ exec (.translationWalkStart 0) s = .next s) ∧
    (let s := floeSt 1 []
     exec (.translationWalkStart 0) s = .next s) ∧
    (let s := walking1 0 (leafAt 0x30 7)
     (s.walking 0)[0]? = some (0, { walk1 0 with started := true }) ∧ s.readEntry (entryAddr 0 0x80000 0x30) = some (leafAt 0x30 7) ∧
     (match walkEntry 0 (leafAt 0x30 7) with | .leaf n => n == 1 | _ => false) = true ∧ (s.ctxAt 0 1).life = .blocked ∧
     (s.ctxAt 0 1).heldStop = false ∧ ((nextSt (exec (.walkTableReadReply 0 0) s)).ctxAt 0 1).life = .runnable ∧
     ((nextSt (exec (.walkTableReadReply 0 0) s)).floe 0).walks = []) ∧
    (let s := walking1 0 0
     (match walkEntry 0 0 with | .bad n => n == 1 | _ => false) = true ∧
     ((nextSt (exec (.walkTableReadReply 0 0) s)).ctxAt 0 1).walkFail = some ⟨0x30, 1⟩) ∧
    (let s := walking1 2 (mkW [(1, 63), (0x90, 12)])
     (match walkEntry 2 (mkW [(1, 63), (0x90, 12)]) with | .next t => t == 0x90000 | _ => false) = true ∧
     ((nextSt (exec (.walkTableReadReply 0 0) s)).floe 0).walks.map (fun w => (w.level, w.table)) = [(1, 0x90000)]) ∧
    (let s := { walking1 0 (leafAt 0x30 7) with ctrlKeys := [] }
     s.readEntry (entryAddr 0 0x80000 0x30) = none ∧
     ((nextSt (exec (.walkTableReadReply 0 0) s)).ctxAt 0 1).walkFail = some ⟨0x30, 3⟩) := by
  (and_intros <;> first | decide +kernel | (show @Eq Out _ _; exact next_of (by decide +kernel)) | (show @Eq (Res _) _ _; exact ok_of (by decide +kernel)) | (show @Eq (Res _) _ _; exact trap_of (by decide +kernel)))

theorem State.writeUnder_isSome (s : State) (slot pa : Nat) (l : List Byte) :
    (s.writeUnder slot pa l).isSome = ((unitsOf pa l.length).all fun u => (s.unitKey slot u).isSome) := by
  unfold State.writeUnder
  split <;> simp_all

/-- Core 0 with frames of one page, spilling context 1 for context 2, its slot in backing memory at 0x60000. -/
def spilling : State :=
  { tst 0 [] id fun x => { x with part := 0x0004380000000000, spbase := 0x5C000, spill := some (1, 2) } with
    ctrlKeys := (List.range 32).map fun m => (m * 128, [1]) }

/-- The pages that an answer names. -/
def pagesOf (r : EngOf Unit (List (Nat × Nat))) : Option (List (Nat × Nat)) :=
  match r with
  | .ok l _ => some l
  | _ => none

theorem wit_WalksFillsAndSpills_spills :
    (let s := spilling
     (s.core 0).spill = some (1, 2) ∧ (s.ctxAt 0 1).life ≠ .stopped ∧ frameSize (s.core 0).part = 4096 ∧
     ((nextSt (exec (.spillWriteComplete 0 false) s)).core 0).spill = none) ∧
    (let s := spilling.mapCtxAt 0 1 fun c => { c with life := .stopped }
     (s.ctxAt 0 1).life = .stopped ∧ pagesOf (s.spillPages 0 1) = some [(0x60000, 0)] ∧ s.spillShared 0 0x60000 = false ∧
     (s.writeUnder 0 0x60000 ((List.range 4096).map fun i => Config.spillByte s.free (4096 * 0 + i))).isSome = true ∧
     (nextSt (exec (.spillWriteComplete 0 false) s)).me.cfault = (s.coreFault 0 3).me.cfault) ∧
    -- the page lies in the spill area of another core too: the write fails (R171)
    (let s := spilling.mapCtxAt 0 1 fun c => { c with life := .stopped }
     let t : State := { s with cores := s.cores ++ [(1, { tcore with spbase := 0x60000 })] }
     t.spillShared 0 0x60000 = true ∧ pagesOf (t.spillPages 0 1) = none ∧
     ((nextSt (exec (.spillWriteComplete 0 true) t)).core 0).cfault ≠ 0) ∧
    (let s := { tst 0 [] (fun c => { c with req := some ⟨11, none⟩ }) fun x => { x with part := 0x0004380000000000, spbase := 0x5C000, reload := some 1 } with
       ctrlKeys := (List.range 32).map fun m => (m * 128, [1]) }
     (s.core 0).reload = some 1 ∧ (s.ctxAt 0 0).req = some ⟨11, none⟩ ∧ pagesOf (s.spillPages 0 1) = some [(0x60000, 0)] ∧
     (s.spillRead 0 1 [(0x60000, 0)]).1 = none ∧
     ((nextSt (exec (.spillReloadComplete 0 none) s)).ctxAt 0 0).req = some ⟨11, some (.value 0 0)⟩ ∧
     ((nextSt (exec (.spillReloadComplete 0 (some 5)) s)).core 0).reload = none) ∧
    (let s := { tst 1 [] (fun c => { c with fill := some (0x30100, 0x60100, 0) }) with ctrlKeys := (List.range 32).map fun m => (m * 128, [1]) }
     (s.ctrlRead 0 0x60100 4).map (fun r => r.1) = some [0, 0, 0, 0] ∧ s.me.forwarded 0x60100 4 = [] ∧
     (nextSt (exec (.fetchFillComplete 0 1) s)).ctx.fbuf = [(0x30100, 0), (0x30102, 0)]) ∧
    (let s := { tst 1 [] (fun c => { c with fill := some (0x30100, 0x60000, 0) }) with bad := [0x60000] }
     (s.ctrlRead 0 0x60000 4).isNone = true ∧ (nextSt (exec (.fetchFillComplete 0 1) s)).ctx.req = some ⟨0, some .mismatch⟩) ∧
    (let s := tst 1 []
     ((s.core 0).holdsFrame 1 = true ∧ (8 : W).toNat / frameSize (s.core 0).part = (s.ctxAt 0 1).frame) ∧ (s.ctxAt 0 1).life = .runnable ∧
     exec (.frameDataError 0 1 7) s = .next s ∧ exec (.frameDataError 0 2 8) s = .next s ∧
     ((nextSt (exec (.frameDataError 0 1 8) s)).ctxAt 0 1).life = .stopped ∧
     ((nextSt (exec (.frameDataError 0 1 8) s)).ctxAt 0 1).frec2 = 8) ∧
    (let s := tst 0 [] (fun c => { c with req := some ⟨11, none⟩ }) fun x => { x with reload := some 2 }
     (s.core 0).holdsFrame 2 = true ∧ (s.ctxAt 0 2).life ≠ .runnable ∧ (s.ctxAt 0 2).req = none ∧
     ((nextSt (exec (.frameDataError 0 2 8) s)).ctxAt 0 2).life = .stopped ∧
     ((nextSt (exec (.frameDataError 0 2 8) s)).ctxAt 0 0).req = some ⟨12, some (.value 5 0)⟩) ∧
    (let s := tst 0 []
     (nextSt (exec (.frameDataError 0 0 8) s)).me.cfault = (s.coreFault 0 2).me.cfault) := by
  and_intros
  on_goal 8 => rw [State.writeUnder_isSome]
  all_goals (and_intros <;> first | decide +kernel | (show @Eq Out _ _; exact next_of (by decide +kernel)) | (show @Eq (Res _) _ _; exact ok_of (by decide +kernel)) | (show @Eq (Res _) _ _; exact trap_of (by decide +kernel)))

/-- Frames of two pages: both slot pages in backing memory; the second shared, or mapped to the pool, or not mapped. -/
theorem wit_WalksFillsAndSpills_pages :
    let at_ := fun (tlb : List TlbEnt) (more : List (Nat × Core)) =>
      ({ tst 0 [] id (fun x => { x with part := 0x0004390000000000, spbase := 0x5C000, tlb := tlb }) with
         ctrlKeys := (List.range 32).map fun m => (m * 128, [1]) } : State) |> fun s => { s with cores := more ++ s.cores }
    let two : List TlbEnt := [⟨0, 0x60, 1, 0x80000000000609C0⟩, ⟨0, 0x61, 1, 0x80000000000619C0⟩]
    (let s := at_ two []
     frameSize (s.core 0).part = 8192 ∧ pagesOf (s.spillPages 0 1) = some [(0x60000, 0), (0x61000, 0)]) ∧
    (let s := at_ two [(1, { tcore with spbase := 0x60000, tlb := [⟨0, 0x60, 1, 0x80000000000619C0⟩] })]
     s.spillShared 0 0x60000 = false ∧ s.spillShared 0 0x61000 = true ∧ pagesOf (s.spillPages 0 1) = none) ∧
    (let s := at_ [⟨0, 0x60, 1, 0x80000000000609C0⟩, ⟨0, 0x61, 1, leafAt 0x30 7⟩] []
     pagesOf (s.spillPages 0 1) = none) := by
  (and_intros <;> first | decide +kernel | (show @Eq Out _ _; exact next_of (by decide +kernel)) | (show @Eq (Res _) _ _; exact ok_of (by decide +kernel)) | (show @Eq (Res _) _ _; exact trap_of (by decide +kernel)))

theorem wit_DecodeReadsBackEncode :
    (Instr.add 5 6 7).wf = true ∧ encode (.add 5 6 7) = [0x03, 0x14, 0x73, 0x00] ∧
    decode [0x03, 0x14, 0x73, 0x00, 9] = some (.add 5 6 7, [9]) ∧ (Instr.cNop).wf = true ∧
    decode [0x16, 0x00, 9] = some (.cNop, [9]) := by decide +kernel

/-- The machine at its first step with the word w at the pc. -/
def stepping (w : Nat) (f : State → State := id) : State := f (State.reset.withFetchWord 32 w)

theorem wit_StepRunsDecodedInstruction :
    (let s := State.reset
     let s1 := (s.mapMe fun x => { x with newEvents := 0 }).wakeAll
     s.failed = false ∧ s.agenda = [] ∧ s1.me.launched = false ∧ step s = .next s1.tick) ∧
    (let s := stepping 0x00731403
     let s1 := (s.mapMe fun x => { x with newEvents := 0 }).wakeAll
     let s2 := s1.choose.1
     let u := (s2.setCursor s2.cur.core 0).markIssue
     s.failed = false ∧ s.agenda = [] ∧ s1.me.launched = true ∧ s1.choose.2 = some 0 ∧ (s2.ctxAt s2.cur.core 0).gang = none ∧
     u.ctx.gangLate = none ∧ u.ctx.oddPc = none ∧ u.ctx.wait = none ∧ (okVal u.fetch).map (fun r => r.1) = some 0x00731403 ∧
     decodeWord 0x00731403 = some (.add 5 6 7) ∧ (nextSt (step s)).ctx.pc = 0x30004) ∧
    (let s := stepping 0x00000073
     decodeWord 0x00000073 = none ∧ ((nextSt (step s)).core 0).cfault ≠ 0) ∧
    (let s : State := { State.reset with agenda := [.event .powerThermalTrip] }
     Instr.powerThermalTrip.isEvent = true ∧ (nextSt (step s)).failed = true ∧ (nextSt (step s)).agenda = []) ∧
    (let s : State := { State.reset with failed := true, agenda := [.event .moduleReset] }
     (nextSt (step s)).failed = false) ∧
    (let s : State := { State.reset with failed := true }
     s.failed = true ∧ s.agenda = [] ∧ step s = .next s.reportFailure) ∧
    (let s : State := { State.reset with failed := true, agenda := [.cycle 3, .flit 0 0] }
     s.failing = none ∧ (Act.cycle 3).outlives = false ∧ (nextSt (step s)).agenda = [.flit 0 0]) ∧
    (let s : State := { State.reset with failed := true, agenda := [.registerRead none 0] }
     (nextSt (step s)).agenda = []) ∧
    (let s := stepping 0x00731403
     (∀ n : Fin 3, s.ctx.lc[n] = 0) ∧ s.ctx.fbuf = [] ∧ s.ctx.fill = none ∧ s.bad = [] ∧ s.ctx.pc.toNat % 4 = 0 ∧
     (okVal (s.xlate s.ctx.pc cFETCHFAULT)).map (fun e => (e.pte.getLsbD 8, e.home 0x30000)) = some (true, .pool 0 0x30000) ∧
     (0x30000 : Nat) + 4 ≤ 48 * 2 ^ 16 ∧ s.rd (poolKey 0 0x30000) 2 % 4 = 3 ∧ s.rd (poolKey 0 0x30000) 4 = 0x00731403) := by
  and_intros
  all_goals first | (intro l; exact List.cons_ne_nil _ _ ∘ Eq.symm; done) | (and_intros <;> first | decide +kernel | (show @Eq Out _ _; exact next_of (by decide +kernel)) | (show @Eq (Res _) _ _; exact ok_of (by decide +kernel)) | (show @Eq (Res _) _ _; exact trap_of (by decide +kernel)))

theorem wit_MemoryStaysCanonical :
    (stepping 0x7FF315A3).memOk ∧ (match step (stepping 0x7FF315A3) with | .next _ => true | _ => false) = true ∧
    (stepping 0x7FF315A3).failed = false := by
  unfold State.memOk
  decide +kernel

/-- From reset, a step runs the word laid at the pc: `c.addi g5, -3`, `jal g1` forward by 16 bytes. -/
theorem test_first_steps :
    (nextSt (step (State.reset.withFetchWord 16 0xF4A0))).ctx.g[5] = 0xFFFFFFFFFFFFFFFD ∧
    (nextSt (step (State.reset.withFetchWord 16 0xF4A0))).ctx.pc = 0x30002 ∧
    (nextSt (step (State.reset.withFetchWord 32 (Instr.jal 1 8).word))).ctx.pc = 0x30010 ∧
    (nextSt (step (State.reset.withFetchWord 32 (Instr.jal 1 8).word))).ctx.g[1] = 0x30004 := by
  decide +kernel

theorem wit_EncodeReadsBackDecode :
    decode [0x03, 0x14, 0x73, 0x00, 9] = some (.add 5 6 7, [9]) ∧ decode [0x16, 0x00] = some (.cNop, []) ∧
    decode [0x16] = none ∧ decode [0x03, 0x14, 0x73] = none := by decide +kernel

theorem wit_ExecutionAlwaysAnswers : State.reset.failed = false ∧ (stepping 0).failed = false := by decide +kernel
end Sys2Proof.Tests
end

section
/-! Local memory (R5, R138): what a byte, and a number of bytes, reads as after a write, and that a memory in its
canonical form is determined by what it reads as. -/

namespace Sys2Proof.Machine

/-- A write of one byte leaves every other byte alone, in canonical form or not. -/
theorem memRead_memWrite_of_ne {a k : Nat} (m : List Host.Cell) (v : Byte) (ha : a ≠ k) :
    memRead (memWrite m k v) a = memRead m a := by
  have head (b : Byte) (l : List Host.Cell) : memRead ((k, b) :: l) a = memRead l a := if_neg ha.symm
  induction m with
  | nil =>
    unfold memWrite
    split
    · rfl
    · exact head v []
  | cons cell m ih =>
    obtain ⟨c, b⟩ := cell
    unfold memWrite
    split
    · split
      · rfl
      · exact head v _
    split
    · next hk =>
      subst hk
      rw [head b m]
      split
      · rfl
      · exact head v m
    · simp only [memRead, ih]

theorem memRead_memWrites_outside (l : List Byte) (m : List Host.Cell) {k a : Nat}
    (ha : a < k ∨ k + l.length ≤ a) : memRead (memWrites m k l) a = memRead m a := by
  induction l generalizing m k with
  | nil => rfl
  | cons b l ih =>
    rw [List.length_cons] at ha
    rw [memWrites, ih _ (by omega), memRead_memWrite_of_ne m b (by omega)]

theorem memRead_memWrites_inside (l : List Byte) (m : List Host.Cell) (k : Nat) (h : Memory.wf m = true)
    {i : Nat} (hi : i < l.length) : memRead (memWrites m k l) (k + i) = l.getD i 0 := by
  induction l generalizing m k i with
  | nil => simp at hi
  | cons b l ih =>
    rw [memWrites]
    cases i with
    | zero => rw [memRead_memWrites_outside l _ (by omega), memRead_memWrite m k _ b h]; simp
    | succ i =>
      rw [show k + (i + 1) = k + 1 + i by omega, ih _ _ (memWrite_wf m k b h) (by simpa using hi)]
      rfl

@[simp] theorem length_leBytes (n v : Nat) : (leBytes n v).length = n := by
  induction n generalizing v with
  | zero => rfl
  | succ n ih => simp [leBytes, ih]

/-- The little-endian bytes of a number read back as the number, as far as the bytes reach. -/
theorem leNat_leBytes (n v : Nat) : leNat (leBytes n v) = v % 2 ^ (8 * n) := by
  induction n generalizing v with
  | zero => simp [leBytes, leNat, Nat.mod_one]
  | succ n ih =>
    rw [leBytes, leNat, ih, BitVec.toNat_ofNat, Nat.mul_succ, Nat.add_comm (8 * n), Nat.pow_add, Nat.mod_mul]

/-- A number written reads back, as far as its bytes reach. -/
theorem rd_wrN (s : State) (k n v : Nat) (h : s.memOk) : (s.wrN k n v).rd k n = v % 2 ^ (8 * n) := by
  have hr := memReads_memWrites (leBytes n v) s.mem k h
  rw [length_leBytes] at hr
  rw [State.rd, State.wrN, wr_mem, hr, leNat_leBytes]

/-- The first entry of a canonical memory is found in any canonical memory that reads the same, and nothing stands
below it there. -/
theorem Memory.exists_cons_of_memRead_eq {a : Nat} {b : Byte} {m n : List Host.Cell}
    (hm : Memory.wf ((a, b) :: m) = true) (hn : Memory.wf n = true)
    (e : ∀ k, memRead ((a, b) :: m) k = memRead n k) : ∃ l, n = (a, b) :: l := by
  obtain ⟨hb, hab, hm'⟩ := (Memory.wf_cons a b m).1 hm
  have ha : memRead n a = b := by rw [← e a]; simp [memRead]
  cases n with
  | nil => exact absurd ha.symm hb
  | cons cell l =>
    obtain ⟨c, d⟩ := cell
    obtain ⟨hd, hcl, hl⟩ := (Memory.wf_cons c d l).1 hn
    have hc : memRead ((a, b) :: m) c = d := by rw [e c]; simp [memRead]
    rcases Nat.lt_trichotomy a c with h | h | h
    · exact absurd (ha.symm.trans (memRead_of_above a a ((c, d) :: l) (Nat.le_refl a)
        (by simpa [Memory.above] using h) hn)) hb
    · subst h
      exact ⟨l, by simpa [memRead] using hc.symm⟩
    · exact absurd (hc.symm.trans (memRead_of_above c c ((a, b) :: m) (Nat.le_refl c)
        (by simpa [Memory.above] using h) hm)) hd

/-- Two canonical memories that read the same are the same list. -/
theorem Memory.eq_of_memRead_eq {m n : List Host.Cell} (hm : Memory.wf m = true) (hn : Memory.wf n = true)
    (e : ∀ a, memRead m a = memRead n a) : m = n := by
  induction m generalizing n with
  | nil =>
    cases n with
    | nil => rfl
    | cons cell n =>
      obtain ⟨l, hl⟩ := Memory.exists_cons_of_memRead_eq (a := cell.1) (b := cell.2) hn hm fun a => (e a).symm
      exact absurd hl (List.cons_ne_nil _ _).symm
  | cons cell m ih =>
    obtain ⟨a, b⟩ := cell
    obtain ⟨l, rfl⟩ := Memory.exists_cons_of_memRead_eq hm hn e
    obtain ⟨-, ham, hm'⟩ := (Memory.wf_cons a b m).1 hm
    obtain ⟨-, hal, hl⟩ := (Memory.wf_cons a b l).1 hn
    rw [ih hm' hl fun k => ?_]
    by_cases hk : a = k
    · subst hk
      rw [memRead_of_above a a m (Nat.le_refl a) ham hm', memRead_of_above a a l (Nat.le_refl a) hal hl]
    · simpa [memRead, hk] using e k

/-- Settles O11: bytes written read back, one by one and as a number; bytes outside are left alone; a write keeps the
canonical form, which is determined by what it reads as. -/
theorem readAfterWrite : Obligations.ReadAfterWrite := by
  intro s k l
  refine ⟨fun h i hi => ?_, fun a ha => ?_, fun h n v => rd_wrN s k n v h, fun n => rfl, wr_memOk s k l,
    fun m => Memory.eq_of_memRead_eq⟩
  · rw [wr_mem]; exact memRead_memWrites_inside l s.mem k h hi
  · rw [wr_mem]; exact memRead_memWrites_outside l s.mem ha

end Sys2Proof.Machine
end

section
/-! SUPPORT. What an answer of the model leaves in memory. `Memory.wf s.mem = true` (the canonical form,
`State.memOk`) is written out here and below, so that `simp` reads a state's memory off the operations that made it.

Names, here and below: `f_mem` says that f leaves memory alone, `f_wf` that f keeps its canonical form, `f_canon` that
every state in an answer of f (the next one, the one waited in, the one that goes with a value) has canonical memory.
A frame lemma is proved by `(rfl)` where it could be `rfl`: `simp` then rewrites by it as by any equation, where by a
definitional equation it would leave the comparison of whole states to the kernel. -/

namespace Sys2Proof.Machine

theorem wf_of_mem_eq {s t : State} (e : t.mem = s.mem) (h : Memory.wf s.mem = true) : Memory.wf t.mem = true := e ▸ h

@[simp] theorem ite_mem (c : Prop) [Decidable c] (s t : State) :
    (if c then s else t).mem = if c then s.mem else t.mem := by split <;> rfl

@[simp] theorem wf_ite (c : Prop) [Decidable c] (m n : List Host.Cell) :
    Memory.wf (if c then m else n) = if c then Memory.wf m else Memory.wf n := by split <;> rfl

/-- A fold leaves memory alone if each of its steps does. -/
@[simp] theorem foldl_mem {α : Type} {f : State → α → State} {l : List α} {s : State}
    (hf : ∀ t a, (f t a).mem = t.mem) : (l.foldl f s).mem = s.mem := by
  induction l generalizing s with
  | nil => rfl
  | cons a l ih => exact ih.trans (hf s a)

@[simp] theorem foldl_mapCtxAt_mem {α : Type} (c : α → CoreId) (k : α → CtxId) (f : α → Ctx → Ctx) (l : List α)
    (s : State) : (l.foldl (fun t a => t.mapCtxAt (c a) (k a) (f a)) s).mem = s.mem := foldl_mem fun _ _ => rfl

/-- A fold keeps the canonical form if each of its steps does. -/
theorem foldl_wf {α : Type} {f : State → α → State} {l : List α} {s : State}
    (hf : ∀ t a, Memory.wf t.mem = true → Memory.wf (f t a).mem = true) (h : Memory.wf s.mem = true) :
    Memory.wf (l.foldl f s).mem = true := foldl_memOk f hf l s h

/-- Of a shared operation's answer: the value has the property P, and the state in which the instruction waits has
canonical memory. -/
def Res.Canon {α : Type} (P : α → Prop) : Res α → Prop
  | .ok a => P a
  | .trap _ => True
  | .block _ t => Memory.wf t.mem = true

/-- Of an answer whose value is a state: that state too has canonical memory. -/
abbrev Res.CanonState (r : Res State) : Prop := r.Canon fun t => Memory.wf t.mem = true

/-- Of what a meaning answers: the next state has canonical memory. -/
def Out.Canon : Out → Prop
  | .next t => Memory.wf t.mem = true
  | _ => True

/-- Of an engine's access: the state it leaves has canonical memory. -/
def EngOf.Canon {ε α : Type} : EngOf ε α → Prop
  | .ok _ t => Memory.wf t.mem = true
  | .held _ => True
  | .bad _ t => Memory.wf t.mem = true

section
variable {α β ε : Type} {P : α → Prop} {Q : β → Prop}

@[simp] theorem Res.canon_ok (a : α) : (Res.ok a).Canon P ↔ P a := (Iff.rfl)
@[simp] theorem Res.canon_trap (t : Trap) : (Res.trap t : Res α).Canon P := trivial
@[simp] theorem Res.canon_block (w : Wait) (t : State) :
    (Res.block w t : Res α).Canon P ↔ Memory.wf t.mem = true := (Iff.rfl)

@[simp] theorem Res.canon_bind (r : Res α) (f : α → Res β) : (r.bind f).Canon Q ↔ r.Canon fun a => (f a).Canon Q := by
  cases r <;> rfl

@[simp] theorem Res.canon_ite (c : Prop) [Decidable c] (r r' : Res α) :
    (if c then r else r').Canon P ↔ if c then r.Canon P else r'.Canon P := by split <;> rfl

theorem Res.Canon.bind {r : Res α} {f : α → Res β} (h : r.Canon fun a => (f a).Canon Q) : (r.bind f).Canon Q :=
  (Res.canon_bind r f).2 h

theorem Res.Canon.ite {c : Prop} [Decidable c] {r r' : Res α} (h : r.Canon P) (h' : r'.Canon P) :
    (if c then r else r').Canon P := by split <;> assumption

theorem Res.Canon.mono {r : Res α} {P' : α → Prop} (h : r.Canon P) (hP : ∀ a, P a → P' a) : r.Canon P' := by
  cases r with
  | ok a => exact hP a h
  | trap t => trivial
  | block w t => exact h

@[simp] theorem Out.canon_next (t : State) : Out.Canon (.next t) ↔ Memory.wf t.mem = true := (Iff.rfl)

@[simp] theorem Out.canon_ite (c : Prop) [Decidable c] (r r' : Out) :
    Out.Canon (if c then r else r') ↔ if c then Out.Canon r else Out.Canon r' := by split <;> rfl

@[simp] theorem EngOf.canon_ok (a : α) (t : State) :
    (EngOf.ok a t : EngOf ε α).Canon ↔ Memory.wf t.mem = true := (Iff.rfl)
@[simp] theorem EngOf.canon_held (m : Option Miss) : (EngOf.held m : EngOf ε α).Canon := trivial
@[simp] theorem EngOf.canon_bad (f : ε) (t : State) :
    (EngOf.bad f t : EngOf ε α).Canon ↔ Memory.wf t.mem = true := (Iff.rfl)

@[simp] theorem EngOf.canon_ite (c : Prop) [Decidable c] (r r' : EngOf ε α) :
    (if c then r else r').Canon ↔ if c then r.Canon else r'.Canon := by split <;> rfl

theorem EngOf.canon_bind {r : EngOf ε α} {f : α → State → EngOf ε β} (h : r.Canon)
    (hf : ∀ a t, Memory.wf t.mem = true → (f a t).Canon) : (r.bind f).Canon := by
  cases r with
  | ok a t => exact hf a t h
  | held m => trivial
  | bad e t => exact h
end

theorem wf_of_mem_some {s : State} (h : Memory.wf s.mem = true) : ∀ t ∈ some s, Memory.wf t.mem = true := by
  rintro _ ⟨⟩; exact h

/-- What an optional state, or another in its place, keeps. -/
theorem wf_getD {o : Option State} {u : State} (ho : ∀ t ∈ o, Memory.wf t.mem = true) (hu : Memory.wf u.mem = true) :
    Memory.wf (o.getD u).mem = true := by
  cases o with
  | none => exact hu
  | some t => exact ho t rfl

theorem mem_getD {o : Option State} {s u : State} (ho : ∀ t ∈ o, t.mem = s.mem) (hu : u.mem = s.mem) :
    (o.getD u).mem = s.mem := by
  cases o with
  | none => exact hu
  | some t => exact ho t rfl

end Sys2Proof.Machine
end

section
/-! SUPPORT. The operations of the state and the shared operations of instructions, in the order of the model. -/

namespace Sys2Proof.Machine

/-! ### State, faults, traps, completion -/

@[simp] theorem State.fresh_mem (s : State) : s.fresh.2.mem = s.mem := (rfl)

@[simp] theorem State.wrN_wf {s : State} {k n v : Nat} (h : Memory.wf s.mem = true) :
    Memory.wf (s.wrN k n v).mem = true := wrN_memOk s k n v h

@[simp] theorem State.wr8_wf {s : State} {k : Nat} {v : W} (h : Memory.wf s.mem = true) :
    Memory.wf (s.wr8 k v).mem = true := wr8_memOk s k v h

@[simp] theorem State.wrWords_wf {s : State} {k : Nat} {l : List W} (h : Memory.wf s.mem = true) :
    Memory.wf (s.wrWords k l).mem = true := wrWords_memOk s k l h

@[simp] theorem State.fail_mem (s : State) (cls unit : Nat) (loc : CoreId) :
    (s.fail cls unit loc).mem = s.mem := by simp [State.fail]

@[simp] theorem State.coreFault_mem (s : State) (c : CoreId) (cause : Nat) :
    (s.coreFault c cause).mem = s.mem := by simp [State.coreFault]

@[simp] theorem State.floeFault_mem (s : State) (f : FloeId) (cause : Nat) :
    (s.floeFault f cause).mem = s.mem := by simp [State.floeFault]

@[simp] theorem State.routerFault_mem (s : State) (f : FloeId) (link : Bool) :
    (s.routerFault f link).mem = s.mem := by simp [State.routerFault]

@[simp] theorem Res.check_canon {b : Bool} {t : Trap} {P : Unit → Prop} (hP : P ()) : (Res.check b t).Canon P := by
  simp [Res.check, hP]

@[simp] theorem State.pendShown_mem (s : State) (c : Ctx) :
    (s.pendShown c).2.mem = s.mem := by unfold State.pendShown; split <;> rfl

@[simp] theorem State.trapAt_mem (s : State) (co : CoreId) (k : CtxId) (t : Trap) (word : BitVec 32) :
    (s.trapAt co k t word).mem = s.mem := by
  simp only [State.trapAt]
  split <;> simp [apply_ite State.mem]

@[simp] theorem State.trap_mem (s : State) (t : Trap) : (s.trap t).mem = s.mem := by simp [State.trap]

@[simp] theorem State.complete_mem (s : State) (len : Nat) : (s.complete len).mem = s.mem := (rfl)

@[simp] theorem State.completeTo_mem (s : State) (t : W) : (s.completeTo t).mem = s.mem := (rfl)

@[simp] theorem State.block_mem (s : State) (w : Wait) : (s.block w).mem = s.mem := (rfl)

@[simp] theorem State.finish_canon {s : State} {len : Nat} {r : Res State} (h : Memory.wf s.mem = true)
    (hr : r.CanonState) : Out.Canon (s.finish len r) := by
  cases r <;> simpa [State.finish] using ‹_›

@[simp] theorem State.finishJump_canon {s : State} {r : Res State} (h : Memory.wf s.mem = true)
    (hr : r.CanonState) : Out.Canon (s.finishJump r) := by
  cases r <;> simpa [State.finishJump] using ‹_›

@[simp] theorem State.deferFault_mem (s : State) (o : Origin) (f : Nat × Nat × W) (tag : Option (BitVec 6))
    (xid : BitVec 16) : (s.deferFault o f tag xid).mem = s.mem := (rfl)

@[simp] theorem State.finishOp_mem (s : State) (o : Origin) (fault : Option (Nat × Nat × W)) (tag : Option (BitVec 6))
    (xid : BitVec 16) : (s.finishOp o fault tag xid).mem = s.mem := by unfold State.finishOp; split <;> rfl

@[simp] theorem State.orFlags_mem (s : State) (co : CoreId) (k : CtxId) (f : BitVec 5) :
    (s.orFlags co k f).mem = s.mem := (rfl)

@[simp] theorem State.covering_canon {s : State} {cov : Deferred → Bool} {k : Out} (h : Memory.wf s.mem = true)
    (hk : Out.Canon k) : Out.Canon (s.covering cov k) := by
  unfold State.covering; split <;> simp [h, hk]

/-! ### Packets, endpoints and slots -/

@[simp] theorem State.send_mem (s : State) (f : FloeId) (dst : Dest) (order : Option Nat) (bytes : Nat) (body : Body)
    (dmod : Option (BitVec 19)) (src : CoreId) (inp : Nat) :
    (s.send f dst order bytes body dmod src inp).mem = s.mem := (rfl)

@[simp] theorem State.sendCore_mem (s : State) (c : CoreId) (dst : Dest) (order : Bool) (bytes : Nat) (body : Body)
    (dmod : Option (BitVec 19)) : (s.sendCore c dst order bytes body dmod).mem = s.mem := (rfl)

@[simp] theorem State.sendCtrl_mem (s : State) (m : BitVec 5) (dst : Dest) (bytes : Nat) (body : Body)
    (ordered : Bool) : (s.sendCtrl m dst bytes body ordered).mem = s.mem := (rfl)

@[simp] theorem State.park_mem (s : State) (p : Nat) : (s.park p).mem = s.mem := by unfold State.park; split <;> rfl

@[simp] theorem State.parkAs_mem (s : State) (p : Nat) (b : Body) : (s.parkAs p b).mem = s.mem := (rfl)

@[simp] theorem State.takePacket_mem (s : State) (p : Nat) : (s.takePacket p).mem = s.mem := (rfl)

@[simp] theorem State.sendPeer_mem (s : State) (c : CoreId) (ep : Endpoint) (bytes : Nat) (b : Body) :
    (s.sendPeer c ep bytes b).mem = s.mem := by simp [State.sendPeer]

@[simp] theorem State.fillSlot_wf {s : State} {c : CoreId} {e : EpId} {i cls typ : Nat} {seq : BitVec 16}
    {payload : List Byte} (h : Memory.wf s.mem = true) :
    Memory.wf (s.fillSlot c e i cls typ seq payload).mem = true := by simp [State.fillSlot, h, memWrites_wf]

/-- Writing one dword after another, each at its own key, keeps the canonical form. -/
theorem foldl_wr8_wf {key : Nat → Nat} {val : State → Nat → W} {l : List Nat} {s : State}
    (h : Memory.wf s.mem = true) : Memory.wf (l.foldl (fun t i => t.wr8 (key i) (val t i)) s).mem = true :=
  foldl_wf (fun _ _ ht => State.wr8_wf ht) h

@[simp] theorem State.clearSlots_wf {s : State} {c : CoreId} {e : EpId} (h : Memory.wf s.mem = true) :
    Memory.wf (s.clearSlots c e).mem = true :=
  foldl_wr8_wf (key := (s.epAt c e).slotKey c)
    (val := fun t i => t.rd8 ((s.epAt c e).slotKey c i) &&& ~~~(1#64 <<< 63)) h

@[simp] theorem State.sendCredits_mem (s : State) (c : CoreId) (e : EpId) :
    (s.sendCredits c e).mem = s.mem := by simp [State.sendCredits]

@[simp] theorem State.noteCredit_mem (s : State) (c : CoreId) (e : EpId) : (s.noteCredit c e).mem = s.mem := by
  simp only [State.noteCredit]
  split
  · split <;> rfl
  · rfl

@[simp] theorem State.freeSlot_wf {s : State} {c : CoreId} {e : EpId} (h : Memory.wf s.mem = true) :
    Memory.wf (s.freeSlot c e).mem = true := by
  unfold State.freeSlot
  extract_lets ep k s1
  have hs1 : Memory.wf s1.mem = true := wf_of_mem_eq (State.mapEpAt_mem _ _ _ _) (State.wr8_wf h)
  clear_value s1
  split
  · simp [hs1]
  · split <;> simp [hs1]

@[simp] theorem State.transmit_mem (s : State) (c : CoreId) (e : EpId) (cls typ : Nat) (payload : List Byte) :
    (s.transmit c e cls typ payload).mem = s.mem := by simp [State.transmit]

@[simp] theorem State.unheld_canon {α : Type} {s : State} {k n : Nat} {write : Bool} {r : Res α} {P}
    (h : Memory.wf s.mem = true) (hr : r.Canon P) : (s.unheld k n write r).Canon P := by
  simp [State.unheld, h, hr]

/-! ### Operands and shared operations -/

@[simp] theorem State.setV_mem (s : State) (d : Reg) (x : V) : (s.setV d x).mem = s.mem := (rfl)

@[simp] theorem State.setQ_mem (s : State) (d : BitVec 2) (w : W) : (s.setQ d w).mem = s.mem := (rfl)

@[simp] theorem State.setP_mem (s : State) (d : BitVec 3) (b : Bool) : (s.setP d b).mem = s.mem := (rfl)

@[simp] theorem State.setG_mem (s : State) (d : Reg) (w : W) :
    (s.setG d w).mem = s.mem := by unfold State.setG; split <;> simp

@[simp] theorem State.pops_wf {s : State} {e : EpId} {n : Nat} (h : Memory.wf s.mem = true) :
    Memory.wf (s.pops e n).mem = true := by
  induction n generalizing s with
  | zero => exact h
  | succ n ih => exact ih (by simp [h])

@[simp] theorem State.operands_canon {s : State} {src dst vec : List Reg} {P} (h : Memory.wf s.mem = true)
    (hP : ∀ a, P a) : (s.operands src dst vec).Canon P := by
  simp only [State.operands]
  repeat' split
  all_goals simp [h, hP]

@[simp] theorem State.takeWords_wf {s : State} {src : List Reg} (h : Memory.wf s.mem = true) :
    Memory.wf (s.takeWords src).mem = true := by unfold State.takeWords; split <;> simp [h]

@[simp] theorem State.withOperands_canon {s : State} {src dst vec : List Reg} {k : List W → State → Res State}
    (h : Memory.wf s.mem = true) (hk : ∀ l, (k l s).CanonState) : (s.withOperands src dst vec k).CanonState := by
  simp only [State.withOperands, Res.canon_bind]
  refine State.operands_canon h fun l => ?_
  have hl := hk l
  cases hr : k l s <;> simp_all

@[simp] theorem State.checked_canon {s : State} {src dst vec : List Reg} {pre : Res Unit} {k : Out}
    (h : Memory.wf s.mem = true) (hk : Out.Canon k) : Out.Canon (s.checked src dst vec pre k) := by
  unfold State.checked
  split
  · simp [h]
  · split <;> simp [h, hk]

@[simp] theorem State.issue_canon {s : State} {len : Nat} {src dst vec : List Reg} {k : List W → State → Res State}
    (h : Memory.wf s.mem = true) (hk : ∀ l, (k l s).CanonState) :
    Out.Canon (s.issue len src dst vec k) := by
  simp [State.issue, h, hk]

@[simp] theorem State.issueIf_canon {s : State} {ok : Bool} {len : Nat} {src dst vec : List Reg}
    {k : List W → State → Res State} (h : Memory.wf s.mem = true)
    (hk : ∀ l, (k l s).CanonState) : Out.Canon (s.issueIf ok len src dst vec k) := by
  simp [State.issueIf, h, hk]

@[simp] theorem State.issueJump_canon {s : State} {src dst vec : List Reg} {k : List W → State → Res State}
    (h : Memory.wf s.mem = true) (hk : ∀ l, (k l s).CanonState) :
    Out.Canon (s.issueJump src dst vec k) := by
  simp [State.issueJump, h, hk]

@[simp] theorem State.alu2_canon {s : State} {len : Nat} {d a b : Reg} {f : W → W → W} (h : Memory.wf s.mem = true) :
    Out.Canon (s.alu2 len d a b f) := by
  simp [State.alu2, h]

@[simp] theorem State.alu1_canon {s : State} {len : Nat} {d a : Reg} {f : W → W} (h : Memory.wf s.mem = true) :
    Out.Canon (s.alu1 len d a f) := by
  simp [State.alu1, h]

@[simp] theorem State.cmpP_canon {s : State} {d : BitVec 3} {a b : Reg} {f : W → W → Bool}
    (h : Memory.wf s.mem = true) :
    Out.Canon (s.cmpP d a b f) := by
  simp [State.cmpP, h]

/-! ### Integer operations -/

@[simp] theorem State.alu3_canon {s : State} {len : Nat} {d a b : Reg} {f : W → W → W → W}
    (h : Memory.wf s.mem = true) :
    Out.Canon (s.alu3 len d a b f) := by
  simp [State.alu3, h]

@[simp] theorem State.forfeits_mem (s : State) (n : Nat) : (s.forfeits n).mem = s.mem := (rfl)

@[simp] theorem State.divide_canon {s : State} {d a b : Reg} {f : W → W → W} (h : Memory.wf s.mem = true) :
    Out.Canon (s.divide d a b f) := by
  simp [State.divide, h]

/-! ### Translation and local accesses -/

theorem State.writeUnder_wf {s : State} {slot pa : Nat} {l : List Byte} (h : Memory.wf s.mem = true) :
    ∀ t ∈ s.writeUnder slot pa l, Memory.wf t.mem = true :=
  fun t e => writeUnder_memOk s t slot pa l h e

@[simp] theorem State.correctMem_mem (s : State) (pa n : Nat) :
    (s.correctMem pa n).mem = s.mem := by simp [State.correctMem]

theorem State.ctrlRead_mem (s : State) (key pa n : Nat) {l : List Byte} {t : State}
    (e : s.ctrlRead key pa n = some (l, t)) :
    t.mem = s.mem := by
  simp only [State.ctrlRead, Option.ite_none_left_eq_some, Option.map_eq_some_iff, Prod.mk.injEq] at e
  obtain ⟨-, -, -, -, rfl⟩ := e
  simp

theorem State.ctrlWrite_wf {s : State} {key pa : Nat} {l : List Byte} (h : Memory.wf s.mem = true) :
    ∀ t ∈ s.ctrlWrite key pa l, Memory.wf t.mem = true := by
  simp only [State.ctrlWrite]
  split
  · simp
  · exact State.writeUnder_wf (by simp [h])

@[simp] theorem State.fillTlb_mem (s : State) (c : CoreId) (e : TlbEnt) : (s.fillTlb c e).mem = s.mem := by
  simp [State.fillTlb, State.fresh, apply_ite State.mem]

@[simp] theorem State.fillFloe_mem (s : State) (f : FloeId) (e : TlbEnt) : (s.fillFloe f e).mem = s.mem := by
  simp [State.fillFloe, State.fresh, apply_ite State.mem]

@[simp] theorem State.requestWalk_mem (s : State) (page : Nat) : (s.requestWalk page).mem = s.mem := by
  unfold State.requestWalk
  dsimp only
  split
  · simp
  · split <;> rfl

@[simp] theorem State.waitFor_mem (s : State) (m : Option Miss) :
    (s.waitFor m).mem = s.mem := by unfold State.waitFor; split <;> rfl

theorem EngOf.all_canon {ε α β : Type} {rd : State → α → EngOf ε β} {l : List α} {s : State}
    (hrd : ∀ t a, Memory.wf t.mem = true → (rd t a).Canon) (h : Memory.wf s.mem = true) :
    (EngOf.all rd l s).Canon := by
  induction l generalizing s with
  | nil => simpa [EngOf.all] using h
  | cons a l ih =>
    refine EngOf.canon_bind (hrd s a h) fun v t ht => EngOf.canon_bind (ih ht) fun vs u hu => ?_
    simpa using hu

@[simp] theorem State.engineXlate_canon {s : State} {c : CoreId} {root va : W} (h : Memory.wf s.mem = true) :
    (s.engineXlate c root va).Canon := by
  simp only [State.engineXlate]
  repeat' split
  all_goals simp [h]

@[simp] theorem State.xlate_canon {s : State} {va : W} {cause : Nat} {P} (h : Memory.wf s.mem = true)
    (hP : ∀ a, P a) : (s.xlate va cause).Canon P := by
  simp only [State.xlate]
  repeat' split
  all_goals simp [h, hP]

@[simp] theorem State.reach_canon {s : State} {va : W} {n align : Nat} {need : Need} {P} (h : Memory.wf s.mem = true)
    (hP : ∀ a, P a) : (s.reach va n align need).Canon P := by
  simp only [State.reach, Res.canon_ite, Res.canon_trap, Res.canon_bind, if_true_left]
  refine fun _ => State.xlate_canon h fun e => ?_
  split
  · simp
  · split <;> simp [hP]

@[simp] theorem State.pass_canon {s : State} {va : W} {k n : Nat} {need : Need} {P} (h : Memory.wf s.mem = true)
    (hP : ∀ a, P a) : (s.pass va k n need).Canon P := by
  unfold State.pass
  repeat' split
  all_goals simp [h, hP]

@[simp] theorem State.access_canon {s : State} {va : W} {n align : Nat} {need : Need} {P} (h : Memory.wf s.mem = true)
    (hP : ∀ a, P a) : (s.access va n align need).Canon P := by simp [State.access, h, hP]

@[simp] theorem State.reachAll_canon {s : State} {align : Nat} {need : Need} {l : List (W × Nat)} {P}
    (h : Memory.wf s.mem = true) (hP : ∀ a, P a) : (s.reachAll align need l).Canon P := by
  induction l generalizing P with
  | nil => simp [State.reachAll, hP]
  | cons p l ih => simp [State.reachAll, h, ih, hP]

@[simp] theorem State.passAll_canon {s : State} {need : Need} {l : List (W × Nat)} {ks : List Nat} {P}
    (h : Memory.wf s.mem = true) (hP : ∀ a, P a) : (s.passAll need l ks).Canon P := by
  induction l generalizing ks with
  | nil => simp [State.passAll, hP]
  | cons p l ih =>
    cases ks with
    | nil => simp [State.passAll, hP]
    | cons k ks => simp [State.passAll, h, ih]

@[simp] theorem State.accessAll_canon {s : State} {align : Nat} {need : Need} {l : List (W × Nat)} {P}
    (h : Memory.wf s.mem = true) (hP : ∀ a, P a) :
    (s.accessAll align need l).Canon P := by simp [State.accessAll, h, hP]

@[simp] theorem State.correct_mem (s : State) (c : CoreId) (k n : Nat) : (s.correct c k n).mem = s.mem := by
  simp only [State.correct]
  split
  · rfl
  · exact foldl_mem fun _ _ => rfl

@[simp] theorem State.loadAt_mem (s : State) (k n : Nat) : (s.loadAt k n).2.mem = s.mem := by simp [State.loadAt]

@[simp] theorem State.localUnits_canon {s : State} {va : W} {need : Need} {n : Nat} {P} (h : Memory.wf s.mem = true)
    (hP : ∀ a, P a) : (s.localUnits va need n).Canon P := by simp [State.localUnits, h, hP]

@[simp] theorem State.correctUnits_mem (s : State) (l : List Nat) :
    (s.correctUnits l).mem = s.mem := by simp [State.correctUnits]

@[simp] theorem State.writeUnits_wf {s : State} {l : List Nat} {b : List Byte} (h : Memory.wf s.mem = true) :
    Memory.wf (s.writeUnits l b).mem = true := writeUnits_memOk l b s h

/-! ### Fetch -/

@[simp] theorem State.poolFill_mem (s : State) (k a : Nat) : (s.poolFill k a).mem = s.mem := by
  refine foldl_mem fun t d => ?_
  dsimp only
  split <;> simp

theorem State.fetchHalf_canon {s : State} {va : W} (h : Memory.wf s.mem = true) :
    (s.fetchHalf va).Canon fun r => Memory.wf r.2.mem = true := by
  unfold State.fetchHalf
  dsimp only
  split
  · simpa using h
  · split
    · simp
    · split
      · simp
      · have hx : (s.xlate va cFETCHFAULT).Canon fun _ => True := State.xlate_canon h fun _ => trivial
        simp_all
      · split
        · simp
        · split <;> simp [h]

@[simp] theorem State.fillReply_mem (s : State) (co : CoreId) (k : CtxId) : (s.fillReply co k).mem = s.mem := by
  unfold State.fillReply
  split
  · rfl
  · dsimp only
    split
    · rfl
    · next e =>
      rw [State.mapCtxAt_mem]
      rcases Option.or_eq_some_iff.1 (Option.orElse_eq_or.symm.trans e) with e' | ⟨-, e'⟩
      · exact s.ctrlRead_mem _ _ _ e'
      · simp at e'; simp [e']

@[simp] theorem State.keepInsn_mem (s : State) (a : Nat) (hs : List (BitVec 16)) :
    (s.keepInsn a hs).mem = s.mem := by simp [State.keepInsn]

theorem State.fetch_canon {s : State} (h : Memory.wf s.mem = true) :
    s.fetch.Canon fun r => Memory.wf r.2.mem = true := by
  simp only [State.fetch, Res.canon_bind]
  refine (State.fetchHalf_canon h).mono fun r hr => ?_
  split
  · refine .bind ((State.fetchHalf_canon hr).mono fun r' hr' => ?_)
    simpa using hr'
  · simpa using hr

theorem State.lenAt_canon {s : State} {va : W} (h : Memory.wf s.mem = true) :
    (s.lenAt va).Canon fun r => Memory.wf r.2.mem = true := by
  have hf := State.fetchHalf_canon (va := va) h
  unfold State.lenAt
  split <;> simp_all

/-! ### Loads and stores -/

@[simp] theorem State.loadG_canon {s : State} {len : Nat} {d a : Reg} {off : W} {n : Nat} {signed : Bool}
    (h : Memory.wf s.mem = true) :
    Out.Canon (s.loadG len d a off n signed) := by simp [State.loadG, h]

@[simp] theorem State.storeG_canon {s : State} {len : Nat} {d a : Reg} {off : W} {n : Nat}
    (h : Memory.wf s.mem = true) :
    Out.Canon (s.storeG len d a off n) := by simp [State.storeG, h]

@[simp] theorem State.setX_mem (s : State) (x : BitVec 3) (w : W) : (s.setX x w).mem = s.mem := (rfl)

/-! ### Atomics -/

@[simp] theorem State.amo_canon {s : State} {d a b : Reg} {sc : BitVec 3} {o : BitVec 2} {op : Nat} {readsD : Bool}
    (h : Memory.wf s.mem = true) :
    Out.Canon (s.amo d a b sc o op readsD) := by simp [State.amo, h]

/-! ### Protocol images -/

@[simp] theorem State.loaderHome_canon {s : State} {c : CoreId} {va : W} (h : Memory.wf s.mem = true) :
    (s.loaderHome c va).Canon := by
  have hx : (s.engineXlate c (s.core c).xroot va).Canon := State.engineXlate_canon h
  unfold State.loaderHome
  split <;> simp_all

@[simp] theorem State.loadImage_canon {s : State} {c : CoreId} {va : W} (h : Memory.wf s.mem = true) :
    (s.loadImage c va).Canon := by
  simp only [State.loadImage]
  refine EngOf.canon_bind ?_ fun first t ht => EngOf.canon_bind ?_ fun rest u hu => ?_
  · refine EngOf.all_canon (fun t a ht => ?_) h
    exact EngOf.canon_bind (by simp [ht]) fun _ _ hu => by simp [hu]
  · refine EngOf.all_canon (fun t a ht => ?_) ht
    exact EngOf.canon_bind (by simp [ht]) fun _ _ hu => by simp [hu]
  · split
    · simp [hu]
    · split
      · simp [hu]
      · split
        · simp [hu]
        · split <;> simp [hu]

/-! ### Channels -/

@[simp] theorem State.mustOpen_canon {s : State} {e : EpId} {P} (hP : ∀ a, P a) :
    (s.mustOpen e).Canon P := by unfold State.mustOpen; split <;> simp [hP]

@[simp] theorem State.onEp_canon {s : State} {e : EpId} {src dst vec : List Reg} {pre : Res Unit}
    {k : List W → State → Res State} (h : Memory.wf s.mem = true)
    (hk : ∀ l, (k l s).CanonState) : Out.Canon (s.onEp e src dst vec pre k) :=
  State.checked_canon h (State.covering_canon h (State.issue_canon h hk))

@[simp] theorem State.toState_mem (s : State) (e : EpId) (goesTo : Nat) : (s.toState e goesTo).mem = s.mem := (rfl)

@[simp] theorem State.matchOut_canon {s : State} {e : EpId} {action typ cls : Nat} {P} (hP : ∀ a, P a) :
    (s.matchOut e action typ cls).Canon P := by unfold State.matchOut; split <;> simp [hP]

@[simp] theorem State.sendOn_canon {s : State} {e : EpId} {action typ cls : Nat} {d : Reg}
    (h : Memory.wf s.mem = true) :
    Out.Canon (s.sendOn e action typ cls d) := by unfold State.sendOn; split <;> simp [h]

@[simp] theorem State.headOf_canon {s : State} {e : EpId} {P} (h : Memory.wf s.mem = true) (hP : ∀ a, P a) :
    (s.headOf e).Canon P := by unfold State.headOf; split <;> simp [h, hP]

@[simp] theorem State.mayRecv_canon {s : State} {e : EpId} {P} (hP : ∀ a, P a) :
    (s.mayRecv e).Canon P := by unfold State.mayRecv; split <;> simp [hP]

@[simp] theorem State.matchIn_canon {s : State} {e : EpId} {typ cls : Nat} {P} (hP : ∀ a, P a) :
    (s.matchIn e typ cls).Canon P := by unfold State.matchIn; split <;> simp [hP]

@[simp] theorem State.sendNotice_mem (s : State) (f : FloeId) (from_ : Nat) (raddr : BitVec 36) (rgen : BitVec 16)
    (l : List W) (inp : Nat) : (s.sendNotice f from_ raddr rgen l inp).mem = s.mem := (rfl)

@[simp] theorem State.sendLoss_mem (s : State) (c : CoreId) (e : EpId) (reason : Nat) :
    (s.sendLoss c e reason).mem = s.mem := by simp [State.sendLoss]

@[simp] theorem State.msgEvent_mem (s : State) (c : CoreId) (e : EpId) (always : Bool) :
    (s.msgEvent c e always).mem = s.mem := by simp [State.msgEvent]

@[simp] theorem State.mapHw_mem (s : State) (h : HwEnd) (f : HwEnd → HwEnd) : (s.mapHw h f).mem = s.mem := (rfl)

@[simp] theorem State.hwTakes_mem (s : State) (c : CoreId) (e : EpId) (g : BitVec 16) :
    (s.hwTakes c e g).mem = s.mem := by unfold State.hwTakes; split <;> rfl

@[simp] theorem State.hwReply_mem (s : State) (f : FloeId) (inp : Nat) (c : CoreId) (e : EpId) (g : BitVec 16)
    (numbered : Bool) (bytes : Nat) (b : Body) (src : CoreId) :
    (s.hwReply f inp c e g numbered bytes b src).mem = s.mem := by
  unfold State.hwReply
  split <;> simp [apply_ite State.mem]

@[simp] theorem State.dropHw_mem (s : State) (c : CoreId) (e : EpId) (g : BitVec 16) :
    (s.dropHw c e g).mem = s.mem := by unfold State.dropHw; split <;> rfl

@[simp] theorem State.carrierLost_mem (s : State) (c : CoreId) (e : EpId) (g : BitVec 16) :
    (s.carrierLost c e g).mem = s.mem := by simp [State.carrierLost]

@[simp] theorem State.enterLost_wf {s : State} {c : CoreId} {e : EpId} {reason : Nat} (h : Memory.wf s.mem = true) :
    Memory.wf (s.enterLost c e reason).mem = true := by
  unfold State.enterLost
  extract_lets ep st s1 s2 s3
  have hs1 : Memory.wf s1.mem = true := wf_of_mem_eq (State.mapEpAt_mem _ _ _ _) (State.clearSlots_wf h)
  clear_value s1
  have hs2 : Memory.wf s2.mem = true := by simp only [s2]; split <;> simp [hs1]
  simp [s3, hs2]

@[simp] theorem State.failOps_mem (s : State) (c : CoreId) (e : EpId) : (s.failOps c e).mem = s.mem := by
  unfold State.failOps
  rw [State.mapCore_mem]
  exact foldl_mem fun _ _ => State.mapCtxAt_mem _ _ _ _

@[simp] theorem State.ownerLost_mem (s : State) (c : CoreId) (k : CtxId) : (s.ownerLost c k).mem = s.mem := by
  unfold State.ownerLost
  refine foldl_mem fun t e => ?_
  dsimp only
  split
  · rw [State.carrierLost_mem, State.mapEpAt_mem, State.failOps_mem, State.sendLoss_mem]
  · rfl

@[simp] theorem State.endForward_mem (s : State) (c : CoreId) (e : EpId) :
    (s.endForward c e).mem = s.mem := by simp [State.endForward]

@[simp] theorem State.forward_mem (s : State) (c : CoreId) (e : EpId) (b : Body) :
    (s.forward c e b).mem = s.mem := by unfold State.forward; split <;> simp

@[simp] theorem State.takeBound_mem (s : State) (c : CoreId) (e : EpId) (z : W) :
    (s.takeBound c e z).mem = s.mem := by simp [State.takeBound]

@[simp] theorem State.takeRedirect_mem (s : State) (c : CoreId) (e : EpId) (z src : W) :
    (s.takeRedirect c e z src).mem = s.mem := by
  unfold State.takeRedirect
  dsimp only
  split <;> rfl

theorem State.deliver_wf {s : State} {c : CoreId} {b : Body} (h : Memory.wf s.mem = true) :
    ∀ t ∈ s.deliver c b, Memory.wf t.mem = true := by
  simp only [State.deliver]
  split
  · simp [h]
  · split
    · simp
    split
    · simp [h]
    split
    · split
      · split <;> simp [h]
      · simp [h]
      · simp [h]
    · split
      case h_1 =>
        split
        · simp [h]
        · split
          · simp
          · refine wf_of_mem_some ?_
            rw [State.msgEvent_mem, State.mapEpAt_mem]
            exact State.fillSlot_wf h
      case h_2 | h_5 => repeat' split
                        all_goals simp [h]
      all_goals simp [h]

@[simp] theorem State.hwLoss_mem (s : State) (f : FloeId) (inp : Nat) (core : CoreId) (e : EpId) (g : BitVec 16)
    (reason : Nat) : (s.hwLoss f inp core e g reason).mem = s.mem := by
  unfold State.hwLoss
  split <;> simp [apply_ite State.mem]

@[simp] theorem State.hwRedirect_mem (s : State) (f : FloeId) (inp : Nat) (z src : W) :
    (s.hwRedirect f inp z src).mem = s.mem := by
  unfold State.hwRedirect
  dsimp only
  split <;> rfl

@[simp] theorem State.hostPump_mem (s : State) (n : Nat) : (s.hostPump n).mem = s.mem := by
  unfold State.hostPump
  split
  · rfl
  · dsimp only
    split <;> exact foldl_mem fun _ _ => rfl

@[simp] theorem State.hostCredit_mem (s : State) (c : CoreId) (e : EpId) (g : BitVec 16) (n : Nat) :
    (s.hostCredit c e g n).mem = s.mem := by unfold State.hostCredit; split <;> simp

@[simp] theorem State.arrival_canon {s : State} {p : Nat} {want : Body → Bool} (h : Memory.wf s.mem = true) :
    Out.Canon (s.arrival p want) := by
  unfold State.arrival
  rw [Out.canon_next]
  split
  · exact h
  · split
    · exact h
    · split
      · split
        · next hu => exact State.deliver_wf (by simp [h]) _ hu
        · simp [h]
      · split <;> simp [h]

theorem State.placeReply_wf {s : State} {p : Nat} {c : CoreId} {e : EpId} {q : BitVec 16} {b : Body}
    (h : Memory.wf s.mem = true) :
    ∀ t ∈ s.placeReply p c e q b, Memory.wf t.mem = true := by
  have hs : ∀ (u : State) (l : List Packet), Memory.wf u.mem = true →
      Memory.wf ({ u with net := l } : State).mem = true := fun _ _ hu => hu
  unfold State.placeReply
  dsimp only
  split
  · simp
  · exact wf_of_mem_some (hs _ _ (by simp [h]))

@[simp] theorem State.takeReply_wf {s : State} {c : CoreId} {e : EpId} (h : Memory.wf s.mem = true) :
    Memory.wf (s.takeReply c e).mem = true := by simp [State.takeReply, h]

@[simp] theorem State.acknowledgedBy_mem (s : State) (c : CoreId) (a : Body) :
    (s.acknowledgedBy c a).mem = s.mem := by
  unfold State.acknowledgedBy
  split <;> rfl

theorem State.replyOpen_wf {s : State} {p : Nat} {pk : Packet} {c : CoreId} {e : EpId} {q : Option (BitVec 16)}
    {b : Body}
    {k : State → Option State} (h : Memory.wf s.mem = true)
    (hk : ∀ u, Memory.wf u.mem = true → ∀ t ∈ k u, Memory.wf t.mem = true) :
    Memory.wf (s.replyOpen p pk c e q b k).mem = true := by
  unfold State.replyOpen
  split
  · split
    · next hu => exact hk _ (by simp [h]) _ hu
    · simp [h]
  · next q =>
    split
    · simp [h]
    · next s1 h1 =>
      have hs1 : Memory.wf s1.mem = true := by
        split at h1
        · cases h1; exact h
        · exact State.placeReply_wf h _ h1
      split
      · exact hs1
      · split
        · next hu => exact hk _ (by simp [hs1]) _ hu
        · exact hs1

theorem State.replyArrival_canon {s : State} {p : Nat} {want : Body → Bool}
    {k : CoreId → EpId → Body → State → Option State}
    (h : Memory.wf s.mem = true)
    (hk : ∀ c e b u, Memory.wf u.mem = true → ∀ t ∈ k c e b u, Memory.wf t.mem = true) :
    Out.Canon (s.replyArrival p want k) := by
  unfold State.replyArrival
  rw [Out.canon_next]
  split
  · exact h
  · split
    · dsimp only
      split
      · exact h
      split
      · simp [h]
      split
      · exact wf_getD (State.deliver_wf (by simp [h])) (by simp [h])
      · exact State.replyOpen_wf h (hk _ _ _)
    · exact h

/-! ### Branches, jumps, loops -/

@[simp] theorem State.branch_canon {s : State} {len : Nat} {a b : Reg} {off : W} {f : W → W → Bool}
    (h : Memory.wf s.mem = true) :
    Out.Canon (s.branch len a b off f) := by
  simp [State.branch, h]

@[simp] theorem State.branchP_canon {s : State} {o : BitVec 12} {taken : Bool} (h : Memory.wf s.mem = true) :
    Out.Canon (s.branchP o taken) := by simp [State.branchP, h]

@[simp] theorem State.jumpBy_canon {s : State} {len : Nat} {d : Reg} {off : W} (h : Memory.wf s.mem = true) :
    Out.Canon (s.jumpBy len d off) := by simp [State.jumpBy, h]

@[simp] theorem State.jumpReg_canon {s : State} {len : Nat} {d a : Reg} {off : W} (h : Memory.wf s.mem = true) :
    Out.Canon (s.jumpReg len d a off) := by simp [State.jumpReg, h]

@[simp] theorem State.intoLoop_mem (s : State) : s.intoLoop.mem = s.mem := (rfl)

@[simp] theorem State.startLoop_canon {s : State} {n : BitVec 2} {off cnt : Nat} (h : Memory.wf s.mem = true) :
    (s.startLoop n off cnt).CanonState := by
  unfold State.startLoop
  extract_lets c stop lev go
  split
  · simp
  · split
    · refine .bind ((State.lenAt_canon h).mono fun r hr => ?_)
      simpa [go] using hr
    · simp [go, h]

@[simp] theorem State.predOp_canon {s : State} {d : BitVec 3} {v : Bool} (h : Memory.wf s.mem = true) :
    Out.Canon (s.predOp d v) := by simp [State.predOp, h]

/-! ### Sessions -/

@[simp] theorem Res.refuseIf_canon {α : Type} {b : Bool} {e : EpId} {n : Nat} {k : Res α} {P} (hk : k.Canon P) :
    (Res.refuseIf b e n k).Canon P := by
  simp [Res.refuseIf, hk]

@[simp] theorem State.reference_canon {s : State} {ref : W} {e : EpId} {P} (h : Memory.wf s.mem = true)
    (hP : ∀ a, P a) : (s.reference ref e).Canon P := by
  unfold State.reference
  split
  · simp [hP]
  · split <;> simp [h, hP]

@[simp] theorem State.unload_mem (s : State) (c : CoreId) (k : CtxId) : (s.unload c k).mem = s.mem := by
  unfold State.unload
  split
  · split <;> rfl
  · rfl

@[simp] theorem State.finishBind_canon {s : State} {r : Res State} (h : Memory.wf s.mem = true)
    (hr : r.CanonState) : Out.Canon (s.finishBind r) := by
  unfold State.finishBind; split <;> simp [h, hr]

@[simp] theorem State.openEp_wf {s : State} {c : CoreId} {e : EpId} {peer : W} {peerDepth : Nat} {recov : W}
    {ini : Bool} (h : Memory.wf s.mem = true) :
    Memory.wf (s.openEp c e peer peerDepth recov ini).mem = true := by simp [State.openEp, h]

@[simp] theorem State.answer_mem (s : State) (c : CoreId) (r : ConnReq) (ok : Bool) (peer : W) (depth : Nat) :
    (s.answer c r ok peer depth).mem = s.mem := (rfl)

@[simp] theorem State.refuseAsked_mem (s : State) (c : CoreId) (e : EpId) :
    (s.refuseAsked c e).mem = s.mem := by unfold State.refuseAsked; split <;> rfl

@[simp] theorem State.tell_mem (s : State) (c : CoreId) (k : CtxId) (a : Answer) : (s.tell c k a).mem = s.mem := (rfl)

@[simp] theorem State.matchUp_wf {s : State} {c : CoreId} {e : EpId} {r : ConnReq} (h : Memory.wf s.mem = true) :
    Memory.wf (s.matchUp c e r).mem = true := by simp [State.matchUp, h]

@[simp] theorem State.connResult_canon {s : State} {e : EpId} {k : Res State} (h : Memory.wf s.mem = true)
    (hk : k.CanonState) : (s.connResult e k).CanonState := by
  unfold State.connResult; split <;> simp [h, hk]

@[simp] theorem State.binds_canon {s : State} {e : EpId} {src : List Reg} {pre : Res Unit}
    {k : List W → State → Res State}
    (h : Memory.wf s.mem = true) (hk : ∀ l, (k l s).CanonState) :
    Out.Canon (s.binds e src pre k) :=
  State.checked_canon h (State.covering_canon h
    (State.finishBind_canon h (State.withOperands_canon h hk)))

@[simp] theorem State.unitAnswer_mem (s : State) (d : Dest) (r : ConnReq) : (s.unitAnswer d r).mem = s.mem := by
  unfold State.unitAnswer
  dsimp only
  split
  · rfl
  · simp [apply_ite State.mem]

@[simp] theorem State.stopBinding_mem (s : State) (c : CoreId) (k : CtxId) : (s.stopBinding c k).1.mem = s.mem := by
  simp only [State.stopBinding]
  repeat' split
  all_goals simp

@[simp] theorem State.carrierMove_canon {s : State} {e : EpId} {action typ : Nat} {P} (hP : ∀ a, P a) :
    (s.carrierMove e action typ).Canon P := by unfold State.carrierMove; split <;> simp [hP]

@[simp] theorem State.sbind_canon {s : State} {e : EpId} {role : Nat} {bindAs : BitVec 2}
    (h : Memory.wf s.mem = true) :
    Out.Canon (s.sbind e role bindAs) := by simp [State.sbind, h]

/-! ### Global and window accesses -/

@[simp] theorem State.mayUse_canon {s : State} {e : EpId} {proto need : Nat} {P} (hP : ∀ a, P a) :
    (s.mayUse e proto need).Canon P := by simp [State.mayUse, hP]

@[simp] theorem State.globalAddr_canon {s : State} {va : W} {n : Nat} {need : Need} {P} (h : Memory.wf s.mem = true)
    (hP : ∀ a, P a) : (s.globalAddr va n need).Canon P := by
  simp only [State.globalAddr, Res.canon_ite, Res.canon_trap, Res.canon_bind, if_true_left]
  refine fun _ => State.xlate_canon h fun e => fun _ => ?_
  split <;> simp [hP]

@[simp] theorem State.underBound_canon {s : State} {e : EpId} {P} (h : Memory.wf s.mem = true) (hP : ∀ a, P a) :
    (s.underBound e).Canon P := by simp [State.underBound, h, hP]

@[simp] theorem State.classRoom_canon {s : State} {cls : Cls} {P} (h : Memory.wf s.mem = true) (hP : ∀ a, P a) :
    (s.classRoom cls).Canon P := by simp [State.classRoom, h, hP]

@[simp] theorem State.onePeer_canon {s : State} {e : EpId} {pa peer : Nat} {P} (h : Memory.wf s.mem = true)
    (hP : ∀ a, P a) : (s.onePeer e pa peer).Canon P := by simp [State.onePeer, h, hP]

@[simp] theorem State.newTxn_mem (s : State) : s.newTxn.2.2.mem = s.mem := (rfl)

@[simp] theorem State.give_mem (s : State) (c : CoreId) (k : CtxId) (txn : Nat) (a : Answer) :
    (s.give c k txn a).mem = s.mem := (rfl)

@[simp] theorem State.await_canon {s : State} {e : EpId} {first : Res State} {done : W → BitVec 5 → Res State}
    (h : Memory.wf s.mem = true) (hf : first.CanonState)
    (hd : ∀ w f, (done w f).CanonState) : (s.await e first done).CanonState := by
  unfold State.await
  split
  · cases first <;> simp_all
  all_goals simp [h, hd]

@[simp] theorem State.sendMem_mem (s : State) (r : MemReq) : (s.sendMem r).mem = s.mem := (rfl)

@[simp] theorem State.globally_canon {s : State} {e : EpId} {write : Bool} {n : Nat} {va : W} {cls : Option Cls}
    {operand : Res Nat} {k : Nat → MemReq → Res State} (h : Memory.wf s.mem = true)
    (ho : ∀ P : Nat → Prop, (∀ a, P a) → operand.Canon P)
    (hk : ∀ o r, (k o r).CanonState) : (s.globally e write n va cls operand k).CanonState := by
  simp only [State.globally, Res.canon_bind]
  refine State.mayUse_canon fun _ => State.globalAddr_canon h fun _ => ho _ fun _ => ?_
  refine State.underBound_canon h fun _ => State.onePeer_canon h fun _ => ?_
  cases cls <;> simp [h, hk]

@[simp] theorem State.stored_mem (s : State) (r : MemReq) : (s.stored r).mem = s.mem := (rfl)

@[simp] theorem State.perform_wf {s : State} {p : Nat} {m : BitVec 5} {r : MemReq} (h : Memory.wf s.mem = true) :
    Memory.wf (s.perform p m r).mem = true := by
  unfold State.perform
  extract_lets s1 s2 reply err fwd
  have h2 : Memory.wf s2.mem = true := by simp [s2, s1, h]
  have hr : ∀ t v l, Memory.wf t.mem = true → Memory.wf (reply t v l).mem = true :=
    fun t v l ht => by simp [reply, ht]
  split
  · simp [s1, h]
  · split
    · split
      · exact hr _ _ _ h2
      · split
        · exact hr _ _ _ h2
        · next ht => exact hr _ _ _ (by simp [State.ctrlWrite_wf h2 _ ht])
    · split
      · split <;> exact hr _ _ _ h2
      · next ht => exact hr _ _ _ (by simp [s2.ctrlRead_mem _ _ _ ht, h2])

@[simp] theorem State.windowed_canon {s : State} {e : EpId} {n : Nat} {va : W} {cls : Option Cls} {k : Res State}
    (h : Memory.wf s.mem = true) (hk : k.CanonState) : (s.windowed e n va cls k).CanonState := by
  simp only [State.windowed, Res.canon_bind]
  refine State.mayUse_canon fun _ => ?_
  cases cls <;> simp [h, hk]

@[simp] theorem State.sendWindow_mem (s : State) (e : EpId) (bytes : Nat) (b : Body) :
    (s.sendWindow e bytes b).mem = s.mem := (rfl)

@[simp] theorem State.windowWait_canon {s : State} {e : EpId} {n : Nat} {va : W} {kind : WinKind} {data : List Byte}
    {done : W → BitVec 5 → Res State} (h : Memory.wf s.mem = true)
    (hd : ∀ w f, (done w f).CanonState) : (s.windowWait e n va kind data done).CanonState :=
  State.await_canon h (State.windowed_canon h (by simp [State.newTxn, h])) hd

@[simp] theorem State.nack_mem (s : State) (c : CoreId) : (s.nack c).mem = s.mem := (rfl)

@[simp] theorem State.windowReply_canon {s : State} {p : Nat} {negative : Bool} (h : Memory.wf s.mem = true) :
    Out.Canon (s.windowReply p negative) := by
  refine State.replyArrival_canon h fun c e b u hu t ht => ?_
  obtain ⟨⟨o, txn, off, v, w, f⟩, -, rfl⟩ := Option.map_eq_some_iff.1 ht
  dsimp only
  split <;> simp [hu]

@[simp] theorem State.withdrawReq_mem (s : State) (c : CoreId) (k : CtxId) (txn : Nat) (e : EpId) (o : Origin)
    (g : BitVec 16) (taken : Bool) : (s.withdrawReq c k txn e o g taken).mem = s.mem := by
  simp only [State.withdrawReq]
  split <;> rfl

@[simp] theorem State.stopRead_mem (s : State) (c : CoreId) (k : CtxId) : (s.stopRead c k).1.mem = s.mem := by
  unfold State.stopRead
  repeat' split
  all_goals simp

/-! ### Accesses of an engine -/

@[simp] theorem State.engLeaf_canon {s : State} {c : CoreId} {root va : W} (h : Memory.wf s.mem = true) :
    (s.engLeaf c root va).Canon := by
  have hx : (s.engineXlate c root va).Canon := State.engineXlate_canon h
  unfold State.engLeaf
  split <;> simp_all

@[simp] theorem State.engHomeBy_canon {s : State} {c : CoreId} {root va : W} {need : Need} {fmt : Nat}
    (h : Memory.wf s.mem = true) : (s.engHomeBy c root va need fmt).Canon := by
  refine EngOf.canon_bind (by simp [h]) fun e t ht => ?_
  split <;> simp [ht]

@[simp] theorem State.engHome_canon {s : State} {c : CoreId} {va : W} {need : Need} {fmt : Nat}
    (h : Memory.wf s.mem = true) : (s.engHome c va need fmt).Canon := by simp [State.engHome, h]

theorem State.engGrant_mem (s : State) (c t : CoreId) (bit o n : Nat) (va : W) {f : CopyFail} {u : State}
    (e : s.engGrant c t bit o n va = some (f, u)) : u.mem = s.mem := by
  unfold State.engGrant at e
  split at e
  · split at e <;> cases e
    rfl
  · split at e <;> cases e
    simp

@[simp] theorem State.engReadAt_canon {s : State} {c : CoreId} {home : Home} {va : W} {n : Nat}
    (h : Memory.wf s.mem = true) : (s.engReadAt c home va n).Canon := by
  unfold State.engReadAt
  split
  · split
    · next ht => simp [s.ctrlRead_mem _ _ _ ht, h]
    · simp [h]
  · split
    · next ht => simp [s.engGrant_mem _ _ _ _ _ _ ht, h]
    · simp [h]

@[simp] theorem State.engRead_canon {s : State} {c : CoreId} {va : W} {n fmt : Nat} (h : Memory.wf s.mem = true) :
    (s.engRead c va n fmt).Canon :=
  EngOf.canon_bind (by simp [h]) fun _ _ ht => by simp [ht]

@[simp] theorem State.engWriteAt_canon {s : State} {c : CoreId} {home : Home} {va : W} {l : List Byte}
    (h : Memory.wf s.mem = true) : (s.engWriteAt c home va l).Canon := by
  unfold State.engWriteAt
  dsimp only
  split
  · split
    · next ht => exact State.ctrlWrite_wf h _ ht
    · simp [h]
  · split
    · next ht => simp [s.engGrant_mem _ _ _ _ _ _ ht, h]
    · simp [h, memWrites_wf]

@[simp] theorem State.engWrite_canon {s : State} {c : CoreId} {va : W} {l : List Byte} {fmt : Nat}
    (h : Memory.wf s.mem = true) : (s.engWrite c va l fmt).Canon :=
  EngOf.canon_bind (by simp [h]) fun _ _ ht => by simp [ht]

@[simp] theorem State.engPort_canon {s : State} {c : CoreId} {va : W} {fmt : Nat} (h : Memory.wf s.mem = true) :
    (s.engPort c va fmt).Canon := by
  refine EngOf.canon_bind (by simp [h]) fun home t ht => ?_
  split <;> simp [ht]

@[simp] theorem State.engNotify_canon {s : State} {c : CoreId} {va : W} (h : Memory.wf s.mem = true) :
    (s.engNotify c va).Canon := by
  refine EngOf.canon_bind (by simp [h]) fun r t ht => ?_
  dsimp only
  split
  · next hg => simp [t.engGrant_mem _ _ _ _ _ _ hg, ht]
  · simp [ht]

/-! ### The copy engine -/

theorem State.launchCopy_canon {s : State} {d : Reg} {ep : Option EpId} {k : CopyDesc → State → State}
    (h : Memory.wf s.mem = true) (hk : ∀ desc u, u.mem = s.mem → Memory.wf (k desc u).mem = true) :
    (s.launchCopy d ep k).CanonState := by
  unfold State.launchCopy
  dsimp only
  split
  · simp
  · split
    · simp
    · simp only [Res.canon_bind]
      refine State.classRoom_canon h fun _ => ?_
      simp only [Res.canon_ok, State.setG_mem]
      exact hk _ _ rfl

theorem State.bitPlane_canon {s : State} {read : State → W → Nat → Eng Nat} {a : W} {g row col k j w : Nat}
    (hr : ∀ t va n, Memory.wf t.mem = true → (read t va n).Canon) (h : Memory.wf s.mem = true) :
    (s.bitPlane read a g row col k j w).Canon := by
  induction k generalizing s j w with
  | zero => exact EngOf.canon_bind (hr _ _ _ h) fun _ _ ht => by simp [ht]
  | succ k ih => exact EngOf.canon_bind (hr _ _ _ h) fun _ _ ht => ih ht

@[simp] theorem State.sgSource_canon {s : State} {c : CoreId} {l : List W} {n : Nat} {g : SgPos}
    (h : Memory.wf s.mem = true) : (s.sgSource c l n g).Canon := by
  induction n generalizing s g with
  | zero => simp [State.sgSource, h]
  | succ n ih =>
    unfold State.sgSource
    split
    · simp [h]
    split
    · simp [h]
    refine EngOf.canon_bind (by simp [h]) fun v t ht => ?_
    dsimp only
    split
    · simp [ht]
    split
    · exact ih ht
    split
    · simp [ht]
    exact EngOf.canon_bind (by simp [ht]) fun _ _ hu => ih hu

@[simp] theorem State.planeFault_canon {s : State} {c : CoreId} {l : List W} {a : W} (h : Memory.wf s.mem = true) :
    (s.planeFault c l a).Canon := by
  refine EngOf.canon_bind (by simp [h]) fun e t ht => ?_
  simp [ht]

@[simp] theorem State.copyValue_canon {s : State} {c : CoreId} {d : CopyDesc} {j : Nat} {g : SgPos}
    (h : Memory.wf s.mem = true) : (s.copyValue c d j g).Canon := by
  unfold State.copyValue
  dsimp only
  split
  · refine EngOf.canon_bind (by simp [h]) fun _ t ht => ?_
    refine EngOf.canon_bind (State.bitPlane_canon (fun _ _ _ hu => by simp [hu]) ht) fun r u hu => ?_
    simp [hu]
  · split
    · refine EngOf.canon_bind (by simp [h]) fun _ t ht => ?_
      exact EngOf.canon_bind (by simp [ht]) fun _ _ hu => by simp [hu]
    · exact EngOf.canon_bind (by simp [h]) fun _ _ hu => by simp [hu]

@[simp] theorem CopyWork.write_wf {w : CopyWork} {c : CoreId} {d : CopyDesc} {j v : Nat}
    (h : Memory.wf w.s.mem = true) :
    Memory.wf (w.write c d j v).s.mem = true := by
  have hb : ((w.s.engPort c (shDstAddr d.shadow 0) (shDstFmt d.shadow)).bind fun p0 s =>
      (s.engPort c (shDstAddr d.shadow j) (shDstFmt d.shadow)).bind fun p s => .ok (p0, p) s : Eng _).Canon :=
    EngOf.canon_bind (by simp [h]) fun _ _ ht => EngOf.canon_bind (by simp [ht]) fun _ _ hu => by simp [hu]
  have hw : (w.s.engWrite c (shDstAddr d.shadow j) (leBytes (shDstSize d.shadow) v) (shDstFmt d.shadow)).Canon :=
    State.engWrite_canon h
  unfold CopyWork.write
  dsimp only
  split
  · split
    · next e => rw [e] at hb; split <;> exact hb
    · exact h
    · next e => rw [e] at hb; exact hb
  · split
    · exact h
    · next e => rw [e] at hw; exact hw
    · next e => rw [e] at hw; exact hw

theorem CopyWork.read_wf {w : CopyWork} {c : CoreId} {d : CopyDesc} {j : Nat} {k : CopyWork → Nat → CopyWork}
    (h : Memory.wf w.s.mem = true) (hk : ∀ w v, Memory.wf w.s.mem = true → Memory.wf (k w v).s.mem = true) :
    Memory.wf (w.read c d j k).s.mem = true := by
  have hv : (w.s.copyValue c d j w.sg).Canon := State.copyValue_canon h
  unfold CopyWork.read
  split
  · exact h
  · next e => rw [e] at hv; exact hv
  · next e => rw [e] at hv; exact hk _ _ hv

@[simp] theorem CopyWork.elems_wf {c : CoreId} {d : CopyDesc} {l : List Nat} {w : CopyWork}
    (h : Memory.wf w.s.mem = true) :
    Memory.wf (CopyWork.elems c d l w).s.mem = true := by
  induction l generalizing w with
  | nil => exact h
  | cons j l ih =>
    have h1 : Memory.wf (w.read c d j fun w v => w.write c d j v).s.mem = true :=
      CopyWork.read_wf h fun _ _ hw => CopyWork.write_wf hw
    unfold CopyWork.elems
    dsimp only
    split
    · exact h1
    · exact ih h1

@[simp] theorem CopyWork.gather_wf {c : CoreId} {d : CopyDesc} {l : List Nat} {w : CopyWork} {vs : List (Nat × Nat)}
    (h : Memory.wf w.s.mem = true) : Memory.wf (CopyWork.gather c d l w vs).1.s.mem = true := by
  induction l generalizing w vs with
  | nil => exact h
  | cons j l ih =>
    have hv : (w.s.copyValue c d j w.sg).Canon := State.copyValue_canon h
    unfold CopyWork.gather
    split
    · exact h
    · next e => rw [e] at hv; exact hv
    · next e => rw [e] at hv; exact ih hv

@[simp] theorem CopyWork.chunk_wf {w : CopyWork} {c : CoreId} {d : CopyDesc} {j n : Nat}
    (h : Memory.wf w.s.mem = true) :
    Memory.wf (w.chunk c d j n).s.mem = true := by
  unfold CopyWork.chunk
  extract_lets order s0 w0
  have h0 : Memory.wf w0.s.mem = true := by unfold w0; split <;> exact h
  split
  · have hg := CopyWork.gather_wf (c := c) (d := d) (l := (List.range n).map fun i => j + i) (vs := []) h0
    split
    next w1 vs e =>
    rw [e] at hg
    split
    · exact hg
    · refine List.foldlRecOn (motive := fun u : CopyWork => Memory.wf u.s.mem = true) order _ hg fun u hu i _ => ?_
      dsimp only
      split
      · split
        · exact hu
        · exact CopyWork.write_wf hu
      · exact hu
  · exact CopyWork.elems_wf h0

@[simp] theorem State.setCopy_mem (s : State) (e : CoreId) (r : CopyRun) : (s.setCopy e r).mem = s.mem := (rfl)

@[simp] theorem State.dropCopy_mem (s : State) (e : CoreId) (d : CopyDesc) : (s.dropCopy e d).mem = s.mem := (rfl)

@[simp] theorem State.chunkSet_mem (s : State) (e : CoreId) (r : CopyRun) (ch : BitVec 6) :
    (s.chunkSet e r ch).mem = s.mem := by simp [State.chunkSet]

@[simp] theorem State.runChunk_wf {s : State} {e : CoreId} {r : CopyRun} {ch : BitVec 6}
    (h : Memory.wf s.mem = true) :
    Memory.wf (s.runChunk e r ch).mem = true := by
  unfold State.runChunk
  dsimp only
  split
  · simp [h]
  split
  · exact h
  have hw := CopyWork.chunk_wf (w := ⟨s, r.sg, r.flags, [], none, none⟩) (c := e) (d := r.d)
    (j := (chunkSpan r.d.shadow ch.toNat).1) (n := (chunkSpan r.d.shadow ch.toNat).2) h
  split
  · simp [h]
  split
  · simp [hw]
  split
  · have hp := State.engPort_canon (c := e) (va := shDstAddr r.d.shadow 0) (fmt := shDstFmt r.d.shadow) hw
    split
    · simp [h]
    · next he => rw [he] at hp; simpa using hp
    · next he => rw [he] at hp; simpa using hp
  · simp [hw]

@[simp] theorem State.settleCopy_mem (s : State) (d : CopyDesc) (fail : Option CopyFail) (flags : BitVec 5) :
    (s.settleCopy d fail flags).mem = s.mem := by simp [State.settleCopy]

@[simp] theorem State.endCopy_mem (s : State) (e : CoreId) (r : CopyRun) (fail : Option CopyFail) :
    (s.endCopy e r fail).mem = s.mem := by unfold State.endCopy; split <;> simp

@[simp] theorem State.applyAdds_wf {s : State} {c : CoreId} {op : Nat} {l : List (Nat × W)} {f : BitVec 5}
    (h : Memory.wf s.mem = true) : Memory.wf (s.applyAdds c op l f).1.mem = true := by
  induction l generalizing s f with
  | nil => exact h
  | cons p l ih => exact ih (State.wrN_wf (by simp [h]))

/-! ### System registers and events -/

@[simp] theorem State.onlyC0_canon {s : State} {k : Out} (h : Memory.wf s.mem = true) (hk : Out.Canon k) :
    Out.Canon (s.onlyC0 k) := by
  simp [State.onlyC0, h, hk]

/-! ### Core registers -/

@[simp] theorem State.dropEntries_mem (s : State) (o : CoreId) (v : W) : (s.dropEntries o v).mem = s.mem := (rfl)

@[simp] theorem State.writeTlbinv_canon {s : State} {v : W} (h : Memory.wf s.mem = true) :
    (s.writeTlbinv v).CanonState := by
  unfold State.writeTlbinv
  repeat' split
  all_goals simp [h]

@[simp] theorem State.writeCore_canon {s : State} {n : Nat} {v : W} (h : Memory.wf s.mem = true) :
    (s.writeCore n v).CanonState := by
  unfold State.writeCore
  repeat' split
  all_goals simp [h]

/-! ### The fabric between modules -/

@[simp] theorem State.mapPort_mem (s : State) (n : BitVec 5) (f : Port → Port) : (s.mapPort n f).mem = s.mem := (rfl)

@[simp] theorem State.fretryBy_mem (s : State) (n : Nat) : (s.fretryBy n).mem = s.mem := (rfl)

@[simp] theorem State.fdropOne_mem (s : State) : s.fdropOne.mem = s.mem := (rfl)

@[simp] theorem State.rdropOne_mem (s : State) (r : FloeId) : (s.rdropOne r).mem = s.mem := (rfl)

@[simp] theorem State.putOnLine_mem (s : State) (n : BitVec 5) (l : List Frame) :
    (s.putOnLine n l).mem = s.mem := (rfl)

@[simp] theorem State.pump_mem (s : State) (h : BitVec 5) : (s.pump h).mem = s.mem := by simp [State.pump]

@[simp] theorem State.pumpBoth_mem (s : State) (n : BitVec 5) : (s.pumpBoth n).mem = s.mem := by simp [State.pumpBoth]

@[simp] theorem State.actOnLost_wf {s : State} {a : BitVec 19} (h : Memory.wf s.mem = true) :
    Memory.wf (s.actOnLost a).mem = true := by
  have hs : ∀ (u : State) (l : List HostOut) (f : W), Memory.wf u.mem = true →
      Memory.wf ({ u with flost := f, hostOut := l } : State).mem = true := fun _ _ _ hu => hu
  unfold State.actOnLost
  dsimp only
  refine hs _ _ _ (foldl_wf (fun t c ht => ?_) h)
  refine foldl_wf (fun t e ht => ?_) ht
  split
  · exact ht
  · split
    · exact wf_getD (State.deliver_wf ht) (by simp [ht])
    · split <;> simp [ht]

@[simp] theorem State.recordLost_mem (s : State) (a : BitVec 19) : (s.recordLost a).mem = s.mem := (rfl)

@[simp] theorem State.spreadLost_mem (s : State) (a : BitVec 19) (ttl : Nat) (but : Option (BitVec 5)) :
    (s.spreadLost a ttl but).mem = s.mem :=
  foldl_mem fun _ _ => rfl

@[simp] theorem State.directionLost_wf {s : State} {n : BitVec 5} (h : Memory.wf s.mem = true) :
    Memory.wf (s.directionLost n).mem = true := by simp [State.directionLost, h]

@[simp] theorem State.moveRail_mem (s : State) (n : BitVec 5) : (s.moveRail n).mem = s.mem := (rfl)

@[simp] theorem State.takeDown_wf {s : State} {n : BitVec 5} (h : Memory.wf s.mem = true) :
    Memory.wf (s.takeDown n).mem = true := by simp [State.takeDown, h]

@[simp] theorem State.resend_wf {s : State} {n : BitVec 5} (h : Memory.wf s.mem = true) :
    Memory.wf (s.resend n).mem = true := by
  unfold State.resend
  dsimp only
  split
  · simp [h]
  · split <;> simp [h]

@[simp] theorem State.linkUp_mem (s : State) (n : BitVec 5) : (s.linkUp n).mem = s.mem := by simp [State.linkUp]

theorem State.heard_canon {s : State} {n : BitVec 5} {k : State → State} (h : Memory.wf s.mem = true)
    (hk : ∀ u, Memory.wf u.mem = true → Memory.wf (k u).mem = true) : Out.Canon (s.heard n k) := by
  unfold State.heard
  rw [Out.canon_next]
  split
  · exact h
  · exact hk _ (by simp [h])

@[simp] theorem State.ackFrom_mem (s : State) (n : BitVec 5) (fr : Frame) : (s.ackFrom n fr).mem = s.mem := (rfl)

@[simp] theorem State.ingress_mem (s : State) (n : BitVec 5) (rail : Bool) (pk : Packet) :
    (s.ingress n rail pk).mem = s.mem := (rfl)

@[simp] theorem State.slotIn_mem (s : State) (n : BitVec 5) (rail : Bool) (pk : Packet) :
    (s.slotIn n rail pk).mem = s.mem := by
  unfold State.slotIn
  dsimp only
  split <;> simp

@[simp] theorem State.writeFid_mem (s : State) (v : W) : (s.writeFid v).mem = s.mem := by simp [State.writeFid]

@[simp] theorem State.writeFlost_mem (s : State) (v : W) : (s.writeFlost v).mem = s.mem := (rfl)

theorem State.leave_mem (s : State) (n : BitVec 5) (pk : Packet) : ∀ t ∈ s.leave n pk, t.mem = s.mem := by
  simp only [State.leave]
  repeat' split
  all_goals simp []

/-! ### Floating point -/

@[simp] theorem State.fpDone_canon {s : State} {f : BitVec 5} {lane turns : Nat} {k : State → State}
    (hk : Memory.wf (k s).mem = true) : (s.fpDone f lane turns k).CanonState := by
  simp [State.fpDone, hk]

@[simp] theorem State.fpG_canon {s : State} {f : Fmt} {d : Reg} {src : List Reg} {turns : Nat} {op : List Nat → FRes}
    (h : Memory.wf s.mem = true) : Out.Canon (s.fpG f d src turns op) := by
  simp [State.fpG, h]

@[simp] theorem State.fpP_canon {s : State} {f : Fmt} {op : Nat} {p : BitVec 3} {a b : Reg}
    (h : Memory.wf s.mem = true) :
    Out.Canon (s.fpP f op p a b) := by simp [State.fpP, h]

/-! ### Semaphores -/

@[simp] theorem grantSem_mem (s : State) (co : CoreId) (n : Nat) (hn : n < 32) (l : List (Nat × CtxId)) :
    (grantSem s co n hn l).mem = s.mem := by
  induction l generalizing s with
  | nil => rfl
  | cons w l ih => simp only [grantSem]; split <;> simp [ih]

@[simp] theorem State.setSem_mem (s : State) (co : CoreId) (n : BitVec 5) (v : BitVec 32) :
    (s.setSem co n v).mem = s.mem := by
  simp [State.setSem]

@[simp] theorem grantFsem_mem (s : State) (f : FloeId) (n : Nat) (hn : n < 64) (l : List (Nat × CoreId × CtxId)) :
    (grantFsem s f n hn l).mem = s.mem := by
  induction l generalizing s with
  | nil => rfl
  | cons w l ih => simp only [grantFsem]; split <;> simp [ih]

@[simp] theorem State.setFsem_mem (s : State) (f : FloeId) (n : BitVec 6) (v : BitVec 32) :
    (s.setFsem f n v).mem = s.mem := by
  simp [State.setFsem]

@[simp] theorem State.postFsem_mem (s : State) (f : FloeId) (n : BitVec 6) (b : Nat) :
    (s.postFsem f n b).mem = s.mem := by simp [State.postFsem]

@[simp] theorem State.leaveSems_mem (s : State) (co : CoreId) (k : CtxId) : (s.leaveSems co k).mem = s.mem := by
  simp only [State.leaveSems]
  split
  · simp [apply_ite State.mem]
  · rfl

/-! ### Lifecycle of contexts -/

@[simp] theorem State.takeFrame_mem (s : State) (c : CoreId) (k : CtxId) : (s.takeFrame c k).mem = s.mem := (rfl)

@[simp] theorem State.spillPages_canon {s : State} {c : CoreId} {k : CtxId} (h : Memory.wf s.mem = true) :
    (s.spillPages c k).Canon := by
  refine EngOf.all_canon (fun t i ht => ?_) h
  have hx : (t.engineXlate c (t.core c).xroot ((t.core c).spillSlot k + BitVec.ofNat 64 (4096 * i))).Canon :=
    State.engineXlate_canon ht
  dsimp only
  split
  · simp
  · next he => rw [he] at hx; exact hx
  · next he =>
    rw [he] at hx
    split
    · split <;> exact hx
    · exact hx

theorem State.spillWrite_wf {s : State} {pages : List (Nat × Nat)} (h : Memory.wf s.mem = true) :
    ∀ t ∈ s.spillWrite pages, Memory.wf t.mem = true := by
  unfold State.spillWrite
  refine List.foldlRecOn (motive := fun r : Option State × Nat => ∀ t ∈ r.1, Memory.wf t.mem = true) pages _ ?_
    fun r hr p _ t ht => ?_
  · rintro t ⟨⟩; exact h
  · obtain ⟨u, hu, ht⟩ := Option.bind_eq_some_iff.1 ht
    exact State.writeUnder_wf (hr u hu) t ht

@[simp] theorem State.spillRead_mem (s : State) (c : CoreId) (k : CtxId) (pages : List (Nat × Nat)) :
    (s.spillRead c k pages).2.mem = s.mem := by simp [State.spillRead]

@[simp] theorem State.spillAccess_wf {s : State} {c : CoreId} (h : Memory.wf s.mem = true) :
    Memory.wf (s.spillAccess c).mem = true := by
  unfold State.spillAccess
  split
  · split
    · exact h
    · extract_lets k ends
      have he : ∀ a t, Memory.wf t.mem = true → Memory.wf (ends a t).mem = true := fun a t ht => by simp [ends, ht]
      have hp : (s.spillPages c k).Canon := State.spillPages_canon h
      split
      · simp [h]
      · next e => rw [e] at hp; exact he _ _ hp
      · next pages t e =>
        rw [e] at hp
        have hr : Memory.wf (t.spillRead c k pages).2.mem = true := by rw [State.spillRead_mem]; exact hp
        split
        · next e => rw [e] at hr; exact he _ _ hr
        · next e =>
          rw [e] at hr
          split
          · exact he _ _ hr
          · split
            · simpa using hr
            · next hu => exact he _ _ (State.spillWrite_wf hr _ hu)
  · exact h

@[simp] theorem State.getFrame_canon {s : State} {k : CtxId} {P} (h : Memory.wf s.mem = true) (hP : ∀ a, P a) :
    (s.getFrame k).Canon P := by
  simp only [State.getFrame]
  repeat' split
  all_goals simp [h, hP]

@[simp] theorem State.supervise_canon {s : State} {src dst : List Reg} {k : CtxId → List W → State → Res State}
    (h : Memory.wf s.mem = true) (hk : ∀ c l, (k c l s).CanonState) :
    Out.Canon (s.supervise src dst k) := by
  refine State.issueIf_canon h fun l => ?_
  dsimp only
  split
  · simp
  · exact hk _ _

@[simp] theorem State.startCtx_canon {s : State} {d : Reg} {k : CtxId} {pc : Option W} (h : Memory.wf s.mem = true) :
    (s.startCtx d k pc).CanonState := by
  unfold State.startCtx
  repeat' split
  all_goals simp [h]

@[simp] theorem State.disbandAt_mem (s : State) (c : CoreId) (k : CtxId) : (s.disbandAt c k).mem = s.mem := by
  unfold State.disbandAt
  split
  · rfl
  · exact foldl_mem fun _ _ => rfl

@[simp] theorem State.frameStop_mem (s : State) (c : CoreId) (k : CtxId) (off : W) :
    (s.frameStop c k off).mem = s.mem := by
  simp [State.frameStop]

@[simp] theorem State.stopAt_mem (s : State) (c : CoreId) (k : CtxId) : (s.stopAt c k).1.mem = s.mem := by
  simp only [State.stopAt]
  repeat' split
  all_goals simp

@[simp] theorem State.fromSpill_canon {s : State} {n : Nat} {k : Res State} (h : Memory.wf s.mem = true)
    (hk : k.CanonState) : (s.fromSpill n k).CanonState := by
  unfold State.fromSpill; split <;> simp [h, hk]

/-! ### Queues -/

@[simp] theorem State.setQueue_mem (s : State) (f : FloeId) (i : BitVec 2) (q : Queue) :
    (s.setQueue f i q).mem = s.mem := (rfl)

theorem State.setQueue_wf {s : State} {f : FloeId} {i : BitVec 2} {q : Queue} (h : Memory.wf s.mem = true) :
    Memory.wf (s.setQueue f i q).mem = true := h

@[simp] theorem State.ringHome_canon {s : State} {f : FloeId} {i : BitVec 2} {va : W} {need : Need}
    (h : Memory.wf s.mem = true) : (s.ringHome f i va need).Canon := by simp [State.ringHome, h]

@[simp] theorem State.ringRead_canon {s : State} {f : FloeId} {i : BitVec 2} {k n : Nat}
    (h : Memory.wf s.mem = true) : (s.ringRead f i k n).Canon := by
  induction k generalizing s n with
  | zero => exact h
  | succ k ih =>
    refine EngOf.canon_bind (EngOf.canon_bind (by simp [h]) fun _ t ht => by simp [ht]) fun _ t ht => ?_
    exact EngOf.canon_bind (ih ht) fun _ _ hu => hu

@[simp] theorem State.ringWrite_canon {s : State} {f : FloeId} {i : BitVec 2} {l : List (List W)} {n : Nat}
    (h : Memory.wf s.mem = true) : (s.ringWrite f i l n).Canon := by
  induction l generalizing s n with
  | nil => exact h
  | cons r l ih =>
    exact EngOf.canon_bind (EngOf.canon_bind (by simp [h]) fun _ t ht => by simp [ht]) fun _ t ht => ih ht

@[simp] theorem State.answerEnq_mem (s : State) (f : FloeId) (e : Enq) (ok : Bool) :
    (s.answerEnq f e ok).mem = s.mem := by unfold State.answerEnq; split <;> rfl

@[simp] theorem State.noRoom_mem (s : State) (f : FloeId) (e : Enq) :
    (s.noRoom f e).mem = s.mem := by simp [State.noRoom]

@[simp] theorem State.enter_wf {s : State} {f : FloeId} {i : BitVec 2} {e : Enq} (h : Memory.wf s.mem = true) :
    Memory.wf (s.enter f i e).mem = true := by
  unfold State.enter
  dsimp only
  split
  · simp [h]
  split
  · simp [h]
  split
  · have hw : (s.ringWrite f i [e.record] ((s.queue f i).ringAt + (s.queue f i).ringLen)).Canon :=
      State.ringWrite_canon h
    split
    · next he => rw [he] at hw; simpa using hw
    · simp [h]
    · next he => rw [he] at hw; simpa using hw
  · simp [h]

@[simp] theorem State.enqueueAt_wf {s : State} {f : FloeId} {e : Enq} (h : Memory.wf s.mem = true) :
    Memory.wf (s.enqueueAt f e).mem = true := by simp [State.enqueueAt, h]

@[simp] theorem State.enqueue_wf {s : State} {f : FloeId} {e : Enq} (h : Memory.wf s.mem = true) :
    Memory.wf (s.enqueue f e).mem = true := by simp [State.enqueue, h]

@[simp] theorem State.enterAll_wf {s : State} {f : FloeId} {i : BitVec 2} (h : Memory.wf s.mem = true) :
    Memory.wf (s.enterAll f i).mem = true :=
  foldl_wf (fun _ _ ht => State.enqueueAt_wf ht) h

@[simp] theorem State.refill_mem (s : State) (f : FloeId) (i : BitVec 2) :
    (s.refill f i).mem = s.mem := by simp [State.refill]

@[simp] theorem State.endMove_wf {s : State} {f : FloeId} {i : BitVec 2} (h : Memory.wf s.mem = true) :
    Memory.wf (s.endMove f i).mem = true := by
  unfold State.endMove
  extract_lets q n
  split
  · next l _ =>
    have hw : (s.ringWrite f i l (q.ringAt + q.ringLen)).Canon := State.ringWrite_canon h
    split
    · next he => rw [he] at hw; simpa using State.enterAll_wf (State.setQueue_wf hw)
    · simp [h]
    · next he => rw [he] at hw; simpa using hw
  · have hr : (s.ringRead f i n q.ringAt).Canon := State.ringRead_canon h
    split
    · next he => rw [he] at hr; simpa using State.enterAll_wf (State.setQueue_wf hr)
    · simp [h]
    · next he => rw [he] at hr; simpa using hr
  · exact h

@[simp] theorem State.resetQueue_wf {s : State} {f : FloeId} {i : BitVec 2} (h : Memory.wf s.mem = true) :
    Memory.wf (s.resetQueue f i).mem = true := by simp [State.resetQueue, h]

/-! ### Tiles -/

@[simp] theorem State.mapTile_mem (s : State) (c : CoreId) (t : BitVec 6) (f : Tile → Tile) :
    (s.mapTile c t f).mem = s.mem := (rfl)

@[simp] theorem State.onTile_canon {s : State} {t : BitVec 6} {k : Res State}
    (hk : k.CanonState) : (s.onTile t k).CanonState := by
  simp [State.onTile, hk]

theorem State.issueTile_canon {s : State} {t : BitVec 6} {kind : TileKind} {ep : Option EpId} {k : State → State}
    (h : Memory.wf s.mem = true) (hk : ∀ u, u.mem = s.mem → Memory.wf (k u).mem = true) :
    (s.issueTile t kind ep k).CanonState := by
  unfold State.issueTile
  extract_lets x op
  by_cases hr : x.mqueue.length ≥ if x.mrun.isSome then 8 else 9
  · rw [if_pos hr]; exact h
  · rw [if_neg hr]; exact .bind (State.classRoom_canon h fun _ => hk _ rfl)

@[simp] theorem State.pushTile_mem (s : State) (c : CoreId) (o : TileOp) : (s.pushTile c o).mem = s.mem := (rfl)

@[simp] theorem State.mapRun_mem (s : State) (f : FloeId) (id : Nat) (g : TaskRun → TaskRun) :
    (s.mapRun f id g).mem = s.mem := (rfl)

@[simp] theorem State.taskNext_mem (s : State) (f : FloeId) (id : Nat) (drained : Bool)
    (fault : Option (Nat × Nat × W)) : (s.taskNext f id drained fault).mem = s.mem := by
  unfold State.taskNext
  split
  · rfl
  · split
    · dsimp only
      split <;> simp
    · simp [apply_ite State.mem]

@[simp] theorem State.tileDone_mem (s : State) (c : CoreId) (o : TileOp) (fault : Option (Nat × Nat × W)) :
    (s.tileDone c o fault).mem = s.mem := by unfold State.tileDone; split <;> simp

@[simp] theorem State.freeEngine_mem (s : State) (c : CoreId) : (s.freeEngine c).mem = s.mem := (rfl)

@[simp] theorem State.operandRead_canon {s : State} {who : CoreId} {plane : Bool} {va : W} {n : Nat}
    (h : Memory.wf s.mem = true) : (s.operandRead who plane va n).Canon := by
  refine EngOf.canon_bind (by simp [h]) fun home t ht => ?_
  split <;> simp [ht]

@[simp] theorem State.operandElem_canon {s : State} {who : CoreId} {o : Operand} {geo : Nat} {p : Nat × Nat}
    (h : Memory.wf s.mem = true) : (s.operandElem who o geo p).Canon := by
  unfold State.operandElem
  dsimp only
  split
  · refine EngOf.canon_bind (State.bitPlane_canon (fun _ _ _ hu => ?_) h) fun _ _ ht => ht
    exact State.operandRead_canon hu
  · exact EngOf.canon_bind (by simp [h]) fun _ _ ht => ht

@[simp] theorem State.operandAll_canon {s : State} {who : CoreId} {o : Operand} {rows cols : Nat}
    (h : Memory.wf s.mem = true) : (s.operandAll who o rows cols).Canon := by
  unfold State.operandAll
  refine EngOf.canon_bind ?_ fun geo t ht => ?_
  · split
    · exact EngOf.canon_bind (by simp [h]) fun _ _ ht => ht
    · exact h
  · split
    · exact ht
    · refine EngOf.canon_bind (EngOf.all_canon (fun u r hu => ?_) ht) fun _ _ hu => hu
      exact EngOf.all_canon (fun v p hv => by simp [hv]) hu

@[simp] theorem State.tileStep_wf {s : State} {c : CoreId} {t : BitVec 6} {m : MmaArgs} {run : TileRun}
    (h : Memory.wf s.mem = true) :
    Memory.wf (s.tileStep c t m run).1.mem = true := by
  unfold State.tileStep
  extract_lets fmt cells
  refine List.foldlRecOn (motive := fun r : State × BitVec 5 × Bool => Memory.wf r.1.mem = true) cells _ h
    fun r hr p _ => ?_
  exact State.wrN_wf (by simp [hr])

@[simp] theorem State.drainRead_mem (s : State) (c : CoreId) (t : BitVec 6) (d : DrainArgs) :
    (s.drainRead c t d).mem = s.mem := by simp [State.drainRead]

@[simp] theorem State.sendDrain_mem (s : State) (c : CoreId) (d : DrainPkt) : (s.sendDrain c d).mem = s.mem :=
  foldl_mem fun _ _ => rfl

@[simp] theorem State.unask_mem (s : State) (c : CoreId) (e : Option (EpId × BitVec 16)) :
    (s.unask c e).mem = s.mem := by unfold State.unask; split <;> rfl

@[simp] theorem State.drainEnd_mem (s : State) (c : CoreId) (d : DrainPkt) (v : Verdict) :
    (s.drainEnd c d v).mem = s.mem := by unfold State.drainEnd; split <;> simp

/-! ### Waits -/

@[simp] theorem State.waitch_canon {s : State} {d a b : Reg} {all : Bool} (h : Memory.wf s.mem = true) :
    Out.Canon (s.waitch d a b all) := by simp [State.waitch, h]

/-! ### Floes and tasks -/

@[simp] theorem State.supervisorOnly_canon {s : State} {k : Res State} (hk : k.CanonState) :
    (s.supervisorOnly k).CanonState := by
  simp [State.supervisorOnly, hk]

@[simp] theorem State.writeFloe_canon {s : State} {n : Nat} {v : W} (h : Memory.wf s.mem = true) :
    (s.writeFloe n v).CanonState := by unfold State.writeFloe; split <;> simp [h]

theorem State.endTurn_canon {s : State} {src : List Reg} {bad : Bool} {k : List W → State → State}
    (h : Memory.wf s.mem = true) (hk : ∀ l, Memory.wf (k l s).mem = true) : Out.Canon (s.endTurn src bad k) := by
  refine State.checked_canon h (State.covering_canon h (State.issueJump_canon h fun l => ?_))
  split
  · exact h
  · exact hk l

@[simp] theorem State.readRecord_canon {s : State} {va : W} {P} (h : Memory.wf s.mem = true) (hP : ∀ a, P a) :
    (s.readRecord va).Canon P := by simp [State.readRecord, h, hP]

@[simp] theorem State.awaitHeld_canon {s : State} {dst : Dest} {b : Issuer → Body} {done : W → Res State}
    (h : Memory.wf s.mem = true) (hd : ∀ w, (done w).CanonState) : (s.awaitHeld dst b done).CanonState := by
  unfold State.awaitHeld
  split
  · exact h
  · exact hd _
  · exact h

@[simp] theorem State.dqPush_wf {s : State} {c : CoreId} {v : W} (h : Memory.wf s.mem = true) :
    Memory.wf (s.dqPush c v).2.mem = true := by
  simp only [State.dqPush]
  split
  · exact h
  · rw [State.mapCore_mem]
    exact State.wr8_wf h

@[simp] theorem State.dqPop_mem (s : State) (c : CoreId) : (s.dqPop c).2.mem = s.mem := by
  simp only [State.dqPop]; split <;> simp

@[simp] theorem State.dqSteal_mem (s : State) (c : CoreId) : (s.dqSteal c).2.mem = s.mem := by
  simp only [State.dqSteal]; split <;> simp

@[simp] theorem State.driftMove_wf {s : State} {i j : CoreId} (h : Memory.wf s.mem = true) :
    Memory.wf (s.driftMove i j).mem = true := by simp [State.driftMove, h]

@[simp] theorem State.driftOn_wf {s : State} {f : FloeId} (h : Memory.wf s.mem = true) :
    Memory.wf (s.driftOn f).mem = true := by unfold State.driftOn; split <;> simp [h]

@[simp] theorem State.startRun_mem (s : State) (f : FloeId) (r : TaskRun) : (s.startRun f r).mem = s.mem := (rfl)

@[simp] theorem State.walkDone_mem (s : State) (f : FloeId) (n : Nat) : (s.walkDone f n).mem = s.mem := by
  unfold State.walkDone
  split <;> simp [apply_ite State.mem]

@[simp] theorem State.stopWalk_mem (s : State) (f : FloeId) (w : GroupWalk) (d : CopyFail) :
    (s.stopWalk f w d).mem = s.mem := by simp [State.stopWalk]

@[simp] theorem State.walkTo_mem (s : State) (f : FloeId) (w : GroupWalk) (g n : Nat) :
    (s.walkTo f w g n).mem = s.mem := (rfl)

/-! ### The Gauss engine -/

@[simp] theorem State.localDword_canon {s : State} {va : W} {need : Need} {P} (h : Memory.wf s.mem = true)
    (hP : ∀ a, P a) : (s.localDword va need).Canon P := by
  refine .bind (State.xlate_canon h fun e => ?_)
  split
  · simp
  · split <;> simp [hP]

@[simp] theorem State.localDwords_canon {s : State} {va : W} {need : Need} {n : Nat} {P} (h : Memory.wf s.mem = true)
    (hP : ∀ a, P a) : (s.localDwords va need n).Canon P := by
  induction n generalizing va P with
  | zero => exact hP _
  | succ n ih => simp [State.localDwords, h, ih, hP]

@[simp] theorem State.gaussWait_canon {s : State} {first : Res GaussOp} {done : W → State → State}
    (h : Memory.wf s.mem = true) (hf : ∀ P : GaussOp → Prop, (∀ o, P o) → first.Canon P)
    (hd : ∀ w u, u.mem = s.mem → Memory.wf (done w u).mem = true) : (s.gaussWait first done).CanonState := by
  unfold State.gaussWait
  split
  · exact .bind (hf _ fun _ => h)
  · exact hd _ _ rfl
  · trivial
  · exact h

@[simp] theorem State.gaussOp_canon {s : State} {t : BitVec 6} {kind : GaussKind} {va : W} {align rm : Nat} {P}
    (h : Memory.wf s.mem = true) (hP : ∀ a, P a) :
    (s.gaussOp t kind va align rm).Canon P := by simp [State.gaussOp, h, hP]

@[simp] theorem State.gaussBare_canon {s : State} {t : BitVec 6} {kind : GaussKind} {rm : Nat} {P} (hP : ∀ a, P a) :
    (s.gaussBare t kind rm).Canon P := by simp [State.gaussBare, hP]

@[simp] theorem State.blockOk_canon {s : State} {t : BitVec 6} {k : Res GaussOp} {P} (hk : k.Canon P) :
    (s.blockOk t k).Canon P := by
  simp [State.blockOk, hk]

@[simp] theorem State.gaussAdd_canon {s : State} {a b : Reg} {r : BitVec 3} {c : BitVec 1} {t : BitVec 6} {sub : Bool}
    (h : Memory.wf s.mem = true) :
    Out.Canon (s.gaussAdd a b r c t sub) := by
  refine State.issue_canon h fun l => State.gaussWait_canon h (fun P hP => ?_) fun _ u hu => hu ▸ h
  refine State.blockOk_canon (.bind (State.gaussOp_canon h fun o => ?_))
  split
  · exact hP _
  · split
    · exact hP _
    · trivial

@[simp] theorem State.writeBlk_wf {s : State} {c : CoreId} {t : BitVec 6} {b : Blk} {n : Nat}
    (h : Memory.wf s.mem = true) :
    Memory.wf (s.writeBlk c t b n).mem = true := by
  unfold State.writeBlk
  rw [State.mapTile_mem]
  refine foldl_wf (fun t i ht => ?_) h
  split
  · exact State.wrN_wf ht
  · split
    · exact State.wrN_wf ht
    · exact ht

@[simp] theorem State.correctAll_mem (s : State) (c : CoreId) (l : List (Nat × W)) :
    (s.correctAll c l).mem = s.mem := by simp [State.correctAll]

@[simp] theorem State.writeKeys_wf {s : State} {l : List (Nat × W)} (h : Memory.wf s.mem = true) :
    Memory.wf (s.writeKeys l).mem = true :=
  writeKeys_memOk l s h

@[simp] theorem State.freshBlk_wf {s : State} {c : CoreId} {t : BitVec 6} {b : Blk} {n : Nat}
    (h : Memory.wf s.mem = true) :
    Memory.wf (s.freshBlk c t b n).mem = true := by simp [State.freshBlk, h]

theorem State.gaussRun_wf {s : State} {c : CoreId} {o : GaussOp} (h : Memory.wf s.mem = true) :
    ∀ r, s.gaussRun c o = .ok r → Memory.wf r.1.mem = true := by
  unfold State.gaussRun
  extract_lets x t i n e opnd at_ d0 vals ill illAt onBlock
  -- What runs on the block read runs on a state with canonical memory.
  have hb : ∀ l k, (∀ b u r, Memory.wf u.mem = true → k b u = .ok r → Memory.wf r.1.mem = true) →
      ∀ r, onBlock l k = .ok r → Memory.wf r.1.mem = true := by
    intro l k hk r hr
    unfold onBlock at hr
    split at hr
    · cases hr
    split at hr
    · cases hr
    · exact hk _ _ _ (by simp [h]) hr
  clear_value onBlock
  intro r hr
  split at hr
  case h_1 | h_2 =>
    repeat' split at hr
    all_goals cases hr <;> simp [h]
  all_goals
    refine hb _ _ (fun b u r hu hr => ?_) r hr
    repeat' split at hr
    all_goals cases hr <;> simp [hu]

@[simp] theorem State.gaussKeys_canon {s : State} {c : CoreId} {o : GaussOp} (h : Memory.wf s.mem = true) :
    (s.gaussKeys c o).Canon := by
  refine EngOf.all_canon (fun t i ht => ?_) h
  split
  · exact ht
  · extract_lets va
    have hx : (t.engineXlate c (t.core c).xroot va).Canon := State.engineXlate_canon ht
    split
    · trivial
    · next he => rw [he] at hx; exact hx
    · next he =>
      rw [he] at hx
      split
      · exact hx
      · split
        · split <;> exact hx
        · exact hx

@[simp] theorem State.gaussEnd_mem (s : State) (c : CoreId) (o : GaussOp) (a : Answer) :
    (s.gaussEnd c o a).mem = s.mem := (rfl)

@[simp] theorem State.wakeNode_wf {s : State} {c : CoreId} {node : Nat} (h : Memory.wf s.mem = true) :
    Memory.wf (s.wakeNode c node).mem = true := by simp [State.wakeNode, h]

/-! ### The network -/

@[simp] theorem State.setEntry_mem (s : State) (r : FloeId) (n : BitVec 12) (e : StreamEnt) :
    (s.setEntry r n e).mem = s.mem := (rfl)

@[simp] theorem State.moveOn_mem (s : State) (p : Nat) (pk : Packet) : (s.moveOn p pk).mem = s.mem := (rfl)

@[simp] theorem State.grant_mem (s : State) (r : FloeId) (out inp : Nat) : (s.grant r out inp).mem = s.mem := (rfl)

@[simp] theorem State.land_mem (s : State) (p : Nat) (pk : Packet) : (s.land p pk).mem = s.mem := by
  unfold State.land
  split
  · simp
  · split
    · exact mem_getD (fun t ht => by simp [State.leave_mem _ _ _ t ht]) (by simp)
    · simp

@[simp] theorem State.turnBack_mem (s : State) (p : Nat) (r : FloeId) (pk : Packet) :
    (s.turnBack p r pk).mem = s.mem := by unfold State.turnBack; split <;> rfl

@[simp] theorem State.cross_mem (s : State) (p : Nat) (r : FloeId) (inp : Nat) (pk : Packet) (outs : List Nat) :
    (s.cross p r inp pk outs).mem = s.mem := by
  unfold State.cross
  repeat' split
  all_goals simp

@[simp] theorem State.route_mem (s : State) (p : Nat) (r : FloeId) (inp : Nat) (pk : Packet) :
    (s.route p r inp pk).mem = s.mem := by unfold State.route; split <;> simp

@[simp] theorem State.inject_mem (s : State) (p : Nat) (r : FloeId) (inp : Nat) (pk : Packet) :
    (s.inject p r inp pk).mem = s.mem := by simp [State.inject]

@[simp] theorem State.flit_mem (s : State) (p i : Nat) : (s.flit p i).mem = s.mem := by
  simp only [State.flit]
  repeat' split
  all_goals simp

@[simp] theorem State.sendPort_mem (s : State) (r : FloeId) (pk : Packet) (port : Nat) :
    (s.sendPort r pk port).mem = s.mem := by
  unfold State.sendPort
  dsimp only
  split
  · rfl
  · split
    · split
      · split
        · rfl
        · simp
      · rfl
    · split
      · split
        · exact mem_getD (fun t ht => State.leave_mem _ _ _ t ht) rfl
        · simp
      · simp

@[simp] theorem State.sendPorts_mem (s : State) (p : Nat) (r : FloeId) (inp : Option Nat) :
    (s.sendPorts p r inp).mem = s.mem := by
  unfold State.sendPorts
  split
  · rfl
  · next pk _ =>
    extract_lets go
    have hf : ((portsOf pk.mask).foldl go (s, pk.mask)).1.mem = s.mem := by
      refine List.foldlRecOn (motive := fun r : State × Nat => r.1.mem = s.mem) _ _ rfl fun r hr port _ => ?_
      unfold go
      dsimp only
      split
      · rw [← hr, State.sendPort_mem]
        split <;> rfl
      · exact hr
    split
    next e =>
    rw [e] at hf
    split
    · simpa using hf
    · exact hf

@[simp] theorem State.direct_mem (s : State) (p : Nat) (r : FloeId) (inp : Nat) (pk : Packet) (mask : Nat) :
    (s.direct p r inp pk mask).mem = s.mem := by simp [State.direct]

@[simp] theorem State.formPacket_mem (s : State) (r : FloeId) (pk : Packet) (mask : Nat) :
    (s.formPacket r pk mask).mem = s.mem := by simp [State.formPacket]

@[simp] theorem State.linkCorrected_mem (s : State) (f : FloeId) : (s.linkCorrected f).mem = s.mem := (rfl)

@[simp] theorem State.absorbMarkers_mem (s : State) (r : FloeId) (n : BitVec 12) (inn : Nat) :
    (s.absorbMarkers r n inn).mem = s.mem := by simp [State.absorbMarkers]

@[simp] theorem State.formedFirst_mem (s : State) (r : FloeId) (n : BitVec 12) (p : Nat) :
    (s.formedFirst r n p).1.mem = s.mem := (rfl)

@[simp] theorem State.stepSet_mem (s : State) (p : Nat) (r : FloeId) (port : Nat) (n : BitVec 12) (pk : Packet)
    (d0 : W) : (s.stepSet p r port n pk d0).mem = s.mem := by
  simp [State.stepSet]

@[simp] theorem State.keepEntries_mem (s : State) : s.keepEntries.mem = s.mem := (rfl)

/-! ### Reductions -/

@[simp] theorem State.setNode_mem (s : State) (r : FloeId) (n : BitVec 12) (x : Node) :
    (s.setNode r n x).mem = s.mem := (rfl)

@[simp] theorem State.nodeForward_mem (s : State) (r : FloeId) (n : BitVec 12) (e : StreamEnt) (first : Bool) :
    (s.nodeForward r n e first).mem = s.mem := by simp [State.nodeForward]

@[simp] theorem State.passUp_mem (s : State) (r : FloeId) (e : StreamEnt) (pk : Packet) (k : RedPkt) :
    (s.passUp r e pk k).mem = s.mem := by simp [State.passUp]

@[simp] theorem State.nodeTake_mem (s : State) (r : FloeId) (n : BitVec 12) (e : StreamEnt) (pk : Packet) (port : Nat)
    (k : RedPkt) : (s.nodeTake r n e pk port k).mem = s.mem := by
  simp only [State.nodeTake]
  split
  · simp
  · split <;> simp [apply_ite State.mem]

@[simp] theorem State.nodeArrive_mem (s : State) (r : FloeId) (n : BitVec 12) (e : StreamEnt) (pk : Packet)
    (port : Nat) (k : RedPkt) : (s.nodeArrive r n e pk port k).mem = s.mem := by
  simp only [State.nodeArrive]
  split <;> simp [apply_ite State.mem]

@[simp] theorem State.placeRed_wf {s : State} {c : CoreId} {e : EpId} {k : RedPkt} (h : Memory.wf s.mem = true) :
    Memory.wf (s.placeRed c e k).mem = true := by
  simp only [State.placeRed]
  split
  · simp [h]
  · rw [State.msgEvent_mem, State.mapEpAt_mem]
    exact State.fillSlot_wf h

@[simp] theorem State.sendRed_mem (s : State) (k : RedPkt) : (s.sendRed k).mem = s.mem := (rfl)

@[simp] theorem State.putRed_canon {s : State} {e : EpId} {v : RedVal} (h : Memory.wf s.mem = true) :
    (s.putRed e v).CanonState := by simp [State.putRed, h]

/-! ### The package -/

@[simp] theorem State.ctrlFault_mem (s : State) (m : BitVec 5) :
    (s.ctrlFault m).mem = s.mem := by simp [State.ctrlFault]

@[simp] theorem State.zeroise_mem (s : State) : s.zeroise.mem = s.mem := (rfl)

@[simp] theorem State.haltAlarm_mem (s : State) : s.haltAlarm.mem = s.mem := by simp [State.haltAlarm]

@[simp] theorem State.alarm_mem (s : State) (cause : Nat) : (s.alarm cause).mem = s.mem := by
  unfold State.alarm
  dsimp only
  split <;> simp [apply_ite State.mem]

@[simp] theorem State.status_mem (s : State) (cmd st : Nat) : (s.status cmd st).mem = s.mem := (rfl)

@[simp] theorem State.withStreams_mem (s : State) (l : List (FloeId × BitVec 12 × W × W)) :
    (s.withStreams l).mem = s.mem :=
  foldl_mem fun _ _ => rfl

@[simp] theorem State.writeBody_mem (s : State) (c : CoreId) (b : ImageBody) :
    (s.writeBody c b).mem = s.mem := by unfold State.writeBody; split <;> simp

@[simp] theorem State.writeImage_mem (s : State) (i : Image) :
    (s.writeImage i).mem = s.mem := by unfold State.writeImage; split <;> simp

@[simp] theorem State.measure_mem (s : State) (i : Image) : (s.measure i).mem = s.mem := (rfl)

@[simp] theorem State.takeImage_mem (s : State) (i : Image) : (s.takeImage i).1.mem = s.mem := by
  simp only [State.takeImage]
  repeat' split
  all_goals simp

@[simp] theorem State.loadConfig_mem (s : State) (i : Image) : (s.loadConfig i).mem = s.mem := by
  have ht := s.takeImage_mem i
  unfold State.loadConfig
  split
  · next e => rw [e] at ht; simpa using ht
  · next e => rw [e] at ht; exact ht

@[simp] theorem State.alarmedBy_mem (s : State) (i : Image) :
    (s.alarmedBy i).mem = s.mem := by unfold State.alarmedBy; split <;> simp

@[simp] theorem State.writeSlot_mem (s : State) (slot : BitVec 7) (k : Option (List Byte)) :
    (s.writeSlot slot k).mem = s.mem := (rfl)

@[simp] theorem State.hostClose_mem (s : State) (n : Nat) :
    (s.hostClose n).mem = s.mem := by unfold State.hostClose; split <;> rfl

@[simp] theorem State.readRegister_mem (s : State) (via : Option (BitVec 7)) (n : BitVec 12) :
    (s.readRegister via n).mem = s.mem := by simp [State.readRegister]

/-! ### Vectors -/

@[simp] theorem State.vecDone_canon {s : State} {lanes : List (Nat × BitVec 5)} {turns : Nat} {k : State → State}
    (hk : Memory.wf (k s).mem = true) : (s.vecDone lanes turns k).CanonState :=
  State.fpDone_canon hk

@[simp] theorem State.vecF_canon {s : State} {l m : BitVec 2} {d : Reg} {src : List Reg} {turns : Nat}
    {op : Fmt → Nat → List Nat → FRes} {sub : Fmt → Nat → Bool} (h : Memory.wf s.mem = true) :
    Out.Canon (s.vecF l m d src turns op sub) := by
  refine State.issue_canon h fun l => ?_
  simp [h]

@[simp] theorem State.vecCmpF_canon {s : State} {l m d : BitVec 2} {a b : Reg} {op : Nat}
    (h : Memory.wf s.mem = true) :
    Out.Canon (s.vecCmpF l m d a b op) := by simp [State.vecCmpF, h]

@[simp] theorem State.redDone_canon {s : State} {d : Reg} {v : Nat} {ops : List TreeOp} {slow : Bool}
    (h : Memory.wf s.mem = true) : (s.redDone d v ops slow).CanonState := by simp [State.redDone, h]

@[simp] theorem State.vecRedF_canon {s : State} {l m : BitVec 2} {d a : Reg} {op : Fmt → Nat → Nat → Nat → FRes}
    (h : Memory.wf s.mem = true) :
    Out.Canon (s.vecRedF l m d a op) := by
  refine State.issue_canon h fun l => ?_
  simp [h]

@[simp] theorem State.vecSel_canon {s : State} {w : Nat} {m : BitVec 2} {d a b : Reg} {sub : Nat → Bool}
    (h : Memory.wf s.mem = true) :
    Out.Canon (s.vecSel w m d a b sub) := by
  refine State.issue_canon h fun l => ?_
  simp [h]

@[simp] theorem State.vecI_canon {s : State} {l m : BitVec 2} {d : Reg} {src : List Reg} {op : Nat → List Nat → Nat}
    (h : Memory.wf s.mem = true) :
    Out.Canon (s.vecI l m d src op) := by
  refine State.issue_canon h fun l => ?_
  simp [h]

@[simp] theorem State.vecCmpI_canon {s : State} {l m d : BitVec 2} {a b : Reg} {op : Nat → Nat → Nat → Bool}
    (h : Memory.wf s.mem = true) :
    Out.Canon (s.vecCmpI l m d a b op) := by
  refine State.issue_canon h fun l => ?_
  simp [h]

@[simp] theorem State.vecRedI_canon {s : State} {l m : BitVec 2} {d a : Reg} {op : Int → Int → Int}
    (h : Memory.wf s.mem = true) :
    Out.Canon (s.vecRedI l m d a op) := by
  refine State.issue_canon h fun l => ?_
  simp [h]

@[simp] theorem State.permute_canon {s : State} {w m : BitVec 2} {d : Reg} {src g : List Reg}
    {op : Nat → List (List Nat) → List W → List Nat} (h : Memory.wf s.mem = true) :
    Out.Canon (s.permute w m d src g op) := by
  refine State.issue_canon h fun l => ?_
  simp [h]

@[simp] theorem Res.atLane_canon {α : Type} {r : Res α} {i : Nat} {P} (hr : r.Canon P) : (r.atLane i).Canon P := by
  unfold Res.atLane; split <;> simp_all

@[simp] theorem State.elementKeys_canon {s : State} {n : Nat} {need : Need} {l : List (Nat × W)} {P}
    (h : Memory.wf s.mem = true) (hP : ∀ a, P a) : (s.elementKeys n need l).Canon P := by
  induction l generalizing P with
  | nil => exact hP _
  | cons p l ih => simp [State.elementKeys, h, ih, hP]

@[simp] theorem State.elementsFree_canon {s : State} {n : Nat} {need : Need} {l : List (Nat × W)}
    {ks : List (Nat × Nat)} {P}
    (h : Memory.wf s.mem = true) (hP : ∀ a, P a) : (s.elementsFree n need l ks).Canon P := by
  induction l generalizing ks with
  | nil => simp [State.elementsFree, hP]
  | cons p l ih =>
    cases ks with
    | nil => simp [State.elementsFree, hP]
    | cons k ks => simp [State.elementsFree, h, ih]

@[simp] theorem State.elements_canon {s : State} {n : Nat} {need : Need} {l : List (Nat × W)} {P}
    (h : Memory.wf s.mem = true) (hP : ∀ a, P a) : (s.elements n need l).Canon P := by simp [State.elements, h, hP]

@[simp] theorem State.loadElems_canon {s : State} {w : Nat} {d : Reg} {l : List (Nat × W)}
    (h : Memory.wf s.mem = true) : (s.loadElems w d l).CanonState := by simp [State.loadElems, h]

@[simp] theorem State.storeElems_canon {s : State} {w : Nat} {d : Reg} {l : List (Nat × W)}
    (h : Memory.wf s.mem = true) : (s.storeElems w d l).CanonState := by
  refine .bind (State.elements_canon h fun ks => ?_)
  refine foldl_wf (fun t p ht => ?_) h
  exact State.wrN_wf (by simp [ht])

/-! ### Page walks -/

@[simp] theorem State.setWalk_mem (s : State) (f : FloeId) (w w' : Walk) : (s.setWalk f w w').mem = s.mem := (rfl)

@[simp] theorem State.endWalk_mem (s : State) (f : FloeId) (w : Walk) (fail : Option Nat) :
    (s.endWalk f w fail).mem = s.mem := by
  unfold State.endWalk
  extract_lets s1
  have h1 : s1.mem = s.mem := foldl_mem fun _ _ => State.mapCtxAt_mem _ _ _ _
  split
  · exact h1
  · exact (foldl_mem fun _ _ => State.mapCore_mem _ _ _).trans h1

@[simp] theorem State.fillWalk_mem (s : State) (f : FloeId) (w : Walk) (e : TlbEnt) :
    (s.fillWalk f w e).mem = s.mem := by simp [State.fillWalk]

@[simp] theorem State.tableWalked_mem (s : State) (f : FloeId) (w : Walk) (r : Except Nat TlbEnt) :
    (s.tableWalked f w r).mem = s.mem := by
  unfold State.tableWalked
  split
  · simp
  · split <;> simp

/-! ### Issue -/

@[simp] theorem State.setCursor_mem (s : State) (c : CoreId) (k : CtxId) : (s.setCursor c k).mem = s.mem := (rfl)

@[simp] theorem State.markIssue_mem (s : State) : s.markIssue.mem = s.mem := (rfl)

@[simp] theorem State.markTurn_mem (s : State) (k : CtxId) : (s.markTurn k).mem = s.mem := (rfl)

@[simp] theorem State.gangForfeit_mem (s : State) (g : Gang) (k : CtxId) : (s.gangForfeit g k).mem = s.mem :=
  foldl_mem fun _ _ => rfl

@[simp] theorem State.gangMark_mem (s : State) (g : Gang) (k : CtxId) (issued : Bool) :
    (s.gangMark g k issued).mem = s.mem :=
  foldl_mem fun _ _ => rfl

@[simp] theorem State.pick_mem (s : State) (l : List CtxId) : (s.pick l).1.mem = s.mem := by
  induction l generalizing s with
  | nil => rfl
  | cons m l ih => unfold State.pick; split <;> simp [ih]

@[simp] theorem State.choose_mem (s : State) : s.choose.1.mem = s.mem := by
  simp only [State.choose]
  repeat' split
  all_goals simp

@[simp] theorem State.handWord_mem (s : State) (c : CoreId) (k : CtxId) (w : BitVec 32) :
    (s.handWord c k w).mem = s.mem := (rfl)

@[simp] theorem State.syncGang_mem (s : State) (g : Gang) (k : CtxId) (w : BitVec 32) :
    (s.syncGang g k w).mem = s.mem := by
  simp only [State.syncGang]
  split
  · exact foldl_mem fun _ _ => rfl
  · split <;> exact foldl_mem fun _ _ => rfl

@[simp] theorem State.tick_mem (s : State) : s.tick.mem = s.mem := (rfl)

/-! ### A cycle of a core -/

@[simp] theorem State.aliasFirst_canon {s : State} {k : Out} (h : Memory.wf s.mem = true) (hk : Out.Canon k) :
    Out.Canon (s.aliasFirst k) := by
  unfold State.aliasFirst; split <;> simp [h, hk]

@[simp] theorem State.wakeAll_wf {s : State} (h : Memory.wf s.mem = true) :
    Memory.wf s.wakeAll.mem = true := by simp [State.wakeAll, h]

@[simp] theorem State.failuresOf_mem (s t : State) : (s.failuresOf t).mem = s.mem := by simp [State.failuresOf]

@[simp] theorem State.reportFailure_mem (s : State) : s.reportFailure.mem = s.mem := by simp [State.reportFailure]

end Sys2Proof.Machine
end

section
/-! SUPPORT. The instructions and events whose meaning is more than one use of a shared operation: each by the branches
of its meaning, in the order of the model. -/

namespace Sys2Proof.Machine

/-! ### Integer operations -/

@[simp] theorem execMsghPack_canon {d a : BitVec 5} {lay : BitVec 4} {s : State} (h : Memory.wf s.mem = true) :
    Out.Canon (execMsghPack d a lay s) := by
  simp only [execMsghPack]; split <;> simp [h]

@[simp] theorem execMsghUnpk_canon {d a : BitVec 5} {lay : BitVec 4} {s : State} (h : Memory.wf s.mem = true) :
    Out.Canon (execMsghUnpk d a lay s) := by
  simp only [execMsghUnpk]; split <;> simp [h]

/-! ### Atomics -/

@[simp] theorem execNwait_canon {d a b : BitVec 5} {sc : BitVec 3} {o t : BitVec 1} {s : State} (h : Memory.wf s.mem = true) :
    Out.Canon (execNwait d a b sc o t s) := by
  refine State.issue_canon h fun l => ?_
  split
  · split <;> simp [h]
  · exact .bind (State.access_canon h fun k => by simp [h])

/-! ### Channels -/

@[simp] theorem execRecv_canon {d : BitVec 5} {c : BitVec 3} {l : BitVec 8} {e : BitVec 6} {s : State}
    (h : Memory.wf s.mem = true) : Out.Canon (execRecv d c l e s) := by
  have freed (t : State) (ht : Memory.wf t.mem = true) (goesTo : Nat) :
      Memory.wf (if (s.ep e).isUser then (t.freeSlot s.cur.core e).toState e goesTo else t.freeSlot s.cur.core e).mem
        = true := by
    split <;> simp [ht]
  refine State.onEp_canon h fun vs => ?_
  refine .bind (State.mayRecv_canon fun _ => ?_)
  refine .bind (State.matchIn_canon fun _ => ?_)
  refine .bind (Res.Canon.mono (P := fun _ => True) ?_ fun _ _ => ?_)
  · exact .ite (.bind (State.reachAll_canon h fun _ => trivial)) trivial
  refine .bind (State.headOf_canon h fun _ => .ite trivial (State.unheld_canon h ?_))
  dsimp only
  split
  · exact freed _ h _
  · exact freed _ (by simp [h]) _
  · exact freed _ (by simp [h]) _
  · exact .ite trivial (.bind (State.localUnits_canon h fun _ => freed _ (by simp [h]) _))

@[simp] theorem execOffer_canon {d : BitVec 5} {e : BitVec 6} {s : State} (h : Memory.wf s.mem = true) :
    Out.Canon (execOffer d e s) := by
  refine State.onEp_canon h fun vs => ?_
  refine .bind (State.mustOpen_canon fun _ => ?_)
  split
  · trivial
  refine .bind (State.headOf_canon h fun _ => ?_)
  split
  · trivial
  · split <;> simp [h]

/-! ### Sessions -/

@[simp] theorem execProtocolImageLoad_canon {c : CoreId} {k : CtxId} {s : State} (h : Memory.wf s.mem = true) :
    Out.Canon (execProtocolImageLoad c k s) := by
  have hx : (s.loadImage c ((s.ctxAt c k).rx 0)).Canon := State.loadImage_canon h
  unfold execProtocolImageLoad
  split
  · split
    · simp [h]
    · next he => rw [he] at hx; simpa using hx
    · next he => rw [he] at hx; simpa using hx
  · exact h

@[simp] theorem execConnect_canon {d : BitVec 5} {e : BitVec 6} {s : State} (h : Memory.wf s.mem = true) :
    Out.Canon (execConnect d e s) := by
  refine State.binds_canon h fun l => State.connResult_canon h ?_
  split
  · trivial
  split
  · trivial
  refine .bind (State.reference_canon h fun _ => ?_)
  refine Res.refuseIf_canon (Res.refuseIf_canon (Res.refuseIf_canon ?_))
  simp [h]

@[simp] theorem execAccept_canon {e : BitVec 6} {s : State} (h : Memory.wf s.mem = true) : Out.Canon (execAccept e s) := by
  refine State.binds_canon h fun l => State.connResult_canon h ?_
  split
  · trivial
  refine .bind (State.reference_canon h fun _ => ?_)
  refine Res.refuseIf_canon (Res.refuseIf_canon (Res.refuseIf_canon ?_))
  dsimp only
  split
  · exact h
  split
  · simp [h]
  · rw [Res.canon_block]; split <;> simp [h]

@[simp] theorem execConnectionRequestArrival_canon {p : Nat} {s : State} (h : Memory.wf s.mem = true) :
    Out.Canon (execConnectionRequestArrival p s) := by
  unfold execConnectionRequestArrival
  repeat' split
  all_goals simp [h]

@[simp] theorem execConnectionResultArrival_canon {p : Nat} {s : State} (h : Memory.wf s.mem = true) :
    Out.Canon (execConnectionResultArrival p s) := by
  simp only [execConnectionResultArrival]
  repeat' split
  all_goals simp [h]

@[simp] theorem execConnectWithdrawal_canon {p : Nat} {s : State} (h : Memory.wf s.mem = true) :
    Out.Canon (execConnectWithdrawal p s) := by
  unfold execConnectWithdrawal
  repeat' split
  all_goals simp [h]

@[simp] theorem execDelegate_canon {d : BitVec 5} {l : BitVec 8} {e : BitVec 6} {s : State} (h : Memory.wf s.mem = true) :
    Out.Canon (execDelegate d l e s) := by
  unfold execDelegate
  split
  · refine State.checked_canon h (State.covering_canon h (State.issue_canon h fun _ => ?_))
    refine .bind (State.mustOpen_canon fun _ => ?_)
    refine .bind (State.carrierMove_canon fun _ => ?_)
    dsimp only
    split
    · trivial
    refine Res.refuseIf_canon ?_
    split
    · exact h
    split
    · exact h
    · split <;> simp [h]
  · refine State.checked_canon h (State.finish_canon h ?_)
    refine .bind (State.operands_canon h fun _ => h)

@[simp] theorem execDelegateRx_canon {d : BitVec 5} {l : BitVec 8} {e : BitVec 6} {s : State} (h : Memory.wf s.mem = true) :
    Out.Canon (execDelegateRx d l e s) := by
  refine State.checked_canon h (State.covering_canon h (State.finishBind_canon h ?_))
  refine State.withOperands_canon h fun _ => ?_
  dsimp only
  split
  · trivial
  split
  · trivial
  split
  · trivial
  refine Res.refuseIf_canon ?_
  refine .bind (State.mustOpen_canon fun _ => ?_)
  refine .bind (State.carrierMove_canon fun _ => ?_)
  refine .bind (State.headOf_canon h fun _ => ?_)
  split
  · trivial
  refine .bind (State.reference_canon h fun _ => ?_)
  refine State.unheld_canon h (Res.refuseIf_canon (Res.refuseIf_canon ?_))
  split <;> simp [h]

@[simp] theorem execClose_canon {e : BitVec 6} {s : State} (h : Memory.wf s.mem = true) : Out.Canon (execClose e s) := by
  refine State.onEp_canon h fun _ => ?_
  dsimp only
  split
  · trivial
  · trivial
  · trivial
  · simp [h]
  · simp [h]
  · simp [h]

@[simp] theorem execProbe_canon {d : BitVec 5} {l : BitVec 8} {e : BitVec 6} {s : State} (h : Memory.wf s.mem = true) :
    Out.Canon (execProbe d l e s) := by
  refine State.checked_canon h (State.issue_canon h fun _ => ?_)
  exact State.unheld_canon h (by simp [h])

@[simp] theorem execWaite_canon {d : BitVec 5} {s : State} (h : Memory.wf s.mem = true) : Out.Canon (execWaite d s) := by
  refine State.issue_canon h fun _ => ?_
  dsimp only
  split
  · trivial
  split
  · exact h
  · split <;> simp [h]

/-! ### Global and window accesses -/

@[simp] theorem execGld_canon {d a : BitVec 5} {u : BitVec 1} {e : BitVec 6} {sz : BitVec 2} {s : State}
    (h : Memory.wf s.mem = true) : Out.Canon (execGld d a u e sz s) := by
  refine State.onEp_canon h fun _ => State.await_canon h ?_ fun _ _ => by simp [h]
  exact State.globally_canon h (fun P hP => hP 0) fun _ _ => by simp [h]

@[simp] theorem execGst_canon {d a : BitVec 5} {e : BitVec 6} {sz : BitVec 2} {s : State}
    (h : Memory.wf s.mem = true) : Out.Canon (execGst d a e sz s) := by
  refine State.onEp_canon h fun _ => ?_
  exact State.globally_canon h (fun P hP => hP 0) fun _ _ => by simp [h]

@[simp] theorem execGvld_canon {d a : BitVec 5} {e : BitVec 6} {s : State} (h : Memory.wf s.mem = true) :
    Out.Canon (execGvld d a e s) := by
  refine State.onEp_canon h fun _ => ?_
  exact State.globally_canon h (fun P hP => State.access_canon h hP) fun _ _ => by simp [h]

@[simp] theorem execGvst_canon {d a : BitVec 5} {e : BitVec 6} {s : State} (h : Memory.wf s.mem = true) :
    Out.Canon (execGvst d a e s) := by
  refine State.onEp_canon h fun _ => ?_
  exact State.globally_canon h (fun P hP => State.access_canon h hP) fun _ _ => by simp [h]

@[simp] theorem execMemrdRequest_canon {p : Nat} {s : State} (h : Memory.wf s.mem = true) :
    Out.Canon (execMemrdRequest p s) := by unfold execMemrdRequest; split <;> simp [h]

@[simp] theorem execMemwrRequest_canon {p : Nat} {s : State} (h : Memory.wf s.mem = true) :
    Out.Canon (execMemwrRequest p s) := by unfold execMemwrRequest; split <;> simp [h]

@[simp] theorem execRequestForward_canon {p : Nat} {s : State} (h : Memory.wf s.mem = true) :
    Out.Canon (execRequestForward p s) := by unfold execRequestForward; split <;> simp [h]

@[simp] theorem execMemrdReplyArrival_canon {p : Nat} {s : State} (h : Memory.wf s.mem = true) :
    Out.Canon (execMemrdReplyArrival p s) := by
  refine State.replyArrival_canon h fun c e b u hu t ht => ?_
  split at ht
  · dsimp only at ht
    split at ht
    · split at ht
      · cases ht
      · cases ht; simp [hu, memWrites_wf]
    · cases ht; simp [hu]
    · cases ht; simp [hu]
    · cases ht; simp [hu]
  · cases ht

@[simp] theorem execMemwrAckArrival_canon {p : Nat} {s : State} (h : Memory.wf s.mem = true) :
    Out.Canon (execMemwrAckArrival p s) := by
  refine State.replyArrival_canon h fun c e b u hu t ht => ?_
  split at ht
  · cases ht; simp [hu]
  · cases ht

@[simp] theorem execWindowAccessArrival_canon {p : Nat} {s : State} (h : Memory.wf s.mem = true) :
    Out.Canon (execWindowAccessArrival p s) := by
  rw [execWindowAccessArrival, Out.canon_next]
  split
  · exact h
  split
  · dsimp only
    split
    · simp [h]
    split
    · simp [h]
    split
    · simp [h]
    split
    · simp [h]
    split
    · split <;> simp [h]
    · split <;> simp [h, memWrites_wf]
    · split <;> simp [h]
  · exact h

@[simp] theorem execWpmArrival_canon {p : Nat} {s : State} (h : Memory.wf s.mem = true) :
    Out.Canon (execWpmArrival p s) := by
  rw [execWpmArrival, Out.canon_next]
  split
  · exact h
  split
  · dsimp only
    split
    · simp [h]
    split
    · simp [h]
    split
    · simp [h]
    split
    · simp [h]
    · split
      · rw [State.hwReply_mem]; exact State.wr8_wf (State.wr8_wf (by simp [h, memWrites_wf]))
      · simp [h, memWrites_wf]
  · exact h

/-! ### The copy engine -/

@[simp] theorem execCpgo_canon {d : BitVec 5} {s : State} (h : Memory.wf s.mem = true) : Out.Canon (execCpgo d s) :=
  State.issue_canon h fun _ => State.launchCopy_canon h fun _ u hu => by simp [hu, h]

@[simp] theorem execCpgoRemote_canon {d : BitVec 5} {e : BitVec 6} {s : State} (h : Memory.wf s.mem = true) :
    Out.Canon (execCpgoRemote d e s) := by
  refine State.onEp_canon h fun _ => ?_
  refine .bind (State.mayUse_canon fun _ => ?_)
  refine .bind (State.underBound_canon h fun _ => ?_)
  exact State.launchCopy_canon h fun _ u hu => by simp [hu, h]

@[simp] theorem execCopyRequestArrival_canon {p : Nat} {s : State} (h : Memory.wf s.mem = true) :
    Out.Canon (execCopyRequestArrival p s) := by unfold execCopyRequestArrival; split <;> simp [h]

@[simp] theorem execCopyChunkDone_canon {c : CoreId} {tag chunk : BitVec 6} {s : State} (h : Memory.wf s.mem = true) :
    Out.Canon (execCopyChunkDone c tag chunk s) := by unfold execCopyChunkDone; split <;> simp [h]

@[simp] theorem execCopyComplete_canon {c : CoreId} {tag : BitVec 6} {s : State} (h : Memory.wf s.mem = true) :
    Out.Canon (execCopyComplete c tag s) := by
  rw [execCopyComplete, Out.canon_next]
  split
  · next e r hf =>
    have hx : (s.engNotify e (shadowReg r.d.shadow 5)).Canon := State.engNotify_canon h
    split
    · simp [h]
    split
    · exact h
    split
    · split
      · next he => rw [he] at hx; simpa using hx
      · simp [h]
      · next he => rw [he] at hx; simpa using hx
    · simp [h]
  · exact h

@[simp] theorem execCopyFailure_canon {c : CoreId} {tag : BitVec 6} {s : State} (h : Memory.wf s.mem = true) :
    Out.Canon (execCopyFailure c tag s) := by unfold execCopyFailure; split <;> simp [h]

@[simp] theorem execCopyAnswerArrival_canon {p : Nat} {s : State} (h : Memory.wf s.mem = true) :
    Out.Canon (execCopyAnswerArrival p s) := by
  refine State.replyArrival_canon h fun c e b u hu t ht => ?_
  split at ht
  · cases ht; simp [hu]
  · cases ht

@[simp] theorem execReduceChunkArrival_canon {p : Nat} {s : State} (h : Memory.wf s.mem = true) :
    Out.Canon (execReduceChunkArrival p s) := by
  rw [execReduceChunkArrival, Out.canon_next]
  split
  · exact h
  split
  · dsimp only
    split
    · simp [h]
    split
    · next f u hr =>
      have hm : Memory.wf u.mem = true := by
        split at hr
        · cases hr
        · obtain ⟨_, -, hg⟩ := List.exists_of_findSome?_eq_some hr
          rw [State.engGrant_mem _ _ _ _ _ _ _ hg]; exact h
      simp [hm]
    · split
      · simp [h]
      split
      · split
        · simp [h]
        · split <;> simp [h]
      · split
        · simp [h]
        · split <;> simp [h]
  · exact h

@[simp] theorem execCpret_canon {a b : BitVec 5} {s : State} (h : Memory.wf s.mem = true) : Out.Canon (execCpret a b s) := by
  refine State.issue_canon h fun _ => ?_
  dsimp only
  split
  · trivial
  refine .bind (State.xlate_canon h fun _ => ?_)
  split
  · trivial
  · split
    · exact h
    · exact .bind (State.classRoom_canon h fun _ => by simp [h])

@[simp] theorem execKeyRetirementArrival_canon {p : Nat} {s : State} (h : Memory.wf s.mem = true) :
    Out.Canon (execKeyRetirementArrival p s) := by unfold execKeyRetirementArrival; split <;> simp [h]

@[simp] theorem execKeyRetirementAcknowledgement_canon {p : Nat} {s : State} (h : Memory.wf s.mem = true) :
    Out.Canon (execKeyRetirementAcknowledgement p s) := by unfold execKeyRetirementAcknowledgement; split <;> simp [h]

/-! ### System registers and events -/

@[simp] theorem execMts_canon {a : BitVec 5} {n : BitVec 12} {s : State} (h : Memory.wf s.mem = true) :
    Out.Canon (execMts a n s) := State.issue_canon h fun l => by split <;> simp [h]

@[simp] theorem execFstWrite_canon {v : W} {s : State} (h : Memory.wf s.mem = true) :
    Out.Canon (execFstWrite v s) := by unfold execFstWrite; split <;> simp [h]

@[simp] theorem execEret_canon {s : State} (h : Memory.wf s.mem = true) : Out.Canon (execEret s) := by
  rw [execEret]
  dsimp only
  split
  · simp [h]
  split
  · simp [h]
  · refine State.finishJump_canon h (.bind ((State.lenAt_canon h).mono fun _ ht => ?_))
    simpa using ht

@[simp] theorem execEvwait_canon {d : BitVec 5} {s : State} (h : Memory.wf s.mem = true) : Out.Canon (execEvwait d s) :=
  State.onlyC0_canon h (State.issue_canon h fun l => by split <;> simp [h])

@[simp] theorem execEvget_canon {d : BitVec 5} {s : State} (h : Memory.wf s.mem = true) : Out.Canon (execEvget d s) :=
  State.onlyC0_canon h (State.issue_canon h fun l => by split <;> simp [h])

@[simp] theorem execWatchdogExpiry_canon {c : CoreId} {k : CtxId} {s : State} (h : Memory.wf s.mem = true) :
    Out.Canon (execWatchdogExpiry c k s) := by
  simp only [execWatchdogExpiry]; split <;> simp [h]

/-! ### Core registers -/

@[simp] theorem execRdcore_canon {d a : BitVec 5} {s : State} (h : Memory.wf s.mem = true) : Out.Canon (execRdcore d a s) :=
  State.issue_canon h fun l => by split <;> simp [h]

@[simp] theorem execTlbinvDropComplete_canon {c : CoreId} {s : State} (h : Memory.wf s.mem = true) :
    Out.Canon (execTlbinvDropComplete c s) := by unfold execTlbinvDropComplete; split <;> simp [h]

/-! ### The fabric between modules -/

@[simp] theorem execDataFrameArrival_canon {port : BitVec 5} {fr : Frame} {s : State} (h : Memory.wf s.mem = true) :
    Out.Canon (execDataFrameArrival port fr s) := by
  refine State.heard_canon h fun u hu => ?_
  dsimp only
  split
  · simp [hu]
  split
  · exact hu
  split
  · simp [hu]
  · split <;> simp [hu]

@[simp] theorem execNakArrival_canon {port : BitVec 5} {fr : Frame} {s : State} (h : Memory.wf s.mem = true) :
    Out.Canon (execNakArrival port fr s) :=
  State.heard_canon h fun u hu => by split <;> simp [hu]

@[simp] theorem execControlFrameArrival_canon {port : BitVec 5} {fr : Frame} {s : State} (h : Memory.wf s.mem = true) :
    Out.Canon (execControlFrameArrival port fr s) :=
  State.heard_canon h fun u hu => by split <;> simp [hu]

@[simp] theorem execResyncArrival_canon {port : BitVec 5} {fr : Frame} {s : State} (h : Memory.wf s.mem = true) :
    Out.Canon (execResyncArrival port fr s) :=
  State.heard_canon h fun u hu => by split <;> simp [hu]

@[simp] theorem execResyncAnswerArrival_canon {port : BitVec 5} {fr : Frame} {s : State} (h : Memory.wf s.mem = true) :
    Out.Canon (execResyncAnswerArrival port fr s) :=
  State.heard_canon h fun u hu => by dsimp only; split <;> simp [hu]

@[simp] theorem execLostModuleFrameArrival_canon {port : BitVec 5} {addr : BitVec 19} {ttl : BitVec 6} {s : State}
    (h : Memory.wf s.mem = true) : Out.Canon (execLostModuleFrameArrival port addr ttl s) := by
  refine State.heard_canon h fun u hu => ?_
  dsimp only
  split
  · simp [hu]
  split
  · exact hu
  · split <;> simp [hu]

/-! ### Lifecycle of contexts -/

@[simp] theorem execSpillWriteComplete_canon {c : CoreId} {ok : Bool} {s : State} (h : Memory.wf s.mem = true) :
    Out.Canon (execSpillWriteComplete c ok s) := by
  rw [execSpillWriteComplete, Out.canon_next]
  split
  · exact h
  next v _ _ =>
  dsimp only
  split
  · simp [h]
  split
  · simp [h]
  have hx : (s.spillPages c v).Canon := State.spillPages_canon h
  split
  · simp [h]
  · next he => rw [he] at hx; simpa using hx
  · next pages t he =>
    rw [he] at hx
    split
    · simpa using hx
    · next u hw => simpa using State.spillWrite_wf hx u hw

@[simp] theorem execSpillReloadComplete_canon {c : CoreId} {err : Option W} {s : State} (h : Memory.wf s.mem = true) :
    Out.Canon (execSpillReloadComplete c err s) := by
  rw [execSpillReloadComplete, Out.canon_next]
  split
  · exact h
  next k _ =>
  have hx : (s.spillPages c k).Canon := State.spillPages_canon h
  split
  · simp [h]
  · next he => rw [he] at hx; simpa using hx
  · next he => rw [he] at hx; simpa using hx

@[simp] theorem execRdctx_canon {d a : BitVec 5} {s : State} (h : Memory.wf s.mem = true) : Out.Canon (execRdctx d a s) := by
  refine State.supervise_canon h fun k l => .ite trivial ?_
  split
  · exact .ite (State.fromSpill_canon h (by simp [h])) (by simp [h])
  · trivial

@[simp] theorem execWrctx_canon {a b : BitVec 5} {s : State} (h : Memory.wf s.mem = true) : Out.Canon (execWrctx a b s) := by
  refine State.supervise_canon h fun k l => .ite trivial ?_
  split
  · exact .ite (State.fromSpill_canon h (by simp [h])) (by simp [h])
  · trivial

/-! ### Queues -/

@[simp] theorem execEnqueueWithoutHandle_canon {p : Nat} {s : State} (h : Memory.wf s.mem = true) :
    Out.Canon (execEnqueueWithoutHandle p s) := by unfold execEnqueueWithoutHandle; split <;> simp [h]

@[simp] theorem execEnqueueWithHandle_canon {p : Nat} {s : State} (h : Memory.wf s.mem = true) :
    Out.Canon (execEnqueueWithHandle p s) := by unfold execEnqueueWithHandle; split <;> simp [h]

@[simp] theorem execTaskRequest_canon {p : Nat} {s : State} (h : Memory.wf s.mem = true) :
    Out.Canon (execTaskRequest p s) := by unfold execTaskRequest; split <;> simp [h]

@[simp] theorem execEnqueueAckArrival_canon {p : Nat} {s : State} (h : Memory.wf s.mem = true) :
    Out.Canon (execEnqueueAckArrival p s) := by unfold execEnqueueAckArrival; split <;> simp [h]

/-! ### Tiles -/

@[simp] theorem execTzero_canon {f : BitVec 2} {t : BitVec 6} {s : State} (h : Memory.wf s.mem = true) :
    Out.Canon (execTzero f t s) :=
  State.issue_canon h fun _ => State.onTile_canon <|
    State.issueTile_canon h fun _ hu => by rw [id, hu, h]

@[simp] theorem execTmma_canon {a b : BitVec 5} {sg : BitVec 1} {t : BitVec 6} {s : State} (h : Memory.wf s.mem = true) :
    Out.Canon (execTmma a b sg t s) := by
  refine State.checked_canon h (State.issue_canon h fun _ => State.onTile_canon ?_)
  split
  · trivial
  · exact .ite trivial (State.issueTile_canon h fun _ hu => by rw [id, hu, h])

@[simp] theorem execTdrain_canon {a b : BitVec 5} {t : BitVec 6} {e : BitVec 6} {s : State} (h : Memory.wf s.mem = true) :
    Out.Canon (execTdrain a b t e s) := by
  refine State.onEp_canon h fun l => State.onTile_canon (.ite trivial ?_)
  refine .bind (State.mayUse_canon fun _ => Res.refuseIf_canon ?_)
  extract_lets go va
  have hgo (wake : Option (List W)) (u : State) (hu : Memory.wf u.mem = true) :
      (go wake u).CanonState :=
    .bind <| State.underBound_canon hu fun _ =>
      State.issueTile_canon hu fun v hv => by simp [hv, hu]
  refine .ite (hgo _ _ h) ?_
  refine .bind (Res.check_canon ?_)
  refine .bind (State.localUnits_canon h fun _ => ?_)
  exact .ite (hgo _ _ (by simp [h])) trivial

@[simp] theorem execTileOperationStart_canon {c : CoreId} {s : State} (h : Memory.wf s.mem = true) :
    Out.Canon (execTileOperationStart c s) := by unfold execTileOperationStart; split <;> simp [h]

@[simp] theorem execTzeroComplete_canon {c : CoreId} {s : State} (h : Memory.wf s.mem = true) :
    Out.Canon (execTzeroComplete c s) := by
  rw [execTzeroComplete, Out.canon_next]
  split
  · rw [State.tileDone_mem, State.mapTile_mem]
    exact wr_memOk _ _ _ (wf_of_mem_eq (State.freeEngine_mem s c) h)
  · exact h

@[simp] theorem execTmmaOperandsRead_canon {c : CoreId} {s : State} (h : Memory.wf s.mem = true) :
    Out.Canon (execTmmaOperandsRead c s) := by
  rw [execTmmaOperandsRead, Out.canon_next]
  split
  · split
    · next run _ _ m _ =>
      extract_lets who keep kpl oa ob
      have hkeep (t : State) (r : TileRun) (ht : Memory.wf t.mem = true) : Memory.wf (keep t r).mem = true := by
        simp only [keep]; split <;> simp [ht]
      split
      · exact h
      split
      · exact hkeep _ _ h
      have hx := EngOf.canon_bind (f := fun a t => (t.operandAll who ob m.deep m.cols).bind fun b t => .ok (a, b) t)
        (State.operandAll_canon (s := s) (who := who) (o := oa) (rows := m.rows) (cols := m.deep) h) fun a t ht =>
          EngOf.canon_bind (State.operandAll_canon ht) fun b t ht => ht
      split
      · simp [h]
      · next he => rw [he] at hx; exact hkeep _ _ hx
      · next he => rw [he] at hx; exact hkeep _ _ hx
    · exact h
  · exact h

@[simp] theorem execTmmaStepComplete_canon {c : CoreId} {s : State} (h : Memory.wf s.mem = true) :
    Out.Canon (execTmmaStepComplete c s) := by
  unfold execTmmaStepComplete
  repeat' split
  all_goals simp [h]

@[simp] theorem execTmmaOperandFailure_canon {c : CoreId} {s : State} (h : Memory.wf s.mem = true) :
    Out.Canon (execTmmaOperandFailure c s) := by
  unfold execTmmaOperandFailure
  repeat' split
  all_goals simp [h]

@[simp] theorem execTdrainTileRead_canon {c : CoreId} {s : State} (h : Memory.wf s.mem = true) :
    Out.Canon (execTdrainTileRead c s) := by
  unfold execTdrainTileRead
  repeat' split
  all_goals simp [h]

/-- Rows written one after another keep the canonical form. -/
theorem foldl_wr_wf {key : Nat → Nat} {l : List (Nat × List Byte)} {s : State} (h : Memory.wf s.mem = true) :
    Memory.wf (l.foldl (fun t (i, r) => t.wr (key i) r) s).mem = true :=
  foldl_wf (fun t p ht => wr_memOk t (key p.1) p.2 ht) h

@[simp] theorem execDrainRowsArrival_canon {p : Nat} {s : State} (h : Memory.wf s.mem = true) :
    Out.Canon (execDrainRowsArrival p s) := by
  rw [execDrainRowsArrival, Out.canon_next]
  split
  · exact h
  split
  · split
    · exact h
    next rows _ =>
    extract_lets d n ok s0 s1 back reply items at_ t
    have hs1 : Memory.wf s1.mem = true := by
      simp only [s1]; split <;> simp [s0, h]
    have hreply (t : State) (v : Verdict) (ht : Memory.wf t.mem = true) : Memory.wf (reply t v).mem = true := by
      simp only [reply]; split <;> simp [ht]
    have ht : Memory.wf t.mem = true := foldl_wr_wf (key := at_) hs1
    split
    · exact h
    split
    · exact hreply _ _ (by simp [hs1])
    split
    · exact hreply _ _ hs1
    split
    · exact hreply _ _ hs1
    · refine hreply _ _ ?_
      split <;> simp [ht]
  · exact h

@[simp] theorem execDrainAckArrival_canon {p : Nat} {s : State} (h : Memory.wf s.mem = true) :
    Out.Canon (execDrainAckArrival p s) := by
  rw [execDrainAckArrival]
  split
  · simp [h]
  · refine State.replyArrival_canon h fun c e b u hu t ht => ?_
    split at ht
    · cases ht; simp [hu]
    · cases ht

/-! ### Floes and tasks -/

@[simp] theorem execRdfloe_canon {d a : BitVec 5} {s : State} (h : Memory.wf s.mem = true) : Out.Canon (execRdfloe d a s) :=
  State.issue_canon h fun l => by split <;> simp [h]

@[simp] theorem execDispenserDelivery_canon {f : FloeId} {bad : Bool} {s : State} (h : Memory.wf s.mem = true) :
    Out.Canon (execDispenserDelivery f bad s) := by
  unfold execDispenserDelivery
  repeat' split
  all_goals simp [h]

@[simp] theorem execWaitw_canon {s : State} (h : Memory.wf s.mem = true) : Out.Canon (execWaitw s) :=
  State.endTurn_canon h fun _ => h

@[simp] theorem execSuspend_canon {a : BitVec 5} {s : State} (h : Memory.wf s.mem = true) : Out.Canon (execSuspend a s) :=
  State.endTurn_canon h fun _ => by simp [h]

@[simp] theorem execRetire_canon {s : State} (h : Memory.wf s.mem = true) : Out.Canon (execRetire s) :=
  State.endTurn_canon h fun _ => h

@[simp] theorem execQhandleReplyArrival_canon {p : Nat} {s : State} (h : Memory.wf s.mem = true) :
    Out.Canon (execQhandleReplyArrival p s) := by unfold execQhandleReplyArrival; split <;> simp [h]

@[simp] theorem execStealRequestArrival_canon {p : Nat} {s : State} (h : Memory.wf s.mem = true) :
    Out.Canon (execStealRequestArrival p s) := by unfold execStealRequestArrival; split <;> simp [h]

@[simp] theorem execStealReplyArrival_canon {p : Nat} {s : State} (h : Memory.wf s.mem = true) :
    Out.Canon (execStealReplyArrival p s) := by unfold execStealReplyArrival; split <;> simp [h]

@[simp] theorem execTgroup_canon {a b : BitVec 5} {s : State} (h : Memory.wf s.mem = true) :
    Out.Canon (execTgroup a b s) := by
  refine State.checked_canon h (State.issue_canon h fun _ => ?_)
  refine .bind (State.readRecord_canon h fun _ => .ite trivial (.ite h ?_))
  exact .bind (State.classRoom_canon h fun _ => by simp [h])

@[simp] theorem execTileTaskIssue_canon {f : FloeId} {s : State} (h : Memory.wf s.mem = true) :
    Out.Canon (execTileTaskIssue f s) := by unfold execTileTaskIssue; split <;> simp [h]

@[simp] theorem execTileTaskFinish_canon {f : FloeId} {n : Nat} {s : State} (h : Memory.wf s.mem = true) :
    Out.Canon (execTileTaskFinish f n s) := by
  unfold execTileTaskFinish
  repeat' split
  all_goals simp [h]

@[simp] theorem execGroupWalkTileIssue_canon {f : FloeId} {n : Nat} {s : State} (h : Memory.wf s.mem = true) :
    Out.Canon (execGroupWalkTileIssue f n s) := by
  rw [execGroupWalkTileIssue, Out.canon_next]
  split
  · exact h
  next w _ =>
  split
  · exact h
  extract_lets va fmt
  have hx : (if va.toNat % 64 != 0 then .bad (copyErr va 0) s else s.engRead w.org.core va 64 0 : Eng Nat).Canon := by
    split
    · exact h
    · exact State.engRead_canon h
  split
  · simp [h]
  · next he => rw [he] at hx; simpa using hx
  next v t he =>
  rw [he] at hx
  have ht : Memory.wf t.mem = true := hx
  dsimp only
  split
  · simp [ht]
  split
  · simp [ht]
  split
  · exact h
  · split <;> simp [ht]

@[simp] theorem execDisband_canon {s : State} (h : Memory.wf s.mem = true) : Out.Canon (execDisband s) := by
  rw [execDisband]
  dsimp only
  split
  · exact State.finish_canon h (by simp [h])
  · split
    · exact State.finish_canon h (.ite h (by simp [h]))
    · exact State.endTurn_canon h fun _ => h
  · exact State.endTurn_canon h fun _ => h

/-! ### The Gauss engine -/

@[simp] theorem execGzero_canon {t : BitVec 6} {n : BitVec 5} {s : State} (h : Memory.wf s.mem = true) :
    Out.Canon (execGzero t n s) :=
  State.issue_canon h fun l => State.gaussWait_canon h
    (fun P hP => State.blockOk_canon (State.gaussBare_canon hP)) fun _ u hu => by rw [hu, h]

@[simp] theorem execGloadf_canon {a : BitVec 5} {t : BitVec 6} {s : State} (h : Memory.wf s.mem = true) :
    Out.Canon (execGloadf a t s) :=
  State.issue_canon h fun l => State.gaussWait_canon h
    (fun P hP => State.blockOk_canon (State.gaussOp_canon h hP)) fun _ u hu => by rw [hu, h]

@[simp] theorem execGschur_canon {a : BitVec 5} {r : BitVec 3} {t : BitVec 6} {s : State} (h : Memory.wf s.mem = true) :
    Out.Canon (execGschur a r t s) :=
  State.checked_canon h <| State.issue_canon h fun l => State.gaussWait_canon h
    (fun P hP => State.blockOk_canon (.ite trivial (State.gaussBare_canon hP))) fun _ u hu => by rw [hu, h]

@[simp] theorem execGsolve_canon {a : BitVec 5} {r : BitVec 3} {t : BitVec 6} {s : State} (h : Memory.wf s.mem = true) :
    Out.Canon (execGsolve a r t s) :=
  State.checked_canon h <| State.issue_canon h fun l => State.gaussWait_canon h
    (fun P hP => State.blockOk_canon (State.gaussOp_canon h hP)) fun _ u hu => by rw [hu, h]

@[simp] theorem execGdamp_canon {d a : BitVec 5} {r : BitVec 3} {t : BitVec 6} {s : State} (h : Memory.wf s.mem = true) :
    Out.Canon (execGdamp d a r t s) :=
  State.checked_canon h <| State.issue_canon h fun l => State.gaussWait_canon h
    (fun P hP => State.blockOk_canon (State.gaussOp_canon h hP)) fun _ u hu => by simp [hu, h]

@[simp] theorem execGstorm_canon {a : BitVec 5} {t : BitVec 6} {s : State} (h : Memory.wf s.mem = true) :
    Out.Canon (execGstorm a t s) :=
  State.issue_canon h fun l => State.gaussWait_canon h
    (fun P hP => State.blockOk_canon (State.gaussOp_canon h hP)) fun _ u hu => by rw [hu, h]

@[simp] theorem execGaussEngineTake_canon {c : CoreId} {s : State} (h : Memory.wf s.mem = true) :
    Out.Canon (execGaussEngineTake c s) := by
  rw [execGaussEngineTake, Out.canon_next]
  split
  · exact h
  next o _ _ =>
  split
  · exact h
  have hx : (s.gaussKeys c o).Canon := State.gaussKeys_canon h
  split
  · simp [h]
  · next he => rw [he] at hx; simpa using hx
  · next he =>
    rw [he] at hx
    split
    · exact h
    · simpa using hx

@[simp] theorem execGaussEngineFinish_canon {c : CoreId} {s : State} (h : Memory.wf s.mem = true) :
    Out.Canon (execGaussEngineFinish c s) := by
  rw [execGaussEngineFinish, Out.canon_next]
  split
  · exact h
  split
  · exact h
  split
  · next he => simpa using State.gaussRun_wf h _ he
  · simp [h]

@[simp] theorem execGbpArrival_canon {p : Nat} {s : State} (h : Memory.wf s.mem = true) : Out.Canon (execGbpArrival p s) := by
  rw [execGbpArrival, Out.canon_next]
  split
  · exact h
  split
  · next c g _ _ =>
    extract_lets x o k ok d0 s1 reply t t1
    have hs1 : Memory.wf s1.mem = true := by simp [s1, h]
    have hreply (t : State) (v : Verdict) (ht : Memory.wf t.mem = true) : Memory.wf (reply t v).mem = true := by
      simp [reply, ht]
    split
    · simp [h]
    split
    · exact hreply _ _ (by simp [hs1])
    split
    · exact hreply _ _ hs1
    split
    · exact hreply _ _ hs1
    · have ht : Memory.wf t.mem = true :=
        wf_of_mem_eq (State.mapCore_mem _ _ _) (wr_memOk s1 k g.bytes hs1)
      clear_value t
      refine hreply _ _ (wf_of_mem_eq (State.mapCore_mem _ _ _) ?_)
      simp only [t1]
      split <;> simp [ht]
  · exact h

@[simp] theorem execGbpCreditArrival_canon {p : Nat} {s : State} (h : Memory.wf s.mem = true) :
    Out.Canon (execGbpCreditArrival p s) := by
  refine State.replyArrival_canon h fun c e b u hu t ht => ?_
  split at ht
  · cases ht; simp [hu]
  · cases ht

/-! ### The network -/

@[simp] theorem execPacketHeadGrant_canon {p : Nat} {s : State} (h : Memory.wf s.mem = true) :
    Out.Canon (execPacketHeadGrant p s) := by
  unfold execPacketHeadGrant
  repeat' split
  all_goals simp [h]

@[simp] theorem execStreamMarkerArrival_canon {p : Nat} {s : State} (h : Memory.wf s.mem = true) :
    Out.Canon (execStreamMarkerArrival p s) := by
  unfold execStreamMarkerArrival
  repeat' split
  all_goals simp [h]

/-! ### Reductions -/

@[simp] theorem execReductionPacketArrival_canon {p : Nat} {s : State} (h : Memory.wf s.mem = true) :
    Out.Canon (execReductionPacketArrival p s) := by
  unfold execReductionPacketArrival
  repeat' split
  all_goals simp [h]

@[simp] theorem execReductionResultArrival_canon {p : Nat} {s : State} (h : Memory.wf s.mem = true) :
    Out.Canon (execReductionResultArrival p s) := by
  rw [execReductionResultArrival]
  dsimp only
  rw [Out.canon_next]
  split
  · split
    · simp [h]
    · refine foldl_wf (fun t c ht => foldl_wf (fun u e hu => ?_) ht) (by simp [h])
      split <;> simp [hu]
  · split
    · simp [h]
    · split <;> simp [h]
  · exact h

@[simp] theorem execRjoin_canon {a : BitVec 5} {e : BitVec 6} {s : State} (h : Memory.wf s.mem = true) :
    Out.Canon (execRjoin a e s) := by
  refine State.onEp_canon h fun l => .ite trivial (.ite trivial ?_)
  refine Res.refuseIf_canon (Res.refuseIf_canon (Res.refuseIf_canon ?_))
  exact .ite h (by simp [h])

@[simp] theorem execRput_canon {a : BitVec 5} {e : BitVec 6} {s : State} (h : Memory.wf s.mem = true) :
    Out.Canon (execRput a e s) :=
  State.onEp_canon h fun _ => .bind <|
    State.mayUse_canon fun _ => Res.refuseIf_canon (State.putRed_canon h)

@[simp] theorem execRget_canon {d : BitVec 5} {a : BitVec 5} {e : BitVec 6} {s : State} (h : Memory.wf s.mem = true) :
    Out.Canon (execRget d a e s) := by
  refine State.onEp_canon h fun l => .bind <| State.mayUse_canon fun _ => ?_
  refine State.unheld_canon h (.ite h (State.unheld_canon h ?_))
  refine .bind (.ite ?_ (State.localUnits_canon h fun ks => ?_))
  all_goals exact State.fpDone_canon (by simp [h])

@[simp] theorem execRtopk_canon {a b : BitVec 5} {e : BitVec 6} {s : State} (h : Memory.wf s.mem = true) :
    Out.Canon (execRtopk a b e s) := by
  refine State.onEp_canon h fun l => .bind <| State.mayUse_canon fun _ => ?_
  refine Res.refuseIf_canon (.ite trivial ?_)
  refine .bind (State.accessAll_canon h fun ks => .ite trivial ?_)
  exact State.putRed_canon (by simp [h])

/-! ### The package -/

@[simp] theorem execLoadKeySlot_canon {slot : BitVec 7} {wrapped : List Byte} {s : State}
    (h : Memory.wf s.mem = true) :
    Out.Canon (execLoadKeySlot slot wrapped s) := by unfold execLoadKeySlot; split <;> simp [h]

@[simp] theorem execKeySlotUpdateArrival_canon {x : SlotCopy} {s : State} (h : Memory.wf s.mem = true) :
    Out.Canon (execKeySlotUpdateArrival x s) := by unfold execKeySlotUpdateArrival; split <;> simp [h]

@[simp] theorem execModuleReset_canon (s : State) : Out.Canon (execModuleReset s) := rfl

@[simp] theorem execBringUp_canon (s : State) : Out.Canon (execBringUp s) := by
  have hr : Memory.wf ({ s.afterReset with alog := 0 } : State).mem = true := rfl
  rw [execBringUp, Out.canon_next]
  split
  · split
    · rw [State.takeImage_mem]; exact hr
    · exact hr
  · exact hr

@[simp] theorem execHostChannelDoorbell_canon {ch : BitVec 10} {l : List HostEntry} {s : State}
    (h : Memory.wf s.mem = true) :
    Out.Canon (execHostChannelDoorbell ch l s) := by unfold execHostChannelDoorbell; split <;> simp [h]

@[simp] theorem execSecurityRingDoorbell_canon {cmd : SecCmd} {s : State} (h : Memory.wf s.mem = true) :
    Out.Canon (execSecurityRingDoorbell cmd s) := by unfold execSecurityRingDoorbell; split <;> simp [h]

@[simp] theorem execHostChannelMessage_canon {p : Nat} {s : State} (h : Memory.wf s.mem = true) :
    Out.Canon (execHostChannelMessage p s) := by
  simp only [execHostChannelMessage]
  repeat' split
  all_goals simp [h]

/-! ### Page walks -/

@[simp] theorem execTranslationWalkStart_canon {d : BitVec 2} {s : State} (h : Memory.wf s.mem = true) :
    Out.Canon (execTranslationWalkStart d s) := by
  simp only [execTranslationWalkStart]
  repeat' split
  all_goals simp [h]

@[simp] theorem execWalkTableReadReply_canon {d : BitVec 2} {n : Nat} {s : State} (h : Memory.wf s.mem = true) :
    Out.Canon (execWalkTableReadReply d n s) := by
  unfold execWalkTableReadReply
  repeat' split
  all_goals simp [h]

/-! ### Floes and tasks -/

@[simp] theorem execGang_canon {d : BitVec 5} {n : BitVec 2} {s : State} (h : Memory.wf s.mem = true) :
    Out.Canon (execGang d n s) :=
  State.issueJump_canon h fun _ => .ite trivial <| .ite (by simp [h]) <| .ite
    (foldl_wf (fun t m ht => by simpa using ht) (by simp [h]))
    (foldl_wf (fun t m ht => by simpa using ht) h)

end Sys2Proof.Machine
end

section
/-! SUPPORT. A step of the model: every instruction and event, an issue, a cycle of a core, an act of the agenda. -/

namespace Sys2Proof.Machine

/-- Every instruction and every event leaves memory canonical. -/
theorem exec_canon (i : Instr) (s : State) (h : Memory.wf s.mem = true) : Out.Canon (exec i s) := by
  cases i <;> dsimp only [exec]
  -- The meanings that are one use of a shared operation, by that operation.
  case ins | msghRead | stl | enter | leave | xset | xld | xget | pget | pput | cpwr | cprd | mfs | evpost | tmget |
      fcvt | sempost | semget | semset | fspost | fsget | fsset | fbar | tstat | spawn | qhandle | qstat | dqpush |
      dqpop | dqsteal | dqcount | ttask | gstat | gwait | gmab | smark | vdot | qget | qput | vins | vext |
      vcompress | vld | vst | vlds | vsts | vgather | vscatter | vldb =>
    exact State.issue_canon h fun _ => by simp [h]
  case add | sub | addw | subw | and | or | xor | andn | orn | xnor | seq | sne | slt | sltu | min | max | minu |
      maxu | addss | subss | addus | subus | sel | addsl | mul | mulw | mulh | mulhu | mulhsu | sll | srl | sra |
      rol | ror | extur | extsr | cMv | cAdd | cSub | cAnd | cOr | cXor => exact State.alu2_canon h
  case addi | andi | ori | xori | slti | sltiu | addhi | slli | srli | srai | rori | extu | exts | clz | ctz | popc |
      rev8 | brev | cAddi | cLi | cSlli | cSrai | cSrli | cAndi | cNop => exact State.alu1_canon h
  case vaddInt | vsubInt | vmulInt | vmulh | vminInt | vmaxInt | vminu | vmaxu | vaddss | vsubss | vaddus | vsubus |
      vand | vor | vxor | vandn | vsll | vsrl | vsra | vmla => exact State.vecI_canon h
  case fadd | fsub | fmul | fdiv | fsqrt | fmadd | fmsub | fnmadd | fnmsub | fround =>
    simp [execFadd, execFsub, execFmul, execFdiv, execFsqrt, execFmadd, execFmsub, execFnmadd, execFnmsub,
      execFround, h]
  case fmin | fmax | fminp | fmaxp | fclass | fsgnj | fsgnjn | fsgnjx => exact State.fpG_canon h
  case vaddFp | vsubFp | vmulFp | vdiv | vsqrt | vminFp | vmaxFp | vfmadd | vfmsub | vfnmadd | vsgnj | vsgnjn |
      vsgnjx | vcvti | vcvtf => exact State.vecF_canon h
  case amoadd | amofaddD | amofaddS | amomin | amomax | amominu | amomaxu | amoswap | amocas | amoand | amoor |
      amoxor => exact State.amo_canon h
  case loopi | xrootWrite | tlbinvWrite | dqbaseWrite | dqlimWrite | gmboxWrite | epownWrite | windowRegisterWrite |
      jdomWrite | qringWrite | driftWrite | tscWrite => exact State.finishJump_canon h (by simp [h])
  case ldB | ldH | ldW | ldD | ldBu | ldHu | ldWu | cLdD | cLdW | lda => exact State.loadG_canon h
  case ifence | semwait | fswait | yield | qand | qor | qxor | qandn => exact State.finish_canon h (by simp [h])
  case beq | bne | blt | bge | bltu | bgeu | cBeqz | cBnez => exact State.branch_canon h
  case messageArrival | creditPacketArrival | closePacketArrival | lossPacketArrival | boundArrival |
      redirectArrival | redirectAckArrival => exact State.arrival_canon h
  case pand | por | pxor | pandn | porn | pnot | pmov => exact State.predOp_canon h
  case stB | stH | stW | stD | cStD | cStW => exact State.storeG_canon h
  case fence | waitc | waitany | waitall | ffr | ffrClr => exact State.covering_canon h (by simp [h])
  case peq | pne | plt | pge | pltu | pgeu => exact State.cmpP_canon h
  case wrd | wwr | wamo | wpm | gstormSend | rcorr => exact State.onEp_canon h fun _ => by simp [h]
  case vperm | vzip | vziph | vslideup | vslidedn | vbcast => exact State.permute_canon h
  case msghLoad | wrcore | wrfloe | funion | qreset => exact State.issueIf_canon h fun _ => by simp [h]
  case div | divu | rem | remu => exact State.divide_canon h
  case feq | flt | fle | funord => exact State.fpP_canon h
  case start | startPc | stop | reap => exact State.supervise_canon h fun _ _ => by simp [h]
  case vcmpeqFp | vcmpltFp | vcmple | vcmpun => exact State.vecCmpF_canon h
  case jal | cJ | cJal => exact State.jumpBy_canon h
  case sbindG30 | sbindG31 | sbindOff => exact State.sbind_canon h
  case vredsumFp | vredminFp | vredmaxFp => exact State.vecRedF_canon h
  case vcmpeqInt | vcmpltInt | vcmpltu => exact State.vecCmpI_canon h
  case vredsumInt | vredminInt | vredmaxInt => exact State.vecRedI_canon h
  case send | select => exact State.sendOn_canon h
  case bpt | bpf => exact State.branchP_canon h
  case jalr | cJr => exact State.jumpReg_canon h
  case loop => exact State.issueJump_canon h fun _ => by simp [h]
  case windowReplyArrival | negativeAcknowledgement => exact State.windowReply_canon h
  case evstat | tmset => exact State.onlyC0_canon h (by simp [h])
  case waitchAny | waitchAll => exact State.waitch_canon h
  case gadd | gsub => exact State.gaussAdd_canon h
  case vselFp | vselInt => exact State.vecSel_canon h
  case insr => exact State.alu3_canon h
  -- The meanings that are a few operations of the state.
  case illegalInstruction | frec0Write | trap | brk | timerExpiry | fetchFillComplete | forfeitedTurn |
      retryTimeout | controlFrameInterval | portSilenceTimeout | resyncTimeout | fidWrite | flostWrite |
      frameDataError | queueMoveComplete | driftInterval | linkUncorrectableError | laneBlockedTimeout |
      reductionDeadline | interfaceTrainingLoss | forwardingLaneTimeout | walkerStateError | tamperDetector |
      voltageDetector | clockDetector | faultInjectionDetector | powerThermalTrip | loadConfigurationImage |
      invalidateKeySlot | attestationReport | launch | launchRingDoorbell | managementRegisterWrite |
      i3cDynamicAddressAssignment =>
    simp [execIllegalInstruction, execFrec0Write, execTrap, execBrk, execTimerExpiry, execFetchFillComplete,
      execForfeitedTurn, execRetryTimeout, execControlFrameInterval, execPortSilenceTimeout, execResyncTimeout,
      execFidWrite, execFlostWrite, execFrameDataError, execQueueMoveComplete, execDriftInterval,
      execLinkUncorrectableError, execLaneBlockedTimeout, execReductionDeadline, execInterfaceTrainingLoss,
      execForwardingLaneTimeout, execWalkerStateError, execTamperDetector, execVoltageDetector, execClockDetector,
      execFaultInjectionDetector, execPowerThermalTrip, execLoadConfigurationImage, execInvalidateKeySlot,
      execAttestationReport, execLaunch, execLaunchRingDoorbell, execManagementRegisterWrite,
      execI3cDynamicAddressAssignment, h]
  -- The meanings with a lemma of their own, above.
  all_goals simp [h]

theorem State.execWord_canon {s : State} {w : BitVec 32} (h : Memory.wf s.mem = true) : Out.Canon (s.execWord w) := by
  unfold State.execWord
  split <;> exact exec_canon _ _ h

theorem State.issueOnce_canon {s : State} (h : Memory.wf s.mem = true) : Out.Canon s.issueOnce := by
  have hx := s.fetch_canon h
  unfold State.issueOnce
  split
  · exact State.execWord_canon h
  split
  · simp [h]
  split
  · simp [h]
  · next he => rw [he] at hx; simpa using hx
  · next w t he =>
    rw [he] at hx
    exact State.aliasFirst_canon hx (State.execWord_canon hx)

theorem State.issueGang_canon {g : Gang} {k : CtxId} {l : List CoreId} {s : State} {w : BitVec 32}
    (h : Memory.wf s.mem = true) : Out.Canon (s.issueGang g k w l) := by
  induction l generalizing s w with
  | nil => simp [State.issueGang, h]
  | cons c l ih =>
    rw [State.issueGang]
    have hs : Memory.wf (if w = 0 then s else s.handWord c k w).mem = true := by split <;> simp [h]
    have hx : Out.Canon (((if w = 0 then s else s.handWord c k w).setCursor c k).markTurn k).issueOnce :=
      State.issueOnce_canon (by simpa using hs)
    split
    · next t he =>
      rw [he] at hx
      have ht : Memory.wf t.mem = true := hx
      split
      · simp [ht]
      · exact ih ht
    · exact hx

theorem State.issueCtx_canon {s : State} {k : CtxId} (h : Memory.wf s.mem = true) : Out.Canon (s.issueCtx k) := by
  unfold State.issueCtx
  split
  · exact State.issueOnce_canon (by simp [h])
  · exact State.issueGang_canon h

/-- What `Out.Canon` says, as an implication: for an outcome that is costly to evaluate, such as a cycle's. -/
theorem Out.canon_iff (r : Out) : r.Canon ↔ ∀ t, r = .next t → Memory.wf t.mem = true := by
  cases r <;> simp [Out.Canon]

theorem State.cycleCore_wf {s : State} (h : Memory.wf s.mem = true) :
    ∀ t, s.cycleCore = .next t → Memory.wf t.mem = true := by
  rw [← Out.canon_iff]
  unfold State.cycleCore
  extract_lets s1
  have hs1 : Memory.wf s1.mem = true := State.wakeAll_wf (by simp [h])
  clear_value s1
  split
  · simpa using hs1
  split
  next s2 pick hc =>
  have hs2 : Memory.wf s2.mem = true := by rw [← s1.choose_mem, hc] at hs1; exact hs1
  extract_lets r
  have hr : Out.Canon r := by
    simp only [r]
    split
    · exact hs2
    · exact State.issueCtx_canon hs2
  clear_value r
  split
  · exact wf_of_mem_eq (State.tick_mem _) hr
  · exact hr

theorem State.act_canon {s : State} {a : Act} (h : Memory.wf s.mem = true) : Out.Canon (s.act a) := by
  cases a with
  | event e =>
    rw [State.act]
    split
    · exact exec_canon _ _ h
    · exact h
  | cycle c =>
    rw [State.act, Out.canon_iff]
    exact State.cycleCore_wf (s := { s with cur := { s.cur with core := c } }) h
  | failureEnd => exact h
  | imageWritten => exact h
  | frameCorrected c => exact h
  | spillAccess c => exact State.spillAccess_wf h
  | drift f => exact State.driftOn_wf h
  | linkCorrected f => exact wf_of_mem_eq (s.linkCorrected_mem f) h
  | flit p i => exact wf_of_mem_eq (s.flit_mem p i) h
  | hostClose n => exact wf_of_mem_eq (s.hostClose_mem n.toNat) h
  | ringWrite n v => exact h
  | registerRead via n => exact wf_of_mem_eq (s.readRegister_mem via n) h

theorem State.actFailed_canon {s : State} {a : Act} (h : Memory.wf s.mem = true) : Out.Canon (s.actFailed a) := by
  have hx : Out.Canon (s.act a) := State.act_canon h
  unfold State.actFailed
  split
  · exact hx
  split
  · simp [h]
  · split <;> simp [h]
  split
  · exact h
  split
  · simp [h]
  · exact hx

theorem step_canon {s : State} (h : Memory.wf s.mem = true) : Out.Canon (step s) := by
  unfold step
  split
  · next l _ =>
    split
    · exact State.actFailed_canon (s := { s with agenda := l }) h
    · exact State.act_canon (s := { s with agenda := l }) h
  · split
    · simp [h]
    · rw [Out.canon_iff]; exact s.cycleCore_wf h

/-- Settles O58: an act, an event or an issue changes memory only through `State.wr` or a reset, and each operation on the
way keeps the canonical form. -/
theorem memoryStaysCanonical : Obligations.MemoryStaysCanonical := by
  intro s t h e
  have hx := step_canon h
  rwa [e] at hx

end Sys2Proof.Machine
end

section
/-! SUPPORT. Register operands (R13, R15, R220): what the check of names answers, and the values it delivers. -/

namespace Sys2Proof.Machine

/-- No source that a bound g30 stands for is among plain names, so no word is waited for or taken. -/
theorem State.plain.popCount {s : State} {src : List Reg} (h : s.plain src) : popCount (s.aliasOf 1) src = 0 := by
  unfold Machine.popCount
  split
  · next hb =>
    rw [List.length_eq_zero_iff, List.filter_eq_nil_iff]
    intro r hr h30
    rw [(h r hr).2.1 (by simpa using h30)] at hb
    simp at hb
  · rfl

theorem State.plain.srcOk {s : State} {src : List Reg} (h : s.plain src) : src.all s.srcOk = true := by
  rw [List.all_eq_true]
  intro r hr
  obtain ⟨hcap, -, h31⟩ := h r hr
  simpa [State.srcOk, hcap] using imp_iff_not_or.1 h31

theorem State.plain.dstOk {s : State} {dst : List Reg} (h : s.plain dst) : dst.all s.dstOk = true := by
  rw [List.all_eq_true]
  intro r hr
  obtain ⟨hcap, h30, -⟩ := h r hr
  simpa [State.dstOk, hcap] using imp_iff_not_or.1 h30

theorem State.plain.noSend {s : State} {dst : List Reg} (h : s.plain dst) :
    (if dst.contains 31 then s.aliasOf 2 else none) = none := by
  split
  · next hc => exact (h 31 (by simpa using hc)).2.2 rfl
  · rfl

theorem vecOk_of_lt {s : State} {vec : List Reg} (h : ∀ r ∈ vec, r.toNat < vcapOf s.me.part) :
    vec.all s.vecOk = true := by simpa [State.vecOk] using h

/-- Sources that name no bound g30 deliver their registers (R13). -/
theorem State.sources_eq_map {s : State} {e : Option EpId} {src : List Reg} {n : Nat}
    (h : ∀ r ∈ src, r = 30 → e = none) : s.sources e src n = src.map s.ctx.rg := by
  induction src with
  | nil => rfl
  | cons r l ih =>
    have hr : (if r = 30 then e else none) = none := by
      split
      · next h30 => exact h r (by simp) h30
      · rfl
    rw [State.sources, hr]
    simp [ih fun r' hr' => h r' (by simp [hr'])]

/-- Legal names none of which is a bound stream name are read at once. -/
theorem State.operands_of_unbound {s : State} {src dst vec : List Reg} (hl : s.legalNames src dst vec = true)
    (hn : popCount (s.aliasOf 1) src = 0) (ht : (if dst.contains 31 then s.aliasOf 2 else none) = none) :
    s.operands src dst vec = .ok (s.sources (s.aliasOf 1) src 0) := by
  unfold State.operands
  dsimp only
  rw [hl, hn, ht]
  cases s.aliasOf 1 <;> simp

/-- Plain names deliver their registers. -/
theorem State.operands_plain {s : State} {src dst vec : List Reg} (hs : s.plain src) (hd : s.plain dst)
    (hv : ∀ r ∈ vec, r.toNat < vcapOf s.me.part) : s.operands src dst vec = .ok (src.map s.ctx.rg) := by
  have hl : s.legalNames src dst vec = true := by
    simp only [State.legalNames, hs.srcOk, hd.dstOk, vecOk_of_lt hv, Bool.and_self]
  rw [State.operands_of_unbound hl hs.popCount hd.noSend, State.sources_eq_map fun r hr => (hs r hr).2.1]

/-- A name that is illegal makes the operand check trap, before anything is waited for. -/
theorem State.operands_of_illegal {s : State} {src dst vec : List Reg} (h : s.legalNames src dst vec = false) :
    s.operands src dst vec = .trap illOpnd := by
  simp [State.operands, h]

/-- What `operands` answers with a list says of the names: they were legal. -/
theorem State.legalNames_of_operands {s : State} {src dst vec : List Reg} {l : List W}
    (h : s.operands src dst vec = .ok l) : s.legalNames src dst vec = true := by
  by_contra hl
  rw [State.operands_of_illegal (by simpa using hl)] at h
  cases h

/-- What `operands` answers with a list says of the list: it holds the sources, word by word. -/
theorem State.eq_sources_of_operands {s : State} {src dst vec : List Reg} {l : List W}
    (h : s.operands src dst vec = .ok l) : l = s.sources (s.aliasOf 1) src 0 := by
  unfold State.operands at h
  dsimp only at h
  repeat' split at h
  all_goals cases h
  all_goals rfl

theorem State.srcOk_eq_false {s : State} {r : Reg}
    (h : gcapOf s.me.part ≤ r.toNat ∧ ¬ (r = 30 ∧ (s.aliasOf 1).isSome) ∨ r = 31 ∧ (s.aliasOf 2).isSome) :
    s.srcOk r = false := by
  rcases h with ⟨hcap, hb⟩ | ⟨rfl, hb⟩
  · simp [State.srcOk, Nat.not_lt.2 hcap]
    exact fun _ => by simpa using hb
  · exact if_pos (by simpa using hb)

theorem State.dstOk_eq_false {s : State} {r : Reg}
    (h : gcapOf s.me.part ≤ r.toNat ∧ ¬ (r = 31 ∧ (s.aliasOf 2).isSome) ∨ r = 30 ∧ (s.aliasOf 1).isSome) :
    s.dstOk r = false := by
  rcases h with ⟨hcap, hb⟩ | ⟨rfl, hb⟩
  · simp [State.dstOk, Nat.not_lt.2 hcap]
    exact fun _ => by simpa using hb
  · exact if_pos (by simpa using hb)

/-- One illegal name is enough. -/
theorem State.legalNames_eq_false {s : State} {src dst vec : List Reg}
    (h : (∃ r ∈ src, s.srcOk r = false) ∨ (∃ r ∈ dst, s.dstOk r = false) ∨ ∃ r ∈ vec, s.vecOk r = false) :
    s.legalNames src dst vec = false := by
  simp only [State.legalNames, Bool.and_eq_false_iff, List.all_eq_false]
  simpa [or_assoc] using h

/-- Settles O1: plain names are all legal and none pops or sends; each of the other names fails its own check. -/
theorem registerOperands : Obligations.RegisterOperands := by
  unfold Obligations.RegisterOperands
  refine ⟨fun s src dst vec hs hd hv => State.operands_plain hs hd hv, fun s src dst vec h => ?_⟩
  have hl : s.legalNames src dst vec = false := by
    refine State.legalNames_eq_false ?_
    rcases h with ⟨r, hr, h⟩ | ⟨hr, h⟩ | ⟨r, hr, h⟩ | ⟨hr, h⟩ | ⟨r, hr, h⟩
    · exact .inl ⟨r, hr, State.srcOk_eq_false (.inl h)⟩
    · exact .inl ⟨31, hr, State.srcOk_eq_false (.inr ⟨rfl, h⟩)⟩
    · exact .inr (.inl ⟨r, hr, State.dstOk_eq_false (.inl h)⟩)
    · exact .inr (.inl ⟨30, hr, State.dstOk_eq_false (.inr ⟨rfl, h⟩)⟩)
    · exact .inr (.inr ⟨r, hr, by simpa [State.vecOk] using h⟩)
  have ht := State.operands_of_illegal hl
  refine ⟨ht, ?_⟩
  rintro d a b rfl rfl rfl
  exact State.issue_illegal ht

end Sys2Proof.Machine
end

section
/-! SUPPORT. Completion (R31, R103, R107): the loop-end action level by level, and what a completion leaves. -/

namespace Sys2Proof.Machine

theorem State.mapCtxAt_ctxAt_other (s : State) (c c' : CoreId) (k k' : CtxId) (f : Ctx → Ctx)
    (h : ¬ (c' = c ∧ k' = k)) : (s.mapCtxAt c k f).ctxAt c' k' = s.ctxAt c' k' := by
  unfold State.ctxAt
  by_cases hc : c' = c
  · subst hc
    rw [State.mapCtxAt_core, Core.mapCtx_ctx_other _ _ _ _ fun e => h ⟨rfl, e.symm⟩]
  · rw [State.mapCtxAt_core_other _ _ _ _ _ (Ne.symm hc)]

/-- What level n does at the end of an instruction at `a`: the context, where it goes on, and whether that is settled. -/
def Ctx.atLevel (a : W) (st : Ctx × W × Bool) (n : Fin 3) : Ctx × W × Bool :=
  let (c, nx, stop) := st
  if stop then st
  else if c.lc[n] != 0 && c.le[n] == a then
    if c.lc[n].toNat > 1 then ({ c with lc := c.lc.set n (c.lc[n] - 1) }, c.lb[n], true)
    else ({ c with lc := c.lc.set n 0 }, nx, false)
  else st

/-- The loop-end action tries the levels from the innermost out. -/
theorem Ctx.loopNext_eq (c : Ctx) (a : W) (len : Nat) :
    c.loopNext a len =
      (fun st : Ctx × W × Bool => (st.1, st.2.1))
        (Ctx.atLevel a (Ctx.atLevel a (Ctx.atLevel a (c, a + BitVec.ofNat 64 len, false) 0) 1) 2) := (rfl)

/-- The count of level n set. -/
def Ctx.setLc (c : Ctx) (n : Fin 3) (v : BitVec 32) : Ctx := { c with lc := c.lc.set n v }

@[simp] theorem Ctx.setLc_lc_of_ne {c : Ctx} {n : Fin 3} {m : Nat} {v : BitVec 32} (hm : m < 3) (h : n.val ≠ m) :
    (c.setLc n v).lc[m] = c.lc[m] :=
  Vector.getElem_set_ne n.isLt hm h

@[simp] theorem Ctx.setLc_le (c : Ctx) (n : Fin 3) (v : BitVec 32) : (c.setLc n v).le = c.le := (rfl)
@[simp] theorem Ctx.setLc_lb (c : Ctx) (n : Fin 3) (v : BitVec 32) : (c.setLc n v).lb = c.lb := (rfl)

section
variable {c : Ctx} {a nx : W} {n : Fin 3} {v : BitVec 32}

@[simp] theorem Ctx.atLevel_settled : Ctx.atLevel a (c, nx, true) n = (c, nx, true) := (rfl)

/-- A level that is not active, or ends elsewhere, is passed over. -/
theorem Ctx.atLevel_passed (h : ¬ (c.lc[n] ≠ 0 ∧ c.le[n] = a)) : Ctx.atLevel a (c, nx, false) n = (c, nx, false) := by
  have : (c.lc[n] != 0 && c.le[n] == a) = false := by simpa using h
  simp only [Ctx.atLevel, this]
  rfl

/-- With passes left, the context goes back to the start of the body. -/
theorem Ctx.atLevel_again (h : c.lc[n] ≠ 0 ∧ c.le[n] = a) (hv : c.lc[n] = v) (h1 : 1 < v.toNat) :
    Ctx.atLevel a (c, nx, false) n = (c.setLc n (v - 1), c.lb[n], true) := by
  have : (c.lc[n] != 0 && c.le[n] == a) = true := by simpa using h
  subst hv
  simp only [Ctx.atLevel, this, if_pos h1]
  rfl

/-- The last pass ends the level, and the next one out is tried. -/
theorem Ctx.atLevel_last (h : c.lc[n] ≠ 0 ∧ c.le[n] = a) (h1 : c.lc[n] = 1) :
    Ctx.atLevel a (c, nx, false) n = (c.setLc n 0, nx, false) := by
  have : (c.lc[n] != 0 && c.le[n] == a) = true := by simpa using h
  have hn : ¬ c.lc[n].toNat > 1 := by rw [h1]; decide
  simp only [Ctx.atLevel, this, if_neg hn]
  rfl

end

/-- Where no active level ends, the context goes on in sequence. -/
theorem Ctx.loopNext_of_none {c : Ctx} {a : W} (len : Nat) (h : ∀ n : Fin 3, c.lc[n] = 0 ∨ c.le[n] ≠ a) :
    c.loopNext a len = (c, a + BitVec.ofNat 64 len) := by
  have hp : ∀ n : Fin 3, ¬ (c.lc[n] ≠ 0 ∧ c.le[n] = a) := fun n ⟨hc, he⟩ => (h n).elim hc fun hne => hne he
  rw [Ctx.loopNext_eq, Ctx.atLevel_passed (hp 0), Ctx.atLevel_passed (hp 1), Ctx.atLevel_passed (hp 2)]

/-- The context after an instruction of `len` bytes, in sequence and away from a loop end. -/
def Ctx.inSequence (c : Ctx) (len : Nat) : Ctx :=
  { c.settle with pc := (c.pc + BitVec.ofNat 64 len) &&& 0xFFFFFFFFFFFFFFFE, life := .runnable }

/-- No active level ends at the PC. -/
def Ctx.offLoopEnd (c : Ctx) : Prop := ∀ n : Fin 3, c.lc[n] = 0 ∨ c.le[n] ≠ c.pc

theorem Ctx.advance_of_offLoopEnd {c : Ctx} (len : Nat) (h : c.offLoopEnd) : c.advance len = c.inSequence len := by
  simp only [Ctx.advance, Ctx.loopNext_of_none len h]
  rfl

theorem Ctx.honour_of_not_held {c : Ctx} (now : Nat) (h : c.heldStop = false) : c.honour now = c := by
  simp [Ctx.honour, h]

theorem Ctx.honour_of_held {c : Ctx} (now : Nat) (h : c.heldStop = true) : c.honour now = c.stop now := by
  simp [Ctx.honour, h]

@[simp] theorem State.complete_cur (s : State) (len : Nat) : (s.complete len).cur = s.cur := (rfl)

theorem State.complete_ctx (s : State) (len : Nat) : (s.complete len).ctx = (s.ctx.advance len).honour s.me.cycle :=
  s.mapCtx_ctx _

theorem State.completeTo_ctx (s : State) (t : W) : (s.completeTo t).ctx = (s.ctx.goto t).honour s.me.cycle :=
  s.mapCtx_ctx _

section
variable {s : State}

/-- Completion in sequence, away from a loop end. -/
theorem State.complete_ctx_of_offLoopEnd (len : Nat) (h : s.ctx.offLoopEnd) (hs : s.ctx.heldStop = false) :
    (s.complete len).ctx = s.ctx.inSequence len := by
  rw [State.complete_ctx, Ctx.advance_of_offLoopEnd len h]
  exact Ctx.honour_of_not_held _ hs

/-- A STOP held pending takes effect there (R31). -/
theorem State.complete_ctx_of_heldStop (len : Nat) (h : s.ctx.offLoopEnd) (hs : s.ctx.heldStop = true) :
    (s.complete len).ctx = (s.ctx.inSequence len).stop s.me.cycle := by
  rw [State.complete_ctx, Ctx.advance_of_offLoopEnd len h]
  exact Ctx.honour_of_held _ hs

theorem State.complete_ctxAt_other (len : Nat) {c : CoreId} {k : CtxId} (h : ¬ (c = s.cur.core ∧ k = s.cur.ctx)) :
    (s.complete len).ctxAt c k = s.ctxAt c k := s.mapCtxAt_ctxAt_other _ _ _ _ _ h

end

/-- Settles O9: the levels are tried from the innermost, each by one of the three rules of `Ctx.atLevel`. -/
theorem loopEndAndCompletion : Obligations.LoopEndAndCompletion := by
  unfold Obligations.LoopEndAndCompletion
  refine ⟨fun c a len => ?_, fun s len h => ?_⟩
  · simp only [Ctx.loopNext_eq]
    refine ⟨fun h0 h1 h2 => ?_, fun h0 n0 => ?_, fun h0 h1 n1 => ?_, fun h0 h1 h2 n2 => ?_, fun h0 e0 h1 h2 => ?_,
      fun h0 e0 h1 n1 => ?_, fun h0 e0 h1 e1 h2 e2 => ?_, fun h0 e0 h1 e1 h2 n2 => ?_, fun h0 e0 h1 e1 h2 => ?_,
      fun h0 e0 h1 h2 n2 => ?_, fun h0 e0 h1 h2 e2 => ?_, fun h0 h1 e1 h2 => ?_, fun h0 h1 e1 h2 n2 => ?_,
      fun h0 h1 e1 h2 e2 => ?_, fun h0 h1 h2 e2 => ?_⟩
    · rw [Ctx.atLevel_passed h0, Ctx.atLevel_passed h1, Ctx.atLevel_passed h2]
    · rw [Ctx.atLevel_again h0 rfl n0]; rfl
    · rw [Ctx.atLevel_passed h0, Ctx.atLevel_again h1 rfl n1]; rfl
    · rw [Ctx.atLevel_passed h0, Ctx.atLevel_passed h1, Ctx.atLevel_again h2 rfl n2]; rfl
    · rw [Ctx.atLevel_last h0 e0, Ctx.atLevel_passed (by simpa using h1), Ctx.atLevel_passed (by simpa using h2)]; rfl
    · rw [Ctx.atLevel_last h0 e0, Ctx.atLevel_again (by simpa using h1) (by simp) n1]; rfl
    · rw [Ctx.atLevel_last h0 e0, Ctx.atLevel_last (by simpa using h1) (by simpa using e1),
        Ctx.atLevel_last (by simpa using h2) (by simpa using e2)]; rfl
    · rw [Ctx.atLevel_last h0 e0, Ctx.atLevel_last (by simpa using h1) (by simpa using e1),
        Ctx.atLevel_again (by simpa using h2) (by simp) n2]; rfl
    · rw [Ctx.atLevel_last h0 e0, Ctx.atLevel_last (by simpa using h1) (by simpa using e1),
        Ctx.atLevel_passed (by simpa using h2)]; rfl
    · rw [Ctx.atLevel_last h0 e0, Ctx.atLevel_passed (by simpa using h1),
        Ctx.atLevel_again (by simpa using h2) (by simp) n2]; rfl
    · rw [Ctx.atLevel_last h0 e0, Ctx.atLevel_passed (by simpa using h1),
        Ctx.atLevel_last (by simpa using h2) (by simpa using e2)]; rfl
    · rw [Ctx.atLevel_passed h0, Ctx.atLevel_last h1 e1, Ctx.atLevel_passed (by simpa using h2)]; rfl
    · rw [Ctx.atLevel_passed h0, Ctx.atLevel_last h1 e1, Ctx.atLevel_again (by simpa using h2) (by simp) n2]; rfl
    · rw [Ctx.atLevel_passed h0, Ctx.atLevel_last h1 e1, Ctx.atLevel_last (by simpa using h2) (by simpa using e2)]; rfl
    · rw [Ctx.atLevel_passed h0, Ctx.atLevel_passed h1, Ctx.atLevel_last h2 e2]; rfl
  · cases hs : s.ctx.heldStop with
    | false =>
      have ht := State.complete_ctx_of_offLoopEnd len h hs
      dsimp only
      rw [ht]
      exact ⟨fun _ => rfl, fun e => absurd e Bool.false_ne_true, rfl, rfl, rfl, rfl, rfl, rfl, rfl, rfl,
        fun c k => State.complete_ctxAt_other len⟩
    | true =>
      have ht := State.complete_ctx_of_heldStop len h hs
      dsimp only
      rw [ht]
      exact ⟨fun e => absurd e.symm Bool.false_ne_true, fun _ => ⟨rfl, rfl⟩, rfl, rfl, rfl, rfl, rfl, rfl, rfl, rfl,
        fun c k => State.complete_ctxAt_other len⟩

end Sys2Proof.Machine
end

section
/-! SUPPORT. The module after reset (R420, R427): what its tables answer where they list nothing. -/

namespace Sys2Proof.Machine

theorem init_rg (r : Reg) : Ctx.init.rg r = 0 := by
  unfold Ctx.rg
  split
  · rfl
  · exact Vector.getElem_replicate _

/-- No key slot is valid. -/
theorem reset_keyValid (n : Nat) : State.reset.keyValid n = 0 := by
  have h : State.reset.keyValid 0 = 0 := by decide
  exact h

/-- Settles O59: a table that lists nothing answers its default, the reset value of each register. -/
theorem resetState : Obligations.ResetState := by
  unfold Obligations.ResetState
  refine ⟨rfl, rfl, rfl, rfl, rfl, rfl, rfl, rfl, rfl, rfl, reset_keyValid 0, reset_keyValid 64, fun c => ?_, fun f => ?_⟩
  · refine ⟨rfl, rfl, rfl, rfl, rfl, rfl, rfl, rfl, rfl, rfl, rfl, rfl, rfl, rfl, rfl,
      fun n => Vector.getElem_replicate n.isLt, fun n => Vector.getElem_ofFn n.isLt, fun _ => ⟨rfl, rfl, rfl⟩,
      fun _ => ⟨rfl, rfl, init_rg, fun n => Vector.getElem_replicate n.isLt, rfl,
        fun n => Vector.getElem_replicate n.isLt, fun n => Vector.getElem_replicate n.isLt, ?_, ?_⟩⟩
    · exact fun n => ⟨Vector.getElem_replicate n.isLt, Vector.getElem_replicate n.isLt, Vector.getElem_replicate n.isLt⟩
    · exact ⟨rfl, rfl, rfl, rfl, rfl, rfl, rfl, rfl, rfl⟩
  · refine ⟨rfl, rfl, rfl, rfl, rfl, rfl, rfl, rfl, fun n => ⟨Vector.getElem_replicate n.isLt, ?_⟩,
      fun n => Vector.getElem_replicate n.isLt⟩
    have hq : Floe.init.queues[n] = {} := Vector.getElem_replicate n.isLt
    exact ⟨congrArg Queue.bank hq, congrArg Queue.gen hq⟩

end Sys2Proof.Machine
end

section
/-! SUPPORT. Branches and jumps (R23, R77, R101 to R103). -/

namespace Sys2Proof.Machine

section
variable {s : State} {x y : W}

/-- A branch whose operands are read as x and y: taken when its condition holds of them. -/
theorem State.branch_ok {a b : Reg} {len : Nat} {off : W} {f : W → W → Bool} (h : s.operands [a, b] [] [] = .ok [x, y]) :
    s.branch len a b off f =
      .next ((if f x y then s.completeTo (s.ctx.pc + off) else s.complete len).takeWords [a, b]) :=
  State.issueJump_ok h rfl

theorem State.jumpBy_ok {d : Reg} {len : Nat} {off : W} (h : s.operands [] [d] [] = .ok []) :
    s.jumpBy len d off = .next (((s.setG d (s.ctx.pc + BitVec.ofNat 64 len)).completeTo (s.ctx.pc + off)).takeWords []) :=
  State.issueJump_ok h rfl

theorem State.jumpReg_ok {d a : Reg} {len : Nat} {off : W} (h : s.operands [a] [d] [] = .ok [x]) :
    s.jumpReg len d a off = .next (((s.setG d (s.ctx.pc + BitVec.ofNat 64 len)).completeTo (x + off)).takeWords [a]) :=
  State.issueJump_ok h rfl

/-- The second operand of a compact branch, g0, reads 0 (R13). -/
theorem State.operand_g0 {a : Reg} (h : s.operands [a, 0] [] [] = .ok [x, y]) : y = 0 := by
  have hs := State.eq_sources_of_operands h
  simp only [State.sources] at hs
  split at hs <;> simp_all [Ctx.rg]

/-- What a jump leaves of its context (R23, R102). -/
theorem State.completeTo_ctx_of_not_held (t : W) (h : s.ctx.heldStop = false) : (s.completeTo t).ctx = s.ctx.goto t := by
  rw [State.completeTo_ctx]
  exact Ctx.honour_of_not_held _ h

end

/-- Settles O7: every branch is `State.branch`, every jump `State.jumpBy` or `State.jumpReg`. -/
theorem branchesAndJumps : Obligations.BranchesAndJumps := by
  unfold Obligations.BranchesAndJumps
  refine ⟨fun s a b p o oc x y => ⟨fun h => ?_, fun h => ?_, exec_bpt, exec_bpf.trans ?_⟩, fun s d a o oc i x => ?_⟩
  · have hb := fun f => State.branch_ok (len := 4) (off := offB o) (f := f) h
    exact ⟨exec_beq.trans (hb _), exec_bne.trans (hb _), exec_blt.trans (hb _), exec_bge.trans (hb _),
      exec_bltu.trans (hb _), exec_bgeu.trans (hb _)⟩
  · obtain rfl := State.operand_g0 h
    have hb := fun f => State.branch_ok (len := 2) (off := cImm oc * 2) (f := f) h
    exact ⟨exec_cBeqz.trans (hb _), exec_cBnez.trans (hb _)⟩
  · show Host.Outcome.next (if !s.ctx.p.getLsbD p.toNat then _ else _) = _
    cases s.ctx.p.getLsbD p.toNat <;> rfl
  · refine ⟨fun h => exec_jal.trans (State.jumpBy_ok h), fun h => exec_jalr.trans (State.jumpReg_ok h),
      fun h => exec_cJ.trans (State.jumpBy_ok h), fun h => exec_cJal.trans (State.jumpBy_ok h),
      fun h => exec_cJr.trans ?_, fun t hs => ?_, fun t ht hg => ?_⟩
    · have hj := State.jumpReg_ok (len := 2) (off := 0) h
      rwa [show x + 0 = x from BitVec.add_zero x] at hj
    · rw [State.completeTo_ctx_of_not_held t hs]
      exact ⟨rfl, rfl, rfl⟩
    · simp only [State.issueOnce, hg, ht]
      rfl

end Sys2Proof.Machine
end

section
/-! SUPPORT. System registers (R18, R144, Table 6.5): the words that the model places field by field, and what a read and
a write of a register answer. -/

namespace Sys2Proof.Machine

/-- A field of zeros is a mask. -/
theorem setField_zero_top (w : W) : setField w 63 1 0 = w &&& 0x7FFFFFFFFFFFFFFF := by
  apply BitVec.eq_of_toNat_eq
  have hw := w.isLt
  have ha := Nat.and_two_pow_sub_one_eq_mod w.toNat 63
  simp only [setField, BitVec.toNat_ofNat, BitVec.toNat_and]
  rw [show BitVec.toNat (0x7FFFFFFFFFFFFFFF : W) = 2 ^ 63 - 1 from rfl, ha]
  omega

theorem skipAct_word (skip act : Bool) :
    mkW [(b2n skip, 1), (b2n act, 0)] = BitVec.ofNat 64 ((if skip then 2 else 0) + if act then 1 else 0) := by
  cases skip <;> cases act <;> rfl

theorem locid_eq (c : CoreId) (k : CtxId) : locid c k = BitVec.ofNat 64 (c.toNat * 16 + k.toNat) := by
  simp [locid, mkW, place]

/-- Table 6.5: the registers that can be read, each with its value in a context. -/
def Ctx.sysRegs (c : Ctx) (loc cycles : W) : List (Nat × W) :=
  [(0x000, c.fst.zeroExtend 64), (0x001, (c.fst.extractLsb' 0 5).zeroExtend 64), (0x008, c.slim),
    (0x010, c.lc[0].zeroExtend 64), (0x011, c.lc[1].zeroExtend 64), (0x012, c.lc[2].zeroExtend 64),
    (0x014, c.lb[0]), (0x015, c.lb[1]), (0x016, c.lb[2]), (0x018, c.le[0]), (0x019, c.le[1]), (0x01A, c.le[2]),
    (0x020, c.tvec), (0x021, c.epc),
    (0x022, BitVec.ofNat 64 ((if c.skip then 2 else 0) + if c.act then 1 else 0)), (0x028, c.frec0),
    (0x029, c.frec1), (0x02A, c.frec2), (0x02B, c.frec3), (0x100, loc), (0x101, cycles)]

/-- Table 6.5: the registers that every write of a word reaches, each with the context after it. -/
def Ctx.sysWrites (c : Ctx) (x : W) : List (Nat × Ctx) :=
  let even_ := x &&& 0xFFFFFFFFFFFFFFFE
  [(0x001, { c with fst := c.fst.extractLsb' 5 8 ++ x.extractLsb' 0 5 }), (0x008, { c with slim := x }),
    (0x010, { c with lc := c.lc.set 0 (x.extractLsb' 0 32) }), (0x011, { c with lc := c.lc.set 1 (x.extractLsb' 0 32) }),
    (0x012, { c with lc := c.lc.set 2 (x.extractLsb' 0 32) }), (0x014, { c with lb := c.lb.set 0 even_ }),
    (0x015, { c with lb := c.lb.set 1 even_ }), (0x016, { c with lb := c.lb.set 2 even_ }),
    (0x018, { c with le := c.le.set 0 even_ }), (0x019, { c with le := c.le.set 1 even_ }),
    (0x01A, { c with le := c.le.set 2 even_ }), (0x020, { c with tvec := even_ }), (0x021, { c with epc := even_ }),
    (0x022, { c with skip := x.getLsbD 1, act := c.act && x.getLsbD 0 }),
    (0x028, if x.getLsbD 63 then c else { c with frec0 := c.frec0 &&& 0x7FFFFFFFFFFFFFFF })]

theorem Ctx.readSys_eq (c : Ctx) (loc cycles : W) : ∀ p ∈ c.sysRegs loc cycles, c.readSys p.1 loc cycles = p.2 := by
  have h5 : c.fst.truncate 5 = c.fst.extractLsb' 0 5 := BitVec.setWidth_eq_extractLsb' (by decide)
  simp only [Ctx.sysRegs, List.forall_mem_cons, ← h5]
  exact ⟨rfl, rfl, rfl, rfl, rfl, rfl, rfl, rfl, rfl, rfl, rfl, rfl, rfl, rfl, skipAct_word _ _, rfl, rfl, rfl, rfl, rfl, rfl,
    fun _ h => absurd h List.not_mem_nil⟩

theorem Ctx.writeSys_eq (c : Ctx) (x : W) : ∀ p ∈ c.sysWrites x, c.writeSys p.1 x = some p.2 := by
  have h5 : x.truncate 5 = x.extractLsb' 0 5 := BitVec.setWidth_eq_extractLsb' (by decide)
  have h32 : x.truncate 32 = x.extractLsb' 0 32 := BitVec.setWidth_eq_extractLsb' (by decide)
  simp only [Ctx.sysWrites, List.forall_mem_cons, ← h5, ← h32, ← setField_zero_top]
  exact ⟨rfl, rfl, rfl, rfl, rfl, rfl, rfl, rfl, rfl, rfl, rfl, rfl, rfl, rfl, rfl,
    fun _ h => absurd h List.not_mem_nil⟩

/-- A write of fst (R18). -/
theorem Ctx.writeFst_ok {c : Ctx} {x : W} (h : x.toNat / 32 % 8 < 5) :
    c.writeFst x = some { c with fst := x.extractLsb' 0 13 } := by
  have h13 : x.truncate 13 = x.extractLsb' 0 13 := BitVec.setWidth_eq_extractLsb' (by decide)
  rw [← h13]
  exact if_neg (Nat.not_le.2 h)

theorem Ctx.writeFst_refused {c : Ctx} {x : W} (h : 5 ≤ x.toNat / 32 % 8) : c.writeFst x = none := if_pos h

/-- The registers that no write reaches (Table 6.5). -/
theorem Ctx.writeSys_readOnly (c : Ctx) (x : W) : ∀ n ∈ [0x029, 0x02A, 0x02B, 0x100, 0x101], c.writeSys n x = none := by
  simp only [List.forall_mem_cons]
  exact ⟨rfl, rfl, rfl, rfl, rfl, fun _ h => absurd h List.not_mem_nil⟩

section
variable {s : State} {d a : Reg} {n : BitVec 12} {x : W}

theorem execMfs_ok (h : s.operands [] [d] [] = .ok []) {w : W}
    (hw : s.ctx.readSys n.toNat (locid s.cur.core s.cur.ctx) (BitVec.ofNat 64 s.me.cycle) = w) :
    execMfs d n s = .next (s.doneG 4 [] d w) := by
  subst hw
  exact State.issue_ok h rfl

theorem execMts_ok (h : s.operands [a] [] [] = .ok [x]) {c : Ctx} (hc : s.ctx.writeSys n.toNat x = some c) :
    execMts a n s = .next ((s.mapCtx fun _ => c).done 4 [a]) :=
  State.issue_ok h (by simp [nthD, hc])

theorem execMts_refused (h : s.operands [a] [] [] = .ok [x]) (hc : s.ctx.writeSys n.toNat x = none) :
    execMts a n s = .next (s.trap { cause := 0x02 }) :=
  State.issue_trap h (by simp [nthD, hc]; rfl)

end

/-- Settles O31: `readSys` and `writeSys` agree with Table 6.5 register by register. -/
theorem systemRegisters : Obligations.SystemRegisters := by
  unfold Obligations.SystemRegisters
  intro s d a x
  refine ⟨fun h => ?_, fun h => ⟨?_, fun hr => ?_, fun hr => ?_, ?_⟩, fun hr => ?_, fun hr => ?_, exec_frec0Write.trans ?_⟩
  · have hr := s.ctx.readSys_eq (locid s.cur.core s.cur.ctx) (BitVec.ofNat 64 s.me.cycle)
    rw [locid_eq] at hr
    intro p hp
    refine exec_mfs.trans (execMfs_ok h ?_)
    rw [locid_eq]
    exact hr _ (List.mem_map_of_mem (f := fun p : BitVec 12 × W => (p.1.toNat, p.2)) hp)
  · exact fun p hp => exec_mts.trans (execMts_ok h
      (s.ctx.writeSys_eq x _ (List.mem_map_of_mem (f := fun p : BitVec 12 × Ctx => (p.1.toNat, p.2)) hp)))
  · exact exec_mts.trans (execMts_ok h (Ctx.writeFst_ok hr))
  · exact exec_mts.trans (execMts_refused h (Ctx.writeFst_refused hr))
  · exact fun n hn => exec_mts.trans (execMts_refused h
      (s.ctx.writeSys_readOnly x _ (List.mem_map_of_mem (f := BitVec.toNat) hn)))
  · rw [exec_fstWrite, execFstWrite, Ctx.writeFst_ok hr]; rfl
  · rw [exec_fstWrite, execFstWrite, Ctx.writeFst_refused hr]; rfl
  · simp only [execFrec0Write, Ctx.writeFrec0, setField_zero_top]; rfl

end Sys2Proof.Machine
end

section
/-! SUPPORT. Frames of a load and of a store (R13, R139, R175): what a write of memory does to the cores that watch it, and what
an access that passes answers. -/

namespace Sys2Proof.Machine

/-! ### Tables -/

/-- A table whose entries are changed one by one, the default standing fast. -/
theorem Tab.look_map {α : Type} {f : Nat → α → α} {d : α} {k : Nat} (h : f k d = d) (t : Tab α) :
    Tab.look d (t.map fun e => (e.1, f e.1 e.2)) k = f k (Tab.look d t k) := by
  induction t with
  | nil => exact h.symm
  | cons e t ih =>
    by_cases hk : e.1 = k
    · subst hk; simp [Tab.look]
    · simpa [Tab.look, hk] using ih

/-! ### A write of memory, as the cores see it -/

/-- The context after its watch has seen a write that left the dword at each key as `val` says (R175). -/
def Ctx.watching (c : Ctx) (k n : Nat) (val : Nat → W) : Ctx :=
  { c with watch := c.watch.map fun w => w.seen k n (val w.key) }

theorem Watch.seen_eq (w : Watch) (k n : Nat) (v : W) :
    w.seen k n v =
      if w.got = none ∧ w.key < k + n ∧ k < w.key + 8 ∧ w.test v = true then { w with got := some v } else w := by
  simp only [Watch.seen, Bool.and_eq_true, Option.isNone_iff_eq_none, decide_eq_true_eq, and_assoc]

theorem poolOwner_poolKey (c : CoreId) {o : Nat} (h : o < 2 ^ 22) : poolOwner (poolKey c o) = some c := by
  have hk : ¬ poolKey c o < 2 ^ 40 := by unfold poolKey; omega
  have hc : (poolKey c o - 2 ^ 40) / 2 ^ 22 = c.toNat := by unfold poolKey; omega
  rw [poolOwner, if_neg hk, hc, BitVec.ofNat_toNat, BitVec.setWidth_eq]

/-- The watches of one core see a write; nothing else of it, and no other core, changes. -/
theorem State.wake_core (s : State) {k n : Nat} {c : CoreId} (h : poolOwner k = some c) (j : CoreId) :
    (s.wake k n).core j =
      if j = c then
        { s.core c with ctxs := (s.core c).ctxs.map fun (e : Nat × Ctx) => (e.1, e.2.watching k n s.rd8) }
      else s.core j := by
  let see := fun x : Core => { x with ctxs := x.ctxs.map fun (e : Nat × Ctx) => (e.1, e.2.watching k n s.rd8) }
  have hm : (s.wake k n).cores = s.cores.map fun (e : Nat × Core) => (e.1, if e.1 = c.toNat then see e.2 else e.2) := by
    simp only [State.wake, h]
    refine List.map_congr_left fun e _ => ?_
    split <;> rfl
  have hl := Tab.look_map (f := fun i x => if i = c.toNat then see x else x) (d := Core.init) (k := j.toNat)
    (by split <;> rfl) s.cores
  rw [State.core, hm, hl]
  by_cases hj : j = c
  · subst hj; simp [see, State.core]
  · have : j.toNat ≠ c.toNat := fun e => hj (BitVec.eq_of_toNat_eq e)
    simp [hj, this, State.core]

/-- What is not a core is left alone by the watches. -/
theorem State.wake_rest (s : State) (k n : Nat) : { s.wake k n with cores := s.cores } = s := by
  unfold State.wake
  split <;> rfl

/-- The dwords that memory holds once n low bytes of v have been written at k. -/
def State.after (s : State) (k n v : Nat) : Nat → W := (s.wrN k n v).rd8

section
variable {s : State} {k n v : Nat} {c : CoreId}

theorem State.wrN_core (h : poolOwner k = some c) (j : CoreId) :
    (s.wrN k n v).core j =
      if j = c then
        { s.core c with ctxs := (s.core c).ctxs.map fun (e : Nat × Ctx) => (e.1, e.2.watching k n (s.after k n v)) }
      else s.core j := by
  have hr : s.after k n v = ({ s with mem := memWrites s.mem k (leBytes n v) } : State).rd8 := by
    funext a
    simp only [State.after, State.rd8, State.rd, State.wrN, wr_mem]
  rw [hr, State.wrN, State.wr, State.wake_core _ h, length_leBytes]
  rfl

theorem State.wrN_ctx (h : poolOwner k = some c) (j : CtxId) :
    ((s.wrN k n v).core c).ctx j = ((s.core c).ctx j).watching k n (s.after k n v) := by
  rw [State.wrN_core h, if_pos rfl]
  exact Tab.look_map (f := fun _ x => Ctx.watching x k n (s.after k n v)) rfl _

/-- A write leaves what is neither memory nor a core. -/
theorem State.wrN_rest (hw : s.weak = []) :
    { s.wrN k n v with cores := [], mem := [], bad := [] } = { s with cores := [], mem := [], bad := [] } := by
  have h := State.wake_rest { s with
    mem := memWrites s.mem k (leBytes n v)
    bad := s.bad.filter fun d => !decide (k ≤ d ∧ d + 8 ≤ k + (leBytes n v).length)
    weak := s.weak.filter fun d => !decide (k ≤ d ∧ d + 8 ≤ k + (leBytes n v).length) } k (leBytes n v).length
  have h' := congrArg (fun t : State => ({ t with cores := [], mem := [], bad := [] } : State)) h
  simp only [hw, List.filter_nil] at h'
  rw [State.wrN, State.wr]
  simp only [hw, List.filter_nil]
  exact h'

end

/-! ### Accesses that pass -/

theorem Res.bind_eq_ok {α β : Type} {r : Res α} {f : α → Res β} {b : β} (h : r.bind f = .ok b) :
    ∃ a, r = .ok a ∧ f a = .ok b := by
  cases r with
  | ok a => exact ⟨a, rfl, h⟩
  | trap t => cases h
  | block w t => cases h

theorem State.pass_ok {s : State} {va : W} {k k' n : Nat} {need : Need} (h : s.pass va k n need = .ok k') : k' = k := by
  unfold State.pass at h
  grind

/-- An access that passes answers a key of the core's own pool (R136). -/
theorem State.access_ok {s : State} {va : W} {n align k : Nat} {need : Need} (h : s.access va n align need = .ok k) :
    ∃ o, o + n ≤ 0x300000 ∧ k = poolKey s.cur.core o := by
  obtain ⟨k', hr, hp⟩ := Res.bind_eq_ok h
  obtain rfl := State.pass_ok hp
  unfold State.reach at hr
  split at hr
  · cases hr
  obtain ⟨e, -, hh⟩ := Res.bind_eq_ok hr
  split at hh
  · cases hh
  split at hh
  · cases hh
  · next c o _ =>
    split at hh
    · next hc =>
      simp only [Bool.and_eq_true, beq_iff_eq, inPool, decide_eq_true_eq] at hc
      obtain ⟨rfl, -, ho⟩ := hc
      cases hh
      exact ⟨o, ho, rfl⟩
    · cases hh

theorem State.access_owner {s : State} {va : W} {n align k : Nat} {need : Need} (hn : 0 < n)
    (h : s.access va n align need = .ok k) : poolOwner k = some s.cur.core := by
  obtain ⟨o, ho, rfl⟩ := State.access_ok h
  exact poolOwner_poolKey _ (by omega)

/-! ### What a local access leaves -/

theorem State.takeWords_of_popCount {s : State} {src : List Reg} (h : popCount (s.aliasOf 1) src = 0) :
    s.takeWords src = s := by
  unfold State.takeWords
  cases ha : s.aliasOf 1 with
  | none => rfl
  | some e => rw [ha] at h; simp only [h]; rfl

/-- What the effect of a local access may have changed, from s to u: registers and the watch of the issuing context, watches
of its siblings, memory. -/
structure State.Accessed (s u : State) : Prop where
  ctx : ∃ g w, u.ctx = { s.ctx with g := g, watch := w }
  siblings : ∀ j : CtxId, j ≠ s.cur.ctx → { u.me.ctx j with watch := none } = { s.me.ctx j with watch := none }
  units : { u.me with ctxs := [] } = { s.me with ctxs := [] }
  cores : ∀ c : CoreId, c ≠ s.cur.core → u.core c = s.core c
  rest : { u with cores := [], mem := [], bad := [] } = { s with cores := [], mem := [], bad := [] }

section
variable {s u : State}

theorem State.Accessed.cur (h : s.Accessed u) : u.cur = s.cur := by
  have e := congrArg State.cur h.rest
  exact e

theorem State.Accessed.aliasOf (h : s.Accessed u) (n : BitVec 2) : u.aliasOf n = s.aliasOf n := by
  have he := congrArg Core.eps h.units
  change u.me.eps = s.me.eps at he
  simp only [State.aliasOf, he, h.cur]

/-- Plain sources take no words, whatever the access did. -/
theorem State.Accessed.takeWords (h : s.Accessed u) {src : List Reg} (hp : s.plain src) : u.takeWords src = u :=
  State.takeWords_of_popCount (by rw [h.aliasOf]; exact hp.popCount)

theorem State.Accessed.done (h : s.Accessed u) {src : List Reg} (hp : s.plain src) (len : Nat) :
    u.done len src = u.complete len := by
  rw [State.done, h.takeWords hp]

/-- The result of a load in a register. -/
theorem State.Accessed.wg (s : State) (d : Reg) (w : W) : s.Accessed (s.mapCtx fun c => c.wg d w) where
  ctx := by
    rw [State.mapCtx_ctx, Ctx.wg]
    split
    · exact ⟨_, _, rfl⟩
    · exact ⟨_, _, rfl⟩
  siblings j hj := by rw [State.mapCtx_me, Core.mapCtx_ctx_other _ _ _ _ hj.symm]
  units := by rw [State.mapCtx_me]; rfl
  cores c hc := State.mapCtxAt_core_other _ _ _ _ _ hc.symm
  rest := rfl

/-- A store. -/
theorem State.Accessed.wrN {k n : Nat} (v : Nat) (hk : poolOwner k = some s.cur.core) (hw : s.weak = []) :
    s.Accessed (s.wrN k n v) := by
  have hr := State.wrN_rest (k := k) (n := n) (v := v) hw
  have hcur := congrArg State.cur hr
  change (s.wrN k n v).cur = s.cur at hcur
  refine ⟨?_, fun j _ => ?_, ?_, fun c hc => ?_, hr⟩
  · rw [State.ctx, State.ctxAt, hcur, State.wrN_ctx hk]
    exact ⟨_, _, rfl⟩
  · rw [State.me, hcur, State.wrN_ctx hk]
    rfl
  · rw [State.me, hcur, State.wrN_core hk, if_pos rfl]
    rfl
  · rw [State.wrN_core hk, if_neg hc]

end

section
variable {s u : State}

theorem State.Accessed.ctx_eq (h : s.Accessed u) : ∃ w, u.ctx = { s.ctx with g := u.ctx.g, watch := w } := by
  obtain ⟨g, w, hc⟩ := h.ctx
  exact ⟨w, by rw [hc]⟩

/-- The context once the access has completed. -/
theorem State.Accessed.complete_ctx (h : s.Accessed u) (len : Nat) (hl : s.ctx.offLoopEnd) (hs : s.ctx.heldStop = false) :
    (u.complete len).ctx = { s.ctx.inSequence len with g := u.ctx.g } := by
  obtain ⟨w, hc⟩ := h.ctx_eq
  have hl' : u.ctx.offLoopEnd := by rw [hc]; exact hl
  rw [State.complete_ctx_of_offLoopEnd len hl' (by rw [hc]; exact hs)]
  rw [hc]
  rfl

theorem State.Accessed.complete_core (h : s.Accessed u) (len : Nat) {c : CoreId} (hc : c ≠ s.cur.core) :
    (u.complete len).core c = s.core c := by
  rw [← h.cores c hc]
  exact State.mapCtxAt_core_other _ _ _ _ _ (by rw [h.cur]; exact hc.symm)

theorem State.complete_me_ctx (u : State) (len : Nat) {j : CtxId} (hj : j ≠ u.cur.ctx) :
    (u.complete len).me.ctx j = u.me.ctx j := by
  rw [State.complete, State.mapCtx_me, Core.mapCtx_ctx_other _ _ _ _ hj.symm]

theorem State.complete_units (u : State) (len : Nat) : { (u.complete len).me with ctxs := [] } = { u.me with ctxs := [] } := by
  rw [State.complete, State.mapCtx_me]
  rfl

end

section
variable {s : State} {k : Nat}

theorem State.correct_of_weak_nil (hw : s.weak = []) (c : CoreId) (n : Nat) : s.correct c k n = s := by
  simp [State.correct, hw]

/-- The result of an instruction whose destination is a plain name goes to the register. -/
theorem State.setG_plain {d : Reg} (h : s.plain [d]) (w : W) : s.setG d w = s.mapCtx fun c => c.wg d w := by
  have hd : (if d = 31 then s.aliasOf 2 else none) = none := by
    split
    · next h31 => exact (h d (by simp)).2.2 h31
    · rfl
  rw [State.setG, hd]

theorem Ctx.wg_g_same (c : Ctx) {d : Reg} (h : d ≠ 0) (w : W) : (c.wg d w).g[d.toNat] = w := by
  rw [Ctx.wg, if_neg h]
  exact Vector.getElem_set_self _

theorem Ctx.wg_g_other (c : Ctx) {d : Reg} {j : Fin 32} (h : j.val ≠ d.toNat ∨ d = 0) (w : W) :
    (c.wg d w).g[j] = c.g[j] := by
  rw [Ctx.wg]
  split
  · rfl
  · next hd => exact Vector.getElem_set_ne d.isLt j.isLt (h.resolve_right hd).symm

/-- A load of 8 bytes that passes its checks, between plain registers and away from single-bit errors. -/
theorem execLdD_ok {d a : Reg} {o : BitVec 12} (hd : s.plain [d]) (ha : s.plain [a]) (hw : s.weak = [])
    (hk : s.access (s.ctx.rg a + offM o 8) 8 8 { r := true } = .ok k) :
    execLdD d a o s = .next ((s.mapCtx fun c => c.wg d (BitVec.ofNat 64 (s.rd k 8))).complete 4) := by
  refine (State.issue_ok (State.operands_plain ha hd (by simp))
    (t := s.mapCtx fun c => c.wg d (BitVec.ofNat 64 (s.rd k 8))) ?_).trans
    (congrArg _ ((State.Accessed.wg s d _).done ha 4))
  show (s.access (s.ctx.rg a + offM o 8) 8 8 { r := true }).bind _ = _
  rw [hk]
  show Res.ok ((s.correct s.cur.core k 8).setG d _) = _
  rw [State.correct_of_weak_nil hw, State.setG_plain hd]
  rfl

/-- A store of 8 bytes that passes its checks, between plain registers. -/
theorem execStD_ok {d a : Reg} {o : BitVec 12} (hp : s.plain [a, d]) (hw : s.weak = [])
    (hk : s.access (s.ctx.rg a + offM o 8) 8 8 { w := true } = .ok k) :
    execStD d a o s = .next ((s.wrN k 8 (s.ctx.rg d).toNat).complete 4) := by
  refine (State.issue_ok (State.operands_plain hp (by simp [State.plain]) (by simp)) (t := s.wrN k 8 (s.ctx.rg d).toNat)
    ?_).trans (congrArg _ ((State.Accessed.wrN _ (State.access_owner (by decide) hk) hw).done hp 4))
  show (s.access (s.ctx.rg a + offM o 8) 8 8 { w := true }).bind _ = _
  rw [hk]
  rfl

end

/-- Settles O15: a load writes one register and a store memory and the watches on it; completion then only moves the PC. -/
theorem loadAndStoreFrames : Obligations.LoadAndStoreFrames := by
  unfold Obligations.LoadAndStoreFrames
  intro s d a o x y k hmem hp hweak hs hl va same
  obtain ⟨hpd, hpa⟩ : s.plain [d] ∧ s.plain [a] := by simpa [State.plain, and_comm] using hp
  have hsame : ∀ u, s.Accessed u → same (u.complete 4) := by
    intro u h
    have hr := h.rest
    have hfl := congrArg State.floes hr
    have hnet := congrArg State.net hr
    have hkeys := congrArg State.keys hr
    dsimp only [same]
    rw [h.complete_ctx 4 hl hs]
    refine ⟨rfl, rfl, rfl, rfl, rfl, rfl, rfl, rfl, rfl, rfl, rfl, rfl, rfl, rfl, rfl, rfl, rfl, rfl, hfl, hnet, hkeys,
      fun c => h.complete_core 4, rfl, rfl, rfl, rfl, rfl, rfl, rfl, rfl,
      (State.complete_units u 4).trans h.units, hr, fun j hj => ?_⟩
    rw [State.complete_me_ctx u 4 (by rw [h.cur]; exact hj)]
    exact h.siblings j hj
  have hg : ∀ u, s.Accessed u → (u.complete 4).ctx.g = u.ctx.g := fun u h => by
    rw [h.complete_ctx 4 hl hs]
  refine ⟨fun hk => ?_, fun hk => ?_⟩
  · have hu := State.Accessed.wg s d (BitVec.ofNat 64 (s.rd k 8))
    refine ⟨_, exec_ldD.trans (execLdD_ok hpd hpa hweak hk), hsame _ hu, rfl, rfl, fun j hj => ?_, fun h0 => ?_, fun j hj => ?_⟩
    · rw [State.complete_me_ctx _ 4 (by exact hj), State.mapCtx_me, Core.mapCtx_ctx_other _ _ _ _ (Ne.symm hj)]
    · rw [hg _ hu, State.mapCtx_ctx]
      exact Ctx.wg_g_same _ h0 _
    · rw [hg _ hu, State.mapCtx_ctx]
      exact Ctx.wg_g_other _ hj _
  · have ho := State.access_owner (by decide) hk
    have hu := State.Accessed.wrN (n := 8) (s.ctx.rg d).toNat ho hweak
    have hval : ((s.wrN k 8 (s.ctx.rg d).toNat).complete 4).rd8 k = s.ctx.rg d := by
      show BitVec.ofNat 64 ((s.wrN k 8 _).rd k 8) = _
      rw [rd_wrN _ _ _ _ hmem, Nat.mod_eq_of_lt (s.ctx.rg d).isLt, BitVec.ofNat_toNat, BitVec.setWidth_eq]
    refine ⟨_, exec_stD.trans (execStD_ok hp hweak hk), hsame _ hu, ?_, hval, fun j hj => ?_, fun j hj => ?_⟩
    · rw [hg _ hu, State.ctx, State.ctxAt, hu.cur, State.wrN_ctx ho]
      exact rfl
    · rw [State.complete_me_ctx _ 4 (by rw [hu.cur]; exact hj), State.me, hu.cur, State.wrN_ctx ho]
      exact congrArg (Option.map · _) (funext fun w => w.seen_eq k 8 _)
    · refine (congrArg (memRead · j) (wr_mem s k _)).trans (memRead_memWrites_outside _ _ ?_)
      rwa [length_leBytes]

end Sys2Proof.Machine
end

section
/-! SUPPORT. Vector lanes (R14, R122): a vector register lane by lane, masks, and what an instruction that raises
floating-point exceptions on its active lanes does (R47, R111). -/

namespace Sys2Proof.Machine

/-! ### Lists over the lanes -/

@[simp] theorem nthD_map_range {α : Type} (z : α) (f : Nat → α) {n i : Nat} (h : i < n) :
    nthD z ((List.range n).map f) i = f i := by
  have getD (l : List α) (i : Nat) : nthD z l i = l.getD i z := by
    induction l generalizing i with
    | nil => rfl
    | cons a l ih => cases i with
      | zero => rfl
      | succ i => simpa [nthD] using ih i
  simp [getD, h]

theorem indexed_map_range {α : Type} (f : Nat → α) (n : Nat) :
    indexed ((List.range n).map f) = (List.range n).map fun i => (i, f i) := by
  simpa [indexed] using List.zip_map' (f := fun i : Nat => i) (g := f) (l := List.range n)

theorem lanesOf_eq (w : Nat) (x : V) : lanesOf w x = (List.range (1024 / w)).map (laneAt w x) := (rfl)

/-- The operands of lane i, register by register. -/
def State.row (s : State) (w : Nat) (src : List Reg) (i : Nat) : List Nat := src.map fun r => laneAt w (s.ctx.rv r) i

theorem rowsOf_lanesOf (s : State) (w : Nat) (src : List Reg) :
    rowsOf (src.map fun r => lanesOf w (s.ctx.rv r)) (1024 / w) = (List.range (1024 / w)).map (s.row w src) := by
  refine List.map_congr_left fun i hi => ?_
  rw [List.map_map]
  exact List.map_congr_left fun r _ => nthD_map_range 0 _ (List.mem_range.1 hi)

theorem mergeLanes_map_range (q : W) (w n : Nat) (f g : Nat → Nat) :
    mergeLanes q w ((List.range n).map f) ((List.range n).map g) =
      (List.range n).map fun i => if active q w i then g i else f i := by
  rw [mergeLanes, List.zip_map', indexed_map_range, List.map_map]
  rfl

/-! ### Lanes put together -/

theorem laneAt_lt (w : Nat) (x : V) (i : Nat) : laneAt w x i < 2 ^ w := Nat.mod_lt _ (Nat.two_pow_pos w)

@[simp] theorem laneAt_mod (w : Nat) (x : V) (i : Nat) : laneAt w x i % 2 ^ w = laneAt w x i :=
  Nat.mod_eq_of_lt (laneAt_lt w x i)

/-- Digit j of a number written with the digits of l. -/
theorem digit_foldr (w : Nat) (l : List Nat) (j : Nat) :
    l.foldr (fun x acc => x % 2 ^ w + acc * 2 ^ w) 0 / 2 ^ (w * j) % 2 ^ w = nthD 0 l j % 2 ^ w := by
  induction l generalizing j with
  | nil => simp [nthD]
  | cons x l ih =>
    rw [List.foldr_cons]
    cases j with
    | zero => simp [nthD]
    | succ j =>
      have hx : x % 2 ^ w < 2 ^ w := Nat.mod_lt _ (Nat.two_pow_pos w)
      rw [Nat.mul_succ, Nat.add_comm (w * j), Nat.pow_add, ← Nat.div_div_eq_div_mul,
        Nat.add_mul_div_right _ _ (Nat.two_pow_pos w), Nat.div_eq_of_lt hx, Nat.zero_add, ih]
      rfl

/-- A digit that the width holds. -/
theorem digit_ofNat {N lo w : Nat} (x : Nat) (h : lo + w ≤ N) :
    (BitVec.ofNat N x).toNat / 2 ^ lo % 2 ^ w = x / 2 ^ lo % 2 ^ w := by
  obtain ⟨m, rfl⟩ : ∃ m, N = lo + m := ⟨N - lo, by omega⟩
  rw [BitVec.toNat_ofNat, Nat.pow_add, Nat.mod_mul_right_div_self,
    Nat.mod_mod_of_dvd _ (Nat.pow_dvd_pow 2 (by omega))]

theorem laneAt_ofLanes {w j : Nat} (l : List Nat) (h : j < 1024 / w) : laneAt w (ofLanes w l) j = nthD 0 l j % 2 ^ w := by
  have hw : w * j + w ≤ 1024 := calc
    w * j + w = w * (j + 1) := (Nat.mul_succ w j).symm
    _ ≤ w * (1024 / w) := Nat.mul_le_mul_left w h
    _ ≤ 1024 := Nat.mul_div_le 1024 w
  rw [laneAt, ofLanes, digit_ofNat _ hw, digit_foldr]

theorem laneAt_ofLanes_map {w j : Nat} (f : Nat → Nat) (h : j < 1024 / w) :
    laneAt w (ofLanes w ((List.range (1024 / w)).map f)) j = f j % 2 ^ w := by
  rw [laneAt_ofLanes _ h, nthD_map_range 0 f h]

/-! ### Masks -/

/-- Lane widths whose lanes the 64 bits of a mask register govern (R14). -/
def maskable (w : Nat) : Prop := w = 8 ∨ 16 ≤ w

theorem maskable.index_lt {w i : Nat} (hw : maskable w) (hi : i < 1024 / w) : (if w = 8 then i / 2 else i) < 64 := by
  split
  · next h => subst h; omega
  · next h =>
    have : 1024 / w ≤ 1024 / 16 := Nat.div_le_div_left (hw.resolve_left h) (by decide)
    omega

theorem active_rq (s : State) (m : BitVec 2) {w i : Nat} (hw : maskable w) (hi : i < 1024 / w) :
    active (s.ctx.rq m) w i = s.laneOn m w i := by
  have hlt := hw.index_lt hi
  rw [active, State.laneOn, Ctx.rq]
  by_cases hm : m = 0
  · rw [if_pos hm, BitVec.getLsbD_allOnes]
    simp [hm, hlt]
  · rw [if_neg hm]
    rw [beq_false_of_ne hm, Bool.false_or]

theorem maskable_fpFmt (l : BitVec 2) : maskable (fpFmt l.toNat).width := by
  have : ∀ l : BitVec 2, 16 ≤ (fpFmt l.toNat).width := by decide
  exact .inr (this l)

theorem maskable_laneW (l : BitVec 2) : maskable (laneW l) := by
  have : ∀ l : BitVec 2, laneW l = 8 ∨ 16 ≤ laneW l := by decide
  exact this l

/-! ### Exceptions of the active lanes (R47) -/

/-- The exceptions of the active lanes with their numbers, lanes 0 to n - 1. -/
def lanesRaising (n : Nat) (on : Nat → Bool) (g : Nat → BitVec 5) : List (Nat × BitVec 5) :=
  ((List.range n).filter on).map fun i => (i, g i)

/-- The union of the exceptions of the active lanes. -/
def raised (n : Nat) (on : Nat → Bool) (g : Nat → BitVec 5) : BitVec 5 :=
  (List.range n).foldl (fun f j => if on j then f ||| g j else f) 0

section
variable {n : Nat} {on : Nat → Bool} {g : Nat → BitVec 5}

theorem orAll_lanesRaising : orAll ((lanesRaising n on g).map fun p => p.2) = raised n on g := by
  rw [orAll, lanesRaising, List.map_map, List.foldl_map, List.foldl_filter]
  rfl

/-- The union meets the enables only where an active lane does. -/
theorem raised_and_eq_zero {e : BitVec 5} (h : ∀ j < n, on j = true → g j &&& e = 0) : raised n on g &&& e = 0 := by
  induction n with
  | zero => simp [raised]
  | succ n ih =>
    rw [raised, List.range_succ, List.foldl_append]
    have ih' : raised n on g &&& e = 0 := ih fun j hj => h j (by omega)
    rw [← raised]
    simp only [List.foldl_cons, List.foldl_nil]
    split
    · next hn =>
      have : (raised n on g ||| g n) &&& e = (raised n on g &&& e) ||| (g n &&& e) := by
        ext i
        simp [Bool.and_or_distrib_right]
      rw [this, ih', h n (by omega) hn]
      rfl
    · exact ih'

/-- The lowest active lane that raises an enabled exception. -/
theorem exists_lowest {e : BitVec 5} (h : raised n on g &&& e ≠ 0) :
    ∃ j, j < n ∧ on j = true ∧ g j &&& e ≠ 0 ∧ (∀ k, k < j → on k = true → g k &&& e = 0) ∧
      (lanesRaising n on g).find? (fun p => p.2 &&& e != 0) = some (j, g j) := by
  have hex : ∃ j, j < n ∧ on j = true ∧ g j &&& e ≠ 0 := by
    by_contra hn
    push Not at hn
    exact h (raised_and_eq_zero hn)
  obtain ⟨hj, hon, hne⟩ := Nat.find_spec hex
  have hlow : ∀ k, k < Nat.find hex → on k = true → g k &&& e = 0 := fun k hk hk' => by
    by_contra hz
    exact Nat.find_min hex hk ⟨by omega, hk', hz⟩
  refine ⟨Nat.find hex, hj, hon, hne, hlow, ?_⟩
  rw [lanesRaising, List.find?_map, List.find?_filter,
    List.find?_range_eq_some.2 ⟨by simpa using ⟨hon, hne⟩, List.mem_range.2 hj,
      fun k hk => by simpa [imp_iff_not_or] using hlow k hk⟩]
  rfl

end

section
variable {s : State} {n : Nat} {on : Nat → Bool} {g : Nat → BitVec 5} {turns : Nat} {k : State → State}

theorem State.vecDone_ok (h : raised n on g &&& s.ctx.enables = 0) :
    s.vecDone (lanesRaising n on g) turns k =
      .ok (((k s).orFlags s.cur.core s.cur.ctx (raised n on g)).forfeits turns) := by
  simp [State.vecDone, State.fpDone, orAll_lanesRaising, h]

theorem State.vecDone_trap (h : raised n on g &&& s.ctx.enables ≠ 0) :
    ∃ j, j < n ∧ on j = true ∧ g j &&& s.ctx.enables ≠ 0 ∧ (∀ k, k < j → on k = true → g k &&& s.ctx.enables = 0) ∧
      s.vecDone (lanesRaising n on g) turns k = .trap (fpTrap (raised n on g) j turns) := by
  obtain ⟨j, hj, hon, hne, hlow, hfind⟩ := exists_lowest h
  refine ⟨j, hj, hon, hne, hlow, ?_⟩
  simp only [State.vecDone, State.fpDone, orAll_lanesRaising, hfind]
  exact if_pos (by simpa using h)

end

end Sys2Proof.Machine
end

section
/-! SUPPORT. Floating-point lanes (R47, R111, R122, R123). -/

namespace Sys2Proof.Machine

theorem filterMap_ite {α β : Type} (l : List α) (on : α → Bool) (f : α → β) :
    l.filterMap (fun a => if on a then some (f a) else none) = (l.filter on).map f := by
  rw [← List.filterMap_eq_map, List.filterMap_filter]
  rfl

theorem range_map_congr {α : Type} {n : Nat} {f g : Nat → α} (h : ∀ i < n, f i = g i) :
    (List.range n).map f = (List.range n).map g :=
  List.map_congr_left fun i hi => h i (List.mem_range.1 hi)

theorem range_any_congr {n : Nat} {f g : Nat → Bool} (h : ∀ i < n, f i = g i) :
    (List.range n).any f = (List.range n).any g := by
  rw [Bool.eq_iff_iff, List.any_eq_true, List.any_eq_true]
  exact exists_congr fun i => and_congr_right fun hi => by rw [h i (List.mem_range.1 hi)]

/-- How a floating-point lane instruction o ends: `r` is the result of each lane, `args` its operands, `fixed` its fixed turns. -/
def State.LanesEnd (s : State) (o : Out) (F : Fmt) (d : Reg) (m : BitVec 2) (fixed : Nat) (args : Nat → List Nat)
    (r : Nat → FRes) : Prop :=
  let n := 1024 / F.width
  let on := s.laneOn m F.width
  let f := raised n on fun j => (r j).f
  let turns := fixed + if (List.range n).any (fun j => on j && ((r j).slow || (args j).any F.isSub)) then 4 else 0
  (f &&& s.ctx.enables = 0 → ∃ v : V,
    o = .next ((((s.setV d v).orFlags s.cur.core s.cur.ctx f).forfeits turns).done 4 []) ∧
    ∀ j, j < n → laneAt F.width v j = if on j then (r j).v % 2 ^ F.width else laneAt F.width (s.ctx.rv d) j) ∧
  (f &&& s.ctx.enables ≠ 0 → ∃ j, j < n ∧ on j = true ∧ (r j).f &&& s.ctx.enables ≠ 0 ∧
    (∀ k, k < j → on k = true → (r k).f &&& s.ctx.enables = 0) ∧
    o = .next (s.trap { cause := 0x07, lane := j, exc := f, turns := turns }))

section
variable {s : State}

/-- The lanes' results, those masked off absent, and whether the normaliser serves one. -/
theorem fpLanes_eq (F : Fmt) (sub : Nat → Bool) (m : BitVec 2) (hF : maskable F.width) (row : Nat → List Nat)
    (op : List Nat → FRes) :
    fpLanes F sub (s.ctx.rq m) ((List.range (1024 / F.width)).map row) op =
      ((List.range (1024 / F.width)).map fun i => (i, if s.laneOn m F.width i then some (op (row i)) else none),
       (List.range (1024 / F.width)).any fun i => s.laneOn m F.width i && ((op (row i)).slow || (row i).any sub)) := by
  have hrs : (indexed ((List.range (1024 / F.width)).map row)).map
      (fun p => (p.1, if active (s.ctx.rq m) F.width p.1 then some (op p.2) else none)) =
      (List.range (1024 / F.width)).map fun i => (i, if s.laneOn m F.width i then some (op (row i)) else none) := by
    rw [indexed_map_range, List.map_map]
    exact range_map_congr fun i hi => by simp only [Function.comp_apply, active_rq s m hF hi]
  rw [fpLanes, hrs, indexed_map_range, List.zip_map', List.any_map]
  refine congrArg _ (range_any_congr fun i hi => ?_)
  cases h : s.laneOn m F.width i <;> simp [h]

theorem State.operands_nil {vec : List Reg} (h : ∀ r ∈ vec, r.toNat < vcapOf s.me.part) : s.operands [] [] vec = .ok [] :=
  State.operands_plain (by simp [State.plain]) (by simp [State.plain]) h

/-- An instruction on lanes of format F ends by its results and their exceptions. -/
theorem State.vecF_ends {o : Out} {l m : BitVec 2} {d : Reg} {src : List Reg} {fixed : Nat}
    {op : Fmt → Nat → List Nat → FRes} {sub : Fmt → Nat → Bool} {args : Nat → List Nat} {r : Nat → FRes}
    (ho : o = s.vecF l m d src fixed op sub) (hv : ∀ r ∈ d :: src, r.toNat < vcapOf s.me.part)
    (hr : ∀ i, op (fpFmt l.toNat) (s.ctx.fst.extractLsb' 5 3).toNat (s.row (fpFmt l.toNat).width src i) = r i)
    (hs : ∀ i, (s.row (fpFmt l.toNat).width src i).any (sub (fpFmt l.toNat)) = (args i).any (fpFmt l.toNat).isSub) :
    s.LanesEnd o (fpFmt l.toNat) d m fixed args r := by
  have hF := maskable_fpFmt l
  have hop := State.operands_nil hv
  generalize hFe : fpFmt l.toNat = F at *
  let on := s.laneOn m F.width
  let turns := fixed + slowTurns 4 ((List.range (1024 / F.width)).any fun j => on j && ((r j).slow || (args j).any F.isSub))
  let new := (List.range (1024 / F.width)).map fun j => if on j then (r j).v else laneAt F.width (s.ctx.rv d) j
  obtain ⟨k, ho, hk⟩ : ∃ k, o = s.issue 4 [] [] (d :: src) k ∧ k [] s =
      s.vecDone (lanesRaising (1024 / F.width) on fun j => (r j).f) turns fun t =>
        t.setV d (ofLanes F.width ((List.range (1024 / F.width)).map fun j =>
          if on j then (r j).v else laneAt F.width (t.ctx.rv d) j)) := by
    refine ⟨_, ho, ?_⟩
    dsimp only
    rw [hFe, rowsOf_lanesOf, fpLanes_eq F _ m hF]
    have hr' : ∀ i, op F (rmOf s.ctx.fst 7) (s.row F.width src i) = r i := hr
    simp only [hr', hs, lanesOf_eq, List.zip_map', List.map_map]
    have hl : ((List.range (1024 / F.width)).map fun i => (i, if on i then some (r i) else none)).filterMap
        (fun p => p.2.map fun r => (p.1, r.f)) = lanesRaising (1024 / F.width) on fun j => (r j).f := by
      rw [List.filterMap_map, lanesRaising, ← filterMap_ite]
      refine List.filterMap_congr fun i _ => ?_
      cases h : on i <;> simp [h]
    rw [hl]
    congr 1
    funext t
    refine congrArg (fun l => t.setV d (ofLanes F.width l)) (List.map_congr_left fun i _ => ?_)
    show (match if on i then some (r i) else none with | some r => r.v | none => _) = if on i then _ else _
    cases on i <;> rfl
  refine ⟨fun hf => ⟨ofLanes F.width new, ho.trans (State.issue_ok hop (hk.trans (State.vecDone_ok hf))), fun j hj => ?_⟩,
    fun hf => ?_⟩
  · rw [laneAt_ofLanes_map _ hj]
    split
    · rfl
    · exact laneAt_mod _ _ _
  · obtain ⟨j, hj, hon, hne, hlow, ht⟩ := State.vecDone_trap hf
    exact ⟨j, hj, hon, hne, hlow, ho.trans (State.issue_trap hop (hk.trans ht))⟩

end

/-- Settles O22: every instruction is `State.vecF` on its operands, and ends as `State.vecF_ends` says. -/
theorem vectorFloatLanes : Obligations.VectorFloatLanes := by
  unfold Obligations.VectorFloatLanes
  intro s d a b m l hv
  have h1 : ∀ r ∈ [d, a], r.toNat < vcapOf s.me.part := fun r hr => hv r (by simp at hr ⊢; tauto)
  have h3 : ∀ r ∈ [d, a, b, d], r.toNat < vcapOf s.me.part := fun r hr => hv r (by simp at hr ⊢; tauto)
  exact ⟨State.vecF_ends exec_vaddFp hv (fun _ => rfl) (fun _ => rfl),
    State.vecF_ends exec_vsubFp hv (fun _ => rfl) (fun _ => rfl),
    State.vecF_ends exec_vmulFp hv (fun _ => rfl) (fun _ => rfl),
    State.vecF_ends exec_vdiv hv (fun _ => rfl) (fun _ => rfl),
    State.vecF_ends exec_vsqrt h1 (fun _ => rfl) (fun _ => rfl),
    State.vecF_ends exec_vminFp hv (fun _ => rfl) (fun _ => rfl),
    State.vecF_ends exec_vmaxFp hv (fun _ => rfl) (fun _ => rfl),
    State.vecF_ends exec_vfmadd h3 (fun _ => rfl) (fun _ => rfl),
    State.vecF_ends exec_vfmsub h3 (fun _ => rfl) (fun _ => rfl),
    State.vecF_ends exec_vfnmadd h3 (fun _ => rfl) (fun _ => rfl),
    State.vecF_ends exec_vsgnj hv (fun _ => rfl) (fun _ => rfl),
    State.vecF_ends exec_vsgnjn hv (fun _ => rfl) (fun _ => rfl),
    State.vecF_ends exec_vsgnjx hv (fun _ => rfl) (fun _ => rfl),
    State.vecF_ends exec_vcvti h1 (fun _ => rfl) (fun _ => rfl),
    State.vecF_ends exec_vcvtf h1 (fun _ => rfl) (fun _ => rfl)⟩

end Sys2Proof.Machine
end

section
/-! SUPPORT. Integer lanes (R14, R122, Table 5.8). -/

namespace Sys2Proof.Machine

/-- An integer lane instruction writes the operation's result modulo 2^w to the active lanes and keeps the others. -/
theorem State.vecI_gives {s : State} {o : Out} {l m : BitVec 2} {d : Reg} {src : List Reg} {op : Nat → List Nat → Nat}
    {r : Nat → Nat} (ho : o = s.vecI l m d src op) (hv : ∀ r ∈ d :: src, r.toNat < vcapOf s.me.part)
    (hr : ∀ i, op (laneW l) (s.row (laneW l) src i) % 2 ^ laneW l = r i % 2 ^ laneW l) :
    ∃ v : V, o = .next (s.doneV [] d v) ∧ ∀ j, j < 1024 / laneW l →
      laneAt (laneW l) v j =
        if s.laneOn m (laneW l) j then r j % 2 ^ laneW l else laneAt (laneW l) (s.ctx.rv d) j := by
  let new := (List.range (1024 / laneW l)).map fun i =>
    if active (s.ctx.rq m) (laneW l) i then op (laneW l) (s.row (laneW l) src i) else laneAt (laneW l) (s.ctx.rv d) i
  refine ⟨ofLanes (laneW l) new, ho.trans (State.issue_ok (State.operands_nil hv) ?_), fun j hj => ?_⟩
  · dsimp only
    rw [rowsOf_lanesOf, lanesOf_eq, List.map_map, mergeLanes_map_range]
    rfl
  · rw [laneAt_ofLanes_map _ hj, active_rq s m (maskable_laneW l) hj, ← hr]
    split
    · rfl
    · exact laneAt_mod _ _ _

/-! ### Lane values -/

/-- A lane read as a signed number (R14). -/
theorem sL_eq {w x : Nat} (h : x < 2 ^ w) : sL w x = if x < 2 ^ (w - 1) then (x : Int) else x - 2 ^ w := by
  rw [sL, intOf, Nat.mod_eq_of_lt h]
  by_cases hx : x < 2 ^ (w - 1)
  · simp [hx]
  · simp [hx, Nat.le_of_not_lt hx]

/-- Saturation to the signed range (SatS). -/
theorem clampInt_eq_max_min (w : Nat) (x : Int) : clampInt w true x = max (-2 ^ (w - 1)) (min (2 ^ (w - 1) - 1) x) := by
  have hp : (0 : Int) < 2 ^ (w - 1) := by positivity
  simp only [clampInt, if_true]
  generalize (2 : Int) ^ (w - 1) = p at hp
  omega

/-- The difference of two lanes, modulo 2^w. -/
theorem sub_mod_eq {w x y : Nat} (hy : y < 2 ^ w) : (x + 2 ^ w - y) % 2 ^ w = ((x - y : Int) % 2 ^ w).toNat := by
  have h : ((x + 2 ^ w - y : Nat) : Int) = (x - y : Int) + 2 ^ w := by push_cast [Nat.cast_sub (show y ≤ x + 2 ^ w by omega)]; ring
  have h' : ((x - y : Int) % 2 ^ w) = (((x + 2 ^ w - y) % 2 ^ w : Nat) : Int) := by
    rw [Int.natCast_mod, h]
    simp
  rw [h', Int.toNat_natCast]

/-- The complement of a lane. -/
theorem xor_two_pow_sub_one {w y : Nat} (h : y < 2 ^ w) : y ^^^ (2 ^ w - 1) = 2 ^ w - 1 - y := by
  refine Nat.eq_of_testBit_eq fun i => ?_
  rw [Nat.testBit_xor, Nat.testBit_two_pow_sub_one, Nat.sub_sub, Nat.add_comm 1, Nat.testBit_two_pow_sub_succ h]
  by_cases hi : i < w
  · simp [hi]
  · simp [hi, Nat.testBit_lt_two_pow (h.trans_le (Nat.pow_le_pow_right (by decide) (Nat.le_of_not_lt hi)))]

/-- Settles O23: every instruction is `State.vecI` on its operands, with the operation that its row names. -/
theorem vectorIntegerLanes : Obligations.VectorIntegerLanes := by
  unfold Obligations.VectorIntegerLanes
  intro s d a b m l hv w n A B D sgn low satS gives
  have h3 : ∀ r ∈ [d, a, b, d], r.toNat < vcapOf s.me.part := fun r hr => hv r (by simp at hr ⊢; tauto)
  have hA : ∀ i, sL w (A i) = sgn (A i) := fun i => sL_eq (laneAt_lt _ _ i)
  have hB : ∀ i, sL w (B i) = sgn (B i) := fun i => sL_eq (laneAt_lt _ _ i)
  have hsat : ∀ x, bitsOf w (clampInt w true x) = satS x := fun x => by rw [clampInt_eq_max_min]; rfl
  refine ⟨State.vecI_gives exec_vaddInt hv fun i => rfl, State.vecI_gives exec_vsubInt hv fun i => ?_,
    State.vecI_gives exec_vmulInt hv fun i => rfl, State.vecI_gives exec_vmulh hv fun i => ?_,
    State.vecI_gives exec_vminInt hv fun i => ?_, State.vecI_gives exec_vmaxInt hv fun i => ?_,
    State.vecI_gives exec_vminu hv fun i => rfl, State.vecI_gives exec_vmaxu hv fun i => rfl,
    State.vecI_gives exec_vaddss hv fun i => ?_, State.vecI_gives exec_vsubss hv fun i => ?_,
    State.vecI_gives exec_vaddus hv fun i => congrArg (· % 2 ^ w) (Nat.min_comm _ _),
    State.vecI_gives exec_vsubus hv fun i => rfl,
    State.vecI_gives exec_vand hv fun i => rfl, State.vecI_gives exec_vor hv fun i => rfl,
    State.vecI_gives exec_vxor hv fun i => rfl, State.vecI_gives exec_vandn hv fun i => ?_,
    State.vecI_gives exec_vsll hv fun i => rfl, State.vecI_gives exec_vsrl hv fun i => rfl,
    State.vecI_gives exec_vsra hv fun i => ?_, State.vecI_gives exec_vmla h3 fun i => rfl⟩
  · exact (Nat.mod_mod _ _).symm.trans (congrArg (· % 2 ^ w) (sub_mod_eq (laneAt_lt _ _ i)))
  · show bitsOf w (sL w (A i) * sL w (B i) / 2 ^ w) % 2 ^ w = _
    rw [hA, hB]
    rfl
  · show (if sL w (A i) ≤ sL w (B i) then A i else B i) % 2 ^ w = _
    rw [hA, hB]
    rfl
  · show (if sL w (A i) ≤ sL w (B i) then B i else A i) % 2 ^ w = _
    rw [hA, hB]
    rfl
  · show bitsOf w (clampInt w true (sL w (A i) + sL w (B i))) % 2 ^ w = _
    rw [hA, hB, hsat]
    rfl
  · show bitsOf w (clampInt w true (sL w (A i) - sL w (B i))) % 2 ^ w = _
    rw [hA, hB, hsat]
    rfl
  · show (A i &&& (B i ^^^ (2 ^ w - 1))) % 2 ^ w = _
    rw [xor_two_pow_sub_one (laneAt_lt _ _ i)]
    rfl
  · show bitsOf w (sL w (A i) / 2 ^ (B i % w)) % 2 ^ w = _
    rw [hA]
    rfl

end Sys2Proof.Machine
end

section
/-! SUPPORT. Lane compares, masks and selects (R124, R125, R128). -/

namespace Sys2Proof.Machine

/-- Bits placed one by one read back one by one. -/
theorem testBit_place_range (g : Nat → Bool) (n j : Nat) :
    (place ((List.range n).map fun i => (b2n (g i), i))).testBit j = (decide (j < n) && g j) := by
  have append (l l' : List (Nat × Nat)) : place (l ++ l') = place l + place l' := by
    induction l with
    | nil => simp [place]
    | cons p l ih => obtain ⟨v, lo⟩ := p; simp [place, ih, Nat.add_assoc]
  have step (n : Nat) : place ((List.range (n + 1)).map fun i => (b2n (g i), i)) =
      2 ^ n * b2n (g n) + place ((List.range n).map fun i => (b2n (g i), i)) := by
    rw [List.range_succ, List.map_append, append, Nat.add_comm, List.map_singleton, place, place, Nat.add_zero, Nat.mul_comm]
  have bound (n : Nat) : place ((List.range n).map fun i => (b2n (g i), i)) < 2 ^ n := by
    induction n with
    | zero => exact Nat.one_pos
    | succ n ih =>
      have hb : 2 ^ n * b2n (g n) ≤ 2 ^ n * 1 := Nat.mul_le_mul_left _ (by cases g n <;> decide)
      rw [step, Nat.pow_succ]
      omega
  induction n with
  | zero => simp [place]
  | succ n ih =>
    rw [step, Nat.testBit_two_pow_mul_add _ (bound n)]
    by_cases hj : j < n
    · rw [if_pos hj, ih]
      simp [hj, Nat.lt_succ_of_lt hj]
    · rw [if_neg hj]
      by_cases he : j = n
      · subst he
        cases g j <;> simp [b2n]
      · have : ∀ b, (b2n b).testBit (j - n) = false := fun b => by
          obtain ⟨k, hk⟩ : ∃ k, j - n = k + 1 := ⟨j - n - 1, by omega⟩
          cases b <;> simp [b2n, hk, Nat.testBit_succ]
        simp [this, show ¬ j < n + 1 by omega]

/-- The mask that a lane compare leaves (R124). -/
def State.CompareMask (s : State) (q m : BitVec 2) (w : Nat) (test : Nat → Bool) (v : W) : Prop :=
  ∀ j, j < 64 → v.getLsbD j =
    (decide (j < 1024 / w) && if s.laneOn m w j then test j else (s.ctx.rq q).getLsbD j)

section
variable {s : State} {q m l : BitVec 2} {a b d : Reg} {o : Out}

theorem State.compareMask (hw : maskable w) {test' test : Nat → Bool} (h : ∀ i < 1024 / w, test' i = test i) :
    s.CompareMask q m w test (cmpMask (s.ctx.rq q) (s.ctx.rq m) w (1024 / w) test') := by
  intro j hj
  rw [cmpMask, BitVec.getLsbD_ofNat, testBit_place_range (fun i => if active _ w i then _ else _)]
  by_cases hn : j < 1024 / w
  · simp [hj, hn, active_rq s m hw hn, h j hn]
  · simp [hn]

/-- An integer lane compare. -/
theorem State.vecCmpI_ends {op : Nat → Nat → Nat → Bool} (ho : o = s.vecCmpI l m q a b op)
    (hv : ∀ r ∈ [a, b], r.toNat < vcapOf s.me.part) :
    ∃ v : W, o = .next (s.doneQ [] q v) ∧ s.CompareMask q m (laneW l)
      (fun i => op (laneW l) (laneAt (laneW l) (s.ctx.rv a) i) (laneAt (laneW l) (s.ctx.rv b) i)) v :=
  ⟨_, ho.trans (State.issue_ok (State.operands_nil hv) rfl), State.compareMask (maskable_laneW l) fun i hi => by
    simp only [lanesOf_eq, nthD_map_range _ _ hi]⟩

/-- A floating-point lane compare: the exceptions of the active lanes first. -/
theorem State.vecCmpF_ends {op : Nat} (ho : o = s.vecCmpF l m q a b op) (hv : ∀ r ∈ [a, b], r.toNat < vcapOf s.me.part) :
    let F := fpFmt l.toNat
    let n := 1024 / F.width
    let A := laneAt F.width (s.ctx.rv a)
    let B := laneAt F.width (s.ctx.rv b)
    let r := fun j => F.compare op (A j) (B j)
    let on := s.laneOn m F.width
    let f := raised n on fun j => (r j).2
    let turns := if (List.range n).any (fun j => on j && (F.isSub (A j) || F.isSub (B j))) then 4 else 0
    (f &&& s.ctx.enables = 0 → ∃ v : W, s.CompareMask q m F.width (fun j => (r j).1) v ∧
      o = .next ((((s.setQ q v).orFlags s.cur.core s.cur.ctx f).forfeits turns).done 4 [])) ∧
    (f &&& s.ctx.enables ≠ 0 → ∃ j, j < n ∧ on j = true ∧ (r j).2 &&& s.ctx.enables ≠ 0 ∧
      (∀ k, k < j → on k = true → (r k).2 &&& s.ctx.enables = 0) ∧
      o = .next (s.trap { cause := 0x07, lane := j, exc := f, turns := turns })) := by
  intro F n A B r on f turns
  have hF : maskable F.width := maskable_fpFmt l
  have hop := State.operands_nil hv
  let test := fun i => (nthD (false, 0) ((List.range n).map r) i).1
  obtain ⟨k, ho, hk⟩ : ∃ k, o = s.issue 4 [] [] [a, b] k ∧ k [] s =
      s.vecDone (lanesRaising n on fun j => (r j).2) turns fun t =>
        t.setQ q (cmpMask (t.ctx.rq q) (s.ctx.rq m) F.width n test) := by
    refine ⟨_, ho, ?_⟩
    dsimp only
    have hact : ∀ i < n, active (s.ctx.rq m) F.width i = on i := fun i hi => active_rq s m hF hi
    have hlanes : ((List.range n).filter fun i => active (s.ctx.rq m) F.width i).map
        (fun i => (i, (nthD (false, 0) ((List.range n).map r) i).2)) = lanesRaising n on fun j => (r j).2 := by
      rw [List.filter_congr fun i hi => hact i (List.mem_range.1 hi)]
      refine List.map_congr_left fun i hi => ?_
      rw [nthD_map_range _ _ (List.mem_range.1 (List.mem_of_mem_filter hi))]
    have hslow : ((List.range n).any fun i => active (s.ctx.rq m) F.width i && (F.isSub (A i) || F.isSub (B i))) =
        (List.range n).any fun i => on i && (F.isSub (A i) || F.isSub (B i)) :=
      range_any_congr fun i hi => by rw [hact i hi]
    rw [lanesOf_eq, lanesOf_eq, List.zip_map', List.map_map, indexed_map_range, List.any_map]
    rw [← hlanes]
    show _ = s.vecDone _ (slowTurns 4 _) _
    rw [← hslow]
    rfl
  have hmask : s.CompareMask q m F.width (fun j => (r j).1) (cmpMask (s.ctx.rq q) (s.ctx.rq m) F.width n test) :=
    State.compareMask hF fun i hi => congrArg Prod.fst (nthD_map_range (false, 0) r hi)
  refine ⟨fun hf => ⟨_, hmask, ho.trans (State.issue_ok hop (hk.trans (State.vecDone_ok hf)))⟩, fun hf => ?_⟩
  obtain ⟨j, hj, hon, hne, hlow, ht⟩ := State.vecDone_trap hf
  exact ⟨j, hj, hon, hne, hlow, ho.trans (State.issue_trap hop (hk.trans ht))⟩

/-- A select takes each lane from one of its sources. -/
theorem State.vecSel_ends {w : Nat} {sub : Nat → Bool} (hw : maskable w) (ho : o = s.vecSel w m d a b sub)
    (hv : ∀ r ∈ [d, a, b], r.toNat < vcapOf s.me.part) :
    let lane := fun j => if s.laneOn m w j then laneAt w (s.ctx.rv a) j else laneAt w (s.ctx.rv b) j
    ∃ v : V, (∀ j, j < 1024 / w → laneAt w v j = lane j) ∧
      o = .next (((s.setV d v).forfeits (if (List.range (1024 / w)).any (fun j => sub (lane j)) then 4 else 0)).done 4 []) := by
  intro lane
  have hl : mergeLanes (s.ctx.rq m) w (lanesOf w (s.ctx.rv b)) (lanesOf w (s.ctx.rv a)) = (List.range (1024 / w)).map lane := by
    rw [lanesOf_eq, lanesOf_eq, mergeLanes_map_range]
    exact range_map_congr fun i hi => by rw [active_rq s m hw hi]
  have hmod : ∀ j, lane j % 2 ^ w = lane j := fun j => by
    show (if _ then _ else _) % 2 ^ w = if _ then _ else _
    split
    · exact laneAt_mod _ _ _
    · exact laneAt_mod _ _ _
  refine ⟨ofLanes w ((List.range (1024 / w)).map lane), fun j hj => (laneAt_ofLanes_map lane hj).trans (hmod j),
    ho.trans (State.issue_ok (State.operands_nil hv) ?_)⟩
  dsimp only
  rw [hl, List.any_map]
  rfl

end

/-- Settles O24: lane compares and selects by the lemmas above; the mask operations are one write of a mask register. -/
theorem vectorComparesAndMasks : Obligations.VectorComparesAndMasks := by
  unfold Obligations.VectorComparesAndMasks
  intro s q qa qb m l a b d x hv Q bitsAre w A B sgn compares F fcompares selects
  have h2 : ∀ r ∈ [a, b], r.toNat < vcapOf s.me.part := fun r hr => hv r (by simp at hr ⊢; tauto)
  refine ⟨fun _ => State.vecCmpI_ends exec_vcmpeqInt h2, fun _ => ?_, fun _ => State.vecCmpI_ends exec_vcmpltu h2,
    State.vecCmpF_ends exec_vcmpeqFp h2, State.vecCmpF_ends exec_vcmpltFp h2, State.vecCmpF_ends exec_vcmple h2,
    State.vecCmpF_ends exec_vcmpun h2, State.vecSel_ends (maskable_fpFmt l) exec_vselFp hv,
    ?_, exec_qand.trans rfl, exec_qor.trans rfl, exec_qxor.trans rfl, exec_qandn.trans rfl,
    fun h => exec_qget.trans (State.issue_ok h rfl), fun h => exec_qput.trans (State.issue_ok h rfl), fun v => ?_⟩
  · obtain ⟨v, ho, hb⟩ := State.vecCmpI_ends (m := m) exec_vcmpltInt h2
    simp only [sL_eq (laneAt_lt _ _ _)] at hb
    exact ⟨v, ho, hb⟩
  · obtain ⟨v, hl, ho⟩ := State.vecSel_ends (maskable_laneW l) exec_vselInt hv
    exact ⟨v, hl, ho⟩
  · exact State.mapCtx_ctx _ _

end Sys2Proof.Machine
end

section
/-! SUPPORT. How an instruction with checks of its own begins (R74, R152), what a unit takes up, and fields of words. -/

namespace Sys2Proof.Machine

/-- A field of a word as a number, and as bits. -/
theorem wf_eq_toNat (x : W) (lo n : Nat) : wf x lo n = (x.extractLsb' lo n).toNat := by
  rw [wf, bits, BitVec.extractLsb'_toNat, Nat.shiftRight_eq_div_pow]

theorem wf_ne_zero (x : W) (lo n : Nat) : (wf x lo n != 0) = (x.extractLsb' lo n != 0) := by
  rw [wf_eq_toNat, Bool.eq_iff_iff, bne_iff_ne, bne_iff_ne, Ne, Ne, ← BitVec.toNat_inj]
  rfl

section
variable {s : State} {src dst vec : List Reg} {l : List W} {pre : Res Unit} {o : Out} {ok : Bool} {len : Nat}
  {k : List W → State → Res State}

/-- The first checks pass: what comes after is taken. -/
theorem State.checked_ok (h : s.operands src dst vec = .ok l) (hp : pre = .ok ()) : s.checked src dst vec pre o = o := by
  simp [State.checked, State.legalNames_of_operands h, hp]

/-- The instruction's own check fails: its trap. -/
theorem State.checked_trap {t : Trap} (h : s.operands src dst vec = .ok l) (hp : pre = .trap t) :
    s.checked src dst vec pre o = .next (s.trap t) := by
  simp [State.checked, State.legalNames_of_operands h, hp]

theorem State.issueIf_ok (h : s.operands src dst vec = .ok l) (hok : ok = true) :
    s.issueIf ok len src dst vec k = s.issue len src dst vec k := by
  rw [State.issueIf, hok]
  exact State.checked_ok h rfl

theorem State.issueIf_refused (h : s.operands src dst vec = .ok l) (hok : ok = false) :
    s.issueIf ok len src dst vec k = .next (s.trap illOpnd) := by
  rw [State.issueIf, hok]
  exact State.checked_trap h rfl

/-- With no deferred fault pending, none is covered (R152). -/
theorem State.covering_of_no_pend (hp : s.ctx.pend = []) (cov : Deferred → Bool) : s.covering cov o = o := by
  simp [State.covering, Ctx.covered, hp]

theorem State.atUnit_of {p : Nat} {pk : Packet} {d : Dest} {b : Body}
    (h : s.arrived p = some pk ∧ pk.dst = d ∧ pk.body = b) : s.atUnit p = some (d, b) := by
  obtain ⟨ha, rfl, rfl⟩ := h
  rw [State.atUnit, ha]
  rfl

end

end Sys2Proof.Machine
end

section
/-! SUPPORT. The floe (R22 to R26, R308 to R321): floe registers, the dispenser's choice, continuations, queues, deques. -/

namespace Sys2Proof.Machine

/-! ### Continuations -/

section
variable {s : State} {src : List Reg} {l : List W} {bad : Bool} {k : List W → State → State}

/-- What may end its turn: not c0, no member of a gang, no deferred fault pending. -/
def State.quiet (s : State) : Prop := s.ctx.pend = [] ∧ s.ctx.gang = none ∧ s.cur.ctx ≠ 0

theorem State.endTurn_open (h : s.operands src [] [] = .ok l) (hq : s.quiet) :
    s.endTurn src false k = s.issueJump src [] [] fun l t =>
      if !t.ctx.ops.isEmpty then .block { kind := 5 } t
      else .ok ((k l t).mapCtx fun c => c.toWaiting t.me.cycle) := by
  obtain ⟨hp, hg, hc⟩ := hq
  have hpre : Res.check (!(s.cur.ctx == 0 || s.ctx.gang.isSome || false)) illOpnd = .ok () := by
    rw [hg, beq_false_of_ne hc]
    rfl
  rw [State.endTurn, State.checked_ok h hpre, State.covering_of_no_pend hp]

theorem State.endTurn_waiting (h : s.operands src [] [] = .ok l) (hq : s.quiet) (ho : s.ctx.ops = []) :
    s.endTurn src false k = .next (((k l s).mapCtx fun c => c.toWaiting s.me.cycle).takeWords src) :=
  (State.endTurn_open h hq).trans (State.issueJump_ok h (by simp [ho]))

theorem State.endTurn_block (h : s.operands src [] [] = .ok l) (hq : s.quiet) (ho : s.ctx.ops ≠ []) :
    s.endTurn src false k = .next (s.block { kind := 5 }) := by
  rw [State.endTurn_open h hq, State.issueJump, State.withOperands, h]
  simp [Res.bind, State.finishJump, ho]

theorem State.endTurn_illegal (h : s.operands src [] [] = .ok l)
    (hb : (s.cur.ctx == 0 || s.ctx.gang.isSome || bad) = true) : s.endTurn src bad k = .next (s.trap illOpnd) := by
  rw [State.endTurn, hb]
  exact State.checked_trap h rfl

end

/-! ### Requests that a context waits for -/

section
variable {s : State} {dst : Dest} {b : Issuer → Body} {done : W → Res State}

theorem State.awaitHeld_ask (h : s.ctx.req = none) :
    s.awaitHeld dst b done = .block { kind := 1, hold := true }
      ((s.newTxn.2.2.mapCtx fun c => { c with req := some ⟨s.newTxn.2.1, none⟩ }).sendCore s.cur.core dst false 8
        (b ⟨s.cur.core, s.cur.ctx, s.newTxn.2.1⟩)) := by
  rw [State.awaitHeld, h]

theorem State.awaitHeld_answered {txn : Nat} {w : W} {g : BitVec 5} (h : s.ctx.req = some ⟨txn, some (.value w g)⟩) :
    s.awaitHeld dst b done = done w := by
  rw [State.awaitHeld, h]

end

/-! ### Floe registers -/

section
variable {s : State} {x : Floe} {n : Nat} {v : W}

theorem State.writeFloe_ok (h : s.isSupervisor = true) (hw : (s.floe s.myFloe).writeReg n s.me.xroot v = some x) :
    s.writeFloe n v = .ok (s.setFloe s.myFloe x) := by
  rw [State.writeFloe, State.supervisorOnly, h, hw]
  rfl

theorem State.writeFloe_refused (h : s.isSupervisor = false) : s.writeFloe n v = .trap illOpnd := by
  rw [State.writeFloe, State.supervisorOnly, h]
  rfl

theorem Floe.writeReg_ring (x : Floe) (i : BitVec 2) (root v : W) : x.writeReg (8 * i.toNat) root v = x.writeRing i root v := by
  have : i = 0 ∨ i = 1 ∨ i = 2 ∨ i = 3 := by revert i; decide
  obtain rfl | rfl | rfl | rfl := this <;> rfl

end

end Sys2Proof.Machine
end

section
/-! SUPPORT. The dispenser's choice and a delivery (R22 to R24, R313). -/

namespace Sys2Proof.Machine

/-! ### The earliest of a list -/

section
variable {α : Type} (time : α → Nat)

/-- The one of two that came first: the later in the list only where its time is smaller. -/
def sooner (b : Option α) (p : α) : Option α :=
  match b with
  | none => some p
  | some q => if time p < time q then some p else b

variable {time} {R : α → α → Prop}

/-- The earliest has the smallest time and, among those of that time, comes first in the list's order. -/
theorem foldl_sooner (htrans : ∀ a b c, R a b → R b c → R a c) (hrefl : ∀ a, R a a) {l : List α} {b p : α}
    (hl : (b :: l).Pairwise R) (h : l.foldl (sooner time) (some b) = some p) :
    p ∈ b :: l ∧ ∀ q ∈ b :: l, time p < time q ∨ (time p = time q ∧ R p q) := by
  induction l generalizing b with
  | nil =>
    obtain rfl : b = p := by simpa using h
    exact ⟨by simp, fun q hq => by obtain rfl : q = b := by simpa using hq
                                   exact .inr ⟨rfl, hrefl q⟩⟩
  | cons x l ih =>
    obtain ⟨hb, hx⟩ := List.pairwise_cons.1 hl
    rw [List.foldl_cons, sooner] at h
    split at h
    · next hlt =>
      obtain ⟨hm, hall⟩ := ih hx h
      refine ⟨List.mem_cons_of_mem _ hm, fun q hq => ?_⟩
      obtain rfl | hq := List.mem_cons.1 hq
      · have := hall x (by simp)
        omega
      · exact hall q hq
    · next hge =>
      obtain ⟨hb', -⟩ := List.pairwise_cons.1 hx
      have hbl : (b :: l).Pairwise R :=
        List.pairwise_cons.2 ⟨fun q hq => hb q (by simp [hq]), (List.pairwise_cons.1 hx).2⟩
      obtain ⟨hm, hall⟩ := ih hbl h
      refine ⟨by simp only [List.mem_cons] at hm ⊢; tauto, fun q hq => ?_⟩
      have hpb := hall b (by simp)
      obtain rfl | hq := List.mem_cons.1 hq
      · exact hpb
      obtain rfl | hq := List.mem_cons.1 hq
      · obtain hlt | ⟨heq, hR⟩ := hpb
        · exact .inl (by omega)
        · by_cases hbx : time b < time q
          · exact .inl (by omega)
          · exact .inr ⟨by omega, htrans _ _ _ hR (hb q (by simp))⟩
      · exact hall q (by simp [hq])

theorem foldl_sooner_some (l : List α) (b : α) : ∃ p, l.foldl (sooner time) (some b) = some p := by
  induction l generalizing b with
  | nil => exact ⟨b, rfl⟩
  | cons x l ih =>
    rw [List.foldl_cons, sooner]
    split
    · exact ih x
    · exact ih b

end

/-- The order of contexts: by core, then by number. -/
def before (p q : CoreId × CtxId) : Prop := p.1.toNat < q.1.toNat ∨ (p.1 = q.1 ∧ p.2.toNat ≤ q.2.toNat)

theorem before_refl (p : CoreId × CtxId) : before p p := .inr ⟨rfl, Nat.le_refl _⟩

theorem before_trans (p q r : CoreId × CtxId) (h : before p q) (h' : before q r) : before p r := by
  obtain h | ⟨h, hk⟩ := h
  · obtain h' | ⟨h', -⟩ := h'
    · exact .inl (h.trans h')
    · exact .inl (h' ▸ h)
  · obtain h' | ⟨h', hk'⟩ := h'
    · exact .inl (h ▸ h')
    · exact .inr ⟨h.trans h', hk.trans hk'⟩

section
variable {s : State} {f : FloeId} {w : W} {c : CoreId} {k : CtxId}

/-- Context k of core c waits and may take a record of header w (R22). -/
def State.takes (s : State) (f : FloeId) (w : W) (c : CoreId) (k : CtxId) : Prop :=
  c ∈ coresOf f ∧ (w.getLsbD 36 = true ∨ c = coreAt f (w.extractLsb' 37 3).toNat) ∧ (w.getLsbD 28 = true → k = 15) ∧
  (w.getLsbD 28 = false → k ≠ 0 ∧ k ≠ 15) ∧ (s.ctxAt c k).life = .waiting

theorem coreAt_toNat (f : FloeId) {i : Nat} (h : i < 8) : (coreAt f i).toNat = f.toNat * 8 + i := by
  unfold coreAt
  rw [BitVec.toNat_append, BitVec.toNat_ofNat, Nat.mod_eq_of_lt h, ← Nat.shiftLeft_add_eq_or_of_lt (by omega),
    Nat.shiftLeft_eq]

theorem mem_allCtx (k : CtxId) : k ∈ allCtx := by
  revert k
  decide

theorem State.mem_eligibleFor : (c, k) ∈ s.eligibleFor f w ↔ s.takes f w c k := by
  have hcores : c ∈ (if wb w 36 then coresOf f else [coreAt f (wf w 37 3)]) ↔
      c ∈ coresOf f ∧ (w.getLsbD 36 = true ∨ c = coreAt f (w.extractLsb' 37 3).toNat) := by
    rw [wf_eq_toNat, wb]
    cases w.getLsbD 36 with
    | true => simp
    | false =>
      have hmem : coreAt f (w.extractLsb' 37 3).toNat ∈ coresOf f :=
        List.mem_map_of_mem (List.mem_range.2 (w.extractLsb' 37 3).isLt)
      simp only [Bool.false_eq_true, if_false, List.mem_singleton, false_or]
      exact ⟨fun h => ⟨h ▸ hmem, h⟩, And.right⟩
  have hctxs : k ∈ (if wb w 28 then [15] else allCtx.filter fun k => k != 0 && k != 15) ↔
      (w.getLsbD 28 = true → k = 15) ∧ (w.getLsbD 28 = false → k ≠ 0 ∧ k ≠ 15) := by
    rw [wb]
    cases w.getLsbD 28 <;> simp [mem_allCtx]
  simp only [State.eligibleFor, List.mem_filter, List.mem_flatMap, List.mem_map, Prod.mk.injEq, beq_iff_eq, State.takes]
  rw [← and_assoc, ← and_assoc, ← hcores, and_assoc, ← and_assoc (c := (s.ctxAt c k).life = _), ← hctxs]
  constructor
  · rintro ⟨⟨c', hc', k', hk', rfl, rfl⟩, hl⟩
    exact ⟨hc', hk', hl⟩
  · rintro ⟨hc, hk, hl⟩
    exact ⟨⟨c, hc, k, hk, rfl, rfl⟩, hl⟩

theorem State.eligibleFor_eq_nil : s.eligibleFor f w = [] ↔ ∀ c k, ¬ s.takes f w c k := by
  rw [List.eq_nil_iff_forall_not_mem]
  exact ⟨fun h c k ht => h (c, k) (State.mem_eligibleFor.2 ht), fun h p hp => h p.1 p.2 (State.mem_eligibleFor.1 hp)⟩

theorem State.eligibleFor_pairwise (s : State) (f : FloeId) (w : W) : (s.eligibleFor f w).Pairwise before := by
  have hctx : (if wb w 28 then [15] else allCtx.filter fun k => k != 0 && k != 15).Pairwise
      fun k k' : CtxId => k.toNat ≤ k'.toNat := by
    split
    · simp
    · exact List.Pairwise.filter _ (by decide)
  have hcore : (if wb w 36 then coresOf f else [coreAt f (wf w 37 3)]).Pairwise
      fun c c' : CoreId => c.toNat < c'.toNat := by
    split
    · refine List.pairwise_map.2 (List.Pairwise.imp_of_mem (fun ha hb h => ?_) List.pairwise_lt_range)
      rw [coreAt_toNat f (List.mem_range.1 ha), coreAt_toNat f (List.mem_range.1 hb)]
      omega
    · simp
  refine List.Pairwise.filter _ (List.pairwise_flatMap.2 ⟨fun c _ => ?_, hcore.imp fun h p hp q hq => ?_⟩)
  · exact List.pairwise_map.2 (hctx.imp fun h => .inr ⟨rfl, h⟩)
  · obtain ⟨k, -, rfl⟩ := List.mem_map.1 hp
    obtain ⟨k', -, rfl⟩ := List.mem_map.1 hq
    exact .inl h

theorem State.earliest_eq_foldl (s : State) (l : List (CoreId × CtxId)) :
    s.earliest l = l.foldl (sooner fun p => (s.ctxAt p.1 p.2).waitingAt) none := by
  refine congrArg (fun g => l.foldl g none) ?_
  funext b p
  cases b <;> rfl

/-- The context chosen for a record: one that may take it, and of those the one that has waited longest. -/
theorem State.earliest_eligible (h : s.earliest (s.eligibleFor f w) = some (c, k)) :
    s.takes f w c k ∧ ∀ c' k', s.takes f w c' k' → (s.ctxAt c k).waitingAt < (s.ctxAt c' k').waitingAt ∨
      ((s.ctxAt c k).waitingAt = (s.ctxAt c' k').waitingAt ∧ before (c, k) (c', k')) := by
  have hl := State.eligibleFor_pairwise s f w
  rw [State.earliest_eq_foldl] at h
  simp only [← State.mem_eligibleFor]
  cases he : s.eligibleFor f w with
  | nil => rw [he] at h; cases h
  | cons b l =>
    rw [he] at hl h
    obtain ⟨hm, hall⟩ := foldl_sooner before_trans before_refl hl h
    exact ⟨hm, fun c' k' hq => hall _ hq⟩

theorem State.earliest_eq_none {l : List (CoreId × CtxId)} : s.earliest l = none ↔ l = [] := by
  rw [State.earliest_eq_foldl]
  cases l with
  | nil => simp
  | cons b l =>
    obtain ⟨p, hp⟩ := foldl_sooner_some (time := fun p => (s.ctxAt p.1 p.2).waitingAt) l b
    simp [sooner, hp]

/-- A record that no context takes is passed over; the search ends at the eighth (R313). -/
theorem State.match8_eq_none {l : List (List W)} {n : Nat} :
    s.match8 f l n = none ↔ ∀ m < l.length, n + m < 8 → ∀ c k, ¬ s.takes f (nthD 0 (nthD [] l m) 0) c k := by
  induction l generalizing n with
  | nil => simp [State.match8]
  | cons r l ih =>
    rw [State.match8]
    split
    · next hn => exact ⟨fun _ m _ h => by omega, fun _ => rfl⟩
    next hn =>
    cases he : s.earliest (s.eligibleFor f (nthD 0 r 0)) with
    | some p =>
      simp only [reduceCtorEq, false_iff, not_forall]
      exact ⟨0, by simp, by omega, p.1, p.2, not_not.2 (State.earliest_eligible he).1⟩
    | none =>
      have h0 := State.eligibleFor_eq_nil.1 (State.earliest_eq_none.1 he)
      rw [ih]
      constructor
      · intro h m hm hlt
        cases m with
        | zero => exact h0
        | succ m => exact h m (by simpa using hm) (by omega)
      · intro h m hm hlt
        exact h (m + 1) (by simpa using hm) (by omega)

theorem State.match8_eq_some {l : List (List W)} {n m : Nat} (h : s.match8 f l n = some (m, c, k)) :
    ∃ j < l.length, m = n + j ∧ m < 8 ∧ s.earliest (s.eligibleFor f (nthD 0 (nthD [] l j) 0)) = some (c, k) ∧
      ∀ j' < j, ∀ c k, ¬ s.takes f (nthD 0 (nthD [] l j') 0) c k := by
  induction l generalizing n with
  | nil => cases h
  | cons r l ih =>
    rw [State.match8] at h
    split at h
    · cases h
    next hn =>
    cases he : s.earliest (s.eligibleFor f (nthD 0 r 0)) with
    | some p =>
      rw [he] at h
      obtain ⟨rfl, rfl⟩ : n = m ∧ p = (c, k) := by simpa using h
      exact ⟨0, by simp, rfl, by omega, he, fun j' hj' => absurd hj' (Nat.not_lt_zero j')⟩
    | none =>
      rw [he] at h
      obtain ⟨j, hj, hm, h8, hp, hlow⟩ := ih h
      refine ⟨j + 1, by simpa using hj, by omega, h8, hp, fun j' hj' => ?_⟩
      cases j' with
      | zero => exact State.eligibleFor_eq_nil.1 (State.earliest_eq_none.1 he)
      | succ j' => exact hlow j' (by omega)

/-- Record m of queue j is among the first eight. -/
def State.stands (s : State) (f : FloeId) (j : BitVec 2) (m : Nat) : Prop := m < 8 ∧ m < (s.queue f j).bank.length

/-- The header of record m of queue j. -/
def State.header (s : State) (f : FloeId) (j : BitVec 2) (m : Nat) : W := nthD 0 (nthD [] (s.queue f j).bank m) 0

theorem State.match8_bank_eq_none {j : BitVec 2} :
    s.match8 f (s.queue f j).bank 0 = none ↔ ∀ m c k, s.stands f j m → ¬ s.takes f (s.header f j m) c k := by
  rw [State.match8_eq_none]
  exact ⟨fun h m c k hs => h m hs.2 (by simpa using hs.1) c k, fun h m hm h8 c k => h m c k ⟨by simpa using h8, hm⟩⟩

theorem State.nextDelivery_eq_none :
    s.nextDelivery f = none ↔ ∀ j m c k, s.stands f j m → ¬ s.takes f (s.header f j m) c k := by
  have hall : ∀ j : BitVec 2, j ∈ ([0, 1, 2, 3] : List (BitVec 2)) := by decide
  simp only [State.nextDelivery, List.findSome?_eq_none_iff, Option.map_eq_none_iff, State.match8_bank_eq_none]
  exact ⟨fun h j => h j (hall j), fun h j _ => h j⟩

/-- The delivery made next (R313): the first record of the lowest queue that a waiting context may take, and that context. -/
theorem State.nextDelivery_eq_some {i : BitVec 2} {n : Nat} (h : s.nextDelivery f = some (i, n, c, k)) :
    s.stands f i n ∧ s.takes f (s.header f i n) c k ∧ (∀ m c' k', m < n → ¬ s.takes f (s.header f i m) c' k') ∧
    (∀ j m c' k', j.toNat < i.toNat → s.stands f j m → ¬ s.takes f (s.header f j m) c' k') ∧
    ∀ c' k', s.takes f (s.header f i n) c' k' → (s.ctxAt c k).waitingAt < (s.ctxAt c' k').waitingAt ∨
      ((s.ctxAt c k).waitingAt = (s.ctxAt c' k').waitingAt ∧ before (c, k) (c', k')) := by
  obtain ⟨lower, i', upper, hl, hi, hlow⟩ := List.findSome?_eq_some_iff.1 h
  obtain ⟨⟨m, p⟩, hm, he⟩ := Option.map_eq_some_iff.1 hi
  obtain ⟨rfl, rfl, rfl⟩ : i' = i ∧ m = n ∧ p = (c, k) := by simpa using he
  obtain ⟨j, hj, hjm, h8, hp, hbelow⟩ := State.match8_eq_some hm
  obtain rfl : m = j := by omega
  obtain ⟨ht, hbest⟩ := State.earliest_eligible hp
  refine ⟨⟨h8, hj⟩, ht, fun m' c' k' hm' => hbelow m' hm' c' k', fun j m' c' k' hji => ?_, hbest⟩
  have hsorted : ([0, 1, 2, 3] : List (BitVec 2)).Pairwise fun a b => a.toNat < b.toNat := by decide
  have hall : ∀ j : BitVec 2, j ∈ ([0, 1, 2, 3] : List (BitVec 2)) := by decide
  have hmem := hall j
  rw [hl] at hmem hsorted
  have hjl : j ∈ lower := by
    rcases List.mem_append.1 hmem with hmem | hmem
    · exact hmem
    · obtain ⟨-, hup, -⟩ := List.pairwise_append.1 hsorted
      obtain rfl | hmem := List.mem_cons.1 hmem
      · omega
      · have := (List.pairwise_cons.1 hup).1 j hmem
        omega
  exact State.match8_bank_eq_none.1 (Option.map_eq_none_iff.1 (hlow j hjl)) m' c' k'

end

end Sys2Proof.Machine
end

section
/-! SUPPORT. A delivery, an enqueue, the drift unit (R24, R310, R312, R321). -/

namespace Sys2Proof.Machine

section
variable {s : State} {f : FloeId} {i : BitVec 2}

@[simp] theorem State.setQueue_queue (q : Queue) : (s.setQueue f i q).queue f i = q := by
  rw [State.queue, State.setQueue, State.mapFloe_floe]
  exact Vector.getElem_set_self _

@[simp] theorem State.refill_ctxAt (c : CoreId) (k : CtxId) : (s.refill f i).ctxAt c k = s.ctxAt c k := by
  simp only [State.refill]
  split <;> rfl

/-- A refill begins by marking the queue; its bank stays. -/
@[simp] theorem State.refill_bank : ((s.refill f i).queue f i).bank = (s.queue f i).bank := by
  simp only [State.refill]
  split
  · rw [State.setQueue_queue]
  · rfl

end

/-! ### A record loaded (R24) -/

/-- The six registers that a record fills after g3. -/
theorem Ctx.rg_wg_same (c : Ctx) {d : Reg} (h : d ≠ 0) (w : W) : (c.wg d w).rg d = w := by
  rw [Ctx.rg, if_neg h]
  exact Ctx.wg_g_same c h w

theorem Ctx.rg_wg_other (c : Ctx) {d e : Reg} (h : e ≠ d) (w : W) : (c.wg d w).rg e = c.rg e := by
  rw [Ctx.rg, Ctx.rg]
  split
  · rfl
  · exact Ctx.wg_g_other c (j := ⟨e.toNat, e.isLt⟩) (.inl fun he => h (BitVec.eq_of_toNat_eq he)) w

/-- The registers that the rest of a record fills. -/
def Ctx.taking (c : Ctx) (r : List W) : Ctx :=
  [0, 1, 2, 3, 4, 5].foldl (fun c i => c.wg (BitVec.ofNat 5 (4 + i)) (nthD 0 r (2 + i))) c

section
variable (c : Ctx) (part : W) (r : List W)

theorem Ctx.taking_rg {j : Nat} (hj : j < 6) : (c.taking r).rg (BitVec.ofNat 5 (4 + j)) = nthD 0 r (2 + j) := by
  simp only [Ctx.taking, List.foldl_cons, List.foldl_nil]
  interval_cases j <;> simp [Ctx.rg_wg_same, Ctx.rg_wg_other]

theorem Ctx.taking_rg3 : (c.taking r).rg 3 = c.rg 3 := by
  simp [Ctx.taking, Ctx.rg_wg_other]

theorem Ctx.load_rg (e : Reg) : (c.load part r).rg e =
    (((if wb (nthD 0 r 0) 29 then c.clear part else c).wg 3 (nthD 0 r 0)).taking r).rg e := (rfl)

/-- What a record leaves in the context that takes it. -/
theorem Ctx.load_spec : let v := c.load part r
    v.life = .runnable ∧ v.pc = nthD 0 r 1 &&& ~~~1#64 ∧ v.p = (nthD 0 r 0).extractLsb' 16 8 ∧ v.rg 3 = nthD 0 r 0 ∧
    ∀ j, j < 6 → v.rg (BitVec.ofNat 5 (4 + j)) = nthD 0 r (2 + j) := by
  refine ⟨rfl, rfl, rfl, ?_, fun j hj => ?_⟩
  · rw [Ctx.load_rg, Ctx.taking_rg3, Ctx.rg_wg_same _ (by decide)]
  · rw [Ctx.load_rg, Ctx.taking_rg _ _ hj]

end

section
variable {s : State} {f : FloeId} {i : BitVec 2} {n : Nat} {c : CoreId} {k : CtxId}

theorem execDispenserDelivery_bad (hf : (s.floe f).ffault = 0) (h : s.nextDelivery f = some (i, n, c, k)) :
    execDispenserDelivery f true s = .next (s.floeFault f 1) := by
  simp [execDispenserDelivery, hf, h]

/-- A delivery takes the record from its bank and loads it into the context (R24). -/
theorem execDispenserDelivery_ok (hf : (s.floe f).ffault = 0) (h : s.nextDelivery f = some (i, n, c, k)) :
    ∃ u, execDispenserDelivery f false s = .next u ∧ u.mem = s.mem ∧
      (u.queue f i).bank = (s.queue f i).bank.eraseIdx n ∧
      u.ctxAt c k = (s.ctxAt c k).load (s.core c).part (nthD [] (s.queue f i).bank n) := by
  let taken := s.setQueue f i { s.queue f i with bank := (s.queue f i).bank.eraseIdx n }
  let loaded := taken.mapCtxAt c k fun x => x.load (s.core c).part (nthD [] (s.queue f i).bank n)
  have hq : loaded.queue f i = taken.queue f i := rfl
  refine ⟨loaded.refill f i, ?_, State.refill_mem _ f i, ?_, ?_⟩
  · simp [execDispenserDelivery, hf, h, loaded, taken]
  · rw [State.refill_bank, hq, State.setQueue_queue]
  · rw [State.refill_ctxAt]
    exact State.mapCtxAt_ctxAt _ _ _ _

theorem State.routed_of_not_any {r : List W} (h : (nthD 0 r 0).getLsbD 36 = false) : s.routed f r = f :=
  if_neg (by rw [wb, h]; decide)

/-- A record without a handle enters the bank of a queue that is resident, still and has room (R310). -/
theorem State.enter_bank {e : Enq} (hh : e.handle = none) (hs : e.src = .quiet) (hres : (s.queue f i).spilled = false)
    (hroom : (s.queue f i).bank.length < 256) : ((s.enter f i e).queue f i).bank = (s.queue f i).bank ++ [e.record] := by
  simp [State.enter, hh, hs, hres, hroom, State.answerEnq]

/-- A record without a handle and without routing enters its floe's queue of its priority (R311, R312). -/
theorem State.enqueue_bank {r : List W} (hany : (nthD 0 r 0).getLsbD 36 = false)
    (hi : (nthD 0 r 0).extractLsb' 30 2 = i) (hmove : (s.queue f i).move = none) (hres : (s.queue f i).spilled = false)
    (hroom : (s.queue f i).bank.length < 256) :
    ((s.enqueue f ⟨r, none, .quiet⟩).queue f i).bank = (s.queue f i).bank ++ [r] := by
  have he : enqueueIndex ⟨r, none, .quiet⟩ = i := hi
  rw [State.enqueue, State.routed_of_not_any hany, State.enqueueAt, he]
  simp only [hmove, Option.isSome_none, Bool.false_eq_true, if_false]
  exact State.enter_bank rfl rfl hres hroom

end

/-- A move in progress ends, or fails with the ring's access (R310, R335). -/
theorem execQueueMoveComplete_moving {s : State} {f : FloeId} {i : BitVec 2} {ok : Bool} (hf : (s.floe f).ffault = 0)
    (hm : (s.queue f i).move.isSome = true) :
    execQueueMoveComplete f i ok s = .next (if ok then s.endMove f i else s.floeFault f 3) := by
  obtain ⟨l, hl⟩ := Option.isSome_iff_exists.1 hm
  simp [execQueueMoveComplete, hf, hl]

/-! ### The drift unit (R321) -/

section
variable {s : State} {f : FloeId} {v : Visit}

/-- The first visit of an interval: the neighbour with fewer tasks, and the moves that level the two (R321). -/
theorem State.driftVisit_zero (s : State) (f : FloeId) :
    let count := fun (j : Nat) => (s.core (coreAt f (j % 8))).bot - (s.core (coreAt f (j % 8))).top
    let nbr := if count 7 < count 1 then 7 else 1
    let theirs := s.core (coreAt f nbr)
    let room := (theirs.dqlim.toNat - theirs.dqbase.toNat) / 8 - count nbr
    let drift := (s.floe f).drift
    let moves := if count nbr ≤ count 0 ∧ (drift.extractLsb' 32 8).toNat ≤ count 0 - count nbr then
        Nat.min (Nat.min ((count 0 - count nbr) / 2) (drift.extractLsb' 40 8).toNat) room
      else 0
    s.driftVisit f 0 = ⟨0, nbr, moves, moves⟩ := by
  intro count nbr theirs room drift moves
  have hcount : ∀ j, (s.core (coreAt f (j % 8))).dqCount = count j := fun _ => rfl
  have hj : (if count (0 + 7) < count (0 + 1) then (0 + 7) % 8 else (0 + 1) % 8) = nbr := rfl
  have htheirs : theirs.dqCap - theirs.dqCount = room := by
    have hmod : nbr % 8 = nbr := by
      show (if _ then 7 else 1) % 8 = if _ then 7 else 1
      split <;> rfl
    show theirs.dqCap - _ = theirs.dqCap - (s.core (coreAt f (nbr % 8))).dqCount
    rw [hmod]
  simp only [State.driftVisit, hcount, hj, wf_eq_toNat, Bool.and_eq_true, decide_eq_true_eq]
  rw [show (s.core (coreAt f nbr)).dqCap - (s.core (coreAt f nbr)).dqCount = room from htheirs]

theorem execDriftInterval_begins (hf : (s.floe f).ffault = 0) (hd : (s.floe f).drift.extractLsb' 0 32 ≠ 0)
    (hv : (s.floe f).visit = none) :
    execDriftInterval f s = .next (s.mapFloe f fun x => { x with visit := some (s.driftVisit f 0) }) := by
  have : wf (s.floe f).drift 0 32 ≠ 0 := by
    rw [← bne_iff_ne, wf_ne_zero, bne_iff_ne]
    exact hd
  simp [execDriftInterval, this, hf, hv]

theorem State.driftOn_ends (hf : (s.floe f).ffault = 0) (hv : (s.floe f).visit = some v) (hl : v.left = 0) :
    s.driftOn f = s.mapFloe f fun x =>
      { x with
        dmoves := BitVec.ofNat 32 (min (x.dmoves.toNat + v.n) (2 ^ 32 - 1))
        visit := if v.core < 7 then some (s.driftVisit f (v.core + 1)) else none } := by
  simp only [State.driftOn, hv, hf, hl, show v.core < 7 ↔ v.core + 1 < 8 by omega]
  rfl

section
variable (hf : (s.floe f).ffault = 0) (hv : (s.floe f).visit = some v) (hl : 0 < v.left)
  (hm : s.moves (coreAt f v.core) (coreAt f v.nbr) = true)
include hf hv hl hm

theorem State.driftOn_waits
    (hh : s.stealHeld (coreAt f v.core) = true ∨ s.pushHeld (coreAt f v.nbr) = true) : s.driftOn f = s := by
  have : v.left ≠ 0 := by omega
  simp [State.driftOn, hv, hf, hm, this, hh]

theorem State.driftOn_moves (hs : s.stealHeld (coreAt f v.core) = false) (hp : s.pushHeld (coreAt f v.nbr) = false) :
    s.driftOn f = (((s.dqSteal (coreAt f v.core)).2.dqPush (coreAt f v.nbr) (s.dqSteal (coreAt f v.core)).1).2).mapFloe f
      fun x => { x with visit := some { v with left := v.left - 1 } } := by
  have : v.left ≠ 0 := by omega
  simp [State.driftOn, hv, hf, hm, this, hs, hp, State.driftMove]

end
end

end Sys2Proof.Machine
end

section
/-! SUPPORT. Floe instructions and the events of the dispenser, all settled together (R308 to R321). -/

namespace Sys2Proof.Machine

theorem State.moves_of {s : State} {i j : CoreId} (h0 : 0 < (s.core i).bot - (s.core i).top)
    (h1 : (s.core j).bot - (s.core j).top < ((s.core j).dqlim.toNat - (s.core j).dqbase.toNat) / 8) :
    s.moves i j = true := by
  have h0' : ((s.core i).dqCount != 0) = true := bne_iff_ne.2 (Nat.ne_of_gt h0)
  rw [State.moves, h0', Bool.true_and]
  exact decide_eq_true h1

section
variable {s : State} {d a b : Reg} {x y : W}

/-! ### Floe registers -/

theorem execRdfloe_ok {v : W} (h : s.operands [a] [d] [] = .ok [x])
    (hv : (s.floe s.myFloe).readReg (x.extractLsb' 0 12).toNat = some v) :
    execRdfloe d a s = .next (s.doneG 4 [a] d v) := by
  rw [← wf_eq_toNat] at hv
  refine State.issue_ok h ?_
  simp only [nthD, hv]

theorem execRdfloe_refused (h : s.operands [a] [d] [] = .ok [x])
    (hv : (s.floe s.myFloe).readReg (x.extractLsb' 0 12).toNat = none) : execRdfloe d a s = .next (s.trap illOpnd) := by
  rw [← wf_eq_toNat] at hv
  refine State.issue_trap h ?_
  simp only [nthD, hv]

theorem execWrfloe_ok {v : Floe} (h : s.operands [a, b] [] [] = .ok [x, y]) (hs : s.isSupervisor = true)
    (hv : (s.floe s.myFloe).writeReg (x.extractLsb' 0 12).toNat s.me.xroot y = some v) :
    execWrfloe a b s = .next ((s.setFloe s.myFloe v).done 4 [a, b]) := by
  rw [← wf_eq_toNat] at hv
  exact (State.issueIf_ok h hs).trans (State.issue_ok h (State.writeFloe_ok hs hv))

theorem State.writeFloe_event {n : Nat} {v : W} {z : Floe} (hs : s.isSupervisor = true)
    (hw : (s.floe s.myFloe).writeReg n s.me.xroot v = some z) :
    s.finishJump (s.writeFloe n v) = .next (s.setFloe s.myFloe z) := by
  rw [State.writeFloe_ok hs hw]
  rfl

theorem State.writeFloe_event_refused {n : Nat} {v : W} (hs : s.isSupervisor = false) :
    s.finishJump (s.writeFloe n v) = .next (s.trap illOpnd) := by
  rw [State.writeFloe_refused hs]
  rfl

/-- The two issue widths of the tile scheduler, together within 64. -/
theorem Floe.writeTsc_ok (z : Floe) (h : (x.extractLsb' 0 6).toNat + (x.extractLsb' 6 6).toNat ≤ 64) :
    z.writeTsc x = some { z with tsc := (x.extractLsb' 0 12).zeroExtend 64 } := by
  rw [Floe.writeTsc, wf_eq_toNat, wf_eq_toNat, wf_eq_toNat, if_neg (Nat.not_lt.2 h), BitVec.ofNat_toNat]

/-! ### Queues and deques -/

theorem targetFloe_ne (hf : x.extractLsb' 40 8 ≠ s.myFloe) : ¬ (targetFloe x == s.myFloe) = true := by
  simpa [targetFloe] using hf

theorem wf_low_two (x : W) : wf x 0 2 = (x.truncate 2 : BitVec 2).toNat := by
  simp [wf, bits]

/-- The bits of a queue number above the two that name one are 0. -/
theorem wf_two_eq_zero (x : W) : wf x 2 62 = 0 ↔ x.toNat < 4 := by
  have := x.isLt
  rw [wf, bits]
  omega

/-- The state in which an instruction that asks another unit waits. -/
def State.asking (s : State) : State := s.newTxn.2.2.mapCtx fun c => { c with req := some ⟨s.newTxn.2.1, none⟩ }

/-- Who asks. -/
def State.asker (s : State) : Issuer := ⟨s.cur.core, s.cur.ctx, s.newTxn.2.1⟩

theorem execQhandle_own (h : s.operands [a] [d] [] = .ok [x]) (hf : x.extractLsb' 40 8 = s.myFloe) :
    execQhandle d a s = .next (s.doneG 4 [a] d (s.handleOf s.myFloe (x.truncate 2))) :=
  State.issue_ok h (if_pos (by simpa [targetFloe, nthD] using hf))

theorem execQhandle_asks (h : s.operands [a] [d] [] = .ok [x]) (hf : x.extractLsb' 40 8 ≠ s.myFloe) (hr : s.ctx.req = none) :
    execQhandle d a s = .next ((s.asking.sendCore s.cur.core (.floe (x.extractLsb' 40 8)) false 8
      (.handleReq s.asker (x.truncate 2 : BitVec 2).toNat)).block { kind := 1, hold := true }) := by
  rw [← wf_low_two]
  exact State.issue_block h ((if_neg (targetFloe_ne hf)).trans (State.awaitHeld_ask hr))

theorem execQhandle_answered {txn : Nat} {w : W} {g : BitVec 5} (h : s.operands [a] [d] [] = .ok [x])
    (hf : x.extractLsb' 40 8 ≠ s.myFloe) (hr : s.ctx.req = some ⟨txn, some (.value w g)⟩) :
    execQhandle d a s = .next (s.doneG 4 [a] d w) :=
  State.issue_ok h ((if_neg (targetFloe_ne hf)).trans (State.awaitHeld_answered hr))

theorem execQstat_ok (h : s.operands [a] [d] [] = .ok [x]) (hx : x.toNat < 4) :
    let r := s.queue s.myFloe (x.truncate 2)
    execQstat d a s = .next (s.doneG 4 [a] d
      (mkW [(b2n r.spilled, 63), (r.ringLen, 36), (r.gen.toNat, 24), (r.bank.length, 0)])) :=
  State.issue_ok h (if_neg (by simpa [nthD] using (wf_two_eq_zero x).2 hx))

theorem execQstat_illegal (h : s.operands [a] [d] [] = .ok [x]) (hx : 4 ≤ x.toNat) :
    execQstat d a s = .next (s.trap illOpnd) :=
  State.issue_trap h (if_pos (by simpa [nthD, wf_two_eq_zero] using hx))

theorem execQreset_ok (h : s.operands [a] [] [] = .ok [x]) (hs : s.isSupervisor = true) (hx : x.toNat < 4) :
    execQreset a s = .next ((s.resetQueue s.myFloe (x.truncate 2)).done 4 [a]) :=
  (State.issueIf_ok h hs).trans (State.issue_ok h (if_neg (by simpa [nthD] using (wf_two_eq_zero x).2 hx)))

theorem execDqpush_zero (h : s.operands [a] [d] [] = .ok [0]) : execDqpush d a s = .next (s.trap illOpnd) :=
  State.issue_trap h (if_pos rfl)

theorem execDqpush_waits (h : s.operands [a] [d] [] = .ok [x]) (hx : x ≠ 0) (hh : s.pushHeld s.cur.core = true) :
    execDqpush d a s = .next (s.block { kind := 5 }) :=
  State.issue_block h ((if_neg hx).trans (if_pos hh))

theorem execDqpush_ok (h : s.operands [a] [d] [] = .ok [x]) (hx : x ≠ 0) (hh : s.pushHeld s.cur.core = false) :
    execDqpush d a s = .next ((s.dqPush s.cur.core x).2.doneG 4 [a] d (b2w (s.dqPush s.cur.core x).1)) :=
  State.issue_ok h ((if_neg hx).trans (if_neg (by rw [hh]; decide)))

/-- The steal request of a well-formed target word. -/
theorem execDqsteal_reserved (h1 : x.extractLsb' 48 16 = 0) (h2 : x.extractLsb' 0 37 = 0) :
    ¬ (wf x 48 16 != 0 || wf x 0 37 != 0) = true := by
  rw [wf_ne_zero, wf_ne_zero, h1, h2]
  decide

theorem execDqsteal_asks (h : s.operands [a] [d] [] = .ok [x]) (h1 : x.extractLsb' 48 16 = 0)
    (h2 : x.extractLsb' 0 37 = 0) (hr : s.ctx.req = none) :
    execDqsteal d a s = .next ((s.asking.sendCore s.cur.core (.core (x.extractLsb' 37 11)) false 8
      (.stealReq s.asker)).block { kind := 1, hold := true }) :=
  State.issue_block h ((if_neg (execDqsteal_reserved h1 h2)).trans (State.awaitHeld_ask hr))

theorem execDqsteal_answered {txn : Nat} {w : W} {g : BitVec 5} (h : s.operands [a] [d] [] = .ok [x])
    (h1 : x.extractLsb' 48 16 = 0) (h2 : x.extractLsb' 0 37 = 0) (hr : s.ctx.req = some ⟨txn, some (.value w g)⟩) :
    execDqsteal d a s = .next (s.doneG 4 [a] d w) :=
  State.issue_ok h ((if_neg (execDqsteal_reserved h1 h2)).trans (State.awaitHeld_answered hr))

theorem execDqpop_waits (h : s.operands [] [d] [] = .ok []) (hh : s.popHeld s.cur.core = true) :
    execDqpop d s = .next (s.block { kind := 5 }) :=
  State.issue_block h (if_pos hh)

theorem execDqpop_ok (h : s.operands [] [d] [] = .ok []) (hh : s.popHeld s.cur.core = false) :
    execDqpop d s = .next ((s.dqPop s.cur.core).2.doneG 4 [] d (s.dqPop s.cur.core).1) :=
  State.issue_ok h (if_neg (by rw [hh]; decide))

/-! ### Continuations -/

/-- A spawn launches its record with its handle (R315). -/
theorem execSpawn_ok {r : List W} {ks : List Nat} (h : s.operands [a, b] [] [] = .ok [x, y])
    (h1 : y.extractLsb' 48 16 = 0) (h2 : y.extractLsb' 36 4 = 0) (h3 : y.extractLsb' 2 22 = 0)
    (hr : s.readRecord x = .ok (r, ks)) (hf : (nthD 0 r 0).extractLsb' 40 8 = y.extractLsb' 40 8)
    (hp : (nthD 0 r 0).extractLsb' 30 2 = y.extractLsb' 0 2) (hc : s.ctx.count .gstore < 65535) :
    execSpawn a b s = .next ((((s.correctUnits ks).mapCtx fun c => c.launch .gstore false none).sendCore s.cur.core
      (.floe (y.extractLsb' 40 8)) false 72 (.enqueue (some s.origin) r (some y))).done 4 [a, b]) := by
  have hres : handleReserved y = false := by
    rw [handleReserved, wf_ne_zero, wf_ne_zero, wf_ne_zero, h1, h2, h3]
    decide
  have hroom : s.classRoom .gstore = .ok () := if_neg (by omega)
  have htarget : (targetFloe (nthD 0 r 0) != targetFloe y || wf (nthD 0 r 0) 30 2 != wf y 0 2) = false := by
    rw [targetFloe, targetFloe, hf, wf_eq_toNat, wf_eq_toNat, hp, bne_self_eq_false, bne_self_eq_false, Bool.or_false]
  refine State.issue_ok h ((if_neg (by simpa [nthD] using hres)).trans ?_)
  show (s.readRecord x).bind _ = _
  rw [hr]
  refine (if_neg fun hn => Bool.false_ne_true (htarget.symm.trans hn)).trans ?_
  show (s.classRoom .gstore).bind _ = _
  rw [hroom]
  rfl

theorem State.peek_of_operands {src : List Reg} {l : List W} (h : s.operands src [] [] = .ok l) (i : Nat) :
    s.peek src [] i = nthD 0 l i := by
  simp [State.peek, h]

/-- `suspend` is an end of turn, refused where the resume address is odd. -/
theorem execSuspend_eq {bad : Bool} (h : s.operands [a] [] [] = .ok [x]) (hx : x.getLsbD 0 = bad) :
    execSuspend a s = s.endTurn [a] bad fun l t =>
      let r := t.ctx.suspendRecord (nthD 0 l 0)
      t.sendCore t.cur.core (.floe (targetFloe (nthD 0 r 0))) false 64 (.enqueue none r none) := by
  rw [execSuspend, State.peek_of_operands h, ← hx]
  rfl

theorem execSuspend_illegal (h : s.operands [a] [] [] = .ok [x]) (hx : x.getLsbD 0 = true ∨ s.cur.ctx = 0) :
    execSuspend a s = .next (s.trap illOpnd) := by
  refine (execSuspend_eq h rfl).trans (State.endTurn_illegal h ?_)
  obtain hx | hx := hx
  · rw [hx, Bool.or_true]
  · rw [hx, beq_self_eq_true, Bool.true_or, Bool.true_or]

/-- Outside a gang, `disband` is an end of turn (R333). -/
theorem execDisband_eq (hg : s.ctx.gang = none) (hl : s.ctx.leaving = none) :
    execDisband s = s.endTurn [] false fun _ t => t := by
  simp [execDisband, hg, hl]

theorem execFunion_ok (h : s.operands [] [d] [] = .ok []) (hs : s.isSupervisor = true) :
    let flags := (coresOf s.myFloe).map fun c => nthD 0 (s.core c).fhist 3
    execFunion d s = .next (s.doneG 4 [] d (mkW (((flags.foldl (fun a f => a ||| f) 0).toNat, 0) ::
      (List.range 8).map fun i => (if nthD 0 flags i ≠ 0 then 1 else 0, 8 + i)))) := by
  intro flags
  have hb : ∀ i, b2n (nthD 0 flags i != 0) = if nthD 0 flags i ≠ 0 then 1 else 0 := fun i => by simp [b2n]
  refine (State.issueIf_ok h hs).trans (State.issue_ok h ?_)
  simp only [← hb]
  rfl

end

/-- Settles O47: each clause is an instruction that completes, traps or waits by the rules above, or the choice of the dispenser. -/
theorem floesDispense : Obligations.FloesDispense := by
  unfold Obligations.FloesDispense
  intro s d a b x y f i c k p n pk mine illegal t waiting quiet asks issuer at_
  refine ⟨fun h => ⟨fun v hv => exec_rdfloe.trans (execRdfloe_ok h hv), fun hx => exec_rdfloe.trans (execRdfloe_ok h (by rw [hx]; rfl)),
        fun hv => exec_rdfloe.trans (execRdfloe_refused h hv),
        ⟨fun hh => exec_qhandle.trans (execQhandle_own h hh), fun hh hr => exec_qhandle.trans (execQhandle_asks h hh hr),
          fun txn w g hh hr => exec_qhandle.trans (execQhandle_answered h hh hr),
          fun hx => exec_qstat.trans (execQstat_ok h hx), fun hx => exec_qstat.trans (execQstat_illegal h hx)⟩,
        fun hx => exec_dqpush.trans (execDqpush_zero (hx ▸ h)), fun hx hh => exec_dqpush.trans (execDqpush_waits h hx hh),
        fun hx hh => exec_dqpush.trans (execDqpush_ok h hx hh),
        fun h1 h2 => ⟨fun hr => exec_dqsteal.trans (execDqsteal_asks h h1 h2 hr),
          fun txn w g hr => exec_dqsteal.trans (execDqsteal_answered h h1 h2 hr)⟩⟩,
      fun h => ⟨fun v hs hv => exec_wrfloe.trans (execWrfloe_ok h hs hv),
        fun hs => exec_wrfloe.trans (State.issueIf_refused h hs),
        fun r ks h1 h2 h3 hr hf hp hc => exec_spawn.trans (execSpawn_ok h h1 h2 h3 hr hf hp hc)⟩,
      fun hs => ⟨fun v hv => exec_qringWrite.trans (State.writeFloe_event hs ((Floe.writeReg_ring _ _ _ _).trans hv)),
        fun v hv => exec_driftWrite.trans (State.writeFloe_event hs hv),
        fun hx => exec_tscWrite.trans (State.writeFloe_event hs (Floe.writeTsc_ok _ hx))⟩,
      fun hs => ⟨exec_qringWrite.trans (State.writeFloe_event_refused hs),
        exec_driftWrite.trans (State.writeFloe_event_refused hs), exec_tscWrite.trans (State.writeFloe_event_refused hs)⟩,
      fun h => ⟨fun hs => exec_funion.trans (execFunion_ok h hs), fun hs => exec_funion.trans (State.issueIf_refused h hs),
        fun hh => exec_dqpop.trans (execDqpop_waits h hh), fun hh => exec_dqpop.trans (execDqpop_ok h hh),
        exec_dqcount.trans (State.issue_ok h rfl)⟩,
      fun h => ⟨fun hs hx => exec_qreset.trans (execQreset_ok h hs hx), fun hs => exec_qreset.trans (State.issueIf_refused h hs),
        fun hq ho hx => exec_suspend.trans ((execSuspend_eq h hx).trans (State.endTurn_waiting h hq ho)),
        fun hq ho hx => exec_suspend.trans ((execSuspend_eq h hx).trans (State.endTurn_block h hq ho)),
        fun hx => exec_suspend.trans (execSuspend_illegal h hx)⟩,
      fun h => ⟨fun hq ho => ⟨exec_waitw.trans (State.endTurn_waiting h hq ho), exec_retire.trans (State.endTurn_waiting h hq ho),
          fun hl => exec_disband.trans ((execDisband_eq hq.2.1 hl).trans (State.endTurn_waiting h hq ho))⟩,
        fun hq ho => ⟨exec_waitw.trans (State.endTurn_block h hq ho), exec_retire.trans (State.endTurn_block h hq ho),
          fun hl => exec_disband.trans ((execDisband_eq hq.2.1 hl).trans (State.endTurn_block h hq ho))⟩,
        fun hg => ⟨exec_waitw.trans (State.endTurn_illegal h (by simp [hg])), exec_retire.trans (State.endTurn_illegal h (by simp [hg]))⟩,
        fun hc => ⟨exec_waitw.trans (State.endTurn_illegal h (by simp [hc])), exec_retire.trans (State.endTurn_illegal h (by simp [hc]))⟩⟩,
      ⟨State.nextDelivery_eq_none, State.nextDelivery_eq_some⟩,
      fun r hf hn hr => ⟨?_, exec_dispenserDelivery.trans (execDispenserDelivery_bad hf hn)⟩,
      fun r o h hf => ⟨fun ha => ⟨?_, fun hany hm hres hroom => ?_⟩, fun ha => ?_, fun ep gen host ha => ?_, fun ok ha => ?_⟩,
      fun g h m => ⟨fun ha => ?_, fun ha => ?_, fun ha hh => ?_, fun ha hh => ?_, fun ha => ?_⟩,
      fun hf => ⟨fun hm => ⟨exec_queueMoveComplete.trans (execQueueMoveComplete_moving hf hm),
          exec_queueMoveComplete.trans (execQueueMoveComplete_moving hf hm)⟩, ⟨fun hd hv => ?_, fun hv => ?_⟩, fun v hv =>
        ⟨fun hl => State.driftOn_ends hf hv hl, fun hl h0 h1 hh => State.driftOn_waits hf hv hl (State.moves_of h0 h1) hh,
          fun hl h0 h1 hs hp => State.driftOn_moves hf hv hl (State.moves_of h0 h1) hs hp⟩⟩⟩
  · obtain ⟨u, hu, hmem, hbank, hctx⟩ := execDispenserDelivery_ok hf hn
    refine ⟨u, exec_dispenserDelivery.trans hu, hmem, hbank, ?_⟩
    rw [hctx, hr]
    exact Ctx.load_spec _ _ r
  · refine exec_enqueueWithoutHandle.trans ?_
    simp only [execEnqueueWithoutHandle, State.atUnit_of ha]
    rfl
  · refine ⟨t.enqueue f ⟨r, none, .quiet⟩, exec_enqueueWithoutHandle.trans ?_, State.enqueue_bank hany rfl hm hres hroom⟩
    simp only [execEnqueueWithoutHandle, State.atUnit_of ha]
    rfl
  · refine exec_enqueueWithHandle.trans ?_
    simp only [execEnqueueWithHandle, State.atUnit_of ha]
    rfl
  · refine exec_taskRequest.trans ?_
    simp only [execTaskRequest, State.atUnit_of ha]
    rfl
  · refine exec_enqueueAckArrival.trans ?_
    simp only [execEnqueueAckArrival, State.atUnit_of ha]
    rfl
  · refine exec_qhandleReplyArrival.trans ?_
    simp only [execQhandleReplyArrival, State.atUnit_of ha]
    rfl
  · refine exec_qhandleReplyArrival.trans ?_
    simp only [execQhandleReplyArrival, State.atUnit_of ha]
    rfl
  · refine exec_stealRequestArrival.trans ?_
    simp only [execStealRequestArrival, State.atUnit_of ha, hh]
    rfl
  · refine exec_stealRequestArrival.trans ?_
    simp only [execStealRequestArrival, State.atUnit_of ha, hh]
    rfl
  · refine exec_stealReplyArrival.trans ?_
    simp only [execStealReplyArrival, State.atUnit_of ha]
    rfl
  · exact exec_driftInterval.trans ((execDriftInterval_begins hf hd hv).trans (by rw [State.driftVisit_zero]))
  · refine exec_driftInterval.trans ?_
    simp [execDriftInterval, hv]

end Sys2Proof.Machine
end

section
/-! SUPPORT. Supervision by c0 (R160 to R162): what the instructions on another context share, and the registers of a context
that a selector names (Table 8.4). -/

namespace Sys2Proof.Machine

section
variable {s t : State} {src dst : List Reg} {l : List W} {f : CtxId → List W → State → Res State} {k : CtxId}

theorem State.supervise_of_not_c0 (hc : s.cur.ctx ≠ 0) : s.supervise src dst f = .next (s.trap illOpnd) := by
  rw [State.supervise, State.issueIf, beq_false_of_ne hc]
  exact ite_self _

theorem State.supervise_of_c0 (h : s.operands src dst [] = .ok l) (hc : s.cur.ctx = 0) :
    s.supervise src dst f = s.issue 4 src dst [] fun l t =>
      let c : CtxId := (nthD 0 l 0).truncate 4
      if c == 0 then .trap illOpnd else f c l t :=
  State.issueIf_ok h (by simp [hc])

/-- Only c0 supervises, and never itself (R160). -/
theorem State.supervise_refused (h : s.operands src dst [] = .ok l) (hk : (nthD 0 l 0).truncate 4 = k)
    (hl : ¬ (s.cur.ctx = 0 ∧ k ≠ 0)) : s.supervise src dst f = .next (s.trap illOpnd) := by
  by_cases hc : s.cur.ctx = 0
  · have h0 : k = 0 := by_contra fun hn => hl ⟨hc, hn⟩
    rw [State.supervise_of_c0 h hc]
    refine State.issue_trap h ?_
    subst hk
    exact if_pos (by simpa using h0)
  · exact State.supervise_of_not_c0 hc

section
variable (h : s.operands src dst [] = .ok l) (hc : s.cur.ctx = 0) (hk : (nthD 0 l 0).truncate 4 = k) (h0 : k ≠ 0)
include h hc hk h0

theorem State.supervise_ok (hf : f k l s = .ok t) : s.supervise src dst f = .next (t.done 4 src) := by
  subst hk
  rw [State.supervise_of_c0 h hc]
  exact State.issue_ok h ((if_neg (by simpa using h0)).trans hf)

theorem State.supervise_trap {e : Trap} (hf : f k l s = .trap e) : s.supervise src dst f = .next (s.trap e) := by
  subst hk
  rw [State.supervise_of_c0 h hc]
  exact State.issue_trap h ((if_neg (by simpa using h0)).trans hf)

theorem State.supervise_block {w : Wait} (hf : f k l s = .block w t) : s.supervise src dst f = .next (t.block w) := by
  subst hk
  rw [State.supervise_of_c0 h hc]
  exact State.issue_block h ((if_neg (by simpa using h0)).trans hf)

end
end

/-! ### Selectors (Table 8.4) -/

/-- The numbers of Table 6.5. -/
def sysNumbers : List Nat := [0x000, 0x001, 0x008, 0x010, 0x011, 0x012, 0x014, 0x015, 0x016, 0x018, 0x019, 0x01A, 0x020, 0x021,
  0x022, 0x028, 0x029, 0x02A, 0x02B, 0x100, 0x101]

theorem sysRegOk_iff {m : Nat} (h : m < 4096) : sysRegOk (BitVec.ofNat 12 m) = true ↔ m ∈ sysNumbers := by
  rw [sysRegOk, List.contains_iff_mem, BitVec.toNat_ofNat, Nat.mod_eq_of_lt h]
  rfl

/-- The selectors that name no register of a context under these caps. -/
def Unlisted (part : W) (sel : Nat) : Prop :=
  (0x28 ≤ sel ∧ sel < 0x30) ∨ (0x34 ≤ sel ∧ sel < 0x38) ∨ (0x39 ≤ sel ∧ sel < 0x3F) ∨
  (0x40 ≤ sel ∧ sel < 0x100) ∨ (0x200 ≤ sel ∧ sel < 0x800) ∨ (0x800 ≤ sel ∧ sel - 0x800 ∉ sysNumbers) ∨
  (sel < 0x20 ∧ gcapOf part ≤ sel) ∨ (0x100 ≤ sel ∧ sel < 0x200 ∧ vcapOf part ≤ (sel - 0x100) / 16)

section
variable {c : Ctx} {part loc cycles v : W} {n : Nat}

theorem Ctx.readSel_eq_none (hn : n < 4096) : c.readSel part n loc cycles = none ↔ Unlisted part n := by
  have hs : sysRegOk (BitVec.ofNat 12 (n - 0x800)) = true ↔ n - 0x800 ∈ sysNumbers := sysRegOk_iff (by omega)
  unfold Ctx.readSel Unlisted
  grind

theorem Ctx.writeSel_of_unlisted (hn : n < 4096) (h : Unlisted part n) : c.writeSel part n v = none := by
  have hs : sysRegOk (BitVec.ofNat 12 (n - 0x800)) = true ↔ n - 0x800 ∈ sysNumbers := sysRegOk_iff (by omega)
  unfold Ctx.writeSel
  unfold Unlisted at h
  grind

/-! Each kind of register, read. -/

theorem Ctx.readSel_g {r : Reg} (h : r.toNat < gcapOf part) : c.readSel part r.toNat loc cycles = some (c.rg r) := by
  have hr := r.isLt
  rw [Ctx.readSel, if_pos (by omega), if_pos h, BitVec.ofNat_toNat, BitVec.setWidth_eq]

theorem Ctx.readSel_x (j : BitVec 3) : c.readSel part (0x20 + j.toNat) loc cycles = some c.x[j.toNat] := by
  have hj := j.isLt
  rw [Ctx.readSel, if_neg (by omega), if_pos (by omega), Nat.add_sub_cancel_left, BitVec.ofNat_toNat, BitVec.setWidth_eq]
  rfl

theorem Ctx.readSel_q (j : BitVec 2) : c.readSel part (0x30 + j.toNat) loc cycles = some (c.rq j) := by
  have hj := j.isLt
  rw [Ctx.readSel, if_neg (by omega), if_neg (by omega), if_pos (by simp; omega), Nat.add_sub_cancel_left,
    BitVec.ofNat_toNat, BitVec.setWidth_eq]

theorem Ctx.readSel_v (r j : Fin 16) (h : r.val < vcapOf part) :
    c.readSel part (0x100 + 16 * r.val + j.val) loc cycles = some (c.v[r].extractLsb' (64 * j.val) 64) := by
  obtain ⟨r, hr⟩ := r
  obtain ⟨j, hj⟩ := j
  have hd : (0x100 + 16 * r + j - 0x100) / 16 = r := by omega
  have hm : (0x100 + 16 * r + j - 0x100) % 16 = j := by omega
  dsimp only at h ⊢
  rw [Ctx.readSel, if_neg (by omega), if_neg (by omega), if_neg (by simp; omega), if_neg (by omega), if_neg (by omega),
    if_pos (by simp; omega), hd, hm, if_pos h, Ctx.rv]
  have h5 : (BitVec.ofNat 5 r).toNat = r := by simp; omega
  simp [h5, hr]

theorem Ctx.readSel_sys {p : Nat × W} (hp : p ∈ c.sysRegs loc cycles) :
    c.readSel part (0x800 + p.1) loc cycles = some p.2 := by
  have hm : p.1 ∈ sysNumbers := List.mem_map_of_mem (f := Prod.fst) hp
  have hall : ∀ n ∈ sysNumbers, n < 4096 := by decide
  have hs := (sysRegOk_iff (hall _ hm)).2 hm
  rw [Ctx.readSel, if_neg (by omega), if_neg (by omega), if_neg (by simp; omega), if_neg (by omega), if_neg (by omega),
    if_neg (by simp; omega), Nat.add_sub_cancel_left, hs, c.readSys_eq loc cycles p hp]
  simp

/-! Each kind of register, written. -/

theorem Ctx.writeSel_g {r : Reg} (h : r.toNat < gcapOf part) : c.writeSel part r.toNat v = some (c.wg r v) := by
  have hr := r.isLt
  rw [Ctx.writeSel, if_pos (by omega), if_pos h, BitVec.ofNat_toNat, BitVec.setWidth_eq]

theorem Ctx.writeSel_x (j : BitVec 3) :
    c.writeSel part (0x20 + j.toNat) v = some { c with x := c.x.set j.toNat v } := by
  have hj := j.isLt
  rw [Ctx.writeSel, if_neg (by omega), dif_pos (by omega)]
  simp only [Nat.add_sub_cancel_left]

theorem Ctx.writeSel_q (j : BitVec 2) : c.writeSel part (0x30 + j.toNat) v = some (c.wq j v) := by
  have hj := j.isLt
  rw [Ctx.writeSel, if_neg (by omega), dif_neg (by omega), if_pos (by simp; omega), Nat.add_sub_cancel_left,
    BitVec.ofNat_toNat, BitVec.setWidth_eq]

theorem Ctx.writeSel_v (r j : Fin 16) (h : r.val < vcapOf part) :
    c.writeSel part (0x100 + 16 * r.val + j.val) v = some { c with v := c.v.set r (setDword c.v[r] j.val v) } := by
  obtain ⟨r, hr⟩ := r
  obtain ⟨j, hj⟩ := j
  have hd : (0x100 + 16 * r + j - 0x100) / 16 = r := by omega
  have hm : (0x100 + 16 * r + j - 0x100) % 16 = j := by omega
  dsimp only at h ⊢
  have h5 : (BitVec.ofNat 5 r).toNat = r := by simp; omega
  rw [Ctx.writeSel, if_neg (by omega), dif_neg (by omega), if_neg (by simp; omega), if_neg (by omega), if_neg (by omega),
    if_pos (by simp; omega)]
  simp only [hd, hm, if_pos h]
  simp [Ctx.wv, Ctx.rv, h5, hr]

/-- Dword i of a vector register after dword j of it has been replaced. -/
theorem extractLsb'_setDword (x : V) {i j : Nat} (hi : i < 16) (hj : j < 16) (w : W) :
    (setDword x j w).extractLsb' (64 * i) 64 = if i = j then w else x.extractLsb' (64 * i) 64 := by
  ext b hb
  have hib : 64 * i + b < 1024 := by omega
  simp only [setDword, BitVec.getElem_extractLsb', BitVec.getLsbD_or, BitVec.getLsbD_and, BitVec.getLsbD_not,
    BitVec.getLsbD_shiftLeft, BitVec.getLsbD_setWidth, BitVec.getLsbD_allOnes]
  by_cases h : i = j
  · subst h
    simp [hib, hb, show b < 1024 by omega]
  · obtain hlt | hge : 64 * i + b < 64 * j ∨ 64 * j + 64 ≤ 64 * i + b := by omega
    · simp [hib, h, hlt]
    · have hw : w.getLsbD (64 * i + b - 64 * j) = false := BitVec.getLsbD_of_ge _ _ (by omega)
      simp [hib, h, hw, show ¬ 64 * i + b < 64 * j by omega, show ¬ 64 * i + b - 64 * j < 64 by omega]

theorem Ctx.writeSel_sys {n : Nat} (hn : n ∈ sysNumbers) : c.writeSel part (0x800 + n) v = c.writeSys n v := by
  have hall : ∀ n ∈ sysNumbers, n < 4096 := by decide
  have hs := (sysRegOk_iff (hall _ hn)).2 hn
  rw [Ctx.writeSel, if_neg (by omega), dif_neg (by omega), if_neg (by simp; omega), if_neg (by omega), if_neg (by omega),
    if_neg (by simp; omega), Nat.add_sub_cancel_left, hs]
  simp

end

end Sys2Proof.Machine
end

section
/-! SUPPORT. Registers of a parked context, read and written by c0 (R160, R162), from the spill area where it is SPILLED. -/

namespace Sys2Proof.Machine

/-- c0 may access the registers of context k: it is another's, STOPPED or SPILLED. -/
def State.parked (s : State) (k : CtxId) : Prop :=
  s.cur.ctx = 0 ∧ k ≠ 0 ∧ ((s.me.ctx k).life = .stopped ∨ (s.me.ctx k).life = .spilled)

/-- And the spill engine has served the access where it had to. -/
def State.served (s : State) (k : CtxId) : Prop :=
  s.parked k ∧ ((s.me.ctx k).life = .spilled → ∃ txn w f, s.ctx.req = some ⟨txn, some (.value w f)⟩)

section
variable {s : State} {k : CtxId} {n : Nat} {r : Res State}

theorem State.fromSpill_served {txn : Nat} {w : W} {f : BitVec 5} (h : s.ctx.req = some ⟨txn, some (.value w f)⟩) :
    s.fromSpill n r = r := by
  simp [State.fromSpill, h]

theorem State.fromSpill_asks (h : s.ctx.req = none) :
    s.fromSpill n r = .block { kind := 5 } (s.mapCtx fun c => { c with req := some ⟨n, none⟩ }) := by
  simp [State.fromSpill, h]

theorem State.fromSpill_waits {txn : Nat} (h : s.ctx.req = some ⟨txn, none⟩) :
    s.fromSpill n r = .block { kind := 5 } s := by
  simp [State.fromSpill, h]

theorem State.fromSpill_failed {txn : Nat} {f : Deferred} (h : s.ctx.req = some ⟨txn, some (.failed f)⟩) :
    s.fromSpill n r = .trap { cause := f.cause, addr := f.addr } := by
  simp [State.fromSpill, h]

theorem State.parked.life_ok (h : s.parked k) :
    ((s.me.ctx k).life != .stopped && (s.me.ctx k).life != .spilled) = false := by
  obtain ⟨-, -, hl | hl⟩ := h
  · rw [hl]; rfl
  · rw [hl]; rfl

/-- An access to a parked context answers at once, or from the spill area. -/
theorem State.served.access (h : s.served k) : (if (s.me.ctx k).life == .spilled then s.fromSpill n r else r) = r := by
  obtain ⟨-, hs⟩ := h
  split
  · next hl =>
    obtain ⟨txn, w, f, hr⟩ := hs (by simpa using hl)
    exact State.fromSpill_served hr
  · rfl

end

/-- The context that gA names. -/
theorem truncate_four (x : W) : (x.truncate 4 : CtxId) = x.extractLsb' 0 4 := BitVec.setWidth_eq_extractLsb' (by decide)

section
variable {s : State} {d a b : Reg} {x v w : W}

/-- The register that gA selects. -/
def selOf (x : W) : Nat := x.toNat / 2 ^ 16 % 2 ^ 12

theorem selOf_lt (x : W) : selOf x < 4096 := Nat.mod_lt _ (by decide)

/-- What c0 reads of the context that x names. -/
def State.selected (s : State) (x : W) : Option W :=
  (s.me.ctx (x.extractLsb' 0 4)).readSel s.me.part (selOf x) (locid s.cur.core (x.extractLsb' 0 4)) (BitVec.ofNat 64 s.me.cycle)

/-- That context after a write of v to the register selected. -/
def State.rewritten (s : State) (x v : W) : Option Ctx :=
  (s.me.ctx (x.extractLsb' 0 4)).writeSel s.me.part (selOf x) v

theorem State.parked.not_refused {k : CtxId} (hp : s.parked k) :
    ¬ ((s.me.ctx k).life != .stopped && (s.me.ctx k).life != .spilled) = true := by
  rw [hp.life_ok]
  decide

/-- What `rdctx` does once its context is parked. -/
def State.rdctxOn (s : State) (d : Reg) (x : W) : Res State :=
  match s.selected x with
  | some w =>
    if (s.me.ctx (x.extractLsb' 0 4)).life == .spilled then s.fromSpill (32 + (x.extractLsb' 0 4).toNat) (.ok (s.setG d w))
    else .ok (s.setG d w)
  | none => .trap illOpnd

/-- What `wrctx` does then. -/
def State.wrctxOn (s : State) (x v : W) : Res State :=
  match s.rewritten x v with
  | some c =>
    if (s.me.ctx (x.extractLsb' 0 4)).life == .spilled then
      s.fromSpill (48 + (x.extractLsb' 0 4).toNat) (.ok (s.mapCtxAt s.cur.core (x.extractLsb' 0 4) fun _ => c))
    else .ok (s.mapCtxAt s.cur.core (x.extractLsb' 0 4) fun _ => c)
  | none => .trap illOpnd

/-- `rdctx` is an instruction of c0 whose effect on a parked context is `rdctxOn`. -/
theorem execRdctx_supervise (hp : s.parked (x.extractLsb' 0 4)) :
    ∃ f, execRdctx d a s = s.supervise [a] [d] f ∧ f (x.extractLsb' 0 4) [x] s = s.rdctxOn d x :=
  ⟨_, rfl, if_neg hp.not_refused⟩

theorem execWrctx_supervise (hp : s.parked (x.extractLsb' 0 4)) :
    ∃ f, execWrctx a b s = s.supervise [a, b] [] f ∧ f (x.extractLsb' 0 4) [x, v] s = s.wrctxOn x v :=
  ⟨_, rfl, if_neg hp.not_refused⟩

/-- Of a context that is not parked, or by another than c0, both are refused. -/
theorem State.supervise_unparked {f : CtxId → List W → State → Res State} {src dst : List Reg} {l : List W}
    (h : s.operands src dst [] = .ok (x :: l)) (hp : ¬ s.parked (x.extractLsb' 0 4))
    (hf : ((s.me.ctx (x.extractLsb' 0 4)).life != .stopped && (s.me.ctx (x.extractLsb' 0 4)).life != .spilled) = true →
      f (x.extractLsb' 0 4) (x :: l) s = .trap illOpnd) : s.supervise src dst f = .next (s.trap illOpnd) := by
  by_cases hl : s.cur.ctx = 0 ∧ x.extractLsb' 0 4 ≠ 0
  · obtain ⟨hc, h0⟩ := hl
    refine State.supervise_trap h hc (truncate_four x) h0 (hf ?_)
    have hlife : ¬ ((s.me.ctx (x.extractLsb' 0 4)).life = .stopped ∨ (s.me.ctx (x.extractLsb' 0 4)).life = .spilled) :=
      fun hl => hp ⟨hc, h0, hl⟩
    simpa [not_or] using hlife
  · exact State.supervise_refused h (truncate_four x) hl

section
variable (h : s.operands [a] [d] [] = .ok [x])
include h

theorem execRdctx_unparked (hp : ¬ s.parked (x.extractLsb' 0 4)) : execRdctx d a s = .next (s.trap illOpnd) :=
  State.supervise_unparked h hp fun hl => if_pos hl

theorem execRdctx_ok (hp : s.parked (x.extractLsb' 0 4)) {t : State} (ht : s.rdctxOn d x = .ok t) :
    execRdctx d a s = .next (t.done 4 [a]) := by
  obtain ⟨f, he, hf⟩ := execRdctx_supervise (d := d) (a := a) hp
  exact he.trans (State.supervise_ok h hp.1 (truncate_four x) hp.2.1 (hf.trans ht))

theorem execRdctx_trap (hp : s.parked (x.extractLsb' 0 4)) {e : Trap} (ht : s.rdctxOn d x = .trap e) :
    execRdctx d a s = .next (s.trap e) := by
  obtain ⟨f, he, hf⟩ := execRdctx_supervise (d := d) (a := a) hp
  exact he.trans (State.supervise_trap h hp.1 (truncate_four x) hp.2.1 (hf.trans ht))

theorem execRdctx_block (hp : s.parked (x.extractLsb' 0 4)) {z : Wait} {t : State} (ht : s.rdctxOn d x = .block z t) :
    execRdctx d a s = .next (t.block z) := by
  obtain ⟨f, he, hf⟩ := execRdctx_supervise (d := d) (a := a) hp
  exact he.trans (State.supervise_block h hp.1 (truncate_four x) hp.2.1 (hf.trans ht))

end

section
variable (h : s.operands [a, b] [] [] = .ok [x, v])
include h

theorem execWrctx_unparked (hp : ¬ s.parked (x.extractLsb' 0 4)) : execWrctx a b s = .next (s.trap illOpnd) :=
  State.supervise_unparked h hp fun hl => if_pos hl

theorem execWrctx_ok (hp : s.parked (x.extractLsb' 0 4)) {t : State} (ht : s.wrctxOn x v = .ok t) :
    execWrctx a b s = .next (t.done 4 [a, b]) := by
  obtain ⟨f, he, hf⟩ := execWrctx_supervise (a := a) (b := b) (v := v) hp
  exact he.trans (State.supervise_ok h hp.1 (truncate_four x) hp.2.1 (hf.trans ht))

theorem execWrctx_trap (hp : s.parked (x.extractLsb' 0 4)) {e : Trap} (ht : s.wrctxOn x v = .trap e) :
    execWrctx a b s = .next (s.trap e) := by
  obtain ⟨f, he, hf⟩ := execWrctx_supervise (a := a) (b := b) (v := v) hp
  exact he.trans (State.supervise_trap h hp.1 (truncate_four x) hp.2.1 (hf.trans ht))

theorem execWrctx_block (hp : s.parked (x.extractLsb' 0 4)) {z : Wait} {t : State} (ht : s.wrctxOn x v = .block z t) :
    execWrctx a b s = .next (t.block z) := by
  obtain ⟨f, he, hf⟩ := execWrctx_supervise (a := a) (b := b) (v := v) hp
  exact he.trans (State.supervise_block h hp.1 (truncate_four x) hp.2.1 (hf.trans ht))

end

/-! What the access to a parked context answers. -/

theorem State.rdctxOn_served (hs : s.served (x.extractLsb' 0 4)) (hw : s.selected x = some w) :
    s.rdctxOn d x = .ok (s.setG d w) := by
  rw [State.rdctxOn, hw]
  exact hs.access

theorem State.rdctxOn_unlisted (hw : s.selected x = none) : s.rdctxOn d x = .trap illOpnd := by
  rw [State.rdctxOn, hw]

theorem State.rdctxOn_spilled (hl : (s.me.ctx (x.extractLsb' 0 4)).life = .spilled) (hw : s.selected x = some w) :
    s.rdctxOn d x = s.fromSpill (32 + (x.extractLsb' 0 4).toNat) (.ok (s.setG d w)) := by
  rw [State.rdctxOn, hw]
  exact if_pos (by rw [hl]; rfl)

theorem State.wrctxOn_served {c : Ctx} (hs : s.served (x.extractLsb' 0 4)) (hw : s.rewritten x v = some c) :
    s.wrctxOn x v = .ok (s.mapCtxAt s.cur.core (x.extractLsb' 0 4) fun _ => c) := by
  rw [State.wrctxOn, hw]
  exact hs.access

theorem State.wrctxOn_refused (hw : s.rewritten x v = none) : s.wrctxOn x v = .trap illOpnd := by
  rw [State.wrctxOn, hw]

theorem State.wrctxOn_spilled {c : Ctx} (hl : (s.me.ctx (x.extractLsb' 0 4)).life = .spilled) (hw : s.rewritten x v = some c) :
    s.wrctxOn x v = s.fromSpill (48 + (x.extractLsb' 0 4).toNat)
      (.ok (s.mapCtxAt s.cur.core (x.extractLsb' 0 4) fun _ => c)) := by
  rw [State.wrctxOn, hw]
  exact if_pos (by rw [hl]; rfl)

end

end Sys2Proof.Machine
end

section
/-! SUPPORT. START, STOP and REAP (R28 to R31, R160, R161, R170, R171, R351, R453). -/

namespace Sys2Proof.Machine

/-! ### Compositions of changes -/

theorem Tab.put_put {α : Type} (t : Tab α) (k : Nat) (a b : α) : (t.put k a).put k b = t.put k b := by
  induction t with
  | nil => simp [Tab.put]
  | cons e t ih =>
    obtain ⟨j, c⟩ := e
    by_cases hj : j = k
    · simp [Tab.put, hj]
    · simp [Tab.put, hj, ih]

theorem State.mapCore_mapCore (s : State) (c : CoreId) (f g : Core → Core) :
    (s.mapCore c f).mapCore c g = s.mapCore c fun x => g (f x) := by
  rw [State.mapCore, State.mapCore_core]
  simp only [State.mapCore, State.setCore, Tab.put_put]

theorem Core.mapCtx_mapCtx (x : Core) (k : CtxId) (f g : Ctx → Ctx) :
    (x.mapCtx k f).mapCtx k g = x.mapCtx k fun c => g (f c) := by
  rw [Core.mapCtx, Core.mapCtx_ctx]
  simp only [Core.mapCtx, Tab.put_put]

theorem State.mapCtxAt_mapCtxAt (s : State) (c : CoreId) (k : CtxId) (f g : Ctx → Ctx) :
    (s.mapCtxAt c k f).mapCtxAt c k g = s.mapCtxAt c k fun x => g (f x) := by
  simp only [State.mapCtxAt, State.mapCore_mapCore, Core.mapCtx_mapCtx]

/-- What a change makes of a context depends on that context alone. -/
theorem State.mapCtxAt_congr {s : State} {c : CoreId} {k : CtxId} {f g : Ctx → Ctx} (h : f (s.ctxAt c k) = g (s.ctxAt c k)) :
    s.mapCtxAt c k f = s.mapCtxAt c k g := by
  simp only [State.mapCtxAt, State.mapCore, Core.mapCtx]
  rw [show f ((s.core c).ctx k) = g ((s.core c).ctx k) from h]

/-! ### START -/

/-- A change of context k under which a reload is over. -/
def State.becomes (t : State) (k : CtxId) (f : Ctx → Ctx) : State :=
  (t.mapMe fun m => { m with reload := none }).mapCtxAt t.cur.core k f

theorem State.becomes_congr {t : State} {k : CtxId} {f g : Ctx → Ctx} (h : f (t.me.ctx k) = g (t.me.ctx k)) :
    t.becomes k f = t.becomes k g := by
  refine State.mapCtxAt_congr ?_
  rw [State.ctxAt, State.mapMe, State.mapCore_core]
  exact h

theorem State.becomes_mapCtxAt (t : State) (k : CtxId) (f g : Ctx → Ctx) :
    (t.mapCtxAt t.cur.core k f).becomes k g = t.becomes k fun c => g (f c) := by
  have hcore : (fun x : Core => ({ x.mapCtx k f with reload := none } : Core).mapCtx k g) =
      fun x : Core => ({ x with reload := none } : Core).mapCtx k fun c => g (f c) :=
    funext fun x => Core.mapCtx_mapCtx { x with reload := none } k f g
  simp only [State.becomes, State.mapMe, State.mapCtxAt, State.mapCore_cur, State.mapCore_mapCore]
  exact congrArg (t.mapCore t.cur.core) hcore

section
variable {s : State} {d : Reg} {k : CtxId} {pc : Option W}

/-- The result that START and its like put in d. -/
def State.code (s : State) (d : Reg) (n : Nat) : State := s.setG d (BitVec.ofNat 64 n)

/-- The request of c0 says that the context has been stopped as it reloaded (R184). -/
def State.frameLost (s : State) : Prop := s.ctx.req = some ⟨12, some (.value 5 0)⟩

theorem State.startCtx_frameLost (h : s.frameLost) : s.startCtx d k pc = .ok (s.code d 5) := by
  simp [State.startCtx, show s.ctx.req = _ from h, State.code]

section
variable (hn : ¬ s.frameLost)
include hn

theorem State.startCtx_stopped (hl : (s.me.ctx k).life = .stopped) :
    s.startCtx d k pc = .ok ((s.becomes k fun c => c.restart pc s.me.cycle).code d 4) := by
  have hq : s.ctx.req ≠ some ⟨12, some (.value 5#64 0#5)⟩ := hn
  simp [State.startCtx, hq, hl, State.code, State.becomes, Life.code]

theorem State.startCtx_noPc (hl : (s.me.ctx k).life = .free) : s.startCtx d k none = .trap illOpnd := by
  have hq : s.ctx.req ≠ some ⟨12, some (.value 5#64 0#5)⟩ := hn
  simp [State.startCtx, hq, hl]

theorem State.startCtx_running
    (hl : (s.me.ctx k).life = .runnable ∨ (s.me.ctx k).life = .blocked ∨ (s.me.ctx k).life = .waiting) :
    s.startCtx d k pc = .ok (s.code d (s.me.ctx k).life.code) := by
  have hq : s.ctx.req ≠ some ⟨12, some (.value 5#64 0#5)⟩ := hn
  obtain hl | hl | hl := hl <;> simp [State.startCtx, hq, hl, State.code]

end

/-! GetFrame. -/

theorem State.getFrame_free (h : s.me.freeFrames ≠ []) : s.getFrame k = .ok true := by
  simp [State.getFrame, Core.frameFree, h]

theorem State.getFrame_none (h : s.me.freeFrames = []) (hv : s.me.victim = none) : s.getFrame k = .ok false := by
  simp [State.getFrame, Core.frameFree, h, hv]

theorem State.getFrame_victim {z : CtxId} (h : s.me.freeFrames = []) (hv : s.me.victim = some z) :
    s.getFrame k = .block { kind := 5 } ((s.mapMe fun x => { x with spill := some (z, k) }).mapCtx fun c =>
      { c with req := some ⟨10, none⟩ }) := by
  simp [State.getFrame, Core.frameFree, h, hv]

/-- The frame taken is a free one (R170). -/
theorem State.takeFrame_eq (h : s.me.freeFrames ≠ []) : ∃ i ∈ s.me.freeFrames,
    s.takeFrame s.cur.core k = ({ s with free := s.free + 1 } : State).mapCtxAt s.cur.core k fun c => { c with frame := i } := by
  have hlen : 0 < s.me.freeFrames.length := List.length_pos_iff.2 h
  have hget (l : List Nat) (i : Nat) (hi : i < l.length) : nthD 0 l i ∈ l := by
    induction l generalizing i with
    | nil => simp at hi
    | cons a l ih =>
      cases i with
      | zero => exact List.mem_cons_self
      | succ i => exact List.mem_cons_of_mem a (ih i (by simpa using hi))
  exact ⟨_, hget _ _ (Nat.mod_lt _ hlen), rfl⟩

section
variable (hi : s.ctx.req = none)
include hi

theorem State.not_frameLost_of_idle : ¬ s.frameLost := by
  rw [State.frameLost, hi]
  exact fun h => nomatch h

/-- A FREE context starts in a free frame at the PC given. -/
theorem State.startCtx_free {a : W} (hl : (s.me.ctx k).life = .free) (hf : s.me.freeFrames ≠ []) :
    ∃ i ∈ s.me.freeFrames, s.startCtx d k (some a) = .ok ((({ s with free := s.free + 1 } : State).becomes k fun c =>
      ({ c with frame := i } : Ctx).restart (some a) s.me.cycle).code d 0) := by
  obtain ⟨i, him, ht⟩ := State.takeFrame_eq (k := k) hf
  refine ⟨i, him, ?_⟩
  have hgo : s.startCtx d k (some a) =
      .ok (((s.takeFrame s.cur.core k).becomes k fun c => c.restart (some a) s.me.cycle).code d 0) := by
    simp [State.startCtx, hi, hl, State.getFrame_free hf, Res.bind, State.code, State.becomes, Life.code]
  rw [hgo, ht, State.becomes_mapCtxAt]

/-- A SPILLED one waits for its reload, when a frame is free. -/
theorem State.startCtx_reload (hl : (s.me.ctx k).life = .spilled) (hf : s.me.freeFrames ≠ []) :
    ∃ i ∈ s.me.freeFrames, s.startCtx d k pc = .block { kind := 5 }
      ((((({ s with free := s.free + 1 } : State).mapCtxAt s.cur.core k fun c => { c with frame := i }).mapMe fun m =>
        { m with reload := some k }).mapCtx fun c => { c with req := some ⟨11, none⟩ })) := by
  obtain ⟨i, him, ht⟩ := State.takeFrame_eq (k := k) hf
  refine ⟨i, him, ?_⟩
  simp [State.startCtx, hi, hl, State.getFrame_free hf, Res.bind, ht]

theorem State.startCtx_noFrame (hl : (s.me.ctx k).life = .spilled) (hf : s.me.freeFrames = []) (hv : s.me.victim = none) :
    s.startCtx d k pc = .ok (s.code d 7) := by
  simp [State.startCtx, hi, hl, State.getFrame_none hf hv, Res.bind, State.code]

theorem State.startCtx_spills {z : CtxId} (hl : (s.me.ctx k).life = .spilled) (hf : s.me.freeFrames = [])
    (hv : s.me.victim = some z) : s.startCtx d k pc = .block { kind := 5 }
      ((s.mapMe fun x => { x with spill := some (z, k) }).mapCtx fun c => { c with req := some ⟨10, none⟩ }) := by
  simp [State.startCtx, hi, hl, State.getFrame_victim hf hv, Res.bind]

end

/-! A reload under way, and its end. -/

section
variable (hl : (s.me.ctx k).life = .spilled)
include hl

theorem State.startCtx_waits (hr : s.ctx.req = some ⟨10, none⟩ ∨ s.ctx.req = some ⟨11, none⟩) :
    s.startCtx d k pc = .block { kind := 5 } s := by
  obtain hr | hr := hr <;> simp [State.startCtx, hr, hl]

theorem State.startCtx_reloaded {w : W} {f : BitVec 5} (hr : s.ctx.req = some ⟨11, some (.value w f)⟩) :
    s.startCtx d k pc = .ok ((s.becomes k fun c => ({ c with fbuf := [] } : Ctx).restart pc s.me.cycle).code d 5) := by
  simp [State.startCtx, hr, hl, State.code, State.becomes, Life.code]

theorem State.startCtx_reloadFailed {f : Deferred} (hr : s.ctx.req = some ⟨11, some (.failed f)⟩) :
    s.startCtx d k pc = .trap { cause := f.cause, addr := f.addr } := by
  simp [State.startCtx, hr, hl]

end

end

end Sys2Proof.Machine
end

section
/-! SUPPORT. STOP (R29 to R31, R179, R351): what it withdraws, when it is held, and what it leaves. -/

namespace Sys2Proof.Machine

section
variable {s : State} {c : CoreId} {k : CtxId}

theorem State.disbandAt_of_no_gang (h : (s.ctxAt c k).gang = none) : s.disbandAt c k = s := by
  simp [State.disbandAt, h]

/-- No binding instruction is under way: a request, if there is one, is a read's. -/
def State.noBinding (s : State) (c : CoreId) (k : CtxId) : Prop := ∀ r, (s.ctxAt c k).req = some r → 1000 ≤ r.txn

theorem State.noBinding_of_none (h : (s.ctxAt c k).req = none) : s.noBinding c k := fun r hr => by
  rw [h] at hr
  cases hr

theorem State.noBinding_of_read {r : Req} (h : (s.ctxAt c k).req = some r) (ht : 1000 ≤ r.txn) : s.noBinding c k :=
  fun r' hr => by
    rw [h] at hr
    cases hr
    exact ht

theorem State.stopBinding_of_noBinding (h : s.noBinding c k) : s.stopBinding c k = (s, false) := by
  have hu : s.unload c k = s := by
    unfold State.unload
    split
    · next hr => exact absurd (h _ hr) (by simp)
    · rfl
  unfold State.stopBinding
  simp only [hu]
  split
  · next hr => exact absurd (h _ hr) (by simp)
  · next hr _ => exact absurd (h _ hr) (by simp)
  · rfl

/-- The STOP is held: the context as before, marked. -/
def State.holdStop (s : State) (c : CoreId) (k : CtxId) : State := s.mapCtxAt c k fun t => { t with heldStop := true }

/-- A STOP of a running context in no gang and no binding instruction: its read is withdrawn or completes first, a wait that
holds STOPs holds it, else it halts. -/
theorem State.stopAt_eq (hl : (s.ctxAt c k).life = .runnable ∨ (s.ctxAt c k).life = .blocked)
    (hg : (s.ctxAt c k).gang = none) (hb : s.noBinding c k) :
    s.stopAt c k =
      if (s.stopRead c k).2 then ((s.stopRead c k).1.holdStop c k, 10)
      else if (s.ctxAt c k).wait.any fun w => w.hold && ((s.ctxAt c k).life.code == 2 || w.kind != 6) then
        (((s.stopRead c k).1.mapCtxAt c k fun t => if t.awaitsAnswer then { t with req := none } else t).holdStop c k, 10)
      else ((((s.stopRead c k).1.leaveSems c k).mapCtxAt c k fun t => t.halted (s.core c).cycle), (s.ctxAt c k).life.code) := by
  obtain hl | hl := hl
  · simp only [State.stopAt, hl, State.disbandAt_of_no_gang hg, State.stopBinding_of_noBinding hb]
    rfl
  · simp only [State.stopAt, hl, State.disbandAt_of_no_gang hg, State.stopBinding_of_noBinding hb]
    rfl

/-- A context that does not run has nothing to stop. -/
theorem State.stopAt_idle
    (hl : (s.ctxAt c k).life = .free ∨ (s.ctxAt c k).life = .stopped ∨ (s.ctxAt c k).life = .spilled) :
    s.stopAt c k = (s, (s.ctxAt c k).life.code) := by
  unfold State.stopAt
  obtain hl | hl | hl := hl <;> simp only [hl]

/-- One that waits for a record stops at once, and waits again when it is started (R453). -/
theorem State.stopAt_waiting (hl : (s.ctxAt c k).life = .waiting) :
    s.stopAt c k = (s.mapCtxAt c k fun t => { t.stop (s.core c).cycle with wasWaiting := true }, 3) := by
  unfold State.stopAt
  simp only [hl]

/-- With no answer to give back, leaving the semaphores touches no context, endpoint or byte of memory. -/
theorem State.leaveSems_unanswered (h : ∀ r, (s.ctxAt c k).req = some r → r.ans = none) :
    ∃ (x : Floe) (f : Core → List (Nat × CtxId)),
      s.leaveSems c k = (s.setFloe (floeOf c) x).mapCore c fun m => { m with semWait := f m } := by
  unfold State.leaveSems
  dsimp only
  split
  · next hr =>
    split at hr
    · cases hr
    · exact absurd (h _ hr) (by simp)
  · exact ⟨_, fun m => _, rfl⟩

/-- A halted context is STOPPED where it stood. -/
theorem Ctx.halted_spec (t : Ctx) (now : Nat) :
    (t.halted now).life = .stopped ∧ (t.halted now).pc = t.pc ∧ (t.halted now).g = t.g ∧
      (t.halted now).wasWaiting = t.wasWaiting := by
  unfold Ctx.halted
  split
  · exact ⟨rfl, rfl, rfl, rfl⟩
  · exact ⟨rfl, rfl, rfl, rfl⟩

/-- What a STOP that halts leaves of a state whose context has no answer to give back. -/
theorem State.halt_spec {u : State} {now : Nat} (h : ∀ r, (u.ctxAt c k).req = some r → r.ans = none) :
    let t := (u.leaveSems c k).mapCtxAt c k fun t => t.halted now
    (t.ctxAt c k).life = .stopped ∧ (t.ctxAt c k).pc = (u.ctxAt c k).pc ∧ (t.ctxAt c k).g = (u.ctxAt c k).g ∧
    (t.ctxAt c k).wasWaiting = (u.ctxAt c k).wasWaiting ∧ t.mem = u.mem ∧ t.net = u.net ∧ t.cur = u.cur ∧ ∀ e, t.epAt c e = u.epAt c e := by
  obtain ⟨x, f, hs⟩ := State.leaveSems_unanswered h
  have hctx : (u.leaveSems c k).ctxAt c k = u.ctxAt c k := by
    rw [hs, State.ctxAt, State.mapCore_core]
    rfl
  intro t
  have ht : t.ctxAt c k = (u.ctxAt c k).halted now := by
    rw [← hctx]
    exact State.mapCtxAt_ctxAt _ _ _ _
  obtain ⟨h1, h2, h3, h4⟩ := Ctx.halted_spec (u.ctxAt c k) now
  rw [ht]
  refine ⟨h1, h2, h3, h4, ?_, ?_, ?_, fun e => ?_⟩
  · show (u.leaveSems c k).mem = _
    rw [hs]
    rfl
  · show (u.leaveSems c k).net = _
    rw [hs]
    rfl
  · show (u.leaveSems c k).cur = _
    rw [hs]
    rfl
  · show ((u.leaveSems c k).mapCtxAt c k _).epAt c e = _
    rw [State.epAt, State.mapCtxAt_core, hs, State.mapCore_core]
    rfl

section
variable (hg : (s.ctxAt c k).gang = none)
include hg

theorem State.stopAt_halts (hl : (s.ctxAt c k).life = .runnable ∨ (s.ctxAt c k).life = .blocked)
    (hr : (s.ctxAt c k).req = none) (hw : ∀ w, (s.ctxAt c k).wait = some w → w.hold = false) :
    s.stopAt c k = ((s.leaveSems c k).mapCtxAt c k fun t => t.halted (s.core c).cycle, (s.ctxAt c k).life.code) := by
  have hread : s.stopRead c k = (s, false) := by simp [State.stopRead, hr]
  have hwait : ¬ ((s.ctxAt c k).wait.any fun w => w.hold && ((s.ctxAt c k).life.code == 2 || w.kind != 6)) = true := by
    cases he : (s.ctxAt c k).wait with
    | none => simp
    | some w => simp [hw w he]
  rw [State.stopAt_eq hl hg (State.noBinding_of_none hr), hread, if_neg Bool.false_ne_true, if_neg hwait]

/-- A wait that holds STOPs (R31). -/
theorem State.stopAt_held_wait {w : Wait} (hl : (s.ctxAt c k).life = .blocked) (hr : (s.ctxAt c k).req = none)
    (hw : (s.ctxAt c k).wait = some w) (hh : w.hold = true) : s.stopAt c k = (s.holdStop c k, 10) := by
  have hread : s.stopRead c k = (s, false) := by simp [State.stopRead, hr]
  have hself : (s.mapCtxAt c k fun t => if t.awaitsAnswer then { t with req := none } else t).holdStop c k = s.holdStop c k := by
    rw [State.holdStop, State.mapCtxAt_mapCtxAt]
    refine State.mapCtxAt_congr ?_
    simp [Ctx.awaitsAnswer, hr]
  rw [State.stopAt_eq (.inr hl) hg (State.noBinding_of_none hr), hread, if_neg Bool.false_ne_true,
    if_pos (by simp [hw, hh, hl, Life.code]), hself]

section
variable {txn : Nat} (hl : (s.ctxAt c k).life = .runnable ∨ (s.ctxAt c k).life = .blocked) (ht : 1000 ≤ txn)
include hl ht

/-- A read whose value is fixed completes first (R351, log 26). -/
theorem State.stopAt_held_read {ans : Option Answer} (hr : (s.ctxAt c k).req = some ⟨txn, ans⟩)
    (ha : ans = none → (s.net.findSome? fun q => packetAsks q c k txn) = none) : s.stopAt c k = (s.holdStop c k, 10) := by
  have hread : s.stopRead c k = (s, true) := by
    cases ans with
    | none => simp [State.stopRead, hr, Nat.not_lt.2 ht, ha rfl]
    | some v => simp [State.stopRead, hr, ht]
  rw [State.stopAt_eq hl hg (State.noBinding_of_read hr ht), hread, if_pos rfl]

/-- A read whose value is not fixed is withdrawn, and the STOP halts the context (R351). -/
theorem State.stopAt_withdraws {e : EpId} {o : Origin} {g : BitVec 16} {taken : Bool}
    (hr : (s.ctxAt c k).req = some ⟨txn, none⟩)
    (ha : (s.net.findSome? fun q => packetAsks q c k txn) = some (e, o, g, taken))
    (hw : ∀ w, (s.ctxAt c k).wait = some w → w.hold = false) :
    s.stopAt c k = (((s.withdrawReq c k txn e o g taken).leaveSems c k).mapCtxAt c k fun t => t.halted (s.core c).cycle,
      (s.ctxAt c k).life.code) := by
  have hread : s.stopRead c k = (s.withdrawReq c k txn e o g taken, false) := by
    simp [State.stopRead, hr, Nat.not_lt.2 ht, ha]
  have hwait : ¬ ((s.ctxAt c k).wait.any fun w => w.hold && ((s.ctxAt c k).life.code == 2 || w.kind != 6)) = true := by
    cases he : (s.ctxAt c k).wait with
    | none => simp
    | some w => simp [hw w he]
  rw [State.stopAt_eq hl hg (State.noBinding_of_read hr ht), hread, if_neg Bool.false_ne_true, if_neg hwait]

end
end

/-- What the withdrawal of a read leaves (R29, R351). -/
theorem State.withdrawReq_spec (s : State) (c : CoreId) (k : CtxId) (txn : Nat) (e : EpId) (o : Origin) (g : BitVec 16)
    (taken : Bool) :
    let u := s.withdrawReq c k txn e o g taken
    u.ctxAt c k = s.ctxAt c k ∧ u.mem = s.mem ∧ u.cur = s.cur ∧ (∀ q ∈ u.net, packetAsks q c k txn = none) ∧
    (u.epAt c e).sseq = (s.epAt c e).sseq - 1 ∧ (u.epAt c e).state = (s.epAt c e).state - 1 ∧
    (u.epAt c e).lacnt = (s.epAt c e).lacnt - 1 := by
  let s1 := (({ s with net := s.net.filter fun q => (packetAsks q c k txn).isNone } : State).mapCore c fun x =>
    { x with storeq := x.storeq.filter fun q => q.org != o }).mapEpAt c e fun ep =>
    { ep with state := ep.state - 1, lacnt := ep.lacnt - 1, sseq := ep.sseq - 1 }
  have hctx : s1.ctxAt c k = s.ctxAt c k := by
    have hcore : (s1.core c).ctxs = (s.core c).ctxs := by
      show ((State.mapCore (State.mapCore _ c _) c _).core c).ctxs = _
      rw [State.mapCore_core, State.mapCore_core]
      rfl
    exact congrArg (Tab.look Ctx.init · k.toNat) hcore
  have hep : s1.epAt c e = { s.epAt c e with
      state := (s.epAt c e).state - 1, lacnt := (s.epAt c e).lacnt - 1, sseq := (s.epAt c e).sseq - 1 } := by
    rw [State.mapEpAt_epAt, State.epAt, State.mapCore_core]
    rfl
  have hnet : ∀ q ∈ s1.net, packetAsks q c k txn = none := fun q hq => by
    have := List.of_mem_filter hq
    simpa using this
  have hw : ∃ l, s.withdrawReq c k txn e o g taken = { s1 with hwEnds := l } := by
    rw [State.withdrawReq]
    split
    · exact ⟨_, rfl⟩
    · exact ⟨_, rfl⟩
  obtain ⟨l, hl⟩ := hw
  intro u
  have hu : u = { s1 with hwEnds := l } := hl
  rw [hu]
  exact ⟨hctx, rfl, rfl, hnet, congrArg Endpoint.sseq hep, congrArg Endpoint.state hep, congrArg Endpoint.lacnt hep⟩

end

end Sys2Proof.Machine
end

section
/-! SUPPORT. Supervision by c0, all settled together (R28 to R31, R160 to R162, R164, R170, R171, R351). -/

namespace Sys2Proof.Machine

section
variable {s t : State} {d a : Reg} {x : W}

theorem execStop_ok {n : Nat} (h : s.operands [a] [d] [] = .ok [x]) (hc : s.cur.ctx = 0) (h0 : x.extractLsb' 0 4 ≠ 0)
    (ht : s.stopAt s.cur.core (x.extractLsb' 0 4) = (t, n)) : execStop d a s = .next ((t.code d n).done 4 [a]) :=
  State.supervise_ok h hc (truncate_four x) h0 (by simp only [ht]; rfl)

section
variable (h : s.operands [a] [d] [] = .ok [x]) (hc : s.cur.ctx = 0) (h0 : x.extractLsb' 0 4 ≠ 0)
include h hc h0

theorem execReap_frees
    (hl : (s.me.ctx (x.extractLsb' 0 4)).life = .stopped ∨ (s.me.ctx (x.extractLsb' 0 4)).life = .spilled)
    (ho : (s.me.ctx (x.extractLsb' 0 4)).ops = []) :
    execReap d a s = .next (((s.mapMe fun m => m.reapCtx (x.extractLsb' 0 4)).code d
      (s.me.ctx (x.extractLsb' 0 4)).life.code).done 4 [a]) :=
  State.supervise_ok h hc (truncate_four x) h0
    ((if_pos (by simpa using hl)).trans (if_pos (by rw [ho]; rfl)))

theorem execReap_waits
    (hl : (s.me.ctx (x.extractLsb' 0 4)).life = .stopped ∨ (s.me.ctx (x.extractLsb' 0 4)).life = .spilled)
    (ho : (s.me.ctx (x.extractLsb' 0 4)).ops ≠ []) : execReap d a s = .next (s.block { kind := 5 }) :=
  State.supervise_block h hc (truncate_four x) h0
    ((if_pos (by simpa using hl)).trans (if_neg (by simpa using ho)))

theorem execReap_running
    (hl : ¬ ((s.me.ctx (x.extractLsb' 0 4)).life = .stopped ∨ (s.me.ctx (x.extractLsb' 0 4)).life = .spilled)) :
    execReap d a s = .next ((s.code d (s.me.ctx (x.extractLsb' 0 4)).life.code).done 4 [a]) :=
  State.supervise_ok h hc (truncate_four x) h0 (if_neg (by simpa using hl))

end

/-- A reaped context is as at reset (R161). -/
theorem Core.reapCtx_ctx (m : Core) (k : CtxId) : (m.reapCtx k).ctx k = Ctx.init := Tab.look_put_same _ _ _ _

/-- An endpoint once context k has been reaped (R241). -/
def Endpoint.reaped (q : Endpoint) (k : CtxId) : Endpoint := if q.owner == k then { q with owner := 0, bindAs := 0 } else q

/-- Its endpoints are c0's. -/
theorem Core.reapCtx_owner (m : Core) (k : CtxId) (e : EpId) (h : (m.ep e).owner = k) : ((m.reapCtx k).ep e).owner = 0 := by
  have hm : (m.reapCtx k).eps = m.eps.map fun e => (e.1, e.2.reaped k) := by
    refine List.map_congr_left fun e _ => ?_
    unfold Endpoint.reaped
    split <;> rfl
  have hd : ({} : Endpoint).reaped k = {} := by
    unfold Endpoint.reaped
    split <;> rfl
  have he : (m.reapCtx k).ep e = (m.ep e).reaped k := by
    rw [Core.ep, hm]
    exact Tab.look_map (f := fun _ q => Endpoint.reaped q k) hd m.eps
  rw [he, Endpoint.reaped, if_pos (by simpa using h)]

end

/-- Where no PC is given, a context goes on where it stood: it runs, or waits again (R161, R453). -/
theorem Ctx.restart_none (c : Ctx) (now : Nat) : c.restart none now =
    if c.wasWaiting then { c with life := .waiting, wasWaiting := false, waitingAt := now }
    else { c with life := .runnable, wasWaiting := false } := by
  unfold Ctx.restart
  cases c.wasWaiting <;> rfl

/-- Where one is given, it runs there. -/
theorem Ctx.restart_some (c : Ctx) (a : W) (now : Nat) : c.restart (some a) now =
    { ({ c with wait := none, req := none } : Ctx).jump a with life := .runnable, wasWaiting := false } := by
  unfold Ctx.restart
  rw [Option.isNone_some, Bool.and_false]
  rfl

theorem gcapOf_pos (part : W) : 0 < gcapOf part := by
  unfold gcapOf
  split <;> decide

theorem Ctx.wg_of_ne {c : Ctx} {r : Reg} (h : r ≠ 0) (w : W) : c.wg r w = { c with g := c.g.set r.toNat w } := if_neg h

theorem Ctx.wq_of_ne {c : Ctx} {j : BitVec 2} (h : j ≠ 0) (w : W) : c.wq j w = { c with q := c.q.set j.toNat w } := if_neg h

/-- Settles O37: registers of a parked context by `Ctx.readSel` and `Ctx.writeSel`, START by the cases of `State.startCtx`, STOP by
what it withdraws and what holds it. -/
theorem contextsUnderSupervision : Obligations.ContextsUnderSupervision := by
  unfold Obligations.ContextsUnderSupervision
  refine ⟨?_, ?_⟩
  · intro s d a b n x v k sel c gcap vcap even_ loc illegal legal served asks fixed unlisted
    have hloc : locid s.cur.core k = loc := locid_eq _ _
    refine ⟨fun h => ?_, fun h => ?_, fun hc => ⟨exec_rdctx.trans (State.supervise_of_not_c0 hc),
      exec_wrctx.trans (State.supervise_of_not_c0 hc)⟩, exec_yield.trans rfl⟩
    · intro reads
      have hok : s.served k → ∀ {w}, s.selected x = some w → reads w := fun hs w hw =>
        exec_rdctx.trans (execRdctx_ok h hs.1 (State.rdctxOn_served hs hw))
      have hnone : s.selected x = none ↔ unlisted := Ctx.readSel_eq_none (selOf_lt x)
      refine ⟨fun hl => exec_rdctx.trans (execRdctx_unparked h hl),
        fun hl hu => exec_rdctx.trans (execRdctx_trap h hl (State.rdctxOn_unlisted (hnone.2 hu))),
        fun hs => ⟨fun r hsel hr => hok hs ?_, fun j hsel => hok hs ?_, fun j hsel => hok hs ?_, fun hsel => hok hs ?_,
          fun hsel => hok hs ?_, fun r j hsel hr => hok hs ?_, fun p hp hsel => hok hs ?_⟩,
        fun hl hsp hu => ⟨fun hr => ?_, fun txn hr => ?_, fun txn f hr => ?_⟩⟩
      · exact (congrArg (c.readSel _ · _ _) hsel).trans (Ctx.readSel_g hr)
      · exact (congrArg (c.readSel _ · _ _) hsel).trans (Ctx.readSel_x j)
      · exact (congrArg (c.readSel _ · _ _) hsel).trans (Ctx.readSel_q j)
      · exact congrArg (c.readSel _ · _ _) hsel
      · exact congrArg (c.readSel _ · _ _) hsel
      · exact (congrArg (c.readSel _ · _ _) hsel).trans (Ctx.readSel_v r j hr)
      · rw [← hloc] at hp
        exact (congrArg (c.readSel _ · _ _) hsel).trans (Ctx.readSel_sys hp)
      all_goals
        obtain ⟨w, hw⟩ := Option.ne_none_iff_exists'.1 (mt hnone.1 hu)
        have ho := State.rdctxOn_spilled (d := d) hsp hw
      · exact exec_rdctx.trans (execRdctx_block h hl (ho.trans (State.fromSpill_asks hr)))
      · exact exec_rdctx.trans (execRdctx_block h hl (ho.trans (State.fromSpill_waits hr)))
      · exact exec_rdctx.trans (execRdctx_trap h hl (ho.trans (State.fromSpill_failed hr)))
    · intro writes
      have hok : s.served k → ∀ {c'}, s.rewritten x v = some c' → writes c' := fun hs c' hw =>
        exec_wrctx.trans (execWrctx_ok h hs.1 (State.wrctxOn_served hs hw))
      have hg : ∀ m : Nat, sel = m → s.rewritten x v = c.writeSel s.me.part m v := fun m hm => congrArg (c.writeSel _ · _) hm
      refine ⟨fun hl => exec_wrctx.trans (execWrctx_unparked h hl),
        fun hl hu => exec_wrctx.trans (execWrctx_trap h hl (State.wrctxOn_refused (Ctx.writeSel_of_unlisted (selOf_lt x) hu))),
        fun hl hr => exec_wrctx.trans (execWrctx_trap h hl (State.wrctxOn_refused ?_)),
        fun hs => ⟨fun hsel => hok hs ?_, fun r h0 hsel hr => hok hs ?_, fun j hsel => hok hs ?_, fun hsel => hok hs ?_,
          fun j h0 hsel => hok hs ?_, fun hsel => hok hs ?_, fun hsel => hok hs ?_, fun r j hsel hr => ?_,
          fun hsel hr => hok hs ?_, fun p hp hsel => hok hs ?_⟩,
        fun hl hsp hsel => ?_⟩
      · obtain hr | ⟨hsel, hr⟩ := hr
        · obtain ⟨m, hm, he⟩ := List.mem_map.1 (show sel ∈ [0x029, 0x02A, 0x02B, 0x100, 0x101].map (0x800 + ·) from hr)
          have hall : ∀ m ∈ [0x029, 0x02A, 0x02B, 0x100, 0x101], m ∈ sysNumbers := by decide
          exact (hg _ he.symm).trans ((Ctx.writeSel_sys (hall m hm)).trans (c.writeSys_readOnly v m hm))
        · exact (hg _ hsel).trans ((Ctx.writeSel_sys (n := 0) (by decide)).trans (Ctx.writeFst_refused hr))
      · exact (hg _ hsel).trans (Ctx.writeSel_g (r := 0) (gcapOf_pos _))
      · exact (hg _ hsel).trans ((Ctx.writeSel_g hr).trans (congrArg some (Ctx.wg_of_ne h0 v)))
      · exact (hg _ hsel).trans (Ctx.writeSel_x j)
      · exact (hg _ hsel).trans (Ctx.writeSel_q 0)
      · exact (hg _ hsel).trans ((Ctx.writeSel_q j).trans (congrArg some (Ctx.wq_of_ne h0 v)))
      · rw [← show v.truncate 8 = v.extractLsb' 0 8 from BitVec.setWidth_eq_extractLsb' (by decide)]
        exact hg _ hsel
      · exact hg _ hsel
      · exact ⟨_, hok hs ((hg _ hsel).trans (Ctx.writeSel_v r j hr)), fun i hi => extractLsb'_setDword _ hi j.isLt v⟩
      · exact (hg _ hsel).trans ((Ctx.writeSel_sys (n := 0) (by decide)).trans (Ctx.writeFst_ok hr))
      · have hm : p.1 ∈ sysNumbers := by
          have hsub : ∀ m ∈ (c.sysWrites v).map Prod.fst, m ∈ sysNumbers := by
            simp only [Ctx.sysWrites, List.map_cons, List.map_nil]
            decide
          exact hsub _ (List.mem_map_of_mem (f := Prod.fst) hp)
        exact (hg _ hsel).trans ((Ctx.writeSel_sys hm).trans (c.writeSys_eq v p hp))
      · have ho := State.wrctxOn_spilled (v := v) hsp (hg _ hsel)
        exact ⟨fun hr => exec_wrctx.trans (execWrctx_block h hl (ho.trans (State.fromSpill_asks hr))),
          fun txn hr => exec_wrctx.trans (execWrctx_block h hl (ho.trans (State.fromSpill_waits hr))),
          fun txn f hr => exec_wrctx.trans (execWrctx_trap h hl (ho.trans (State.fromSpill_failed hr)))⟩
  · intro s d a b x pc k c code became illegal waits legal drawn idle
    have hk : (x.truncate 4 : CtxId) = k := truncate_four x
    refine ⟨fun h => ?_, fun hc => ⟨exec_start.trans (State.supervise_of_not_c0 hc), exec_startPc.trans (State.supervise_of_not_c0 hc),
      exec_stop.trans (State.supervise_of_not_c0 hc), exec_reap.trans (State.supervise_of_not_c0 hc)⟩, fun h => ?_,
      fun m e => ⟨m.reapCtx_ctx k, m.reapCtx_owner k e⟩⟩
    · intro starts
      refine ⟨fun hl => ⟨exec_start.trans (State.supervise_refused h hk hl), exec_stop.trans (State.supervise_refused h hk hl),
        exec_reap.trans (State.supervise_refused h hk hl)⟩, fun ⟨hc, h0⟩ hi => ?_, fun ⟨hc, h0⟩ hsp => ?_,
        fun ⟨hc, h0⟩ hr => exec_start.trans (State.supervise_ok h hc hk h0 (State.startCtx_frameLost hr)), fun ⟨hc, h0⟩ => ?_⟩
      · have hn := State.not_frameLost_of_idle hi
        have hok : ∀ {t}, s.startCtx d k none = .ok t → starts (.next (t.done 4 [a])) := fun ht =>
          exec_start.trans (State.supervise_ok h hc hk h0 ht)
        have hwait : ∀ {z t}, s.startCtx d k none = .block z t → starts (.next (t.block z)) := fun ht =>
          exec_start.trans (State.supervise_block h hc hk h0 ht)
        refine ⟨fun hl hw => ?_, fun hl hw => ?_, fun hl => ?_, fun hl => hok (State.startCtx_running hn hl), fun hl hf => ?_,
          fun hl hf hv => hok (State.startCtx_noFrame hi hl hf hv), fun z hl hf hv => hwait (State.startCtx_spills hi hl hf hv)⟩
        · refine hok ((State.startCtx_stopped hn hl).trans ?_)
          refine congrArg (fun u : State => (.ok (u.code d 4) : Res State)) (State.becomes_congr ?_)
          exact (Ctx.restart_none _ _).trans (if_neg (by rw [hw]; decide))
        · refine hok ((State.startCtx_stopped hn hl).trans ?_)
          refine congrArg (fun u : State => (.ok (u.code d 4) : Res State)) (State.becomes_congr ?_)
          exact (Ctx.restart_none _ _).trans (if_pos hw)
        · exact exec_start.trans (State.supervise_trap h hc hk h0 (State.startCtx_noPc hn hl))
        · obtain ⟨i, hm, ht⟩ := State.startCtx_reload (d := d) (pc := none) hi hl hf
          exact ⟨i, hm, hwait ht⟩
      · refine ⟨fun hr => exec_start.trans (State.supervise_block h hc hk h0 (State.startCtx_waits hsp hr)),
          fun w f hr => exec_start.trans (State.supervise_ok h hc hk h0 ((State.startCtx_reloaded hsp hr).trans ?_)),
          fun f hr => exec_start.trans (State.supervise_trap h hc hk h0 (State.startCtx_reloadFailed hsp hr))⟩
        refine congrArg (fun u : State => (.ok (u.code d 5) : Res State)) (State.becomes_congr ?_)
        exact Ctx.restart_none _ _
      · have hstop : ∀ {t n}, s.stopAt s.cur.core k = (t, n) → exec (.stop d a) s = .next ((code n t).done 4 [a]) :=
          fun ht => exec_stop.trans (execStop_ok h hc h0 ht)
        refine ⟨fun hl => hstop ?_, fun hl => hstop ?_, fun hl hg hr hw => ?_, ⟨fun hl hg w hw hh hr => ?_,
            fun hl hg txn ht => ⟨fun hr ha => ?_, fun v hr => ?_⟩, fun hl hg hw txn e o g taken ht hr ha => ?_⟩,
          fun hl ho => exec_reap.trans (execReap_frees h hc h0 hl ho), fun hl ho => exec_reap.trans (execReap_waits h hc h0 hl ho),
          fun hl => exec_reap.trans (execReap_running h hc h0 ?_)⟩
        · exact State.stopAt_idle hl
        · exact State.stopAt_waiting hl
        · obtain ⟨hlife, hpc, hgr, hwas, hmem, -, hcur, -⟩ := State.halt_spec (now := (s.core s.cur.core).cycle)
            (u := s) (c := s.cur.core) (k := k) fun r h => by rw [show (s.ctxAt s.cur.core k).req = none from hr] at h; cases h
          refine ⟨_, hstop (State.stopAt_halts hg hl hr hw), ?_⟩
          rw [State.me, hcur]
          exact ⟨hlife, hpc, hgr, hwas, hmem⟩
        · exact hstop (State.stopAt_held_wait hg hl hr hw hh)
        · exact hstop (State.stopAt_held_read hg hl.symm ht hr fun _ => ha)
        · exact hstop (State.stopAt_held_read hg hl.symm ht hr fun h => nomatch h)
        · let u := s.withdrawReq s.cur.core k txn e o g taken
          obtain ⟨hctx, hmem, hcur, hnet, hsseq, hstate, hlacnt⟩ := State.withdrawReq_spec s s.cur.core k txn e o g taken
          have hreq : ∀ r, (u.ctxAt s.cur.core k).req = some r → r.ans = none := fun r h => by
            rw [hctx, show (s.ctxAt s.cur.core k).req = _ from hr] at h
            cases h
            rfl
          obtain ⟨hlife, hpc, -, -, hmem', hnet', hcur', hep⟩ := State.halt_spec (now := (s.core s.cur.core).cycle) hreq
          have hcode : (s.ctxAt s.cur.core k).life.code = 2 := by rw [show (s.ctxAt s.cur.core k).life = _ from hl]; rfl
          have ht' := State.stopAt_withdraws hg (.inr hl) ht hr ha hw
          rw [hcode] at ht'
          refine ⟨_, hstop ht', ?_⟩
          rw [State.me, State.ep, State.me, hcur'.trans hcur]
          refine ⟨hlife, hpc.trans (by rw [hctx]; rfl), fun q hq => hnet q (hnet' ▸ hq), ?_, ?_, ?_, hmem'.trans hmem⟩
          · exact (congrArg Endpoint.sseq (hep e)).trans hsseq
          · exact (congrArg Endpoint.state (hep e)).trans hstate
          · exact (congrArg Endpoint.lacnt (hep e)).trans hlacnt
        · obtain hl | hl | hl | hl := hl <;> rw [show (s.me.ctx k).life = _ from hl] <;> decide
    · refine ⟨fun hl => exec_startPc.trans (State.supervise_refused h hk hl), fun ⟨hc, h0⟩ hi hl =>
        exec_startPc.trans (State.supervise_ok h hc hk h0 ((State.startCtx_stopped (State.not_frameLost_of_idle hi) hl).trans ?_)),
        fun ⟨hc, h0⟩ hi hl hf => ?_⟩
      · refine congrArg (fun u : State => (.ok (u.code d 4) : Res State)) (State.becomes_congr ?_)
        exact Ctx.restart_some _ pc _
      · obtain ⟨i, hm, ht⟩ := State.startCtx_free (d := d) (a := pc) hi hl hf
        refine ⟨i, hm, exec_startPc.trans (State.supervise_ok h hc hk h0 (ht.trans ?_))⟩
        refine congrArg (fun u : State => (.ok (u.code d 0) : Res State)) (State.becomes_congr ?_)
        exact Ctx.restart_some _ pc _

end Sys2Proof.Machine
end

section
/-! SUPPORT. Instructions on an endpoint, and messages (R20, R203, R207, R208, R226 to R230). -/

namespace Sys2Proof.Machine

section
variable {s : State} {e : EpId} {src dst vec : List Reg} {l : List W} {pre : Res Unit} {k : List W → State → Res State}

/-- The issuing context owns the endpoint, and no fault of it is pending (R20, R213). -/
def State.holds (s : State) (e : EpId) : Prop :=
  s.ctx.pend.find? (fun f => f.ep == some e) = none ∧ (s.ep e).owner = s.cur.ctx

theorem State.onEp_holds (h : s.operands src dst vec = .ok l) (hp : pre = .ok ()) (hm : s.holds e) :
    s.onEp e src dst vec pre k = s.issue 4 src dst vec k := by
  obtain ⟨hq, ho⟩ := hm
  have hpre : (pre.bind fun _ => Res.check (s.owns e) (epown e)) = .ok () := by
    simp [hp, Res.bind, Res.check, State.owns, ho]
  rw [State.onEp, State.checked_ok h hpre, State.covering, Ctx.covered, hq]
  rfl

/-- Another context's endpoint (R20). -/
theorem State.onEp_unowned (h : s.operands src dst vec = .ok l) (hp : pre = .ok ()) (ho : (s.ep e).owner ≠ s.cur.ctx) :
    s.onEp e src dst vec pre k = .next (s.trap (epown e)) := by
  refine State.checked_trap h ?_
  simp [hp, Res.bind, Res.check, State.owns, ho]

theorem State.mustOpen_open (h : (s.ep e).st = .open) : s.mustOpen e = .ok () := by
  simp [State.mustOpen, h]

theorem State.mayRecv_open (h : (s.ep e).st = .open) : s.mayRecv e = .ok () := by
  simp [State.mayRecv, h]

/-- Only class 4 on HOST consumes a block length (R70, R227). -/
theorem State.hostBlock_of_ne {cls : Nat} (h : cls ≠ 4) : s.hostBlock e cls = false := by
  simp [State.hostBlock, h]

theorem State.hostPre_of_ne {cls : Nat} (h : cls ≠ 4) : s.hostPre e cls = .ok () := by
  simp [State.hostPre, State.hostBlock_of_ne h, Res.check]

theorem State.unheld_free {α : Type} {c : Nat} {n : Nat} {w : Bool} {r : Res α} (h : s.heldAt s.cur.core c n w = false) :
    s.unheld c n w r = r := by
  simp [State.unheld, h]

end

/-! ### Sending -/

theorem State.correct_cur (s : State) (c : CoreId) (k n : Nat) : (s.correct c k n).cur = s.cur := by
  simp only [State.correct]
  split
  · rfl
  · generalize List.range _ = l
    exact List.foldlRecOn l _ (motive := fun (t : State) => t.cur = s.cur) rfl fun _ ht _ _ => ht

theorem State.correctUnits_cur (s : State) (l : List Nat) : (s.correctUnits l).cur = s.cur :=
  List.foldlRecOn l _ (motive := fun (t : State) => t.cur = s.cur) rfl fun t ht _ _ => (State.correct_cur t _ _ _).trans ht

section
variable {s : State} {e : EpId} {d : Reg} {typ goesTo size action : Nat}

/-- The state after a message has been sent or received: STATE moves where the automaton is a user's (R203). -/
def State.moved (s t : State) (e : EpId) (goesTo : Nat) : State := if (s.ep e).isUser then t.toState e goesTo else t

/-- The effect of a send of payload p. -/
def State.sent (s t : State) (e : EpId) (goesTo cls typ : Nat) (p : List Byte) : State :=
  s.moved (t.transmit s.cur.core e cls typ p) e goesTo

section
variable {l : List W} {cls : Nat} (h : s.operands (clsG cls d) [] (clsV cls d) = .ok l) (hc : cls ≠ 4) (hm : s.holds e)
  (ho : (s.ep e).st = .open)
include h hc hm ho

/-- No credit at the peer: the send waits (R208). -/
theorem State.sendOn_full (hx : s.matchOut e action typ cls = .ok (goesTo, size)) (hf : (s.ep e).full = true) :
    s.sendOn e action typ cls d = .next (s.block { kind := 2, ep := e.toNat }) := by
  refine (State.onEp_holds h (State.hostPre_of_ne hc) hm).trans (State.issue_block h ?_)
  simp [State.mustOpen_open ho, hx, Res.bind, hf]

theorem State.sendOn_refused {t : Trap} (hx : s.matchOut e action typ cls = .trap t) :
    s.sendOn e action typ cls d = .next (s.trap t) := by
  refine (State.onEp_holds h (State.hostPre_of_ne hc) hm).trans (State.issue_trap h ?_)
  simp [State.mustOpen_open ho, hx, Res.bind]

end

section
variable (hm : s.holds e) (ho : (s.ep e).st = .open) (hf : (s.ep e).full = false)
include hm ho hf

theorem State.sendOn_control (h : s.operands [] [] [] = .ok []) (hx : s.matchOut e action typ 0 = .ok (goesTo, size)) :
    s.sendOn e action typ 0 d = .next ((s.sent s e goesTo 0 typ []).done 4 []) := by
  refine (State.onEp_holds h (State.hostPre_of_ne (by decide)) hm).trans (State.issue_ok h ?_)
  simp only [State.mustOpen_open ho, hx, Res.bind, hf]
  rfl

theorem State.sendOn_word {x : W} (h : s.operands [d] [] [] = .ok [x]) (hx : s.matchOut e action typ 1 = .ok (goesTo, size)) :
    s.sendOn e action typ 1 d = .next ((s.sent s e goesTo 1 typ (leBytes 8 x.toNat)).done 4 [d]) := by
  refine (State.onEp_holds h (State.hostPre_of_ne (by decide)) hm).trans (State.issue_ok h ?_)
  simp only [State.mustOpen_open ho, hx, Res.bind, hf]
  rfl

theorem State.sendOn_vector (h : s.operands [] [] [d] = .ok []) (hx : s.matchOut e action typ 2 = .ok (goesTo, size)) :
    s.sendOn e action typ 2 d = .next ((s.sent s e goesTo 2 typ (leBytes 128 (s.ctx.rv d).toNat)).done 4 []) := by
  refine (State.onEp_holds h (State.hostPre_of_ne (by decide)) hm).trans (State.issue_ok h ?_)
  simp only [State.mustOpen_open ho, hx, Res.bind, hf]
  rfl

theorem State.sendOn_local {x : W} {ks : List Nat} (h : s.operands [d] [] [] = .ok [x])
    (hx : s.matchOut e action typ 3 = .ok (goesTo, size)) (hu : (s.ep e).isUser = true)
    (hk : s.localUnits x { r := true } size = .ok ks) : s.sendOn e action typ 3 d =
      .next ((s.sent (s.correctUnits ks) e goesTo 3 typ (s.readUnits ks size)).done 4 [d]) := by
  refine (State.onEp_holds h (State.hostPre_of_ne (by decide)) hm).trans (State.issue_ok h ?_)
  have hk' : s.localUnits (nthD 0#64 [x] 0) { r := true } size = .ok ks := hk
  simp [State.mustOpen_open ho, hx, Res.bind, hf, hu, hk', State.sent, State.moved, State.correctUnits_cur]

end
end

/-! ### Receiving -/

section
variable {s : State} {e : EpId} {d : Reg} {typ : BitVec 8} {goesTo size : Nat}

/-- The head slot holds a message with header h, and no engine holds the header. -/
def State.headIs (s : State) (e : EpId) (h : W) : Prop :=
  s.heldAt s.cur.core (s.headKey e) 16 true = false ∧ s.slotHeader s.cur.core e 0 = h ∧ hdrF h = true

theorem State.headOf_headIs {h : W} (ho : (s.ep e).st = .open) (hh : s.headIs e h) : s.headOf e = .ok h := by
  obtain ⟨hfree, rfl, hF⟩ := hh
  simp [State.headOf, ho, State.unheld_free hfree, hF]

theorem State.headOf_empty (ho : (s.ep e).st = .open) (hfree : s.heldAt s.cur.core (s.headKey e) 16 true = false)
    (hF : hdrF (s.slotHeader s.cur.core e 0) = false) : s.headOf e = .block { kind := 1, ep := e.toNat } s := by
  simp [State.headOf, ho, State.unheld_free hfree, hF]

theorem State.headOf_held (ho : (s.ep e).st = .open) (hheld : s.heldAt s.cur.core (s.headKey e) 16 true = true) :
    s.headOf e = .block { kind := 5 } s := by
  simp [State.headOf, ho, State.unheld, hheld]

/-- A message of this type and class has arrived at the head of an OPEN endpoint, no engine holds it, and the automaton takes it. -/
structure State.Arrived (s : State) (e : EpId) (h : W) (typ cls goesTo size : Nat) : Prop where
  holds : s.holds e
  isOpen : (s.ep e).st = .open
  head : s.headIs e h
  typEq : hdrTyp h = typ
  clsEq : hdrCls h = cls
  payload : s.heldAt s.cur.core (s.headKey e + 16) (hdrLen h) false = false
  takes : s.matchIn e typ cls = .ok (goesTo, size)

/-- The head slot is freed after a message has been received (R208). -/
def State.took (s t : State) (e : EpId) (goesTo : Nat) : State := s.moved (t.freeSlot s.cur.core e) e goesTo

section
variable {h : W}

theorem execRecv_control (ha : s.Arrived e h typ.toNat 0 goesTo size) (hops : s.operands [] [] [] = .ok []) :
    execRecv d 0 typ e s = .next ((s.took s e goesTo).done 4 []) := by
  refine (State.onEp_holds hops (State.hostPre_of_ne (by decide)) ha.holds).trans (State.issue_ok hops ?_)
  simp [State.mayRecv_open ha.isOpen, ha.takes, State.hostBlock_of_ne, State.headOf_headIs ha.isOpen ha.head, ha.typEq, ha.clsEq,
    Res.bind, State.took, State.moved]
  exact State.unheld_free ha.payload

theorem execRecv_word (ha : s.Arrived e h typ.toNat 1 goesTo size) (hops : s.operands [] [d] [] = .ok []) :
    execRecv d 1 typ e s = .next ((s.took (s.setG d (s.rd8 (s.headKey e + 16))) e goesTo).done 4 []) := by
  refine (State.onEp_holds hops (State.hostPre_of_ne (by decide)) ha.holds).trans (State.issue_ok hops ?_)
  simp [State.mayRecv_open ha.isOpen, ha.takes, State.hostBlock_of_ne, State.headOf_headIs ha.isOpen ha.head, ha.typEq, ha.clsEq,
    Res.bind, State.took, State.moved]
  exact State.unheld_free ha.payload

theorem execRecv_vector (ha : s.Arrived e h typ.toNat 2 goesTo size) (hops : s.operands [] [] [d] = .ok []) :
    execRecv d 2 typ e s =
      .next ((s.took (s.setV d (BitVec.ofNat 1024 (s.rd (s.headKey e + 16) 128))) e goesTo).done 4 []) := by
  refine (State.onEp_holds hops (State.hostPre_of_ne (by decide)) ha.holds).trans (State.issue_ok hops ?_)
  simp [State.mayRecv_open ha.isOpen, ha.takes, State.hostBlock_of_ne, State.headOf_headIs ha.isOpen ha.head, ha.typEq, ha.clsEq,
    Res.bind, State.took, State.moved]
  exact State.unheld_free ha.payload

theorem execRecv_local {x : W} {ks : List Nat} (ha : s.Arrived e h typ.toNat 3 goesTo size)
    (hops : s.operands [d] [] [] = .ok [x]) (hk : s.localUnits x { w := true } (max size (hdrLen h)) = .ok ks) :
    execRecv d 3 typ e s =
      .next ((s.took (s.writeUnits ks (memReads s.mem (s.headKey e + 16) (hdrLen h))) e goesTo).done 4 [d]) := by
  refine (State.onEp_holds hops (State.hostPre_of_ne (by decide)) ha.holds).trans (State.issue_ok hops ?_)
  have hk' : s.localUnits (nthD 0#64 [x] 0) { w := true } (max size (hdrLen h)) = .ok ks := hk
  simp [State.mayRecv_open ha.isOpen, ha.takes, State.hostBlock_of_ne, State.headOf_headIs ha.isOpen ha.head, ha.typEq, ha.clsEq,
    Res.bind, State.took, State.moved, hk']
  exact State.unheld_free ha.payload

/-- The head slot waits for a message, or for the engine that holds it (R229, R284). -/
theorem execRecv_block {w : Wait} (hm : s.holds e) (ho : (s.ep e).st = .open) (hops : s.operands [] [] [] = .ok [])
    (hx : s.matchIn e typ.toNat 0 = .ok (goesTo, size)) (hh : s.headOf e = .block w s) :
    execRecv d 0 typ e s = .next (s.block w) := by
  refine (State.onEp_holds hops (State.hostPre_of_ne (by decide)) hm).trans (State.issue_block hops ?_)
  simp [State.mayRecv_open ho, hx, State.hostBlock_of_ne, hh, Res.bind]

/-- OFFER takes the control message of an offer state (R230). -/
theorem execOffer_control {r : Trans} (hm : s.holds e) (ho : (s.ep e).st = .open) (hops : s.operands [] [d] [] = .ok [])
    (hh : s.headIs e h) (hty : hdrTyp h = typ.toNat) (hc : hdrCls h = 0) (hu : (s.ep e).isUser = true)
    (hk : kindOf (s.trans e) = some .offer)
    (hr : (s.trans e).find? (fun r => r.action == 2 && r.typ == typ.toNat) = some r) : execOffer d e s =
      .next ((((s.setG d (BitVec.ofNat 64 typ.toNat)).freeSlot s.cur.core e).toState e r.goesTo).done 4 []) := by
  refine (State.onEp_holds hops rfl hm).trans (State.issue_ok hops ?_)
  simp [State.mustOpen_open ho, State.headOf_headIs ho hh, Res.bind, hty, hc, hu, hk, hr]

end

/-- The automaton has no transition for a control message of this type (R203). -/
theorem State.matchOut_none (hu : (s.ep e).isUser = true)
    (hn : (s.trans e).find? (fun t => t.action == 0 && t.typ == typ.toNat && t.cls == 0) = none) :
    s.matchOut e 0 typ.toNat 0 = .trap (refuse e 0) := by
  simp [State.matchOut, hu, hn]

end

/-- Settles O38: the rules above, instruction by instruction. -/
theorem channelMessages : Obligations.ChannelMessages := by
  unfold Obligations.ChannelMessages
  intro s d typ e x h goesTo size ks ep c quiet mine ready after sent out slot key free head arrived took
  have harr (cls : Nat) : arrived cls → s.Arrived e h typ.toNat cls goesTo size
    | ⟨⟨⟨hm, ho⟩, hfree, hh, hF, hty⟩, hpay, hcls, hx⟩ => ⟨hm, ho, ⟨hfree, hh, hF⟩, hty, hcls, hpay, hx⟩
  refine ⟨fun hops => ⟨?_, ?_, ?_, ?_, ?_, ?_, ?_⟩, fun hops ⟨hm, ho⟩ hf => ⟨?_, ?_⟩, ?_, fun hops => ⟨?_, ?_⟩, ?_, ?_⟩
  · exact fun ⟨hm, ho⟩ hf hx => exec_send.trans (State.sendOn_control hm ho hf hops hx)
  · exact fun ⟨hm, ho⟩ hf hx => exec_select.trans (State.sendOn_control hm ho hf hops hx)
  · exact fun ⟨hm, ho⟩ hf hx => exec_send.trans (State.sendOn_full hops (by decide) hm ho hx hf)
  · exact fun ho => ⟨exec_send.trans (State.onEp_unowned hops (State.hostPre_of_ne (by decide)) ho),
      exec_recv.trans (State.onEp_unowned hops (State.hostPre_of_ne (by decide)) ho)⟩
  · intro ⟨hm, ho⟩ hu hn
    exact exec_send.trans (State.sendOn_refused hops (by decide) hm ho (State.matchOut_none hu hn))
  · exact fun ha => exec_recv.trans (execRecv_control (harr 0 ha) hops)
  · refine fun ⟨hm, ho⟩ hx => ⟨fun hfree hF => ?_, fun hheld => ?_⟩
    · exact exec_recv.trans (execRecv_block hm ho hops hx (State.headOf_empty ho hfree hF))
    · exact exec_recv.trans (execRecv_block hm ho hops hx (State.headOf_held ho (Bool.of_not_eq_false hheld)))
  · exact fun hx => exec_send.trans (State.sendOn_word hm ho hf hops hx)
  · exact fun hx hu hk => exec_send.trans (State.sendOn_local hm ho hf hops hx hu hk)
  · exact fun hops ⟨hm, ho⟩ hf hx => exec_send.trans (State.sendOn_vector hm ho hf hops hx)
  · exact fun ha => exec_recv.trans (execRecv_word (harr 1 ha) hops)
  · intro ⟨⟨hm, ho⟩, hfree, hh, hF, hty⟩ hc hu hk r hr
    exact exec_offer.trans (execOffer_control hm ho hops ⟨hfree, hh, hF⟩ hty hc hu hk hr)
  · exact fun hops ha => exec_recv.trans (execRecv_vector (harr 2 ha) hops)
  · exact fun hops ha _ hk => exec_recv.trans (execRecv_local (harr 3 ha) hops hk)

end Sys2Proof.Machine
end

section
/-! SUPPORT. The checks of a global or window access, its request and its answer (R243 to R249, R278, R386). -/

namespace Sys2Proof.Machine

section
variable {s : State} {e : EpId}

/-- Endpoint e takes accesses of a protocol whose messages have `need` bytes, and has room below its bound (R243). -/
structure State.Usable (s : State) (e : EpId) (proto need : Nat) : Prop where
  holds : s.holds e
  isOpen : (s.ep e).st = .open
  proto : (s.ep e).proto.toNat = proto
  fits : need + 16 ≤ (s.ep e).slotu.toNat * 16
  below : (s.ep e).state.toNat < (s.ep e).pdepth.toNat + 1

theorem State.Usable.mayUse {proto need : Nat} (h : s.Usable e proto need) : s.mayUse e proto need = .ok () := by
  simp [State.mayUse, State.mustOpen_open h.isOpen, Res.bind, Res.refuseIf, h.proto, h.fits]

theorem State.Usable.underBound {proto need : Nat} (h : s.Usable e proto need) : s.underBound e = .ok () := by
  simp [State.underBound, Nat.le_of_lt_succ h.below]

/-- A class counter, where the access has one, has room (R278). -/
def State.roomFor (s : State) (cls : Option Cls) : Prop := ∀ c ∈ cls, s.ctx.count c < 65535

theorem State.roomFor_none : s.roomFor none := by simp [State.roomFor]

theorem State.roomFor_some {c : Cls} (h : s.ctx.count c < 65535) : s.roomFor (some c) := by simpa [State.roomFor] using h

theorem State.roomFor.classRoom {c : Cls} (h : s.roomFor (some c)) : s.classRoom c = .ok () := by
  simp [State.classRoom, h c rfl]

/-- Address va of len bytes is aligned and in backing memory, with the permission, and no store through another peer waits at
the controller that serves it (R244, R386). -/
structure State.Mapped (s : State) (e : EpId) (va : W) (pa key len : Nat) (need : Need) : Prop where
  aligned : va.toNat % len = 0
  backed : ∃ te, s.xlate va cXLATE = .ok te ∧ need.granted te.pte = true ∧ te.home va.toNat = .backing pa key
  onePeer : ∀ q ∈ s.me.storeq, q.serving = (servingCtrl pa).toNat → q.peer = (s.ep e).ctrl

section
variable {va : W} {pa key len : Nat} {need : Need}

theorem State.Mapped.globalAddr (h : s.Mapped e va pa key len need) : s.globalAddr va len need = .ok (pa, key) := by
  obtain ⟨te, hx, hg, hh⟩ := h.backed
  simp [State.globalAddr, h.aligned, hx, Res.bind, hg, hh]

theorem State.Mapped.onePeer_ok (h : s.Mapped e va pa key len need) : s.onePeer e pa (s.ep e).ctrl = .ok () := by
  have hno : (s.me.storeq.any fun q => q.serving == (servingCtrl pa).toNat && q.peer != (s.ep e).ctrl) = false := by
    simpa using h.onePeer
  simp [State.onePeer, hno]

end

/-- A misaligned address traps (R244). -/
theorem State.globalAddr_misaligned {va : W} {len : Nat} (need : Need) (h : va.toNat % len ≠ 0) :
    s.globalAddr va len need = .trap { cause := cMISALIGN, addr := va } := by
  simp [State.globalAddr, h]

/-! ### A global access that passes its checks -/

section
variable {write : Bool} {n : Nat} {va : W} {cls : Option Cls} {operand : Res Nat} {k : Nat → MemReq → Res State}

theorem State.globally_ok {pa key o : Nat} (hu : s.Usable e (b2n write) (Nat.max 8 n))
    (hm : s.Mapped e va pa key n { r := !write, w := write }) (ho : operand = .ok o) (hr : s.roomFor cls) :
    s.globally e write n va cls operand k =
      k o ⟨s.origin, 0, e, (s.ep e).gen, (s.ep e).ctrl, write, pa, va, n, key, [], o, []⟩ := by
  simp only [State.globally, hu.mayUse, hm.globalAddr, ho, hu.underBound, hm.onePeer_ok, Res.bind]
  cases cls with
  | none => rfl
  | some c => simp only [hr.classRoom]

theorem State.globally_misaligned (hu : s.Usable e (b2n write) (Nat.max 8 n)) (h : va.toNat % n ≠ 0) :
    s.globally e write n va cls operand k = .trap { cause := cMISALIGN, addr := va } := by
  simp only [State.globally, hu.mayUse, State.globalAddr_misaligned _ h, Res.bind]

end

/-- An offset of an aligned window access of len bytes (R247). -/
def inWindow (va : W) (len : Nat) : Prop := va.toNat < 2 ^ 22 ∧ va.toNat % len = 0

theorem State.windowed_ok {n : Nat} {va : W} {cls : Option Cls} {k : Res State} (hu : s.Usable e 2 (Nat.max 8 n))
    (hw : inWindow va n) (hr : s.roomFor cls) : s.windowed e n va cls k = k := by
  obtain ⟨hlt, hal⟩ := hw
  have hz : wf va 22 42 = 0 := by
    rw [wf_eq_toNat]
    have hdiv : va.toNat / 4194304 = 0 := Nat.div_eq_of_lt hlt
    simp [Nat.shiftRight_eq_div_pow, hdiv]
  simp only [State.windowed, hu.mayUse, hu.underBound, Res.bind, hz, hal]
  cases cls with
  | none => rfl
  | some c => simp [hr.classRoom]

/-! ### An access that waits for its answer -/

section
variable {first : Res State} {done : W → BitVec 5 → Res State}

theorem State.await_ask {t : State} (h : s.ctx.req = none) (hf : first = .ok t) :
    s.await e first done = .block { kind := 1, ep := e.toNat } t := by
  simp [State.await, h, hf]

theorem State.await_trap {t : Trap} (h : s.ctx.req = none) (hf : first = .trap t) : s.await e first done = .trap t := by
  simp [State.await, h, hf]

theorem State.await_value {txn : Nat} {w : W} {f : BitVec 5} (h : s.ctx.req = some ⟨txn, some (.value w f)⟩) :
    s.await e first done = done w f := by
  simp [State.await, h]

theorem State.await_failed {txn : Nat} {f : Deferred} (h : s.ctx.req = some ⟨txn, some (.failed f)⟩) :
    s.await e first done = .trap f.asTrap := by
  simp [State.await, h]

end

/-- The state in which the context waits for the answer to its next request. -/
def State.requesting (s : State) : State := s.newTxn.2.2.mapCtx fun c => { c with req := some ⟨s.newTxn.2.1, none⟩ }

/-- The request of a global access. -/
def State.memReq (s : State) (e : EpId) (txn : Nat) (w : Bool) (pa : Nat) (va : W) (len key : Nat) (data : List Byte)
    (dst : Nat) : MemReq :=
  ⟨s.origin, txn, e, (s.ep e).gen, (s.ep e).ctrl, w, pa, va, len, key, data, dst, []⟩

theorem pow_size_le (sz : BitVec 2) : Nat.max 8 (2 ^ sz.toNat) = 8 :=
  Nat.max_eq_left (Nat.pow_le_pow_right (n := 2) (by decide) (Nat.le_of_lt_succ sz.isLt) : _ ≤ 2 ^ 3)

theorem portSize_le (o : Nat) : Nat.max 8 (portSize o) = 8 := by
  unfold portSize
  split <;> rfl

/-! ### Loads -/

section
variable {d a : Reg} {u : BitVec 1} {sz : BitVec 2} {o : BitVec 5} {va x : W} {txn : Nat} {w : W} {f : BitVec 5} {ft : Deferred}

section
variable (hops : s.operands [a] [d] [] = .ok [va])
include hops

theorem execGld_asks {pa key : Nat} (hq : s.ctx.req = none) (hu : s.Usable e 0 8)
    (hm : s.Mapped e va pa key (2 ^ sz.toNat) { r := true }) : execGld d a u e sz s =
      .next ((s.requesting.sendMem (s.memReq e s.newTxn.2.1 false pa va (2 ^ sz.toNat) key [] 0)).block
        { kind := 1, ep := e.toNat }) := by
  refine (State.onEp_holds hops rfl hu.holds).trans (State.issue_block hops (State.await_ask hq ?_))
  exact State.globally_ok (by rw [pow_size_le]; exact hu) hm rfl State.roomFor_none

theorem execGld_misaligned (hq : s.ctx.req = none) (hu : s.Usable e 0 8) (h : va.toNat % 2 ^ sz.toNat ≠ 0) :
    execGld d a u e sz s = .next (s.trap { cause := cMISALIGN, addr := va }) := by
  refine (State.onEp_holds hops rfl hu.holds).trans (State.issue_trap hops (State.await_trap hq ?_))
  exact State.globally_misaligned (by rw [pow_size_le]; exact hu) h

theorem execGld_value (hm : s.holds e) (hq : s.ctx.req = some ⟨txn, some (.value w f)⟩) :
    execGld d a u e sz s = .next (s.doneG 4 [a] d (extend (u == 0) (2 ^ sz.toNat) w.toNat)) :=
  (State.onEp_holds hops rfl hm).trans (State.issue_ok hops (State.await_value hq))

theorem execGld_failed (hm : s.holds e) (hq : s.ctx.req = some ⟨txn, some (.failed ft)⟩) :
    execGld d a u e sz s = .next (s.trap ft.asTrap) :=
  (State.onEp_holds hops rfl hm).trans (State.issue_trap hops (State.await_failed hq))

theorem execWrd_asks (hq : s.ctx.req = none) (hu : s.Usable e 2 8) (hw : inWindow va (2 ^ sz.toNat)) : execWrd d a u e sz s =
    .next ((s.requesting.sendWindow e 0 (.win (s.winReq e s.newTxn.2.1 .read va.toNat (2 ^ sz.toNat) []))).block
      { kind := 1, ep := e.toNat }) := by
  refine (State.onEp_holds hops rfl hu.holds).trans (State.issue_block hops (State.await_ask hq ?_))
  exact State.windowed_ok (by rw [pow_size_le]; exact hu) hw State.roomFor_none

theorem execWrd_value (hm : s.holds e) (hq : s.ctx.req = some ⟨txn, some (.value w f)⟩) :
    execWrd d a u e sz s = .next (s.doneG 4 [a] d (extend (u == 0) (2 ^ sz.toNat) w.toNat)) :=
  (State.onEp_holds hops rfl hm).trans (State.issue_ok hops (State.await_value hq))

theorem execWrd_failed (hm : s.holds e) (hq : s.ctx.req = some ⟨txn, some (.failed ft)⟩) :
    execWrd d a u e sz s = .next (s.trap ft.asTrap) :=
  (State.onEp_holds hops rfl hm).trans (State.issue_trap hops (State.await_failed hq))

end

section
variable (hops : s.operands [a, d] [d] [] = .ok [va, x])
include hops

theorem execWamo_asks (hq : s.ctx.req = none) (hu : s.Usable e 2 8) (hw : inWindow va (portSize o.toNat)) :
    execWamo d a e o s = .next ((s.requesting.sendWindow e (portSize o.toNat) (.win (s.winReq e s.newTxn.2.1
      (.amo o.toNat (s.ctx.rx 7)) va.toNat (portSize o.toNat) (leBytes (portSize o.toNat) x.toNat)))).block
      { kind := 1, ep := e.toNat }) := by
  refine (State.onEp_holds hops rfl hu.holds).trans (State.issue_block hops (State.await_ask hq ?_))
  refine (State.windowed_ok (by rw [portSize_le]; exact hu) hw State.roomFor_none).trans ?_
  dsimp only
  rw [length_leBytes]
  rfl

theorem execWamo_value (hm : s.holds e) (hq : s.ctx.req = some ⟨txn, some (.value w f)⟩) : execWamo d a e o s =
    .next (((s.setG d w).orFlags s.cur.core s.cur.ctx f).done 4 [a, d]) :=
  (State.onEp_holds hops rfl hm).trans (State.issue_ok hops (State.await_value hq))

end

/-! ### Stores, and the vector accesses -/

section
variable (hops : s.operands [a, d] [] [] = .ok [va, x])
include hops

theorem execGst_sends {pa key : Nat} (hu : s.Usable e 1 8) (hm : s.Mapped e va pa key (2 ^ sz.toNat) { w := true })
    (hr : s.ctx.count .gstore < 65535) : execGst d a e sz s =
      .next (((s.mapCtx fun c => c.launch .gstore true (some e)).sendMem
        (s.memReq e 0 true pa va (2 ^ sz.toNat) key (leBytes (2 ^ sz.toNat) x.toNat) 0)).done 4 [a, d]) :=
  (State.onEp_holds hops rfl hu.holds).trans <| State.issue_ok hops <|
    State.globally_ok (by rw [pow_size_le]; exact hu) hm rfl (State.roomFor_some hr)

theorem execGvld_sends {pa key k : Nat} (hu : s.Usable e 0 128) (hm : s.Mapped e va pa key 128 { r := true })
    (hk : s.access x 128 128 { w := true } = .ok k) (hr : s.ctx.count .gload < 65535) : execGvld d a e s =
      .next (((s.mapCtx fun c => c.launch .gload true (some e)).sendMem
        (s.memReq e 0 false pa va 128 key [] k)).done 4 [a, d]) :=
  (State.onEp_holds hops rfl hu.holds).trans <| State.issue_ok hops <| State.globally_ok hu hm hk (State.roomFor_some hr)

theorem execGvst_sends {pa key k : Nat} (hu : s.Usable e 1 128) (hm : s.Mapped e va pa key 128 { w := true })
    (hk : s.access x 128 128 { r := true } = .ok k) (hr : s.ctx.count .gstore < 65535) (hweak : s.weak = []) :
    execGvst d a e s = .next (((s.mapCtx fun c => c.launch .gstore true (some e)).sendMem
      (s.memReq e 0 true pa va 128 key (memReads s.mem k 128) k)).done 4 [a, d]) := by
  refine (State.onEp_holds hops rfl hu.holds).trans (State.issue_ok hops ?_)
  refine (State.globally_ok hu hm hk (State.roomFor_some hr)).trans ?_
  dsimp only
  rw [State.correct_of_weak_nil hweak]
  rfl

theorem execWwr_sends (hu : s.Usable e 2 8) (hw : inWindow va (2 ^ sz.toNat)) (hr : s.ctx.count .gstore < 65535) :
    execWwr d a e sz s = .next (((s.mapCtx fun c => c.launch .gstore true (some e)).sendWindow e (2 ^ sz.toNat)
      (.win (s.winReq e 0 .write va.toNat (2 ^ sz.toNat) (leBytes (2 ^ sz.toNat) x.toNat)))).done 4 [a, d]) :=
  (State.onEp_holds hops rfl hu.holds).trans <| State.issue_ok hops <|
    State.windowed_ok (by rw [pow_size_le]; exact hu) hw (State.roomFor_some hr)

end

theorem execWpm_sends {b : Reg} (hops : s.operands [a, b] [] [d] = .ok [va, x]) (hok : wpmOk (s.ctx.rx 5) = true)
    (hx : x.toNat < 64 * (wf (s.ctx.rx 5) 22 6 + 1)) (hu : s.Usable e 2 128) (hw : inWindow va 128)
    (hr : s.ctx.count .gstore < 65535) : execWpm d a b e s =
      .next (((s.mapCtx fun c => c.launch .gstore true (some e)).sendWindow e 128 (.wpm ⟨s.origin, e, (s.ep e).gen, s.cur.core,
        va.toNat, leBytes 128 (s.ctx.rv d).toNat, x.toNat, wf (s.ctx.rx 5) 0 22, wf (s.ctx.rx 5) 22 6 + 1⟩)).done 4 [a, b]) := by
  have hpre : Res.check (wpmOk (s.ctx.rx 5)) illOpnd = .ok () := by rw [hok]; rfl
  refine (State.onEp_holds hops hpre hu.holds).trans (State.issue_ok hops ?_)
  refine (congrArg (Res.bind · _) hu.mayUse).trans ((if_neg (Nat.not_le.2 hx)).trans ?_)
  exact State.windowed_ok hu hw (State.roomFor_some hr)

end
end

end Sys2Proof.Machine
end

section
/-! SUPPORT. The frame of an instruction that writes at most one general register: what each operation of the model leaves of
the issuing context's registers and of memory. -/

namespace Sys2Proof.Machine

/-! ### Contexts -/

/-- From c to c' no register has changed but general registers of ds. -/
structure Ctx.Kept (ds : List Reg) (c c' : Ctx) : Prop where
  v : c'.v = c.v
  q : c'.q = c.q
  p : c'.p = c.p
  x : c'.x = c.x
  g : ∀ r ∉ ds, c'.rg r = c.rg r

section
variable {ds : List Reg} {a b c : Ctx}

theorem Ctx.Kept.refl : Ctx.Kept ds c c := ⟨rfl, rfl, rfl, rfl, fun _ _ => rfl⟩

theorem Ctx.Kept.trans (h : Ctx.Kept ds a b) (h' : Ctx.Kept ds b c) : Ctx.Kept ds a c :=
  ⟨h'.v.trans h.v, h'.q.trans h.q, h'.p.trans h.p, h'.x.trans h.x, fun r hr => (h'.g r hr).trans (h.g r hr)⟩

/-- A change of other fields. -/
theorem Ctx.Kept.of_eq (hg : b.g = a.g) (hv : b.v = a.v) (hq : b.q = a.q) (hp : b.p = a.p) (hx : b.x = a.x) :
    Ctx.Kept ds a b := ⟨hv, hq, hp, hx, fun r _ => by rw [Ctx.rg, Ctx.rg, hg]⟩

theorem Ctx.Kept.wg {d : Reg} (hd : d ∈ ds) (w : W) : Ctx.Kept ds c (c.wg d w) := by
  unfold Ctx.wg
  split
  · exact .refl
  · refine ⟨rfl, rfl, rfl, rfl, fun r hr => ?_⟩
    have hne : d.toNat ≠ r.toNat := fun e => hr (BitVec.eq_of_toNat_eq e ▸ hd)
    simp only [Ctx.rg, Vector.getElem_set_ne d.isLt r.isLt hne]

theorem Ctx.stop_kept (now : Nat) : Ctx.Kept ds c (c.stop now) := .of_eq rfl rfl rfl rfl rfl
theorem Ctx.Kept.stopIf (h : Ctx.Kept ds a b) (held : Bool) (now : Nat) : Ctx.Kept ds a (if held then b.stop now else b) := by
  split
  · exact h.trans (Ctx.stop_kept now)
  · exact h

theorem Ctx.launch_kept (cls : Cls) (fence : Bool) (ep : Option EpId) : Ctx.Kept ds c (c.launch cls fence ep) :=
  .of_eq rfl rfl rfl rfl rfl

/-- A trap writes fault records, the PC and the state only (R147). -/
theorem Ctx.enterTrap_kept (t : Trap) (word : BitVec 32) (now pend : Nat) :
    Ctx.Kept ds c (c.enterTrap t word now pend).1 := by
  unfold Ctx.enterTrap
  dsimp only
  split <;> exact .of_eq rfl rfl rfl rfl rfl

theorem Ctx.atLevel_kept (pc : W) {st : Ctx × W × Bool} (n : Fin 3) (h : Ctx.Kept ds c st.1) :
    Ctx.Kept ds c (Ctx.atLevel pc st n).1 := by
  obtain ⟨c', nx, stop⟩ := st
  refine h.trans ?_
  dsimp only [Ctx.atLevel]
  split
  · exact .refl
  split
  · split <;> exact .of_eq rfl rfl rfl rfl rfl
  · exact .refl

theorem Ctx.loopNext_kept (pc : W) (len : Nat) : Ctx.Kept ds c (c.loopNext pc len).1 := by
  rw [Ctx.loopNext_eq]
  exact Ctx.atLevel_kept _ _ (Ctx.atLevel_kept _ _ (Ctx.atLevel_kept _ _ .refl))

theorem Ctx.advance_kept (len : Nat) : Ctx.Kept ds c (c.advance len) :=
  (Ctx.loopNext_kept c.pc len).trans (.of_eq rfl rfl rfl rfl rfl)

theorem Ctx.honour_kept (now : Nat) : Ctx.Kept ds c (c.honour now) := by
  unfold Ctx.honour
  split
  · exact Ctx.stop_kept now
  · exact .refl

end

/-! ### Cores -/

/-- An endpoint feeds words to g30 of context k (R220). -/
def Core.feeds (x : Core) (k : CtxId) : Prop := ∃ e ∈ x.eps, e.2.bindAs = 1 ∧ e.2.owner = k

/-- From core x to core y the registers of context k are as before, and no endpoint has begun to feed its g30. -/
structure Core.Kept (ds : List Reg) (k : CtxId) (x y : Core) : Prop where
  ctx : Ctx.Kept ds (x.ctx k) (y.ctx k)
  feeds : y.feeds k → x.feeds k

section
variable {ds : List Reg} {k : CtxId} {x y z : Core}

theorem Core.Kept.refl : Core.Kept ds k x x := ⟨.refl, id⟩

theorem Core.Kept.trans (h : Core.Kept ds k x y) (h' : Core.Kept ds k y z) : Core.Kept ds k x z :=
  ⟨h.ctx.trans h'.ctx, h.feeds ∘ h'.feeds⟩

/-- A change of the core's other units. -/
theorem Core.Kept.of_eq (hc : y.ctxs = x.ctxs) (he : y.eps = x.eps) : Core.Kept ds k x y :=
  ⟨by rw [Core.ctx, Core.ctx, hc]; exact .refl, by rw [Core.feeds, Core.feeds, he]; exact id⟩

theorem Core.Kept.mapCtx {j : CtxId} {f : Ctx → Ctx} (h : Ctx.Kept ds (x.ctx j) (f (x.ctx j))) :
    Core.Kept ds k x (x.mapCtx j f) := by
  refine ⟨?_, id⟩
  by_cases hj : j = k
  · subst hj
    rw [Core.mapCtx_ctx]
    exact h
  · rw [Core.mapCtx_ctx_other _ _ _ _ hj]
    exact .refl

theorem Core.Kept.post (h : Core.Kept ds k x y) (e : W) : Core.Kept ds k x (y.post e) := by
  refine h.trans ?_
  unfold Core.post
  dsimp only
  split
  · exact .refl
  split <;> exact .of_eq rfl rfl

theorem Core.countEcc_kept : Core.Kept ds k x x.countEcc := by
  unfold Core.countEcc
  dsimp only
  split
  · refine .post (.of_eq ?_ ?_) _ <;> rfl
  · exact .of_eq rfl rfl

theorem Tab.mem_put {α : Type} {t : Tab α} {n : Nat} {a : α} {e : Nat × α} (h : e ∈ t.put n a) : e ∈ t ∨ e = (n, a) := by
  induction t with
  | nil => exact .inr (List.mem_singleton.1 h)
  | cons b t ih =>
    unfold Tab.put at h
    split at h
    · exact (List.mem_cons.1 h).elim .inr fun h => .inl (List.mem_cons_of_mem _ h)
    · rcases List.mem_cons.1 h with rfl | h
      · exact .inl List.mem_cons_self
      · exact (ih h).imp_left (List.mem_cons_of_mem _)

theorem Tab.look_mem {α : Type} (d : α) (t : Tab α) (n : Nat) : t.look d n = d ∨ (n, t.look d n) ∈ t := by
  induction t with
  | nil => exact .inl rfl
  | cons b t ih =>
    unfold Tab.look
    split
    · next h => exact .inr (h ▸ List.mem_cons_self)
    · exact ih.imp_right (List.mem_cons_of_mem _)

/-- A change of an endpoint that keeps its owner and its name. -/
theorem Core.Kept.mapEp {e : EpId} {f : Endpoint → Endpoint} (hb : ∀ p, (f p).bindAs = p.bindAs)
    (ho : ∀ p, (f p).owner = p.owner) : Core.Kept ds k x (x.mapEp e f) := by
  refine ⟨.refl, fun ⟨a, ha, hbind, hown⟩ => ?_⟩
  rcases Tab.mem_put ha with ha | rfl
  · exact ⟨a, ha, hbind, hown⟩
  · rw [hb] at hbind
    rw [ho] at hown
    rcases Tab.look_mem {} x.eps e.toNat with hl | hl
    · rw [Core.ep, hl] at hbind
      exact absurd hbind (by decide)
    · exact ⟨_, hl, hbind, hown⟩

end

/-! ### States -/

/-- From s to t memory is as before, and so are the registers of the issuing context but general registers of ds. -/
structure State.Kept (ds : List Reg) (s t : State) : Prop where
  mem : t.mem = s.mem
  cur : t.cur = s.cur
  me : Core.Kept ds s.cur.ctx (s.core s.cur.core) (t.core s.cur.core)

section
variable {ds : List Reg} {s t u : State}

theorem State.Kept.refl : State.Kept ds s s := ⟨rfl, rfl, .refl⟩

theorem State.Kept.trans (h : State.Kept ds s t) (h' : State.Kept ds t u) : State.Kept ds s u := by
  have hme := h'.me
  rw [h.cur] at hme
  exact ⟨h'.mem.trans h.mem, h'.cur.trans h.cur, h.me.trans hme⟩

theorem State.Kept.ctx (h : State.Kept ds s t) : Ctx.Kept ds s.ctx t.ctx := by
  rw [State.ctx, State.ctx, State.ctxAt, State.ctxAt, h.cur]
  exact h.me.ctx

/-- A change outside the cores and memory. -/
theorem State.Kept.of_eq (hm : t.mem = s.mem) (hcur : t.cur = s.cur) (hc : t.cores = s.cores) : State.Kept ds s t :=
  ⟨hm, hcur, by rw [State.core, State.core, hc]; exact .refl⟩

theorem State.Kept.mapCore {c : CoreId} {f : Core → Core} (h : Core.Kept ds s.cur.ctx (s.core c) (f (s.core c))) :
    State.Kept ds s (s.mapCore c f) := by
  refine ⟨rfl, rfl, ?_⟩
  by_cases hc : c = s.cur.core
  · subst hc
    rw [State.mapCore_core]
    exact h
  · rw [State.mapCore_core_other _ _ _ _ hc]
    exact .refl

theorem State.Kept.mapCtxAt {c : CoreId} {k : CtxId} {f : Ctx → Ctx} (h : Ctx.Kept ds (s.ctxAt c k) (f (s.ctxAt c k))) :
    State.Kept ds s (s.mapCtxAt c k f) := .mapCore (.mapCtx h)

theorem State.Kept.mapCtx {f : Ctx → Ctx} (h : Ctx.Kept ds s.ctx (f s.ctx)) : State.Kept ds s (s.mapCtx f) := .mapCtxAt h

theorem State.Kept.foldl {α : Type} {f : State → α → State} (hf : ∀ t a, State.Kept ds t (f t a)) (l : List α) (s : State) :
    State.Kept ds s (l.foldl f s) :=
  List.foldlRecOn l f (motive := State.Kept ds s) .refl fun _ ht _ _ => ht.trans (hf _ _)

/-- Plain sources take no words from an endpoint afterwards either. -/
theorem State.Kept.takeWords (h : State.Kept ds s t) {src : List Reg} (hp : s.plain src) : t.takeWords src = t := by
  refine State.takeWords_of_popCount ?_
  unfold popCount
  split
  · next hsome =>
    obtain ⟨e, he⟩ := Option.isSome_iff_exists.1 hsome
    simp only [List.length_eq_zero_iff, List.filter_eq_nil_iff, beq_iff_eq]
    rintro r hr rfl
    have hno := (hp 30 hr).2.1 rfl
    simp only [State.aliasOf, Option.map_eq_none_iff, List.find?_eq_none, Bool.and_eq_true, beq_iff_eq] at hno
    simp only [State.aliasOf, Option.map_eq_some_iff] at he
    obtain ⟨a, ha, -⟩ := he
    have hin := List.find?_some ha
    simp only [Bool.and_eq_true, beq_iff_eq, h.cur] at hin
    have hmem : a ∈ (t.core s.cur.core).eps := by
      rw [← h.cur]
      exact List.mem_of_find?_eq_some ha
    obtain ⟨b, hb, hbb⟩ := h.me.feeds ⟨a, hmem, hin⟩
    exact hno b hb hbb
  · rfl

/-! ### Shared operations -/

theorem State.fresh_kept : State.Kept ds s s.fresh.2 := .of_eq rfl rfl rfl

theorem State.fail_kept (cls unit : Nat) (loc : CoreId) : State.Kept ds s (s.fail cls unit loc) := by
  unfold State.fail
  dsimp only
  split
  · exact .of_eq rfl rfl rfl
  split <;> exact .of_eq rfl rfl rfl

theorem State.coreFault_kept (c : CoreId) (cause : Nat) : State.Kept ds s (s.coreFault c cause) :=
  .trans (.mapCore (.of_eq rfl rfl)) (State.fail_kept _ _ _)

theorem State.pendShown_kept (c : Ctx) : State.Kept ds s (s.pendShown c).2 := by
  unfold State.pendShown
  split
  · exact .refl
  · exact State.fresh_kept

theorem State.pendShown_core (c : Ctx) (i : CoreId) : (s.pendShown c).2.core i = s.core i := by
  unfold State.pendShown
  split <;> rfl

/-- What a trap that stops its context does besides (R147, R185). -/
theorem State.Kept.stopped (h : State.Kept ds s t) (stopped : Bool) (co : CoreId) (k : CtxId) (e : W) :
    State.Kept ds s (if stopped then
      if k = 0 then ((t.mapCore co fun x => x.post e).mapCtxAt co k fun c => { c with life := .runnable }).coreFault co 1
      else t.mapCore co fun x => x.post e
    else t) := by
  have hpost : State.Kept ds s (t.mapCore co fun x => x.post e) := h.trans (.mapCore (.post .refl _))
  split
  · split
    · exact hpost.trans (.trans (.mapCtxAt (.of_eq rfl rfl rfl rfl rfl)) (State.coreFault_kept _ _))
    · exact hpost
  · exact h

theorem State.trapAt_kept (co : CoreId) (k : CtxId) (tr : Trap) (word : BitVec 32) :
    State.Kept ds s (s.trapAt co k tr word) := by
  unfold State.trapAt
  dsimp only
  refine State.Kept.stopped (.trans (State.pendShown_kept _) (.mapCtxAt (f := fun _ => _) ?_)) _ _ _ _
  rw [State.ctxAt, State.pendShown_core]
  exact Ctx.Kept.stopIf (Ctx.enterTrap_kept _ _ _ _) _ _

theorem State.trap_kept (tr : Trap) : State.Kept ds s (s.trap tr) := State.trapAt_kept _ _ _ _

theorem State.complete_kept (len : Nat) : State.Kept ds s (s.complete len) :=
  .mapCtx ((Ctx.advance_kept len).trans (Ctx.honour_kept _))

theorem State.block_kept (w : Wait) : State.Kept ds s (s.block w) := .mapCtx (.of_eq rfl rfl rfl rfl rfl)

theorem State.setFloe_kept (i : FloeId) (x : Floe) : State.Kept ds s (s.setFloe i x) := .of_eq rfl rfl rfl

theorem State.fillTlb_kept (c : CoreId) (e : TlbEnt) : State.Kept ds s (s.fillTlb c e) := by
  unfold State.fillTlb
  dsimp only
  split
  · exact .refl
  split
  · exact .mapCore (f := fun x => { x with tlb := x.tlb ++ [e] }) (.of_eq rfl rfl)
  · exact .trans State.fresh_kept (.mapCore (.of_eq rfl rfl))

theorem State.requestWalk_kept (page : Nat) : State.Kept ds s (s.requestWalk page) := by
  unfold State.requestWalk
  dsimp only
  split
  · exact State.fillTlb_kept _ _
  split
  · exact .refl
  · exact State.setFloe_kept _ _

theorem State.correct_kept (c : CoreId) (k n : Nat) : State.Kept ds s (s.correct c k n) := by
  unfold State.correct
  dsimp only
  split
  · exact .refl
  · refine .trans (.of_eq ?_ ?_ ?_) (.foldl (fun _ _ => .mapCore Core.countEcc_kept) _ _) <;> rfl

theorem State.orFlags_kept (c : CoreId) (k : CtxId) (f : BitVec 5) : State.Kept ds s (s.orFlags c k f) :=
  .mapCtxAt (.of_eq rfl rfl rfl rfl rfl)

theorem State.launch_kept (cls : Cls) (fence : Bool) (ep : Option EpId) :
    State.Kept ds s (s.mapCtx fun c => c.launch cls fence ep) := .mapCtx (Ctx.launch_kept _ _ _)

theorem State.requesting_kept : State.Kept ds s s.requesting :=
  .trans (t := s.newTxn.2.2) (.mapCtx (.of_eq rfl rfl rfl rfl rfl)) (.mapCtx (.of_eq rfl rfl rfl rfl rfl))

theorem State.setG_kept {d : Reg} (hp : s.plain [d]) (hd : d ∈ ds) (w : W) : State.Kept ds s (s.setG d w) := by
  rw [State.setG_plain hp]
  exact .mapCtx (.wg hd w)

theorem State.send_kept (f : FloeId) (dst : Dest) (order : Option Nat) (bytes : Nat) (body : Body)
    (dmod : Option (BitVec 19)) (src : CoreId) (inp : Nat) : State.Kept ds s (s.send f dst order bytes body dmod src inp) :=
  .of_eq rfl rfl rfl

theorem State.addReq_kept (e : EpId) : State.Kept ds s (s.mapEp e Endpoint.addReq) :=
  State.Kept.mapCore (f := fun x => x.mapEp e Endpoint.addReq) (.mapEp (fun _ => rfl) fun _ => rfl)

theorem State.sendMem_kept (r : MemReq) : State.Kept ds s (s.sendMem r) :=
  .trans (State.addReq_kept r.ep) (.trans (.mapCore (.of_eq rfl rfl)) (State.send_kept _ _ _ _ _ _ _ _))

theorem State.sendWindow_kept (e : EpId) (bytes : Nat) (b : Body) : State.Kept ds s (s.sendWindow e bytes b) :=
  .trans (State.addReq_kept e) (State.send_kept _ _ _ _ _ _ _ _)

end

end Sys2Proof.Machine
end

section
/-! SUPPORT. The frames of global and window accesses: their checks, waits and effects. -/

namespace Sys2Proof.Machine

/-- Of an operation's answer: its value has the property P, and a wait leaves registers (but those of ds) and memory as in s. -/
def Res.Keeps {α : Type} (ds : List Reg) (s : State) (P : α → Prop) : Res α → Prop
  | .ok a => P a
  | .trap _ => True
  | .block _ t => State.Kept ds s t

/-- The same of the state after an instruction. -/
def Out.Keeps (ds : List Reg) (s : State) : Out → Prop
  | .next t => State.Kept ds s t
  | _ => True

section
variable {α β : Type} {ds : List Reg} {s : State} {P : α → Prop} {Q : β → Prop}

theorem Res.Keeps.trap {t : Trap} : (Res.trap t : Res α).Keeps ds s P := trivial
theorem Res.Keeps.ok {a : α} (h : P a) : (Res.ok a).Keeps ds s P := h
theorem Res.Keeps.wait {w : Wait} : (Res.block w s : Res α).Keeps ds s P := State.Kept.refl

theorem Res.Keeps.bind {r : Res α} {f : α → Res β} (h : r.Keeps ds s P) (hf : ∀ a, P a → (f a).Keeps ds s Q) :
    (r.bind f).Keeps ds s Q := by
  cases r with
  | ok a => exact hf a h
  | trap t => trivial
  | block w t => exact h

/-- After a check. -/
theorem Res.Keeps.after {r : Res α} {f : α → Res β} (h : r.Keeps ds s fun _ => True) (hf : ∀ a, (f a).Keeps ds s Q) :
    (r.bind f).Keeps ds s Q := h.bind fun a _ => hf a

theorem Res.Keeps.ite {c : Prop} [Decidable c] {r r' : Res α} (h : r.Keeps ds s P) (h' : r'.Keeps ds s P) :
    (if c then r else r').Keeps ds s P := by split <;> assumption

/-! ### Checks -/

theorem State.mustOpen_keeps (e : EpId) : (s.mustOpen e).Keeps ds s fun _ => True := by
  unfold State.mustOpen
  split <;> trivial

theorem State.mayUse_keeps (e : EpId) (proto need : Nat) : (s.mayUse e proto need).Keeps ds s fun _ => True :=
  .after (State.mustOpen_keeps e) fun _ => .ite .trap (.ok trivial)

theorem State.xlate_keeps (va : W) (cause : Nat) : (s.xlate va cause).Keeps ds s fun _ => True := by
  unfold State.xlate
  dsimp only
  split
  · trivial
  split
  · trivial
  split
  · trivial
  · exact State.requestWalk_kept _

theorem State.globalAddr_keeps (va : W) (n : Nat) (need : Need) : (s.globalAddr va n need).Keeps ds s fun _ => True := by
  refine .ite .trap (.after (State.xlate_keeps va _) fun te => .ite .trap ?_)
  split <;> trivial

theorem State.reach_keeps (va : W) (n align : Nat) (need : Need) : (s.reach va n align need).Keeps ds s fun _ => True := by
  refine .ite .trap (.after (State.xlate_keeps va _) fun te => .ite .trap ?_)
  split
  · trivial
  · exact .ite (.ok trivial) .trap

theorem State.pass_keeps (va : W) (k n : Nat) (need : Need) : (s.pass va k n need).Keeps ds s fun _ => True := by
  refine .ite .wait ?_
  split
  · exact .ite .trap (.ok trivial)
  · trivial

theorem State.access_keeps (va : W) (n align : Nat) (need : Need) : (s.access va n align need).Keeps ds s fun _ => True :=
  .after (State.reach_keeps va n align need) fun k => State.pass_keeps va k n need

theorem State.underBound_keeps (e : EpId) : (s.underBound e).Keeps ds s fun _ => True := .ite .wait (.ok trivial)
theorem State.classRoom_keeps (c : Cls) : (s.classRoom c).Keeps ds s fun _ => True := .ite .wait (.ok trivial)
theorem State.onePeer_keeps (e : EpId) (pa peer : Nat) : (s.onePeer e pa peer).Keeps ds s fun _ => True :=
  .ite .wait (.ok trivial)

theorem State.operands_keeps (src dst vec : List Reg) : (s.operands src dst vec).Keeps ds s fun _ => True := by
  refine .ite .trap ?_
  dsimp only
  split
  · exact .wait
  · exact .ite .trap .wait
  · trivial
  · exact .ite .trap (.ite .wait (.ok trivial))
  · trivial

/-! ### The frame of an instruction on an endpoint -/

theorem State.finish_keeps {len : Nat} {r : Res State} (h : r.Keeps ds s (State.Kept ds s)) : (s.finish len r).Keeps ds s := by
  cases r with
  | ok t => exact State.Kept.trans h (State.complete_kept len)
  | trap t => exact State.trap_kept t
  | block w t => exact State.Kept.trans h (State.block_kept w)

section
variable {src dst vec : List Reg} {k : List W → State → Res State}

theorem State.withOperands_keeps (hp : s.plain src) (hk : ∀ l, (k l s).Keeps ds s (State.Kept ds s)) :
    (s.withOperands src dst vec k).Keeps ds s (State.Kept ds s) := by
  refine .after (State.operands_keeps src dst vec) fun l => ?_
  have hl := hk l
  split
  · next t ht =>
    rw [ht] at hl
    have hkept : State.Kept ds s t := hl
    exact (hkept.takeWords hp).symm ▸ hkept
  · exact hl

theorem State.checked_keeps {pre : Res Unit} {o : Out} (h : o.Keeps ds s) : (s.checked src dst vec pre o).Keeps ds s := by
  unfold State.checked
  split
  · exact State.trap_kept _
  split
  · exact State.trap_kept _
  · exact h

theorem State.covering_keeps {cov : Deferred → Bool} {o : Out} (h : o.Keeps ds s) : (s.covering cov o).Keeps ds s := by
  unfold State.covering
  split
  · exact h
  · exact State.Kept.trans (.mapCtx (.of_eq rfl rfl rfl rfl rfl)) (State.trap_kept _)

theorem State.onEp_keeps {e : EpId} {pre : Res Unit} (hp : s.plain src)
    (hk : ∀ l, (k l s).Keeps ds s (State.Kept ds s)) : (s.onEp e src dst vec pre k).Keeps ds s :=
  State.checked_keeps (State.covering_keeps (State.finish_keeps (State.withOperands_keeps hp hk)))

end

/-! ### Global and window accesses -/

theorem State.await_keeps {e : EpId} {first : Res State} {done : W → BitVec 5 → Res State}
    (hf : first.Keeps ds s (State.Kept ds s)) (hd : ∀ w f, (done w f).Keeps ds s (State.Kept ds s)) :
    (s.await e first done).Keeps ds s (State.Kept ds s) := by
  unfold State.await
  split
  · cases first with
    | ok t => exact hf
    | trap t => trivial
    | block w t => exact hf
  · exact .wait
  · exact hd _ _
  · trivial
  · trivial

theorem State.globally_keeps {e : EpId} {write : Bool} {n : Nat} {va : W} {cls : Option Cls} {operand : Res Nat}
    {k : Nat → MemReq → Res State} (ho : operand.Keeps ds s fun _ => True)
    (hk : ∀ o r, (k o r).Keeps ds s (State.Kept ds s)) :
    (s.globally e write n va cls operand k).Keeps ds s (State.Kept ds s) := by
  refine .after (State.mayUse_keeps _ _ _) fun _ => .after (State.globalAddr_keeps _ _ _) fun _ => .after ho fun _ =>
    .after (State.underBound_keeps e) fun _ => .after (State.onePeer_keeps _ _ _) fun _ => .after ?_ fun _ => hk _ _
  cases cls with
  | none => exact .ok trivial
  | some c => exact State.classRoom_keeps c

theorem State.windowed_keeps {e : EpId} {n : Nat} {va : W} {cls : Option Cls} {k : Res State}
    (hk : k.Keeps ds s (State.Kept ds s)) : (s.windowed e n va cls k).Keeps ds s (State.Kept ds s) := by
  refine .after (State.mayUse_keeps _ _ _) fun _ => .ite .trap <| .ite .trap <| .after (State.underBound_keeps e) fun _ =>
    .after ?_ fun _ => hk
  cases cls with
  | none => exact .ok trivial
  | some c => exact State.classRoom_keeps c

end

/-! ### The eight instructions -/

section
variable {s : State} {d a b : Reg} {u : BitVec 1} {e : EpId} {sz : BitVec 2} {o : BitVec 5}

theorem execGld_keeps (ha : s.plain [a]) (hd : s.plain [d]) : (execGld d a u e sz s).Keeps [d] s :=
  State.onEp_keeps ha fun _ => State.await_keeps
    (State.globally_keeps (.ok trivial) fun _ _ => State.requesting_kept.trans (State.sendMem_kept _))
    fun _ _ => State.setG_kept hd List.mem_cons_self _

theorem execWrd_keeps (ha : s.plain [a]) (hd : s.plain [d]) : (execWrd d a u e sz s).Keeps [d] s :=
  State.onEp_keeps ha fun _ => State.await_keeps
    (State.windowed_keeps (State.requesting_kept.trans (State.sendWindow_kept _ _ _)))
    fun _ _ => State.setG_kept hd List.mem_cons_self _

theorem execWamo_keeps (had : s.plain [a, d]) (hd : s.plain [d]) : (execWamo d a e o s).Keeps [d] s :=
  State.onEp_keeps had fun _ => State.await_keeps
    (State.windowed_keeps (State.requesting_kept.trans (State.sendWindow_kept _ _ _)))
    fun _ _ => (State.setG_kept hd List.mem_cons_self _).trans (State.orFlags_kept _ _ _)

theorem execGst_keeps (had : s.plain [a, d]) : (execGst d a e sz s).Keeps [] s :=
  State.onEp_keeps had fun _ => State.globally_keeps (.ok trivial) fun _ _ =>
    (State.launch_kept _ _ _).trans (State.sendMem_kept _)

theorem execGvld_keeps (had : s.plain [a, d]) : (execGvld d a e s).Keeps [] s :=
  State.onEp_keeps had fun _ => State.globally_keeps (State.access_keeps _ _ _ _) fun _ _ =>
    (State.launch_kept _ _ _).trans (State.sendMem_kept _)

theorem execGvst_keeps (had : s.plain [a, d]) : (execGvst d a e s).Keeps [] s :=
  State.onEp_keeps had fun _ => State.globally_keeps (State.access_keeps _ _ _ _) fun _ _ =>
    (State.correct_kept _ _ _).trans ((State.launch_kept _ _ _).trans (State.sendMem_kept _))

theorem execWwr_keeps (had : s.plain [a, d]) : (execWwr d a e sz s).Keeps [] s :=
  State.onEp_keeps had fun _ => State.windowed_keeps ((State.launch_kept _ _ _).trans (State.sendWindow_kept _ _ _))

theorem execWpm_keeps (hab : s.plain [a, b]) : (execWpm d a b e s).Keeps [] s :=
  State.onEp_keeps hab fun _ => .after (State.mayUse_keeps _ _ _) fun _ => .ite .trap <|
    State.windowed_keeps ((State.launch_kept _ _ _).trans (State.sendWindow_kept _ _ _))

end

end Sys2Proof.Machine
end

section
/-! Global and window accesses (R243 to R249, R278, R340, R386). -/

namespace Sys2Proof.Machine

section
variable {s t : State}

/-- Of plain names each is plain. -/
theorem State.plain.mono {l l' : List Reg} (h : s.plain l) (hl : l' ⊆ l) : s.plain l' := fun r hr => h r (hl hr)

/-- The frame of an instruction that writes at most the registers of ds. -/
theorem State.Kept.frame {ds : List Reg} (h : State.Kept ds s t) :
    t.mem = s.mem ∧ t.ctx.v = s.ctx.v ∧ t.ctx.q = s.ctx.q ∧ t.ctx.p = s.ctx.p ∧ t.ctx.x = s.ctx.x ∧
      ∀ r ∉ ds, t.ctx.rg r = s.ctx.rg r :=
  ⟨h.mem, h.ctx.v, h.ctx.q, h.ctx.p, h.ctx.x, h.ctx.g⟩

variable {d a b : Reg} {u : BitVec 1} {e : EpId} {sz : BitVec 2} {o : BitVec 5} {i : Instr}

theorem exec_blocking_kept (hp : s.plain [a, b, d]) (hi : i ∈ [Instr.gld d a u e sz, .wrd d a u e sz, .wamo d a e o])
    (h : exec i s = .next t) : State.Kept [d] s t := by
  have hkeeps : Out.Keeps [d] s (exec i s) := by
    simp only [List.mem_cons, List.not_mem_nil, or_false] at hi
    rcases hi with rfl | rfl | rfl
    · exact execGld_keeps (hp.mono (by simp)) (hp.mono (by simp))
    · exact execWrd_keeps (hp.mono (by simp)) (hp.mono (by simp))
    · exact execWamo_keeps (hp.mono (by simp)) (hp.mono (by simp))
  rwa [h] at hkeeps

theorem exec_posted_kept (hp : s.plain [a, b, d])
    (hi : i ∈ [Instr.gst d a e sz, .gvld d a e, .gvst d a e, .wwr d a e sz, .wpm d a b e]) (h : exec i s = .next t) :
    State.Kept [] s t := by
  have hkeeps : Out.Keeps [] s (exec i s) := by
    have had : s.plain [a, d] := hp.mono (by simp)
    simp only [List.mem_cons, List.not_mem_nil, or_false] at hi
    rcases hi with rfl | rfl | rfl | rfl | rfl
    · exact execGst_keeps had
    · exact execGvld_keeps had
    · exact execGvst_keeps had
    · exact execWwr_keeps had
    · exact execWpm_keeps (hp.mono (by simp))
  rwa [h] at hkeeps

end

/-- `wpmOk` in terms of the fields of x5 (R249). -/
theorem wpmOk_of {x : W} (hz : x.extractLsb' 28 36 = 0) (h8 : (x.extractLsb' 0 22).toNat % 8 = 0)
    (hle : (x.extractLsb' 0 22).toNat + 8 * ((x.extractLsb' 22 6).toNat + 1) + 7 ≤ 0x2FFFFF) : wpmOk x = true := by
  have hz' : wf x 28 36 = 0 := by rw [wf_eq_toNat, hz]; rfl
  simpa [wpmOk, hz', wf_eq_toNat] using And.intro h8 hle

/-- Settles O42: each access passes its checks, sends its request and completes or waits by the rules above; the frame is that
of `State.Kept`. -/
theorem globalAndWindowAccesses : Obligations.GlobalAndWindowAccesses := by
  unfold Obligations.GlobalAndWindowAccesses
  intro s d a b u e sz o va x n ep quiet ready mapped inWin room asks waits launched mem win
  have husable {proto need : Nat} : ready proto need → s.Usable e proto need
    | ⟨hq, ho, hst, hp, hfit, hbelow⟩ => ⟨⟨hq, ho⟩, hst, hp, hfit, hbelow⟩
  have hmapped {pa key len : Nat} {w : Need} : mapped pa key len w → s.Mapped e va pa key len w
    | ⟨hal, hb, hq⟩ => ⟨hal, hb, hq⟩
  refine ⟨fun hq hops => ⟨fun hreq => ⟨?_, ?_, ?_⟩, ?_, ?_, ?_⟩, fun hops => ⟨?_, ?_, ?_, ?_⟩, fun hq hops => ⟨?_, ?_⟩, ?_, ?_⟩
  · exact fun pa key hr hm => exec_gld.trans (execGld_asks hops hreq (husable hr) (hmapped hm))
  · exact fun hr hmis => exec_gld.trans (execGld_misaligned hops hreq (husable hr) hmis)
  · exact fun hr hw => exec_wrd.trans (execWrd_asks hops hreq (husable hr) hw)
  · exact fun ho => ⟨exec_gld.trans (State.onEp_unowned hops rfl ho), exec_wrd.trans (State.onEp_unowned hops rfl ho)⟩
  · exact fun txn w f ho hreq => ⟨exec_gld.trans (execGld_value hops ⟨hq, ho⟩ hreq),
      exec_wrd.trans (execWrd_value hops ⟨hq, ho⟩ hreq)⟩
  · exact fun txn f ho hreq => ⟨exec_gld.trans (execGld_failed hops ⟨hq, ho⟩ hreq),
      exec_wrd.trans (execWrd_failed hops ⟨hq, ho⟩ hreq)⟩
  · exact fun pa key hr hm hroom => exec_gst.trans (execGst_sends hops (husable hr) (hmapped hm) hroom)
  · exact fun pa key k hr hm hk hroom => exec_gvld.trans (execGvld_sends hops (husable hr) (hmapped hm) hk hroom)
  · exact fun pa key k hr hm hk hroom hweak =>
      exec_gvst.trans (execGvst_sends hops (husable hr) (hmapped hm) hk hroom hweak)
  · exact fun hr hw hroom => exec_wwr.trans (execWwr_sends hops (husable hr) hw hroom)
  · exact fun hreq hr hw => exec_wamo.trans (execWamo_asks hops hreq (husable hr) hw)
  · exact fun txn w f ho hreq => exec_wamo.trans (execWamo_value hops ⟨hq, ho⟩ hreq)
  · intro hops x5 rcd nb hz hx h8 hle hr hw hroom
    have hnb : wf x5 22 6 + 1 = nb := congrArg (· + 1) (wf_eq_toNat _ _ _)
    have hrcd : wf x5 0 22 = rcd := wf_eq_toNat _ _ _
    refine exec_wpm.trans ((execWpm_sends hops (wpmOk_of hz h8 hle) (hnb ▸ hx) (husable hr) hw hroom).trans ?_)
    rw [hnb, hrcd]
  · intro hp t
    refine ⟨fun ⟨i, hi, ht⟩ => ?_, fun ⟨i, hi, ht⟩ => ?_⟩
    · simpa using (exec_blocking_kept hp hi ht).frame
    · simpa using (exec_posted_kept hp hi ht).frame

end Sys2Proof.Machine
end

section
/-! SUPPORT. Rounding (R40 to R42, Tables 2.4, 2.5): what the model's arithmetic on whole numbers makes of the real magnitude
that a number and an exponent stand for, exactly or with a sticky bit below. -/

namespace Sys2Proof.Machine

/-! ### Rounding to an integer -/

/-- The integer that the mode chooses for a magnitude y with whole part k, and whether it is inexact (R40). -/
noncomputable def roundedReal (mode : Nat) (neg : Bool) (k : Nat) (y : ℝ) : Nat × Bool :=
  if y = k then (k, false)
  else (if roundsUp mode neg (k % 2 == 1) (cmp ((k : ℝ) + 1 / 2) y) then k + 1 else k, true)

/-- The model's choice depends on the parity of the quotient and on where the remainder r stands by half the divisor h. -/
theorem roundShift_eq (mode : Nat) (s : Bool) {m d k r h : Nat} (hh : 2 ^ d = 2 * h) (hm : m = k * 2 ^ d + r) (hr : r < 2 ^ d) :
    roundShift mode s m d =
      if r = 0 then (k, false) else (if roundsUp mode s (k % 2 == 1) (cmp h r) then k + 1 else k, true) := by
  have hq : m / 2 ^ d = k := by
    rw [hm, Nat.add_comm, Nat.add_mul_div_right _ _ (Nat.two_pow_pos d), Nat.div_eq_of_lt hr, Nat.zero_add]
  have hrem : m % 2 ^ d = r := by
    rw [hm, Nat.add_comm, Nat.add_mul_mod_self_right, Nat.mod_eq_of_lt hr]
  have hlt : (cmp h r = .lt) ↔ 2 ^ d < 2 * r := by rw [cmp_eq_lt_iff]; omega
  have heq : (cmp h r = .eq) ↔ 2 * r = 2 ^ d := by rw [cmp_eq_eq_iff]; omega
  have hgt : (cmp h r = .gt) ↔ 2 * r < 2 ^ d := by rw [cmp_eq_gt_iff]; omega
  by_cases h0 : r = 0
  · have hlt0 : ¬ 2 ^ d < 2 * 0 := by omega
    have heq0 : (2 * 0 == 2 ^ d) = false := by simpa using (Nat.two_pow_pos d).ne
    subst h0
    rw [if_pos rfl]
    match mode with
    | 0 => simp only [roundShift, hq, hrem, gt_iff_lt, hlt0, heq0]; rfl
    | 1 => simp only [roundShift, hq, hrem]; rfl
    | 2 => simp only [roundShift, hq, hrem]; simp
    | 3 => simp only [roundShift, hq, hrem]; simp
    | n + 4 => simp only [roundShift, hq, hrem]; simp
  · have hne : (r != 0) = true := by simpa using h0
    have hlt' : (cmp h r == .lt) = decide (2 * r > 2 ^ d) := by rw [Bool.eq_iff_iff]; simpa using hlt
    have heq' : (cmp h r == .eq) = (2 * r == 2 ^ d) := by rw [Bool.eq_iff_iff]; simpa using heq
    have hge' : (cmp h r != .gt) = decide (2 * r ≥ 2 ^ d) := by
      rw [Bool.eq_iff_iff, bne_iff_ne, ne_eq, hgt, decide_eq_true_eq]
      omega
    rw [if_neg h0]
    match mode with
    | 0 => simp only [roundShift, roundsUp, hq, hrem, hlt', heq', hne]
    | 1 => simp only [roundShift, roundsUp, hq, hrem, hne]
    | 2 => simp only [roundShift, roundsUp, hq, hrem, hne, Bool.and_true]
    | 3 => simp only [roundShift, roundsUp, hq, hrem, hne, Bool.and_true]
    | n + 4 => simp only [roundShift, roundsUp, hq, hrem, hge', hne, Bool.true_and]


/-- The remainder against half the divisor, as the magnitude against the midpoint. -/
theorem cmp_half_div {z : ℝ} {m d k r h : Nat} (hh : 2 ^ (d + 1) = 2 * h) (hm : m = k * 2 ^ (d + 1) + r)
    (hz : z = m ∨ (m % 2 = 1 ∧ 1 ≤ d ∧ (m : ℝ) - 1 < z ∧ z < (m : ℝ) + 1)) :
    cmp ((k : ℝ) + 1 / 2) (z / 2 ^ (d + 1)) = cmp h r := by
  have hD : (2 : ℝ) ^ (d + 1) = 2 * h := by exact_mod_cast hh
  have hpos : (0 : ℝ) < 2 * h := by rw [← hD]; positivity
  have hmr : (m : ℝ) = k * (2 * h) + r := by rw [← hD]; exact_mod_cast hm
  have hscale : cmp ((k : ℝ) + 1 / 2) (z / 2 ^ (d + 1)) = cmp ((k : ℝ) * (2 * h) + h) z := by
    rw [hD, ← cmp_mul_pos_right hpos, div_mul_cancel₀ _ hpos.ne']
    congr 1
    ring
  rw [hscale]
  rcases hz with rfl | ⟨hodd, hd, hlo, hhi⟩
  · rw [hmr]
    have : cmp ((k : ℝ) * (2 * h) + h) (k * (2 * h) + r) = cmp (h : ℝ) r := by
      rw [cmp_add_left]
    rw [this]
    exact Nat.strictMono_cast.cmp_map_eq h r
  · have heven : h % 2 = 0 := by
      obtain ⟨c, rfl⟩ : ∃ c, d = c + 1 := ⟨d - 1, by omega⟩
      rw [pow_succ, pow_succ] at hh
      omega
    have hrodd : r % 2 = 1 := by
      rw [hh] at hm
      have : k * (2 * h) = 2 * (k * h) := by ring
      omega
    rcases Nat.lt_trichotomy h r with hlt | heq | hgt
    · have : (h : ℝ) + 1 ≤ r := by exact_mod_cast hlt
      rw [(cmp_eq_lt_iff _ _).2 hlt, cmp_eq_lt_iff]
      linarith
    · omega
    · have : (r : ℝ) + 1 ≤ h := by exact_mod_cast hgt
      rw [(cmp_eq_gt_iff _ _).2 hgt, cmp_eq_gt_iff]
      linarith

theorem roundShift_real (mode : Nat) (s : Bool) {z : ℝ} {m d k : Nat}
    (hz : z = m ∨ (m % 2 = 1 ∧ 1 ≤ d ∧ (m : ℝ) - 1 < z ∧ z < (m : ℝ) + 1))
    (hlo : (k : ℝ) * 2 ^ (d + 1) ≤ z) (hhi : z < ((k : ℝ) + 1) * 2 ^ (d + 1)) :
    roundShift mode s m (d + 1) = roundedReal mode s k (z / 2 ^ (d + 1)) := by
  have hD : (2 : ℝ) ^ (d + 1) = ((2 ^ (d + 1) : Nat) : ℝ) := by push_cast; rfl
  have hh : 2 ^ (d + 1) = 2 * 2 ^ d := by rw [pow_succ]; ring
  generalize hDn : 2 ^ (d + 1) = D at *
  have hDpos : 0 < D := by rw [← hDn]; positivity
  have hDr : (0 : ℝ) < D := by exact_mod_cast hDpos
  rw [hD] at hlo hhi
  have hbounds : k * D ≤ m ∧ m < (k + 1) * D ∧ (z = m ∨ (k * D < m ∧ (k : ℝ) * D < z)) := by
    rcases hz with rfl | ⟨hodd, -, hl, hu⟩
    · exact ⟨by exact_mod_cast hlo, by exact_mod_cast hhi, .inl rfl⟩
    · have h1 : k * D < m + 1 := by
        have : (k : ℝ) * D < m + 1 := by linarith
        exact_mod_cast this
      have h2 : m < (k + 1) * D + 1 := by
        have : (m : ℝ) < (k + 1) * D + 1 := by linarith
        exact_mod_cast this
      have h3 : (k * D) % 2 = 0 := by rw [hh, show k * (2 * 2 ^ d) = 2 * (k * 2 ^ d) by ring]; omega
      have h4 : (k + 1) * D = k * D + D := by ring
      have h5 : k * D + 1 ≤ m := by omega
      have h6 : (k : ℝ) * D + 1 ≤ m := by exact_mod_cast h5
      exact ⟨by omega, by omega, .inr ⟨by omega, by linarith⟩⟩
  obtain ⟨hge, hlt, hne⟩ := hbounds
  obtain ⟨r, hr⟩ : ∃ r, m = k * D + r := ⟨m - k * D, by omega⟩
  have hrD : r < D := by
    have : (k + 1) * D = k * D + D := by ring
    omega
  have hzero : r = 0 ↔ z / 2 ^ (d + 1) = k := by
    rw [hD, div_eq_iff hDr.ne']
    rcases hne with rfl | ⟨hgt, hgt'⟩
    · rw [hr]; push_cast; constructor
      · rintro rfl; simp
      · intro h; have : (r : ℝ) = 0 := by linarith
        exact_mod_cast this
    · exact ⟨fun h => by omega, fun h => absurd h hgt'.ne'⟩
  rw [roundShift_eq mode s (hDn.trans hh) (by rw [hDn]; exact hr) (by rw [hDn]; exact hrD), roundedReal,
    cmp_half_div (hDn.trans hh) (by rw [hDn]; exact hr) hz]
  by_cases h0 : r = 0
  · rw [if_pos h0, if_pos (hzero.1 h0)]
  · rw [if_neg h0, if_neg fun h => h0 (hzero.2 h)]

/-! ### Magnitudes -/

theorem bitLen_pos {m : Nat} (h : m ≠ 0) : 1 ≤ bitLen m := by simp [bitLen, h]

theorem pow_bitLen_le {m : Nat} (h : m ≠ 0) : 2 ^ (bitLen m - 1) ≤ m := by
  rw [bitLen, if_neg h]
  exact Nat.log2_self_le h

theorem lt_pow_bitLen (m : Nat) : m < 2 ^ bitLen m := by
  unfold bitLen
  split
  · next h => simp [h]
  · exact Nat.lt_log2_self

/-- `m * 2 ^ e` stands for the magnitude x finely enough to be rounded into f: exactly, or by an odd m with at least two bits
to spare, which says that x lies strictly between its even neighbours. -/
def Fmt.Approx (f : Fmt) (m : Nat) (e : Int) (x : ℝ) : Prop :=
  x = m * 2 ^ e ∨ (m % 2 = 1 ∧ f.fb + 3 ≤ bitLen m ∧ ((m : ℝ) - 1) * 2 ^ e < x ∧ x < ((m : ℝ) + 1) * 2 ^ e)

section
variable {f : Fmt} {m : Nat} {e : Int} {x : ℝ}

theorem Fmt.Approx.lt_pow (hx : f.Approx m e x) : x < (2 : ℝ) ^ ((bitLen m : Int) - 1 + e + 1) := by
  have he : (0 : ℝ) < 2 ^ e := by positivity
  have h1 : (m : ℝ) + 1 ≤ 2 ^ bitLen m := by exact_mod_cast lt_pow_bitLen m
  have hp : (2 : ℝ) ^ ((bitLen m : Int) - 1 + e + 1) = 2 ^ bitLen m * 2 ^ e := by
    rw [show (bitLen m : Int) - 1 + e + 1 = bitLen m + e by ring, zpow_add₀ two_ne_zero, zpow_natCast]
  rw [hp]
  rcases hx with rfl | ⟨-, -, -, hu⟩
  · exact mul_lt_mul_of_pos_right (by linarith) he
  · exact hu.trans_le (mul_le_mul_of_nonneg_right h1 he.le)

theorem Fmt.Approx.pow_le (hx : f.Approx m e x) (hm : m ≠ 0) : (2 : ℝ) ^ ((bitLen m : Int) - 1 + e) ≤ x := by
  have he : (0 : ℝ) < 2 ^ e := by positivity
  have hb := bitLen_pos hm
  have hp : (2 : ℝ) ^ ((bitLen m : Int) - 1 + e) = 2 ^ (bitLen m - 1) * 2 ^ e := by
    rw [zpow_add₀ two_ne_zero, show (bitLen m : Int) - 1 = (bitLen m - 1 : Nat) by omega, zpow_natCast]
  rw [hp]
  rcases hx with rfl | ⟨hodd, hbits, hl, -⟩
  · exact mul_le_mul_of_nonneg_right (by exact_mod_cast pow_bitLen_le hm) he.le
  · have h2 : 2 ^ (bitLen m - 1) + 1 ≤ m := by
      have h3 := pow_bitLen_le hm
      have h4 : 2 ^ (bitLen m - 1) = 2 * 2 ^ (bitLen m - 2) := by
        rw [← pow_succ', show bitLen m - 2 + 1 = bitLen m - 1 by omega]
      omega
    have h5 : (2 : ℝ) ^ (bitLen m - 1) ≤ m - 1 := by
      have : (2 : ℝ) ^ (bitLen m - 1) + 1 ≤ m := by exact_mod_cast h2
      linarith
    exact (mul_le_mul_of_nonneg_right h5 he.le).trans hl.le

/-- Rounding in units of `2 ^ q`, which an inexact x is two bits finer than. -/
theorem roundAt_eq {q : Int} {k : Nat}
    (hx : x = m * 2 ^ e ∨ (m % 2 = 1 ∧ e + 2 ≤ q ∧ ((m : ℝ) - 1) * 2 ^ e < x ∧ x < ((m : ℝ) + 1) * 2 ^ e))
    (mode : Nat) (s : Bool) (hlo : (k : ℝ) ≤ x / 2 ^ q) (hhi : x / 2 ^ q < (k : ℝ) + 1) :
    roundAt mode s m e q = roundedReal mode s k (x / 2 ^ q) := by
  have he : (0 : ℝ) < 2 ^ e := by positivity
  unfold roundAt
  split
  · next hge =>
    obtain rfl : x = m * 2 ^ e := by
      rcases hx with h | ⟨-, hle, -⟩
      · exact h
      · omega
    have hval : (m : ℝ) * 2 ^ e / 2 ^ q = (m * 2 ^ (e - q).toNat : Nat) := by
      push_cast
      rw [mul_div_assoc, ← zpow_sub₀ two_ne_zero, ← zpow_natCast, show ((e - q).toNat : Int) = e - q by omega]
    rw [hval] at hlo hhi ⊢
    obtain rfl : m * 2 ^ (e - q).toNat = k := by
      have h1 : k ≤ m * 2 ^ (e - q).toNat := by exact_mod_cast hlo
      have h2 : m * 2 ^ (e - q).toNat < k + 1 := by exact_mod_cast hhi
      omega
    rw [roundedReal, if_pos rfl]
  · next hlt =>
    obtain ⟨d, rfl⟩ : ∃ d : Nat, q = e + (d + 1 : Nat) := ⟨(q - e - 1).toNat, by omega⟩
    have hz : x / 2 ^ (e + ((d + 1 : Nat) : Int)) = x / 2 ^ e / 2 ^ (d + 1) := by
      rw [zpow_add₀ two_ne_zero, zpow_natCast, div_div]
    rw [hz] at hlo hhi ⊢
    rw [show (e + ((d + 1 : Nat) : Int) - e).toNat = d + 1 by omega]
    refine roundShift_real mode s ?_ ((le_div_iff₀ (by positivity)).1 hlo) ((div_lt_iff₀ (by positivity)).1 hhi)
    rcases hx with rfl | ⟨hodd, hle, hl, hu⟩
    · exact .inl (mul_div_cancel_right₀ _ he.ne')
    · exact .inr ⟨hodd, by omega, (lt_div_iff₀ he).2 hl, (div_lt_iff₀ he).2 hu⟩

/-- Rounding in units of `2 ^ q`, at most fb places below the top bit. -/
theorem Fmt.Approx.roundAt_eq (hx : f.Approx m e x) (mode : Nat) (s : Bool) {q : Int} (hq : (bitLen m : Int) - 1 + e - f.fb ≤ q)
    {k : Nat} (hlo : (k : ℝ) ≤ x / 2 ^ q) (hhi : x / 2 ^ q < (k : ℝ) + 1) :
    roundAt mode s m e q = roundedReal mode s k (x / 2 ^ q) :=
  Machine.roundAt_eq (hx.imp_right fun ⟨hodd, hbits, h⟩ => ⟨hodd, by omega, h⟩) mode s hlo hhi

end

/-! ### Encodings in order -/

/-- What the six formats have in common. -/
structure Fmt.Proper (f : Fmt) : Prop where
  eb : 2 ≤ f.eb
  fb : 1 ≤ f.fb
  e4m3 : f.e4m3 = true → f.eb = 4 ∧ f.fb = 3

theorem properFormat {f : Fmt} (h : f ∈ [f64, f32, f16, bf16, e4m3, e5m2]) : f.Proper := by
  simp only [List.mem_cons, List.not_mem_nil, or_false] at h
  rcases h with rfl | rfl | rfl | rfl | rfl | rfl <;> exact ⟨by decide, by decide, by decide⟩

/-- The magnitude of an encoding without its sign in units of the smallest subnormal, continued above the largest. -/
def Fmt.units (f : Fmt) (k : Nat) : Nat :=
  if k < 2 ^ f.fb then k else (k % 2 ^ f.fb + 2 ^ f.fb) * 2 ^ (k / 2 ^ f.fb - 1)

/-- The exponent of the smallest subnormal. -/
def Fmt.qmin (f : Fmt) : Int := f.emin - f.fb

/-- An encoding as a binade i and a significand j (R33). -/
theorem Fmt.units_binade (f : Fmt) {i j : Nat} (hj : j ≤ 2 ^ (f.fb + 1)) (h : i = 0 ∨ 2 ^ f.fb ≤ j) :
    f.units (i * 2 ^ f.fb + j) = j * 2 ^ i := by
  have hpos : 0 < 2 ^ f.fb := Nat.two_pow_pos _
  rw [pow_succ] at hj
  by_cases hlt : j < 2 ^ f.fb
  · obtain rfl := h.resolve_right (by omega)
    simp [Fmt.units, hlt]
  · have hnot : ¬ i * 2 ^ f.fb + j < 2 ^ f.fb := by
      have : 0 ≤ i * 2 ^ f.fb := Nat.zero_le _
      omega
    rw [Fmt.units, if_neg hnot]
    by_cases htop : j = 2 * 2 ^ f.fb
    · rw [htop, show i * 2 ^ f.fb + 2 * 2 ^ f.fb = (i + 2) * 2 ^ f.fb by ring, Nat.mul_mod_left, Nat.mul_div_cancel _ hpos]
      rw [show i + 2 - 1 = i + 1 by omega]
      ring
    · obtain ⟨r, rfl⟩ : ∃ r, j = r + 2 ^ f.fb := ⟨j - 2 ^ f.fb, by omega⟩
      have hr : r < 2 ^ f.fb := by omega
      rw [show i * 2 ^ f.fb + (r + 2 ^ f.fb) = r + (i + 1) * 2 ^ f.fb by ring, Nat.add_mul_mod_self_right,
        Nat.mod_eq_of_lt hr, Nat.add_mul_div_right _ _ hpos, Nat.div_eq_of_lt hr]
      rw [show 0 + (i + 1) - 1 = i by omega]

theorem Fmt.exists_binade (f : Fmt) (k : Nat) :
    ∃ i j, k = i * 2 ^ f.fb + j ∧ j < 2 ^ (f.fb + 1) ∧ (i = 0 ∨ 2 ^ f.fb ≤ j) := by
  have hpos : 0 < 2 ^ f.fb := Nat.two_pow_pos _
  rw [pow_succ]
  by_cases hlt : k < 2 ^ f.fb
  · exact ⟨0, k, by simp, by omega, .inl rfl⟩
  · refine ⟨k / 2 ^ f.fb - 1, k % 2 ^ f.fb + 2 ^ f.fb, ?_, ?_, .inr (by omega)⟩
    · have hdiv : 1 ≤ k / 2 ^ f.fb := (Nat.one_le_div_iff hpos).2 (by omega)
      obtain ⟨c, hc⟩ : ∃ c, k / 2 ^ f.fb = c + 1 := ⟨k / 2 ^ f.fb - 1, by omega⟩
      have hk := Nat.div_add_mod k (2 ^ f.fb)
      rw [hc] at hk ⊢
      have : 2 ^ f.fb * (c + 1) = c * 2 ^ f.fb + 2 ^ f.fb := by ring
      rw [Nat.add_sub_cancel]
      omega
    · have := Nat.mod_lt k hpos
      omega

theorem Fmt.units_strictMono (f : Fmt) : StrictMono f.units := by
  refine strictMono_nat_of_lt_succ fun k => ?_
  obtain ⟨i, j, rfl, hj, h⟩ := f.exists_binade k
  rw [f.units_binade hj.le h, add_assoc, f.units_binade (by omega) (h.imp_right (by omega))]
  exact Nat.mul_lt_mul_of_pos_right (Nat.lt_succ_self j) (Nat.two_pow_pos i)

/-! ### Rounding to a format -/

section
variable {f : Fmt} {m : Nat} {e : Int} {x y : ℝ} {k : Nat}

/-- The encoding without its sign that a magnitude y is rounded to, y and the encodings in units of the smallest subnormal: k is
the last encoding that is not above it. -/
noncomputable def Fmt.roundedEnc (f : Fmt) (mode : Nat) (neg : Bool) (k : Nat) (y : ℝ) : Nat × Bool :=
  if y = f.units k then (k, false)
  else (if roundsUp mode neg (k % 2 == 1) (cmp (((f.units k : ℝ) + f.units (k + 1)) / 2) y) then k + 1 else k, true)

/-- A magnitude is tiny when, rounded with an unbounded exponent, it is below the smallest normal (R42). -/
def Fmt.isTiny (f : Fmt) (mode : Nat) (neg : Bool) (y : ℝ) : Prop :=
  y < 2 ^ f.fb ∧ ¬ ((2 : ℝ) ^ f.fb - 1 / 2 < y ∧ roundsUp mode neg true (cmp ((2 : ℝ) ^ f.fb - 1 / 4) y) = true)

/-- The encoding below y by its binade i and the whole part j of y in units of the binade's last place. -/
theorem Fmt.roundedEnc_binade (hf : f.Proper) (mode : Nat) (neg : Bool) {i j : Nat} (hj : j < 2 ^ (f.fb + 1))
    (h : i = 0 ∨ 2 ^ f.fb ≤ j) (hlo : (j : ℝ) ≤ y / 2 ^ i) (hhi : y / 2 ^ i < (j : ℝ) + 1)
    (hk : (f.units k : ℝ) ≤ y) (hk' : y < f.units (k + 1)) :
    f.roundedEnc mode neg k y =
      (i * 2 ^ f.fb + (roundedReal mode neg j (y / 2 ^ i)).1, (roundedReal mode neg j (y / 2 ^ i)).2) := by
  have hpos : (0 : ℝ) < 2 ^ i := by positivity
  have hu : f.units (i * 2 ^ f.fb + j) = j * 2 ^ i := f.units_binade hj.le h
  have hu' : f.units (i * 2 ^ f.fb + j + 1) = (j + 1) * 2 ^ i := by
    rw [add_assoc, f.units_binade (by omega) (h.imp_right (by omega))]
  have hlo' : ((j * 2 ^ i : Nat) : ℝ) ≤ y := by
    push_cast
    exact (le_div_iff₀ hpos).1 hlo
  have hhi' : y < (((j + 1) * 2 ^ i : Nat) : ℝ) := by
    push_cast
    exact (div_lt_iff₀ hpos).1 hhi
  obtain rfl : k = i * 2 ^ f.fb + j := by
    have h1 : f.units k < f.units (i * 2 ^ f.fb + j + 1) := by
      rw [hu']
      exact_mod_cast hk.trans_lt hhi'
    have h2 : f.units (i * 2 ^ f.fb + j) < f.units (k + 1) := by
      rw [hu]
      exact_mod_cast hlo'.trans_lt hk'
    rw [f.units_strictMono.lt_iff_lt] at h1 h2
    omega
  have hodd : (i * 2 ^ f.fb + j) % 2 = j % 2 := by
    obtain ⟨b, hb⟩ : ∃ b, f.fb = b + 1 := ⟨f.fb - 1, by have := hf.fb; omega⟩
    rw [hb, pow_succ, show i * (2 ^ b * 2) + j = j + 2 * (i * 2 ^ b) by ring]
    omega
  have heq : y = (f.units (i * 2 ^ f.fb + j) : ℝ) ↔ y / 2 ^ i = j := by
    rw [hu, div_eq_iff hpos.ne']
    push_cast
    rfl
  have hmid : cmp (((f.units (i * 2 ^ f.fb + j) : ℝ) + f.units (i * 2 ^ f.fb + j + 1)) / 2) y =
      cmp ((j : ℝ) + 1 / 2) (y / 2 ^ i) := by
    rw [hu, hu', ← cmp_mul_pos_right hpos ((j : ℝ) + 1 / 2), div_mul_cancel₀ _ hpos.ne']
    congr 1
    push_cast
    ring
  rw [Fmt.roundedEnc, roundedReal, hmid, hodd]
  by_cases h0 : y / 2 ^ i = j
  · rw [if_pos h0, if_pos (heq.2 h0)]
  · rw [if_neg h0, if_neg fun h => h0 (heq.1 h)]
    split <;> rfl

/-- The binade in which the model rounds, and the whole part of the magnitude there. -/
theorem Fmt.Approx.exists_quantum (hx : f.Approx m e (y * 2 ^ f.qmin)) (hm : m ≠ 0) :
    let top : Int := bitLen m - 1 + e
    let q := if top - f.fb > f.qmin then top - f.fb else f.qmin
    ∃ i j : Nat, q = f.qmin + i ∧ j < 2 ^ (f.fb + 1) ∧ (i = 0 ∨ 2 ^ f.fb ≤ j) ∧ (j : ℝ) ≤ y / 2 ^ i ∧ y / 2 ^ i < (j : ℝ) + 1 := by
  intro top q
  have hq : (0 : ℝ) < 2 ^ f.qmin := by positivity
  have hlt : y < 2 ^ (top + 1 - f.qmin) := by
    rw [zpow_sub₀ two_ne_zero, lt_div_iff₀ hq]
    exact hx.lt_pow
  have hge : (2 : ℝ) ^ (top - f.qmin) ≤ y := by
    rw [zpow_sub₀ two_ne_zero, div_le_iff₀ hq]
    exact hx.pow_le hm
  have hy : 0 ≤ y := le_trans (by positivity) hge
  obtain ⟨i, hi⟩ : ∃ i : Nat, q = f.qmin + i := ⟨(q - f.qmin).toNat, by simp only [q]; split <;> omega⟩
  have hpos : (0 : ℝ) < 2 ^ i := by positivity
  have hlt' : y / 2 ^ i < 2 ^ (f.fb + 1) := by
    rw [div_lt_iff₀ hpos, ← pow_add, ← zpow_natCast]
    refine hlt.trans_le (zpow_le_zpow_right₀ one_le_two ?_)
    push_cast
    simp only [q] at hi
    split at hi <;> omega
  have hge' : i = 0 ∨ (2 : ℝ) ^ f.fb ≤ y / 2 ^ i := by
    refine or_iff_not_imp_left.2 fun h0 => ?_
    rw [le_div_iff₀ hpos, ← pow_add, ← zpow_natCast]
    refine le_trans (zpow_le_zpow_right₀ one_le_two ?_) hge
    push_cast
    simp only [q] at hi
    split at hi <;> omega
  have hdiv : 0 ≤ y / 2 ^ i := by positivity
  refine ⟨i, ⌊y / 2 ^ i⌋₊, hi, ?_, hge'.imp_right fun h => Nat.le_floor (by exact_mod_cast h), Nat.floor_le hdiv,
    Nat.lt_floor_add_one _⟩
  rw [Nat.floor_lt hdiv]
  exact_mod_cast hlt'

/-- When a magnitude is rounded up to an even number above it. -/
theorem roundedReal_fst_eq (mode : Nat) (s : Bool) {N : Nat} {z : ℝ} (hlo : (k : ℝ) ≤ z) (hhi : z < (k : ℝ) + 1) (hN : k < N)
    (heven : N % 2 = 0) :
    (roundedReal mode s k z).1 = N ↔ (N : ℝ) - 1 < z ∧ roundsUp mode s true (cmp ((N : ℝ) - 1 / 2) z) = true := by
  by_cases h : N = k + 1
  · subst h
    have hodd : (k % 2 == 1) = true := by simpa using (by omega : k % 2 = 1)
    have hcast : ((k + 1 : Nat) : ℝ) - 1 / 2 = k + 1 / 2 := by push_cast; ring
    rw [hcast, roundedReal, hodd, Nat.cast_succ, add_sub_cancel_right, hlo.lt_iff_ne']
    split
    · next hz => simp [hz]
    · next hz => split <;> simp_all
  · have h1 : (roundedReal mode s k z).1 ≤ k + 1 := by
      unfold roundedReal
      split
      · exact Nat.le_succ k
      · dsimp only
        split <;> omega
    have h2 : (k : ℝ) + 2 ≤ N := by exact_mod_cast (by omega : k + 2 ≤ N)
    exact ⟨fun h => by omega, fun h => by linarith [h.1]⟩

/-- The model's test for tininess, where the magnitude is below the smallest normal. -/
theorem Fmt.Approx.tiny_iff (hx : f.Approx m e (y * 2 ^ f.qmin)) (hm : m ≠ 0) (mode : Nat) (s : Bool) :
    let top : Int := bitLen m - 1 + e
    (decide (top < f.emin) && !(top == f.emin - 1 && (roundAt mode s m e (top - f.fb)).1 == 2 ^ (f.fb + 1))) = true ↔
      f.isTiny mode s y := by
  intro top
  have hq : (0 : ℝ) < 2 ^ f.qmin := by positivity
  have hqm : f.qmin = f.emin - f.fb := rfl
  have hlt : y < 2 ^ (top + 1 - f.qmin) := by
    rw [zpow_sub₀ two_ne_zero, lt_div_iff₀ hq]
    exact hx.lt_pow
  have hge : (2 : ℝ) ^ (top - f.qmin) ≤ y := by
    rw [zpow_sub₀ two_ne_zero, div_le_iff₀ hq]
    exact hx.pow_le hm
  rcases lt_trichotomy top (f.emin - 1) with hlow | heq | hhigh
  · have hhalf : y < 2 ^ f.fb - 1 / 2 := by
      have h1 : y < (2 : ℝ) ^ ((f.fb : Int) - 1) := hlt.trans_le (zpow_le_zpow_right₀ one_le_two (by omega))
      have h2 : (2 : ℝ) ^ ((f.fb : Int) - 1) = 2 ^ f.fb / 2 := by
        rw [zpow_sub₀ two_ne_zero, zpow_natCast, zpow_one]
      have h3 : (1 : ℝ) ≤ 2 ^ f.fb := one_le_pow₀ one_le_two
      linarith
    have h1 : top < f.emin := by omega
    have h2 : (top == f.emin - 1) = false := by simpa using hlow.ne
    simp only [h1, h2, Fmt.isTiny, decide_true, Bool.false_and, Bool.not_false, Bool.and_true, true_iff]
    exact ⟨by linarith, fun h => by linarith [h.1]⟩
  · have hscale : y * 2 ^ f.qmin / 2 ^ (top - (f.fb : Int)) = 2 * y := by
      rw [show top - (f.fb : Int) = f.qmin - 1 by omega, zpow_sub₀ two_ne_zero, zpow_one]
      field_simp
    have hlt' : y < 2 ^ f.fb := by
      rw [← zpow_natCast]
      exact hlt.trans_le (zpow_le_zpow_right₀ one_le_two (by omega))
    have hy : 0 ≤ 2 * y := mul_nonneg two_pos.le (le_trans (by positivity) hge)
    have hlo := Nat.floor_le hy
    have hhi := Nat.lt_floor_add_one (2 * y)
    have hr := hx.roundAt_eq mode s (q := top - f.fb) (k := ⌊2 * y⌋₊) le_rfl (by rwa [hscale]) (by rwa [hscale])
    have hj : ⌊2 * y⌋₊ < 2 ^ (f.fb + 1) := by
      rw [Nat.floor_lt hy, Nat.cast_pow, Nat.cast_ofNat, pow_succ']
      linarith
    have hup := roundedReal_fst_eq mode s hlo hhi hj (by rw [pow_succ]; omega)
    have hN : ((2 ^ (f.fb + 1) : Nat) : ℝ) = 2 * 2 ^ f.fb := by push_cast; ring
    have hcmp : cmp (2 * (2 : ℝ) ^ f.fb - 1 / 2) (2 * y) = cmp ((2 : ℝ) ^ f.fb - 1 / 4) y := by
      rw [← cmp_mul_pos_left (two_pos (α := ℝ)) ((2 : ℝ) ^ f.fb - 1 / 4)]
      congr 1
      ring
    have hhalf : 2 * (2 : ℝ) ^ f.fb - 1 < 2 * y ↔ (2 : ℝ) ^ f.fb - 1 / 2 < y := by constructor <;> intro h <;> linarith
    rw [hN, hcmp, hhalf] at hup
    have h1 : top < f.emin := by omega
    have h2 : (top == f.emin - 1) = true := by simpa using heq
    rw [hr, hscale, h2, Fmt.isTiny, ← hup]
    simp [h1, hlt']
  · have h1 : ¬ top < f.emin := by omega
    have hy : ¬ y < 2 ^ f.fb := by
      rw [not_lt, ← zpow_natCast]
      exact (zpow_le_zpow_right₀ one_le_two (by omega)).trans hge
    simp [Fmt.isTiny, h1, hy]

end

/-! ### What an encoding decodes to -/

section
variable {f : Fmt}

theorem bits_zero (b n : Nat) : bits b 0 n = b % 2 ^ n := by simp [bits]

/-- The exponent field of a finite encoding. -/
theorem Fmt.Proper.div_lt (hf : f.Proper) {k : Nat} (hk : k ≤ f.largest) :
    k / 2 ^ f.fb < 2 ^ f.eb - (if f.e4m3 then 0 else 1) ∧ (f.e4m3 = true → k ≠ 0x7F) := by
  have hpos : 0 < 2 ^ f.fb := Nat.two_pow_pos _
  unfold Fmt.largest at hk
  rw [Nat.div_lt_iff_lt_mul hpos]
  split at hk
  · next h =>
    obtain ⟨heb, hfb⟩ := hf.e4m3 h
    rw [if_pos h, heb, hfb]
    exact ⟨by omega, fun _ => by omega⟩
  · next h =>
    rw [if_neg h]
    have h1 : 0 < (2 ^ f.eb - 1) * 2 ^ f.fb :=
      Nat.mul_pos (Nat.sub_pos_of_lt (Nat.one_lt_two_pow (by have := hf.eb; omega))) hpos
    exact ⟨by omega, fun h' => absurd h' h⟩

/-- A subnormal or normal encoding (R33). -/
theorem Fmt.Proper.decode_eq (hf : f.Proper) {b : Nat} (hb : b % 2 ^ (f.width - 1) ≤ f.largest) :
    let k := b % 2 ^ (f.width - 1)
    f.decode b = if k < 2 ^ f.fb then .fin (b.testBit (f.width - 1)) k f.qmin
      else .fin (b.testBit (f.width - 1)) (k % 2 ^ f.fb + 2 ^ f.fb) ((k / 2 ^ f.fb : Nat) - f.bias - f.fb) := by
  intro k
  have hpos : 0 < 2 ^ f.fb := Nat.two_pow_pos _
  have hw : f.width - 1 = f.fb + f.eb := by simp [Fmt.width]; omega
  have hfr : bits b 0 f.fb = k % 2 ^ f.fb := by
    rw [bits_zero, show k = b % 2 ^ (f.fb + f.eb) by rw [← hw],
      Nat.mod_mod_of_dvd _ (Nat.pow_dvd_pow 2 (Nat.le_add_right _ _))]
  have hex : bits b f.fb f.eb = k / 2 ^ f.fb := by
    rw [bits, show k = b % 2 ^ (f.fb + f.eb) by rw [← hw], Nat.pow_add, Nat.mod_mul_right_div_self]
  obtain ⟨hlt, hne⟩ := hf.div_lt hb
  have hnan : ¬ (k / 2 ^ f.fb = 2 ^ f.eb - 1 && f.e4m3 && k % 2 ^ f.fb = 7) = true := by
    simp only [Bool.and_eq_true, decide_eq_true_eq]
    rintro ⟨⟨h1, h2⟩, h3⟩
    obtain ⟨heb, hfb⟩ := hf.e4m3 h2
    rw [heb, hfb] at h1
    rw [hfb] at h3
    have := hne h2
    simp only [k] at h1 h3
    omega
  have hinf : ¬ (k / 2 ^ f.fb = 2 ^ f.eb - 1 && !f.e4m3) = true := by
    simp only [Bool.and_eq_true, decide_eq_true_eq, Bool.not_eq_true', not_and]
    intro h1 h2
    rw [h2] at hlt
    simp only [k] at h1
    rw [h1] at hlt
    simp at hlt
  have hzero : k / 2 ^ f.fb = 0 ↔ k < 2 ^ f.fb := Nat.div_eq_zero_iff_lt hpos
  rw [Fmt.decode]
  simp only [hfr, hex]
  rw [if_neg hnan, if_neg hinf]
  by_cases h : k < 2 ^ f.fb
  · rw [if_pos (hzero.2 h), if_pos h, Nat.mod_eq_of_lt h]
    rfl
  · rw [if_neg fun h' => h (hzero.1 h'), if_neg h]

/-- Its magnitude. -/
theorem Fmt.Proper.mag_eq (hf : f.Proper) {n : Int} (hn : 0 ≤ f.qmin + n) {k : Nat} (hk : k ≤ f.largest) :
    f.mag n k = f.units k * 2 ^ (f.qmin + n).toNat := by
  have hpos : 0 < 2 ^ f.fb := Nat.two_pow_pos _
  have hmod : k % 2 ^ (f.width - 1) = k := by
    refine Nat.mod_eq_of_lt ?_
    obtain ⟨h, -⟩ := hf.div_lt hk
    rw [Nat.div_lt_iff_lt_mul hpos] at h
    have hw : f.width - 1 = f.eb + f.fb := by simp [Fmt.width]
    rw [hw, Nat.pow_add]
    exact h.trans_le (Nat.mul_le_mul_right _ (Nat.sub_le _ _))
  have hd := hf.decode_eq (b := k) (by rwa [hmod])
  rw [hmod] at hd
  rw [Fmt.mag, hd, Fmt.units]
  by_cases h : k < 2 ^ f.fb
  · rw [if_pos h, if_pos h]
  · have h1 : 1 ≤ k / 2 ^ f.fb := (Nat.one_le_div_iff hpos).2 (by omega)
    have hq : f.qmin = 1 - f.bias - f.fb := rfl
    rw [if_neg h, if_neg h]
    simp only
    rw [mul_assoc, ← pow_add]
    congr 2
    omega

end

/-! ### The model's rounding -/

section
variable {f : Fmt} {m : Nat} {e : Int} {y : ℝ} {k : Nat}

/-- The parts of what the model's rounding answers, encodings beyond the largest included. -/
theorem Fmt.Approx.roundTo_eq (hf : f.Proper) (hx : f.Approx m e (y * 2 ^ f.qmin)) (hm : m ≠ 0) (mode : Nat) (s sat : Bool)
    (hk : (f.units k : ℝ) ≤ y) (hk' : y < f.units (k + 1)) :
    let r := f.roundedEnc mode s k y
    let z := f.roundTo mode s m e sat
    (f.largest < r.1 → z = ⟨f.overflow mode s sat, 5, false⟩) ∧
    (r.1 ≤ f.largest → z.v = f.signed s r.1 ∧ (z.slow = true ↔ y < 2 ^ f.fb) ∧ (r.2 = false → z.f = 0) ∧
      (r.2 = true → (f.isTiny mode s y → z.f = 3) ∧ (¬ f.isTiny mode s y → z.f = 1))) := by
  intro r z
  have hq : (0 : ℝ) < 2 ^ f.qmin := by positivity
  have hqm : f.qmin = f.emin - f.fb := rfl
  obtain ⟨i, j, hqi, hj, hij, hlo, hhi⟩ := hx.exists_quantum hm
  have hr : r = (i * 2 ^ f.fb + (roundedReal mode s j (y / 2 ^ i)).1, (roundedReal mode s j (y / 2 ^ i)).2) :=
    f.roundedEnc_binade hf mode s hj hij hlo hhi hk hk'
  have htiny := hx.tiny_iff hm mode s
  have hslow : (bitLen m : Int) - 1 + e < f.emin ↔ y < 2 ^ f.fb := by
    have hlt := hx.lt_pow
    have hge := hx.pow_le hm
    have hsmall : (2 : ℝ) ^ f.emin = 2 ^ f.fb * 2 ^ f.qmin := by
      rw [← zpow_natCast, ← zpow_add₀ two_ne_zero]
      congr 1
      omega
    rw [← mul_lt_mul_iff_of_pos_right hq (b := y), ← hsmall]
    constructor
    · exact fun h => hlt.trans_le (zpow_le_zpow_right₀ one_le_two (by omega))
    · exact fun h => (zpow_lt_zpow_iff_right₀ one_lt_two).1 (hge.trans_lt h)
  simp only at hqi htiny
  have hround := hx.roundAt_eq mode s (q := f.qmin + i) (k := j)
    (by rw [← hqi]; split <;> omega)
    (by rw [zpow_add₀ two_ne_zero, mul_comm, mul_div_mul_left _ _ hq.ne', zpow_natCast]; exact hlo)
    (by rw [zpow_add₀ two_ne_zero, mul_comm, mul_div_mul_left _ _ hq.ne', zpow_natCast]; exact hhi)
  rw [zpow_add₀ two_ne_zero, mul_comm y, mul_div_mul_left _ _ hq.ne', zpow_natCast] at hround
  have henc : (f.qmin + (i : Int) - f.qmin).toNat = i := by omega
  have hz : z = if r.1 > f.largest then ⟨f.overflow mode s sat, xOF ||| xNX, false⟩
      else ⟨f.signed s r.1, (if r.2 then xNX else 0) |||
        (if (decide ((bitLen m : Int) - 1 + e < f.emin) && !((bitLen m : Int) - 1 + e == f.emin - 1 &&
          (roundAt mode s m e ((bitLen m : Int) - 1 + e - f.fb)).1 == 2 ^ (f.fb + 1))) && r.2 then xUF else 0),
        decide ((bitLen m : Int) - 1 + e < f.emin)⟩ := by
    simp only [z, Fmt.roundTo, if_neg hm]
    rw [← hqm, hqi, hround, henc, hr]
  rw [hz]
  refine ⟨fun h => by rw [if_pos h]; rfl, fun h => ?_⟩
  rw [if_neg (not_lt.2 h)]
  refine ⟨rfl, by simpa using hslow, fun h2 => ?_, fun h2 => ⟨fun ht => ?_, fun ht => ?_⟩⟩
  · simp only [h2]
    simp
  · simp only [htiny.2 ht, h2]
    decide
  · simp only [Bool.eq_false_iff.2 fun h => ht (htiny.1 h), h2]
    decide

/-- An encoding and the next one enclose every magnitude. -/
theorem Fmt.exists_enclosing (f : Fmt) (hy : 0 ≤ y) : ∃ k, (f.units k : ℝ) ≤ y ∧ y < f.units (k + 1) := by
  have h0 : f.units 0 = 0 := by
    have := f.units_binade (i := 0) (j := 0) (Nat.zero_le _) (.inl rfl)
    simpa using this
  obtain ⟨k, h1, h2⟩ := f.units_strictMono.exists_between_of_tendsto_atTop f.units_strictMono.tendsto_atTop (x := ⌊y⌋₊ + 1)
    (by rw [h0]; exact Nat.succ_pos _)
  refine ⟨k, ?_, ?_⟩
  · exact (Nat.cast_le.2 (Nat.lt_succ_iff.1 h1)).trans (Nat.floor_le hy)
  · exact (Nat.lt_floor_add_one y).trans_le (by exact_mod_cast h2)

end

/-! ### Rounding, in the terms of the statements -/

section
variable {f : Fmt} {m : Nat} {e : Int} {y : ℝ} {n : Int} {c : Nat → Ordering}

theorem Fmt.overflow_eq (f : Fmt) (mode : Nat) (s sat : Bool) : f.overflow mode s sat =
    f.signed s (if (sat || mode == 1 || (mode == 2 && s) || (mode == 3 && !s)) = true then f.largest
      else if f.e4m3 then 0x7F else (2 ^ f.eb - 1) * 2 ^ f.fb) := by
  have hbig : (sat || (match mode with | 1 => true | 2 => s | 3 => !s | _ => false)) =
      (sat || mode == 1 || (mode == 2 && s) || (mode == 3 && !s)) := by
    match mode with
    | 0 | 1 | 2 | 3 | n + 4 => cases sat <;> cases s <;> rfl
  refine (congrArg (fun b : Bool => if b then f.signed s f.largest else f.inf s) hbig).trans ?_
  rw [Fmt.inf]
  split <;> rfl

theorem Fmt.Proper.pow_le_largest {f : Fmt} (hf : f.Proper) : 2 ^ f.fb ≤ f.largest := by
  unfold Fmt.largest
  split
  · next h =>
    obtain ⟨-, hfb⟩ := hf.e4m3 h
    rw [hfb]
    decide
  · have h1 : 2 ^ 2 ≤ 2 ^ f.eb := Nat.pow_le_pow_right two_pos hf.eb
    have h2 : 3 * 2 ^ f.fb ≤ (2 ^ f.eb - 1) * 2 ^ f.fb := Nat.mul_le_mul_right _ (by omega)
    have h3 : 0 < 2 ^ f.fb := Nat.two_pow_pos _
    omega

/-- The largest encoding, its predecessor and what would be its successor lie in one binade. -/
theorem Fmt.Proper.units_around_largest {f : Fmt} (hf : f.Proper) :
    1 ≤ f.largest ∧ f.units (f.largest - 1) ≤ f.units f.largest ∧
      f.units (f.largest + 1) + f.units (f.largest - 1) = 2 * f.units f.largest := by
  have hone : 1 < 2 ^ f.fb := Nat.one_lt_two_pow (by have := hf.fb; omega)
  obtain ⟨i, j, htop, hj, hj'⟩ : ∃ i j, f.largest = i * 2 ^ f.fb + (j + 1) ∧ 2 ^ f.fb ≤ j ∧ j + 2 ≤ 2 ^ (f.fb + 1) := by
    unfold Fmt.largest
    split
    · next h =>
      obtain ⟨-, hfb⟩ := hf.e4m3 h
      rw [hfb]
      exact ⟨14, 13, by decide, by decide, by decide⟩
    · have h1 : 2 ^ 2 ≤ 2 ^ f.eb := Nat.pow_le_pow_right two_pos hf.eb
      obtain ⟨c, hc⟩ : ∃ c, 2 ^ f.eb = c + 3 := ⟨2 ^ f.eb - 3, by omega⟩
      refine ⟨c, 2 * 2 ^ f.fb - 2, ?_, by omega, by rw [pow_succ]; omega⟩
      rw [hc, show c + 3 - 1 = c + 2 by omega, Nat.add_mul]
      omega
  have h1 := f.units_binade (i := i) (j := j) (by omega) (.inr hj)
  have h2 := f.units_binade (i := i) (j := j + 1) (by omega) (.inr (by omega))
  have h3 := f.units_binade (i := i) (j := j + 1 + 1) (by omega) (.inr (by omega))
  rw [htop, show i * 2 ^ f.fb + (j + 1) - 1 = i * 2 ^ f.fb + j by omega, add_assoc (i * 2 ^ f.fb), h1, h2, h3]
  refine ⟨by omega, Nat.mul_le_mul_right _ (Nat.le_succ j), by ring⟩

theorem Fmt.units_one (hf : f.Proper) : f.units 1 = 1 := by
  simp [Fmt.units, Nat.one_lt_two_pow (show f.fb ≠ 0 by have := hf.fb; omega)]

/-- The smallest normal. -/
theorem Fmt.units_pow (f : Fmt) : f.units (2 ^ f.fb) = 2 ^ f.fb := by
  have := f.units_binade (i := 0) (j := 2 ^ f.fb) (Nat.pow_le_pow_right two_pos (Nat.le_succ _)) (.inl rfl)
  simpa using this

/-- c compares with twice the magnitude y, where y is in units of the smallest subnormal, and c's numbers are in units of 2^-n, which
are at most half of that. -/
structure Fmt.Compares (f : Fmt) (n : Int) (c : Nat → Ordering) (y : ℝ) : Prop where
  proper : f.Proper
  fine : 1 ≤ f.qmin + n
  eq : ∀ t : Nat, c t = cmp (t : ℝ) (2 * (y * 2 ^ (f.qmin + n)))

namespace Fmt.Compares

variable (hc : f.Compares n c y) {k : Nat} (mode : Nat) (s : Bool)
include hc

theorem apply {t : Nat} {a : ℝ} (ht : (t : ℝ) = 2 * 2 ^ (f.qmin + n).toNat * a) : c t = cmp a y := by
  have hp : (0 : ℝ) < 2 * 2 ^ (f.qmin + n).toNat := by positivity
  have hz : (2 : ℝ) ^ (f.qmin + n) = 2 ^ (f.qmin + n).toNat := by
    rw [← zpow_natCast, Int.toNat_of_nonneg (by have := hc.fine; omega)]
  rw [hc.eq, ht, hz, ← cmp_mul_pos_left hp a y]
  congr 1
  ring

theorem mag (hk : k ≤ f.largest) : f.mag n k = f.units k * 2 ^ (f.qmin + n).toNat :=
  hc.proper.mag_eq (by have := hc.fine; omega) hk

theorem at_encoding (hk : k ≤ f.largest) : c (2 * f.mag n k) = cmp (f.units k : ℝ) y :=
  hc.apply (by rw [hc.mag hk]; push_cast; ring)

theorem at_midpoint (hk : k < f.largest) :
    c (f.mag n k + f.mag n (k + 1)) = cmp (((f.units k : ℝ) + f.units (k + 1)) / 2) y :=
  hc.apply (by rw [hc.mag hk.le, hc.mag hk]; push_cast; ring)

theorem at_small : c (2 * f.mag n (2 ^ f.fb)) = cmp ((2 : ℝ) ^ f.fb) y := by
  rw [hc.at_encoding hc.proper.pow_le_largest, f.units_pow]
  push_cast
  rfl

/-- The test for tininess (R42). -/
theorem tiny_iff :
    (c (2 * f.mag n (2 ^ f.fb)) = .gt ∧
      ¬ (c (2 * (f.mag n (2 ^ f.fb) - f.mag n 1 / 2)) = .lt ∧
        roundsUp mode s true (c (f.mag n (2 ^ f.fb) - f.mag n 1 / 2 + f.mag n (2 ^ f.fb))) = true)) ↔ f.isTiny mode s y := by
  have hfb := hc.proper.pow_le_largest
  have hone : 1 ≤ 2 ^ f.fb := Nat.one_le_two_pow
  obtain ⟨h, hh⟩ : ∃ h : Nat, 2 ^ (f.qmin + n).toNat = 2 * h :=
    ⟨2 ^ ((f.qmin + n).toNat - 1), by rw [← pow_succ']; congr 1; have := hc.fine; omega⟩
  have hhr : (2 : ℝ) ^ (f.qmin + n).toNat = 2 * h := by exact_mod_cast hh
  have hbelow : ((f.mag n (2 ^ f.fb) - f.mag n 1 / 2 : Nat) : ℝ) = 2 * h * 2 ^ f.fb - h := by
    rw [hc.mag hfb, hc.mag (hone.trans hfb), f.units_pow, Fmt.units_one hc.proper, hh, one_mul,
      Nat.mul_div_cancel_left _ two_pos, Nat.cast_sub (by nlinarith)]
    push_cast
    ring
  have h1 : c (2 * (f.mag n (2 ^ f.fb) - f.mag n 1 / 2)) = cmp ((2 : ℝ) ^ f.fb - 1 / 2) y :=
    hc.apply (by rw [Nat.cast_mul, hbelow, hhr]; push_cast; ring)
  have h2 : c (f.mag n (2 ^ f.fb) - f.mag n 1 / 2 + f.mag n (2 ^ f.fb)) = cmp ((2 : ℝ) ^ f.fb - 1 / 4) y :=
    hc.apply (by rw [Nat.cast_add, hbelow, hc.mag hfb, f.units_pow, hhr, hh]; push_cast; ring)
  rw [hc.at_small, h1, h2, Fmt.isTiny, cmp_eq_gt_iff, cmp_eq_lt_iff]

theorem slow_iff : (c (2 * f.mag n (2 ^ f.fb)) == .gt) = true ↔ y < 2 ^ f.fb := by
  rw [hc.at_small, beq_iff_eq, cmp_eq_gt_iff]

/-- What would be the encoding after the largest. -/
theorem cast_beyond :
    ((2 * f.mag n f.largest - f.mag n (f.largest - 1) : Nat) : ℝ) = f.units (f.largest + 1) * 2 ^ (f.qmin + n).toNat := by
  obtain ⟨hpos, hle, hsum⟩ := hc.proper.units_around_largest
  have hv : f.mag n (f.largest - 1) ≤ f.mag n f.largest := by
    rw [hc.mag le_rfl, hc.mag (Nat.sub_le _ _)]
    exact Nat.mul_le_mul_right _ hle
  have h1 : (f.units (f.largest + 1) : ℝ) + f.units (f.largest - 1) = 2 * f.units f.largest := by exact_mod_cast hsum
  rw [Nat.cast_sub (by omega), Nat.cast_mul, hc.mag le_rfl, hc.mag (Nat.sub_le _ _)]
  push_cast
  linear_combination (-(2 : ℝ) ^ (f.qmin + n).toNat) * h1

/-- The test for overflow. -/
theorem beyond_iff :
    (c (2 * (2 * f.mag n f.largest - f.mag n (f.largest - 1))) ≠ .gt ∨ roundsUp mode s (f.largest % 2 == 1)
      (c (f.mag n f.largest + (2 * f.mag n f.largest - f.mag n (f.largest - 1)))) = true) ↔
    ((f.units (f.largest + 1) : ℝ) ≤ y ∨ roundsUp mode s (f.largest % 2 == 1)
      (cmp (((f.units f.largest : ℝ) + f.units (f.largest + 1)) / 2) y) = true) := by
  have h1 : c (2 * (2 * f.mag n f.largest - f.mag n (f.largest - 1))) = cmp (f.units (f.largest + 1) : ℝ) y :=
    hc.apply (by rw [Nat.cast_mul, hc.cast_beyond]; push_cast; ring)
  have h2 : c (f.mag n f.largest + (2 * f.mag n f.largest - f.mag n (f.largest - 1))) =
      cmp (((f.units f.largest : ℝ) + f.units (f.largest + 1)) / 2) y :=
    hc.apply (by rw [Nat.cast_add, hc.cast_beyond, hc.mag le_rfl]; push_cast; ring)
  rw [h1, h2, ne_eq, cmp_eq_gt_iff, not_lt]

end Fmt.Compares

theorem Fmt.roundedEnc_ge (f : Fmt) (mode : Nat) (s : Bool) (k : Nat) (y : ℝ) : k ≤ (f.roundedEnc mode s k y).1 := by
  unfold Fmt.roundedEnc
  split
  · exact le_rfl
  · dsimp only
    split <;> omega

theorem FRes.ext_of {r : FRes} {v : Nat} {x : BitVec 5} {b : Bool} (hv : r.v = v) (hf : r.f = x) (hs : r.slow = b) :
    r = ⟨v, x, b⟩ := by
  subst hv hf hs
  rfl

section
variable (hx : f.Approx m e (y * 2 ^ f.qmin)) (hm : m ≠ 0) (hc : f.Compares n c y) (mode : Nat) (s sat : Bool)
include hx hm hc

/-- Beyond the largest finite number (Tables 2.4, 2.5). -/
theorem Fmt.Approx.roundTo_beyond (hlt : (f.units f.largest : ℝ) < y) :
    let beyondTop := (f.units (f.largest + 1) : ℝ) ≤ y ∨ roundsUp mode s (f.largest % 2 == 1)
      (cmp (((f.units f.largest : ℝ) + f.units (f.largest + 1)) / 2) y) = true
    (¬ beyondTop → f.roundTo mode s m e sat = ⟨f.signed s f.largest, 1, false⟩) ∧
    (beyondTop → f.roundTo mode s m e sat = ⟨f.overflow mode s sat, 5, false⟩) := by
  intro beyondTop
  obtain ⟨k, hk, hk'⟩ := f.exists_enclosing ((Nat.cast_nonneg _).trans hlt.le)
  obtain ⟨hover, hstay⟩ := hx.roundTo_eq hc.proper hm mode s sat hk hk'
  have htop : f.largest ≤ k := by
    have h1 : f.units f.largest < f.units (k + 1) := by exact_mod_cast hlt.trans hk'
    rw [f.units_strictMono.lt_iff_lt] at h1
    omega
  rcases htop.eq_or_lt with rfl | hgt
  · have hr : f.roundedEnc mode s f.largest y =
        (if roundsUp mode s (f.largest % 2 == 1) (cmp (((f.units f.largest : ℝ) + f.units (f.largest + 1)) / 2) y)
          then f.largest + 1 else f.largest, true) := if_neg hlt.ne'
    rw [hr] at hstay hover
    refine ⟨fun hnb => ?_, fun hb => ?_⟩
    · have hns : ¬ y < 2 ^ f.fb := by
        have h3 := f.units_strictMono.monotone hc.proper.pow_le_largest
        rw [f.units_pow] at h3
        exact not_lt.2 (le_trans (by exact_mod_cast h3) hlt.le)
      rw [Bool.eq_false_iff.2 fun h => hnb (.inr h)] at hstay
      obtain ⟨hv, hsl, -, hf1⟩ := hstay le_rfl
      exact FRes.ext_of hv ((hf1 rfl).2 fun h => hns h.1) (Bool.eq_false_iff.2 fun h => hns (hsl.1 h))
    · rw [hb.resolve_left (not_le.2 hk')] at hover
      exact hover (Nat.lt_succ_self _)
  · have hb : (f.units (f.largest + 1) : ℝ) ≤ y := (Nat.cast_le.2 (f.units_strictMono.monotone hgt)).trans hk
    exact ⟨fun hnb => absurd (.inl hb) hnb, fun _ => hover (hgt.trans_le (f.roundedEnc_ge mode s k y))⟩

/-- The model rounds once, as the statements say it (R41, R42). -/
theorem Fmt.Approx.roundsOnce : f.RoundsOnce mode s sat n c (f.roundTo mode s m e sat) := by
  have hslow {r : FRes} (h : r.slow = true ↔ y < 2 ^ f.fb) : r.slow = (c (2 * f.mag n (2 ^ f.fb)) == .gt) := by
    rw [Bool.eq_iff_iff, h, hc.slow_iff]
  refine ⟨fun k hl heq => ?_, fun k hl hlt hgt => ?_, fun hlt => ?_⟩
  · rw [hc.at_encoding hl, cmp_eq_eq_iff] at heq
    have hk' : y < f.units (k + 1) := by
      rw [← heq]
      exact_mod_cast f.units_strictMono (Nat.lt_succ_self k)
    have hr : f.roundedEnc mode s k y = (k, false) := if_pos heq.symm
    have hstay := (hx.roundTo_eq hc.proper hm mode s sat heq.le hk').2
    rw [hr] at hstay
    obtain ⟨hv, hsl, hf0, -⟩ := hstay hl
    exact FRes.ext_of hv (hf0 rfl) (hslow hsl)
  · rw [hc.at_encoding hl.le, cmp_eq_lt_iff] at hlt
    rw [hc.at_encoding hl, cmp_eq_gt_iff] at hgt
    have hr : f.roundedEnc mode s k y =
        (if roundsUp mode s (k % 2 == 1) (c (f.mag n k + f.mag n (k + 1))) then k + 1 else k, true) := by
      rw [hc.at_midpoint hl]
      exact if_neg hlt.ne'
    have hstay := (hx.roundTo_eq hc.proper hm mode s sat hlt.le hgt).2
    rw [hr] at hstay
    obtain ⟨hv, hsl, -, hf1⟩ := hstay (by dsimp only; split <;> omega)
    obtain ⟨ht, hnt⟩ := hf1 rfl
    exact ⟨hv, fun h => ht ((hc.tiny_iff mode s).1 h), fun h => hnt fun h' => h ((hc.tiny_iff mode s).2 h'), hslow hsl⟩
  · rw [hc.at_encoding le_rfl, cmp_eq_lt_iff] at hlt
    obtain ⟨h1, h2⟩ := hx.roundTo_beyond hm hc mode s sat hlt
    rw [f.overflow_eq] at h2
    exact ⟨fun h => h1 fun h' => h ((hc.beyond_iff mode s).2 h'), fun h => h2 ((hc.beyond_iff mode s).1 h)⟩

end

end

end Sys2Proof.Machine
end

section
/-! SUPPORT. Rounding of exact values, and of the values of encodings (R33, R34, R41). -/

namespace Sys2Proof.Machine

/-! ### Exact magnitudes -/

section
variable {f : Fmt} {n : Int} {y : ℝ}

/-- A comparison with twice a whole number. -/
theorem Fmt.Compares.of_nat (hf : f.Proper) (hn : 1 ≤ f.qmin + n) {M : Nat} (hM : (M : ℝ) = y * 2 ^ (f.qmin + n)) :
    f.Compares n (fun t => Ord.compare t (2 * M)) y := by
  refine ⟨hf, hn, fun t => ?_⟩
  rw [← hM, ← cmp_eq_compare, ← Nat.strictMono_cast.cmp_map_eq (β := ℝ), Nat.cast_mul, Nat.cast_ofNat]

theorem Fmt.approx_exact (f : Fmt) (m : Nat) (e : Int) : f.Approx m e (m * 2 ^ (e - f.qmin) * 2 ^ f.qmin) := by
  refine .inl ?_
  rw [mul_assoc, ← zpow_add₀ two_ne_zero, sub_add_cancel]

theorem cast_scale {m : Nat} {e q n : Int} (h : 0 ≤ e + n) :
    ((m * 2 ^ (e + n).toNat : Nat) : ℝ) = m * 2 ^ (e - q) * 2 ^ (q + n) := by
  rw [Nat.cast_mul, Nat.cast_pow, Nat.cast_ofNat, ← zpow_natCast, Int.toNat_of_nonneg h, mul_assoc, ← zpow_add₀ two_ne_zero]
  congr 2
  ring

/-- An exact value is rounded once (R41). -/
theorem Fmt.roundTo_roundsOnce (hf : f.Proper) {m : Nat} {e : Int} (hm : m ≠ 0) (he : 0 ≤ e + n) (hn : 1 ≤ f.qmin + n)
    (mode : Nat) (s sat : Bool) :
    f.RoundsOnce mode s sat n (fun t => Ord.compare t (2 * (m * 2 ^ (e + n).toNat))) (f.roundTo mode s m e sat) :=
  (f.approx_exact m e).roundsOnce hm (.of_nat hf hn (cast_scale he)) mode s sat

end

/-! ### Finite encodings -/

section
variable {f : Fmt} {b m : Nat} {s : Bool} {e : Int}

/-- An encoding beyond the largest is a NaN or an infinity. -/
theorem Fmt.Proper.le_largest_of_fin (hf : f.Proper) (h : f.decode b = .fin s m e) : b % 2 ^ (f.width - 1) ≤ f.largest := by
  by_contra hgt
  have hpos : 0 < 2 ^ f.fb := Nat.two_pow_pos _
  have hw : f.width - 1 = f.fb + f.eb := by simp [Fmt.width]; omega
  have hfr : bits b 0 f.fb = b % 2 ^ (f.width - 1) % 2 ^ f.fb := by
    rw [bits_zero, hw, Nat.mod_mod_of_dvd _ (Nat.pow_dvd_pow 2 (Nat.le_add_right _ _))]
  have hex : bits b f.fb f.eb = b % 2 ^ (f.width - 1) / 2 ^ f.fb := by
    rw [bits, hw, Nat.pow_add, Nat.mod_mul_right_div_self]
  have hlt : b % 2 ^ (f.width - 1) < 2 ^ f.eb * 2 ^ f.fb := by
    rw [← Nat.pow_add, Nat.add_comm, ← hw]
    exact Nat.mod_lt _ (Nat.two_pow_pos _)
  generalize b % 2 ^ (f.width - 1) = k at hgt hfr hex hlt
  rw [Fmt.decode] at h
  simp only [hfr, hex] at h
  unfold Fmt.largest at hgt
  cases h8 : f.e4m3 with
  | true =>
    obtain ⟨heb, hfb⟩ := hf.e4m3 h8
    rw [h8, if_pos rfl] at hgt
    rw [heb, hfb] at hlt
    obtain rfl : k = 127 := by omega
    rw [h8, heb, hfb, if_pos (by decide)] at h
    cases h
  | false =>
    rw [h8] at hgt
    have htop : k / 2 ^ f.fb = 2 ^ f.eb - 1 := by
      have h1 : k / 2 ^ f.fb < 2 ^ f.eb := (Nat.div_lt_iff_lt_mul hpos).2 hlt
      have h2 : 2 ^ f.eb - 1 ≤ k / 2 ^ f.fb := (Nat.le_div_iff_mul_le hpos).2 (by simp at hgt; omega)
      omega
    simp only [h8, htop, Bool.and_false, Bool.false_and, Bool.not_false, Bool.and_true, decide_true, if_true] at h
    rw [if_neg Bool.false_ne_true] at h
    split at h <;> cases h

/-- What a finite encoding stands for, by its order. -/
theorem Fmt.Proper.eq_of_fin (hf : f.Proper) (h : f.decode b = .fin s m e) :
    s = b.testBit (f.width - 1) ∧ (m : ℝ) * 2 ^ (e - f.qmin) = f.units (b % 2 ^ (f.width - 1)) := by
  have hpos : 0 < 2 ^ f.fb := Nat.two_pow_pos _
  rw [hf.decode_eq (hf.le_largest_of_fin h)] at h
  split at h
  · next hk =>
    obtain ⟨rfl, rfl, rfl⟩ := Val.fin.inj h
    rw [Fmt.units, if_pos hk, sub_self, zpow_zero, mul_one]
    exact ⟨rfl, rfl⟩
  · next hk =>
    obtain ⟨rfl, rfl, rfl⟩ := Val.fin.inj h
    have h1 : 1 ≤ b % 2 ^ (f.width - 1) / 2 ^ f.fb := (Nat.one_le_div_iff hpos).2 (by omega)
    have hq : f.qmin = 1 - f.bias - f.fb := rfl
    rw [Fmt.units, if_neg hk, Nat.cast_mul, Nat.cast_pow, Nat.cast_ofNat, ← zpow_natCast, Nat.cast_sub h1]
    refine ⟨rfl, ?_⟩
    congr 2
    push_cast
    omega

theorem Fmt.signed_testBit (hb : b < 2 ^ f.width) : f.signed (b.testBit (f.width - 1)) (b % 2 ^ (f.width - 1)) = b := by
  have hw : f.width = f.width - 1 + 1 := by simp [Fmt.width]
  rw [hw, pow_succ] at hb
  have hdiv : b / 2 ^ (f.width - 1) < 2 := (Nat.div_lt_iff_lt_mul (Nat.two_pow_pos _)).2 (by omega)
  have hk := Nat.div_add_mod b (2 ^ (f.width - 1))
  have hbit : b2n (b.testBit (f.width - 1)) = b / 2 ^ (f.width - 1) := by
    rw [b2n, Nat.testBit_eq_decide_div_mod_eq]
    generalize b / 2 ^ (f.width - 1) = q at hdiv
    obtain rfl | rfl : q = 0 ∨ q = 1 := by omega
    all_goals rfl
  rw [Fmt.signed, hbit, Nat.mul_comm]
  omega

/-- Rounding a finite encoding's value gives the encoding back (R41). -/
theorem Fmt.roundTo_representable (hf : f.Proper) (mode : Nat) (hb : b < 2 ^ f.width) (h : f.decode b = .fin s m e) :
    (f.roundTo mode s m e).v = b ∧ (f.roundTo mode s m e).f = 0 := by
  have hk := hf.le_largest_of_fin h
  obtain ⟨rfl, hval⟩ := hf.eq_of_fin h
  have hsigned := Fmt.signed_testBit hb
  by_cases hm : m = 0
  · subst hm
    have hz : f.units (b % 2 ^ (f.width - 1)) = 0 := by
      rw [Nat.cast_zero, zero_mul] at hval
      exact_mod_cast hval.symm
    have h0 : b % 2 ^ (f.width - 1) = 0 := by
      by_contra hne
      have := f.units_strictMono (Nat.pos_of_ne_zero hne)
      omega
    rw [h0] at hsigned
    simp [Fmt.roundTo, hsigned]
  · have hx := f.approx_exact m e
    rw [hval] at hx
    obtain ⟨-, hstay⟩ := hx.roundTo_eq hf hm mode (b.testBit (f.width - 1)) false le_rfl
      (by exact_mod_cast f.units_strictMono (Nat.lt_succ_self _))
    have hr : f.roundedEnc mode (b.testBit (f.width - 1)) (b % 2 ^ (f.width - 1)) (f.units (b % 2 ^ (f.width - 1))) =
        (b % 2 ^ (f.width - 1), false) := if_pos rfl
    rw [hr, hsigned] at hstay
    obtain ⟨hv, -, hf0, -⟩ := hstay hk
    exact ⟨hv, hf0 rfl⟩

end

/-- Settles O19: a finite encoding's value is rounded to itself; every other value once. -/
theorem representableValuesRoundToThemselves : Obligations.RepresentableValuesRoundToThemselves :=
  ⟨fun _ hf mode _ _ _ _ hb h => Fmt.roundTo_representable (properFormat hf) mode hb h,
    fun _ hf mode sgn sat _ _ _ _ hm he hn => Fmt.roundTo_roundsOnce (properFormat hf) hm he hn mode sgn sat⟩

end Sys2Proof.Machine
end

section
/-! SUPPORT. Values that are fused, divided and rooted (R41 to R45): exact sums, quotients and square roots with a sticky bit, the NaN
and infinity rules. -/

namespace Sys2Proof.Machine

/-! ### Values -/

section
variable (s : Bool) (m fr : Nat) (e : Int) (g : Bool)

@[simp] theorem Val.isNan_nan : (Val.nan s fr g).isNan = true := rfl
@[simp] theorem Val.isNan_inf : (Val.inf s).isNan = false := rfl
@[simp] theorem Val.isNan_fin : (Val.fin s m e).isNan = false := rfl
@[simp] theorem Val.isSig_nan : (Val.nan s fr g).isSig = g := rfl
@[simp] theorem Val.isSig_inf : (Val.inf s).isSig = false := rfl
@[simp] theorem Val.isSig_fin : (Val.fin s m e).isSig = false := rfl
@[simp] theorem Val.isInf_nan : (Val.nan s fr g).isInf = false := rfl
@[simp] theorem Val.isInf_inf : (Val.inf s).isInf = true := rfl
@[simp] theorem Val.isInf_fin : (Val.fin s m e).isInf = false := rfl
@[simp] theorem Val.isZero_nan : (Val.nan s fr g).isZero = false := rfl
@[simp] theorem Val.isZero_inf : (Val.inf s).isZero = false := rfl
@[simp] theorem Val.isZero_fin : (Val.fin s m e).isZero = (m == 0) := rfl

end

section
variable (v : Val)

@[simp] theorem Val.neg_isNan : v.neg.isNan = v.isNan := by cases v <;> rfl
@[simp] theorem Val.neg_isZero : v.neg.isZero = v.isZero := by cases v <;> rfl
@[simp] theorem Val.neg_isInf : v.neg.isInf = v.isInf := by cases v <;> rfl

end

/-- Zero times infinity (R45). -/
def Val.zeroInf (a b : Val) : Bool := (a.isZero && b.isInf) || (a.isInf && b.isZero)

@[simp] theorem Val.zeroInf_ite_neg (a b : Val) (n : Bool) : (if n then a.neg else a).zeroInf b = a.zeroInf b := by
  cases n <;> simp [Val.zeroInf]

/-- The NaN that an operation gives (R44). -/
theorem Fmt.propagate_some {f : Fmt} {l : List Val} {s : Bool} {fr : Nat} {g : Bool}
    (h : l.find? Val.isNan = some (.nan s fr g)) : f.propagate l = some ⟨f.quiet s fr, sigFlag l, false⟩ := by
  rw [Fmt.propagate, h]

theorem Fmt.propagate_none {f : Fmt} {l : List Val} (h : l.find? Val.isNan = none) : f.propagate l = none := by
  rw [Fmt.propagate, h]

section
variable {f : Fmt} {mode : Nat} {ops : List Val} {prods : List (Val × Val)} {adds : List Val}

/-- The operands of a fused operation: a NaN among them. -/
theorem Fmt.fused_of_nan {s : Bool} {fr : Nat} {g : Bool} (h : ops.find? Val.isNan = some (.nan s fr g)) :
    f.fused mode ops prods adds = ⟨f.quiet s fr,
      if ops.any Val.isSig || prods.any (fun p => p.1.zeroInf p.2) then 16 else 0, false⟩ := by
  have hf : sigFlag ops ||| (if prods.any (fun p => p.1.zeroInf p.2) then xNV else 0) =
      if ops.any Val.isSig || prods.any (fun p => p.1.zeroInf p.2) then 16 else 0 := by
    rw [sigFlag]
    cases ops.any Val.isSig <;> cases prods.any (fun p => p.1.zeroInf p.2) <;> rfl
  rw [← hf, Fmt.fused, Fmt.propagate_some h]
  rfl

/-- The infinite terms, with their signs. -/
def infTerms (prods : List (Val × Val)) (adds : List Val) : List Bool :=
  prods.filterMap (fun p => mulInf p.1 p.2) ++ adds.filterMap addInf

theorem Fmt.fused_invalid (h : ops.find? Val.isNan = none)
    (hbad : (prods.any (fun p => p.1.zeroInf p.2) ||
      ((infTerms prods adds).contains true && (infTerms prods adds).contains false)) = true) :
    f.fused mode ops prods adds = ⟨f.dnan, 16, false⟩ := by
  rw [Fmt.fused, Fmt.propagate_none h]
  exact if_pos hbad

theorem Fmt.fused_inf {s : Bool} {l : List Bool} (h : ops.find? Val.isNan = none) (hz : prods.any (fun p => p.1.zeroInf p.2) = false)
    (hi : infTerms prods adds = s :: l) (hall : ∀ t ∈ l, t = s) : f.fused mode ops prods adds = ⟨f.inf s, 0, false⟩ := by
  have hno : ((infTerms prods adds).contains true && (infTerms prods adds).contains false) = false := by
    rw [hi]
    have hn : l.contains (!s) = false := by
      rw [Bool.eq_false_iff, ne_eq, List.contains_iff_mem]
      intro h
      have := hall _ h
      cases s <;> simp at this
    cases s <;> simp_all
  have hbad : ¬ (prods.any (fun p => p.1.zeroInf p.2) ||
      ((infTerms prods adds).contains true && (infTerms prods adds).contains false)) = true := by
    rw [hz, hno]
    exact Bool.false_ne_true
  rw [Fmt.fused, Fmt.propagate_none h]
  refine (if_neg hbad).trans ?_
  show (match infTerms prods adds with
    | s :: _ => (⟨f.inf s, 0, false⟩ : FRes)
    | [] => _) = _
  rw [hi]

/-- The finite terms. -/
def finTerms (prods : List (Val × Val)) (adds : List Val) : List (Bool × Nat × Int) :=
  prods.filterMap (fun p => mulFin p.1 p.2) ++ adds.filterMap addFin

/-- An exact value rounded (R41). -/
def Fmt.roundTerm (f : Fmt) (mode : Nat) (t : Bool × Nat × Int) : FRes := f.roundTo mode t.1 t.2.1 t.2.2

theorem Fmt.fused_finite (h : ops.find? Val.isNan = none) (hz : prods.any (fun p => p.1.zeroInf p.2) = false)
    (hi : infTerms prods adds = []) :
    f.fused mode ops prods adds = f.roundTerm mode (exactSum mode (finTerms prods adds)) := by
  have hbad : ¬ (prods.any (fun p => p.1.zeroInf p.2) ||
      ((infTerms prods adds).contains true && (infTerms prods adds).contains false)) = true := by
    rw [hz, hi]
    exact Bool.false_ne_true
  rw [Fmt.fused, Fmt.propagate_none h]
  refine (if_neg hbad).trans ?_
  show (match infTerms prods adds with
    | s :: _ => (⟨f.inf s, 0, false⟩ : FRes)
    | [] => _) = _
  rw [hi]
  rfl

end

/-! ### Exact sums (R43) -/

/-- The least exponent of the terms, or 100000. -/
def minExp (l : List (Bool × Nat × Int)) : Int := (l.map fun t => t.2.2).foldl (fun a b => if b < a then b else a) 100000

/-- A term in units of `2 ^ e`. -/
def termAt (e : Int) (t : Bool × Nat × Int) : Int :=
  if t.1 then -((t.2.1 * 2 ^ (t.2.2 - e).toNat : Nat) : Int) else ((t.2.1 * 2 ^ (t.2.2 - e).toNat : Nat) : Int)

theorem exactSum_eq (mode : Nat) (l : List (Bool × Nat × Int)) :
    exactSum mode l = if (l.map (termAt (minExp l))).sum = 0 then
      (if l.all fun t => t.1 then !l.isEmpty else if l.all fun t => !t.1 then false else mode == 3, 0, 0)
    else (decide ((l.map (termAt (minExp l))).sum < 0), (l.map (termAt (minExp l))).sum.natAbs, minExp l) := rfl

theorem minExp_le (l : List (Bool × Nat × Int)) : ∀ t ∈ l, minExp l ≤ t.2.2 := by
  have hfold (l : List Int) (a : Int) : l.foldl (fun a b => if b < a then b else a) a ≤ a ∧
      ∀ b ∈ l, l.foldl (fun a b => if b < a then b else a) a ≤ b := by
    induction l generalizing a with
    | nil => simp
    | cons c l ih =>
      obtain ⟨h1, h2⟩ := ih (if c < a then c else a)
      rw [List.foldl_cons]
      refine ⟨h1.trans (by split <;> omega), fun b hb => ?_⟩
      rcases List.mem_cons.1 hb with rfl | hb
      · exact h1.trans (by split <;> omega)
      · exact h2 b hb
  exact fun t ht => (hfold _ _).2 _ (List.mem_map_of_mem ht)

/-- A term as a real number. -/
noncomputable def realTerm (t : Bool × Nat × Int) : ℝ := (if t.1 then -1 else 1) * t.2.1 * 2 ^ t.2.2

theorem cast_termAt {e : Int} {t : Bool × Nat × Int} (h : e ≤ t.2.2) : (termAt e t : ℝ) * 2 ^ e = realTerm t := by
  have hp : (2 : ℝ) ^ t.2.2 = 2 ^ (t.2.2 - e).toNat * 2 ^ e := by
    rw [← zpow_natCast, ← zpow_add₀ two_ne_zero, Int.toNat_of_nonneg (by omega), sub_add_cancel]
  rw [realTerm, hp, termAt]
  split <;> push_cast <;> ring

theorem cast_scaled {s : Bool} {m : Nat} {e n : Int} (h : 0 ≤ e + n) : (scaled s m e n : ℝ) = realTerm (s, m, e) * 2 ^ n := by
  have ht : scaled s m e n = termAt (-n) (s, m, e) := by rw [scaled, termAt, sub_neg_eq_add]
  rw [ht, ← cast_termAt (show -n ≤ (s, m, e).2.2 by dsimp only; omega), mul_assoc, ← zpow_add₀ two_ne_zero]
  simp

theorem sum_termAt {e : Int} {l : List (Bool × Nat × Int)} (h : ∀ t ∈ l, e ≤ t.2.2) :
    ((l.map (termAt e)).sum : ℝ) * 2 ^ e = (l.map realTerm).sum := by
  induction l with
  | nil => simp
  | cons t l ih =>
    rw [List.map_cons, List.map_cons, List.sum_cons, List.sum_cons, Int.cast_add, add_mul, cast_termAt (h t (by simp)),
      ih fun t ht => h t (by simp [ht])]

/-- A signed term as the statements give it: its sign and its value in units of 2^-n. -/
def scaledTerm (n : Int) (t : Bool × Nat × Int) : Bool × Int := (t.1, scaled t.1 t.2.1 t.2.2 n)

theorem sum_scaledTerm {n : Int} {l : List (Bool × Nat × Int)} (h : ∀ t ∈ l, 0 ≤ t.2.2 + n) :
    ((((l.map (scaledTerm n)).map fun t => t.2).sum : Int) : ℝ) = (l.map realTerm).sum * 2 ^ n := by
  induction l with
  | nil => simp
  | cons t l ih =>
    simp only [List.map_cons, List.sum_cons, Int.cast_add, add_mul]
    rw [ih fun t ht => h t (by simp [ht])]
    exact congrArg (· + _) (cast_scaled (h t (by simp)))

/-- The exact sum of terms is rounded once (R41, R43). -/
theorem Fmt.sumRounds_of_eq {f : Fmt} (hf : f.Proper) {n : Int} (hn : 1 ≤ f.qmin + n) {l : List (Bool × Nat × Int)} {mode : Nat}
    {r : FRes} (hr : r = f.roundTerm mode (exactSum mode l)) (hne : l ≠ []) (h : ∀ t ∈ l, 0 ≤ t.2.2 + n) :
    f.SumRounds mode n (l.map (scaledTerm n)) r := by
  subst hr
  have hmodel := sum_termAt (minExp_le l)
  have hsum := sum_scaledTerm h
  rw [exactSum_eq]
  generalize (l.map (termAt (minExp l))).sum = u at hmodel
  have hpos : (0 : ℝ) < 2 ^ minExp l * 2 ^ n := by positivity
  rw [← hmodel, mul_assoc] at hsum
  rw [Fmt.SumRounds]
  generalize ((l.map (scaledTerm n)).map fun t => t.2).sum = v at hsum
  have hzero : v = 0 ↔ u = 0 := by
    rw [← Int.cast_eq_zero (α := ℝ), hsum, mul_eq_zero_iff_right hpos.ne', Int.cast_eq_zero]
  have hneg : v < 0 ↔ u < 0 := by
    rw [← Int.cast_lt_zero (R := ℝ), hsum, ← zero_mul (2 ^ minExp l * 2 ^ n : ℝ), mul_lt_mul_iff_of_pos_right hpos,
      Int.cast_lt_zero]
  refine ⟨fun hv => ?_, fun hv => ?_⟩
  · have hu : u ≠ 0 := fun h => hv (hzero.2 h)
    rw [if_neg hu, show decide (v < 0) = decide (u < 0) from decide_eq_decide.2 hneg]
    refine (f.approx_exact u.natAbs (minExp l)).roundsOnce (Int.natAbs_ne_zero.2 hu) (.of_nat hf hn ?_) _ _ _
    rw [Nat.cast_natAbs, Nat.cast_natAbs, Int.cast_abs, Int.cast_abs, hsum, abs_mul, abs_of_pos hpos, mul_assoc,
      ← zpow_add₀ two_ne_zero, ← zpow_add₀ two_ne_zero]
    congr 2
    ring
  · rw [if_pos (hzero.1 hv)]
    have hnil : l.isEmpty = false := by simpa using hne
    simp only [Fmt.roundTerm, Fmt.roundTo, if_true, hnil, Bool.not_false]
    simp [scaledTerm, Function.comp_def]

/-! ### Quotients and square roots with a sticky bit -/

theorem le_bitLen {m k : Nat} (h : 2 ^ k ≤ m) : k + 1 ≤ bitLen m := by
  have h1 : 2 ^ k < 2 ^ bitLen m := h.trans_lt (lt_pow_bitLen m)
  exact (Nat.pow_lt_pow_iff_right one_lt_two).1 h1

/-- A whole part q with a sticky bit below it. -/
def sticky (q : Nat) (exact : Prop) [Decidable exact] : Nat := 2 * q + if exact then 0 else 1

/-- Enough bits and a sticky bit stand for a magnitude x with whole part q in units of `2 ^ (e + 1)`. -/
theorem Fmt.approx_sticky {f : Fmt} {q : Nat} {exact : Prop} [Decidable exact] {e : Int} {z : ℝ} (hq : 2 ^ (f.fb + 1) ≤ q)
    (hlo : (q : ℝ) ≤ z) (hhi : z < (q : ℝ) + 1) (hex : exact ↔ z = q) : f.Approx (sticky q exact) e (z * 2 ^ (e + 1)) := by
  have he : (0 : ℝ) < 2 ^ e := by positivity
  rw [zpow_add₀ two_ne_zero, zpow_one]
  by_cases h : exact
  · rw [sticky, if_pos h, hex.1 h]
    exact .inl (by push_cast; ring)
  · have hlt : (q : ℝ) < z := lt_of_le_of_ne hlo fun h' => h (hex.2 h'.symm)
    rw [sticky, if_neg h]
    refine .inr ⟨by omega, ?_, ?_, ?_⟩
    · refine le_bitLen (k := f.fb + 2) ?_
      rw [pow_succ]
      omega
    · push_cast
      nlinarith
    · push_cast
      nlinarith

/-- The quotient of the model (R44). -/
theorem Fmt.approx_quotient (f : Fmt) {m n : Nat} (hm : m ≠ 0) (hn : n ≠ 0) (e : Int) :
    f.Approx (quotient (f.fb + 4) m n e).1 (quotient (f.fb + 4) m n e).2 ((m : ℝ) / n * 2 ^ e) := by
  have hn' : (0 : ℝ) < n := by exact_mod_cast Nat.pos_of_ne_zero hn
  obtain ⟨k, hk⟩ : ∃ k, f.fb + 4 + bitLen n - bitLen m = k := ⟨_, rfl⟩
  have hQ : quotient (f.fb + 4) m n e = (sticky (m * 2 ^ k / n) (m * 2 ^ k % n = 0), e - k - 1) := by
    rw [← hk]
    rfl
  have hz : ((m * 2 ^ k : Nat) : ℝ) / n * 2 ^ (e - k - 1 + 1) = (m : ℝ) / n * 2 ^ e := by
    rw [sub_add_cancel, zpow_sub₀ two_ne_zero, zpow_natCast]
    push_cast
    field_simp
  rw [hQ, ← hz]
  refine Fmt.approx_sticky ?_ ?_ ?_ ?_
  · rw [Nat.le_div_iff_mul_le (Nat.pos_of_ne_zero hn)]
    calc 2 ^ (f.fb + 1) * n ≤ 2 ^ (f.fb + 1) * 2 ^ bitLen n := Nat.mul_le_mul_left _ (lt_pow_bitLen n).le
      _ = 2 ^ (f.fb + 1 + bitLen n) := (pow_add ..).symm
      _ ≤ 2 ^ (bitLen m - 1 + k) := Nat.pow_le_pow_right two_pos (by have := bitLen_pos hm; omega)
      _ = 2 ^ (bitLen m - 1) * 2 ^ k := pow_add ..
      _ ≤ m * 2 ^ k := Nat.mul_le_mul_right _ (pow_bitLen_le hm)
  · exact Nat.cast_div_le
  · rw [div_lt_iff₀ hn']
    rw [mul_comm _ (n : ℝ)]
    exact_mod_cast Nat.lt_mul_div_succ (m * 2 ^ k) (Nat.pos_of_ne_zero hn)
  · rw [div_eq_iff hn'.ne', ← Nat.dvd_iff_mod_eq_zero]
    constructor
    · intro h
      exact_mod_cast (Nat.div_mul_cancel h).symm
    · intro h
      have h' : m * 2 ^ k = m * 2 ^ k / n * n := by exact_mod_cast h
      exact ⟨m * 2 ^ k / n, by rwa [Nat.mul_comm n]⟩

/-- Bit by bit from the top: a root r stays not above, and r plus the next bit's double stays above. -/
theorem isqrt_fold (n : Nat) (j r : Nat) (hr : r * r ≤ n) (hn : n < (r + 2 ^ j) * (r + 2 ^ j)) :
    (List.range j).reverse.foldl (fun r i => if (r + 2 ^ i) * (r + 2 ^ i) ≤ n then r + 2 ^ i else r) r = Nat.sqrt n := by
  induction j generalizing r with
  | zero => exact (Nat.eq_sqrt.2 ⟨hr, by simpa using hn⟩)
  | succ j ih =>
    rw [List.range_succ, List.reverse_append, List.reverse_singleton, List.singleton_append, List.foldl_cons]
    split
    · next h => exact ih _ h (by rw [show r + 2 ^ j + 2 ^ j = r + 2 ^ (j + 1) by rw [pow_succ]; ring]; exact hn)
    · next h => exact ih r hr (by omega)

theorem isqrt_eq {n : Nat} (h : n < 2 ^ 128) : isqrt n = Nat.sqrt n := by
  have hl : ((List.range 64).map fun i => 63 - i) = (List.range 64).reverse := by decide
  rw [isqrt, hl]
  exact isqrt_fold n 64 0 (Nat.zero_le n) (by rw [Nat.zero_add, ← pow_add]; exact h)

/-- The square root of the model (R45): m scaled to an even exponent. -/
theorem Fmt.approx_sqrt {f : Fmt} (hf : f.fb ≤ 52) {m k : Nat} (hm : m ≠ 0) (hlo : 2 * (f.fb + 4) ≤ bitLen m + k) (hhi : bitLen m + k ≤ 2 * (f.fb + 4) + 1) {e : Int} (heven : (e - k) % 2 = 0) :
    f.Approx (sticky (isqrt (m * 2 ^ k)) (isqrt (m * 2 ^ k) * isqrt (m * 2 ^ k) = m * 2 ^ k)) ((e - k) / 2 - 1)
      (Real.sqrt (m * 2 ^ e)) := by
  have hpos := bitLen_pos hm
  have hlt : m * 2 ^ k < 2 ^ 128 := calc
    m * 2 ^ k < 2 ^ bitLen m * 2 ^ k := Nat.mul_lt_mul_of_pos_right (lt_pow_bitLen m) (Nat.two_pow_pos k)
    _ = 2 ^ (bitLen m + k) := (pow_add ..).symm
    _ ≤ 2 ^ 128 := Nat.pow_le_pow_right two_pos (by omega)
  have hge : 2 ^ (f.fb + 1) * 2 ^ (f.fb + 1) ≤ m * 2 ^ k := calc
    2 ^ (f.fb + 1) * 2 ^ (f.fb + 1) = 2 ^ (f.fb + 1 + (f.fb + 1)) := (pow_add ..).symm
    _ ≤ 2 ^ (bitLen m - 1 + k) := Nat.pow_le_pow_right two_pos (by omega)
    _ = 2 ^ (bitLen m - 1) * 2 ^ k := pow_add ..
    _ ≤ m * 2 ^ k := Nat.mul_le_mul_right _ (pow_bitLen_le hm)
  have hz : Real.sqrt (m * 2 ^ e) = Real.sqrt ((m * 2 ^ k : Nat) : ℝ) * 2 ^ ((e - k) / 2 - 1 + 1) := by
    rw [Real.sqrt_eq_iff_mul_self_eq (by positivity) (by positivity), mul_mul_mul_comm,
      Real.mul_self_sqrt (Nat.cast_nonneg _), ← zpow_add₀ two_ne_zero, Nat.cast_mul, Nat.cast_pow, Nat.cast_ofNat,
      ← zpow_natCast, mul_assoc, ← zpow_add₀ two_ne_zero]
    congr 2
    omega
  rw [isqrt_eq hlt, hz]
  generalize m * 2 ^ k = N at hge
  refine Fmt.approx_sticky (Nat.le_sqrt.2 hge) ?_ ?_ ?_
  · exact Real.nat_sqrt_le_real_sqrt
  · exact Real.real_sqrt_lt_nat_sqrt_succ
  · rw [Real.sqrt_eq_iff_mul_self_eq (Nat.cast_nonneg _) (Nat.cast_nonneg _)]
    norm_cast
    exact eq_comm

/-! ### Special operands (R35, R44, R45) -/

theorem Val.isSig_of_not_nan {v : Val} (h : v.isNan = false) : v.isSig = false := by cases v <;> simp_all

theorem Val.zeroInf_nan_left (s : Bool) (fr : Nat) (g : Bool) (v : Val) : (Val.nan s fr g).zeroInf v = false := by
  simp [Val.zeroInf]

theorem Val.zeroInf_nan_right (s : Bool) (fr : Nat) (g : Bool) (v : Val) : v.zeroInf (.nan s fr g) = false := by
  simp [Val.zeroInf]

section
variable {f : Fmt} {mode a b : Nat} {sa sb : Bool} {fr : Nat} {g : Bool}

section
variable {x y : Val} {prods : List (Val × Val)} {adds : List Val}

theorem Fmt.fused_nan_left (hx : x = .nan sa fr g) (hz : prods.any (fun p => p.1.zeroInf p.2) = false) :
    f.fused mode [x, y] prods adds = ⟨f.quiet sa fr, if g || y.isSig then 16 else 0, false⟩ := by
  subst hx
  rw [Fmt.fused_of_nan (s := sa) (fr := fr) (g := g) rfl, hz]
  simp

theorem Fmt.fused_nan_right (hx : x.isNan = false) (hy : y = .nan sb fr g)
    (hz : prods.any (fun p => p.1.zeroInf p.2) = false) :
    f.fused mode [x, y] prods adds = ⟨f.quiet sb fr, if g then 16 else 0, false⟩ := by
  subst hy
  rw [Fmt.fused_of_nan (s := sb) (fr := fr) (g := g) (by simp [hx]), hz]
  simp [Val.isSig_of_not_nan hx]

end

theorem Fmt.div_of_nan {s : Bool} (h : [f.decode a, f.decode b].find? Val.isNan = some (.nan s fr g)) :
    f.div mode a b = ⟨f.quiet s fr, sigFlag [f.decode a, f.decode b], false⟩ := by
  rw [Fmt.div]
  simp only [Fmt.propagate_some h]

/-- The first operand is a NaN. -/
theorem Fmt.binary_nan_left (hA : f.decode a = .nan sa fr g) :
    let nv : BitVec 5 := if g || (f.decode b).isSig then 16 else 0
    f.add mode a b = ⟨f.quiet sa fr, nv, false⟩ ∧ f.sub mode a b = ⟨f.quiet sa fr, nv, false⟩ ∧
      f.mul mode a b = ⟨f.quiet sa fr, nv, false⟩ ∧ f.div mode a b = ⟨f.quiet sa fr, nv, false⟩ := by
  refine ⟨Fmt.fused_nan_left hA rfl, Fmt.fused_nan_left hA rfl, Fmt.fused_nan_left hA ?_, ?_⟩
  · simp [hA, Val.zeroInf_nan_left]
  · rw [Fmt.div_of_nan (s := sa) (fr := fr) (g := g) (by rw [hA]; rfl), sigFlag, hA]
    simp [xNV]

/-- The second operand alone is a NaN. -/
theorem Fmt.binary_nan_right (hA : (f.decode a).isNan = false) (hB : f.decode b = .nan sb fr g) :
    let nv : BitVec 5 := if g then 16 else 0
    f.add mode a b = ⟨f.quiet sb fr, nv, false⟩ ∧ f.sub mode a b = ⟨f.quiet sb fr, nv, false⟩ ∧
      f.mul mode a b = ⟨f.quiet sb fr, nv, false⟩ ∧ f.div mode a b = ⟨f.quiet sb fr, nv, false⟩ := by
  refine ⟨Fmt.fused_nan_right hA hB rfl, Fmt.fused_nan_right hA hB rfl, Fmt.fused_nan_right hA hB ?_, ?_⟩
  · simp [hB, Val.zeroInf_nan_right]
  · rw [Fmt.div_of_nan (s := sb) (fr := fr) (g := g) (by simp [hA, hB]), sigFlag, hB]
    simp [Val.isSig_of_not_nan hA, xNV]

/-- Both operands are infinite. -/
theorem Fmt.binary_infinite (hA : f.decode a = .inf sa) (hB : f.decode b = .inf sb) :
    f.add mode a b = (if sa = sb then ⟨f.inf sa, 0, false⟩ else ⟨f.dnan, 16, false⟩) ∧
      f.sub mode a b = (if sa = sb then ⟨f.dnan, 16, false⟩ else ⟨f.inf sa, 0, false⟩) ∧
      f.mul mode a b = ⟨f.inf (sa != sb), 0, false⟩ ∧ f.div mode a b = ⟨f.dnan, 16, false⟩ := by
  have hnan : [f.decode a, f.decode b].find? Val.isNan = none := by rw [hA, hB]; rfl
  refine ⟨?_, ?_, ?_, ?_⟩
  · split
    · next h => exact Fmt.fused_inf (l := [sb]) hnan rfl (by rw [hA, hB]; rfl) (by simp [h])
    · next h => exact Fmt.fused_invalid hnan (by rw [hA, hB]; cases sa <;> cases sb <;> simp_all [infTerms, addInf])
  · split
    · next h => exact Fmt.fused_invalid hnan (by rw [hA, hB]; cases sa <;> cases sb <;> simp_all [infTerms, addInf, Val.neg])
    · next h =>
      exact Fmt.fused_inf (l := [!sb]) hnan rfl (by rw [hA, hB]; rfl) (by cases sa <;> cases sb <;> simp_all)
  · exact Fmt.fused_inf (l := []) hnan (by rw [hA, hB]; rfl) (by rw [hA, hB]; rfl) (by simp)
  · rw [Fmt.div]
    simp only [hA, hB]
    rfl

theorem Fmt.mul_zeroInf (hnan : [f.decode a, f.decode b].find? Val.isNan = none)
    (hz : (f.decode a).zeroInf (f.decode b) = true) : f.mul mode a b = ⟨f.dnan, 16, false⟩ :=
  Fmt.fused_invalid hnan (by simp [hz])

/-- Division of operands that are no NaNs (R44, R45). -/
theorem Fmt.div_eq (hnan : [f.decode a, f.decode b].find? Val.isNan = none) :
    f.div mode a b =
      match f.decode a, f.decode b with
      | .inf _, .inf _ => ⟨f.dnan, xNV, false⟩
      | .inf sa, .fin sb _ _ => ⟨f.inf (sa != sb), 0, false⟩
      | .fin sa _ _, .inf sb => ⟨f.signed (sa != sb) 0, 0, false⟩
      | .fin sa m e, .fin sb n g =>
        if n = 0 then (if m = 0 then ⟨f.dnan, xNV, false⟩ else ⟨f.inf (sa != sb), xDZ, false⟩)
        else if m = 0 then ⟨f.signed (sa != sb) 0, 0, false⟩
        else f.roundTo mode (sa != sb) (quotient (f.fb + 4) m n (e - g)).1 (quotient (f.fb + 4) m n (e - g)).2
      | _, _ => ⟨f.dnan, 0, false⟩ := by
  rw [Fmt.div]
  simp only [Fmt.propagate_none hnan]
  match f.decode a, f.decode b, hnan with
  | .inf _, .inf _, _ | .inf _, .fin _ _ _, _ | .fin _ _ _, .inf _, _ | .fin _ _ _, .fin _ _ _, _ => rfl
  | .nan _ _ _, _, h | .inf _, .nan _ _ _, h | .fin _ _ _, .nan _ _ _, h => simp at h

section
variable {ma mb : Nat} {ea eb : Int}

theorem find_nan_fin (hA : f.decode a = .fin sa ma ea) (hB : f.decode b = .fin sb mb eb) :
    [f.decode a, f.decode b].find? Val.isNan = none := by rw [hA, hB]; rfl

theorem Fmt.div_fin (hA : f.decode a = .fin sa ma ea) (hB : f.decode b = .fin sb mb eb) :
    f.div mode a b =
      if mb = 0 then (if ma = 0 then ⟨f.dnan, xNV, false⟩ else ⟨f.inf (sa != sb), xDZ, false⟩)
      else if ma = 0 then ⟨f.signed (sa != sb) 0, 0, false⟩
      else f.roundTo mode (sa != sb) (quotient (f.fb + 4) ma mb (ea - eb)).1 (quotient (f.fb + 4) ma mb (ea - eb)).2 := by
  rw [Fmt.div_eq (find_nan_fin hA hB), hA, hB]

end

end

/-! ### Operands that are all finite (R41, R43) -/

section
variable {f : Fmt} {n : Int} {m : Nat} {e : Int} {x : ℝ} {c : Nat → Ordering}

theorem Fmt.Approx.ne_zero (hx : f.Approx m e x) (hpos : 0 < x) : m ≠ 0 := by
  rintro rfl
  rcases hx with rfl | ⟨hodd, -⟩
  · simp at hpos
  · simp at hodd

/-- A magnitude that m and e stand for is rounded once. -/
theorem Fmt.Approx.rounds (hx : f.Approx m e x) (hf : f.Proper) (hm : m ≠ 0) (hn : 1 ≤ f.qmin + n)
    (hc : ∀ t : Nat, c t = cmp (t : ℝ) (2 * (x * 2 ^ n))) (mode : Nat) (s sat : Bool) :
    f.RoundsOnce mode s sat n c (f.roundTo mode s m e sat) := by
  have hq : (2 : ℝ) ^ f.qmin ≠ 0 := by positivity
  have hx' : x = x / 2 ^ f.qmin * 2 ^ f.qmin := (div_mul_cancel₀ x hq).symm
  refine Fmt.Approx.roundsOnce (y := x / 2 ^ f.qmin) (hx' ▸ hx) hm ⟨hf, hn, fun t => ?_⟩ mode s sat
  rw [hc, zpow_add₀ two_ne_zero, ← mul_assoc (x / _), div_mul_cancel₀ x hq]

theorem scaled_eq_zero {s : Bool} : scaled s m e n = 0 ↔ m = 0 := by
  have hp : 2 ^ (e + n).toNat ≠ 0 := (Nat.two_pow_pos _).ne'
  cases s <;> simp [scaled]

theorem scaled_neg_iff {s : Bool} (hm : m ≠ 0) : scaled s m e n < 0 ↔ s = true := by
  have hp : 0 < m * 2 ^ (e + n).toNat := Nat.mul_pos (Nat.pos_of_ne_zero hm) (Nat.two_pow_pos _)
  cases s
  · simp only [scaled, Bool.false_eq_true, if_false, iff_false]
    omega
  · simp only [scaled, if_true, iff_true]
    omega

theorem natAbs_scaled {s : Bool} : (scaled s m e n).natAbs = m * 2 ^ (e + n).toNat := by
  cases s
  · exact Int.natAbs_natCast _
  · exact (Int.natAbs_neg _).trans (Int.natAbs_natCast _)

/-- One exact term, rounded. -/
theorem Fmt.SumRounds.single {s : Bool} {mode : Nat} {r : FRes} (h : f.SumRounds mode n [(s, scaled s m e n)] r) :
    (m ≠ 0 → f.RoundsOnce mode s false n (fun t => Ord.compare t (2 * (m * 2 ^ (e + n).toNat))) r) ∧
    (m = 0 → r = ⟨f.signed s 0, 0, false⟩) := by
  obtain ⟨h1, h2⟩ := h
  simp only [List.map_cons, List.map_nil, List.sum_cons, List.sum_nil, add_zero, natAbs_scaled] at h1 h2
  refine ⟨fun hm => ?_, fun hm => ?_⟩
  · have := h1 fun h => hm (scaled_eq_zero.1 h)
    rwa [show decide (scaled s m e n < 0) = s by rw [Bool.eq_iff_iff, decide_eq_true_eq, scaled_neg_iff hm]] at this
  · rw [h2 (scaled_eq_zero.2 hm)]
    cases s <;> rfl

/-- Two exact terms, added and rounded: the sign of a zero sum (R43). -/
theorem Fmt.SumRounds.pair {sx sy : Bool} {x y : Int} {mode : Nat} {r : FRes} (h : f.SumRounds mode n [(sx, x), (sy, y)] r) :
    (x + y ≠ 0 → f.RoundsOnce mode (decide (x + y < 0)) false n (fun t => Ord.compare t (2 * (x + y).natAbs)) r) ∧
    (x + y = 0 → r = ⟨f.signed (if sx = sy then sx else mode == 3) 0, 0, false⟩) := by
  obtain ⟨h1, h2⟩ := h
  simp only [List.map_cons, List.map_nil, List.sum_cons, List.sum_nil, add_zero] at h1 h2
  refine ⟨h1, fun hz => ?_⟩
  rw [h2 hz]
  cases sx <;> cases sy <;> rfl

end

section
variable {f : Fmt} {mode a b c : Nat} {sa sb sc : Bool} {ma mb mc : Nat} {ea eb ec n : Int} (hf : f.Proper)
  (hA : f.decode a = .fin sa ma ea) (hB : f.decode b = .fin sb mb eb) (hC : f.decode c = .fin sc mc ec)
include hf hA

section
variable (hn : 1 ≤ f.qmin + n)
include hB

section
variable (ha : 0 ≤ ea + n) (hb : 0 ≤ eb + n)
include hn ha hb

theorem Fmt.add_fin : f.SumRounds mode n [(sa, scaled sa ma ea n), (sb, scaled sb mb eb n)] (f.add mode a b) := by
  have h : f.add mode a b = f.roundTerm mode (exactSum mode [(sa, ma, ea), (sb, mb, eb)]) :=
    (Fmt.fused_finite (find_nan_fin hA hB) rfl (by rw [hA, hB]; rfl)).trans (by rw [hA, hB]; rfl)
  exact Fmt.sumRounds_of_eq hf hn h (by simp) (by simp [ha, hb])

theorem Fmt.sub_fin : f.SumRounds mode n [(sa, scaled sa ma ea n), (!sb, scaled (!sb) mb eb n)] (f.sub mode a b) := by
  have h : f.sub mode a b = f.roundTerm mode (exactSum mode [(sa, ma, ea), (!sb, mb, eb)]) :=
    (Fmt.fused_finite (find_nan_fin hA hB) rfl (by rw [hA, hB]; rfl)).trans (by rw [hA, hB]; rfl)
  exact Fmt.sumRounds_of_eq hf hn h (by simp) (by simp [ha, hb])

end

theorem Fmt.mul_fin (hn : 1 ≤ f.qmin + n) (he : 0 ≤ ea + eb + n) :
    f.SumRounds mode n [(sa != sb, scaled (sa != sb) (ma * mb) (ea + eb) n)] (f.mul mode a b) := by
  have h : f.mul mode a b = f.roundTerm mode (exactSum mode [(sa != sb, ma * mb, ea + eb)]) :=
    (Fmt.fused_finite (find_nan_fin hA hB) (by rw [hA, hB]; simp [Val.zeroInf]) (by
      rw [hA, hB]
      rfl)).trans (by rw [hA, hB]; rfl)
  exact Fmt.sumRounds_of_eq hf hn h (by simp) (by simp [he])

theorem Fmt.mul_zero (h : ma * mb = 0) : f.mul mode a b = ⟨f.signed (sa != sb) 0, 0, false⟩ :=
  (Fmt.mul_fin hf hA hB (n := max (1 - f.qmin) (-(ea + eb))) (by omega) (by omega)).single.2 h

include hC in
theorem Fmt.fma_fin (np nc : Bool) (hn : 1 ≤ f.qmin + n) (he : 0 ≤ ea + eb + n) (hc : 0 ≤ ec + n) :
    f.SumRounds mode n [((sa != sb) != np, scaled ((sa != sb) != np) (ma * mb) (ea + eb) n),
      (sc != nc, scaled (sc != nc) mc ec n)] (f.fma mode np nc a b c) := by
  have h : f.fma mode np nc a b c =
      f.roundTerm mode (exactSum mode [((sa != sb) != np, ma * mb, ea + eb), (sc != nc, mc, ec)]) := by
    have hp : (if np then (f.decode a).neg else f.decode a) = .fin (sa != np) ma ea := by
      rw [hA]
      cases np <;> simp [Val.neg]
    have hd : (if nc then (f.decode c).neg else f.decode c) = .fin (sc != nc) mc ec := by
      rw [hC]
      cases nc <;> simp [Val.neg]
    refine (Fmt.fused_finite (by rw [hA, hB, hC]; rfl) ?_ ?_).trans ?_
    · rw [hp, hB]
      simp [Val.zeroInf]
    · rw [hp, hB, hd]
      rfl
    · rw [hp, hB, hd, show ((sa != sb) != np) = ((sa != np) != sb) by cases sa <;> cases sb <;> cases np <;> rfl]
      rfl
  exact Fmt.sumRounds_of_eq hf hn h (by simp) (by simp [he, hc])

/-- The quotient of finite operands is rounded once (R41, R44). -/
theorem Fmt.div_rounds (hn : 1 ≤ f.qmin + n) (he : 0 ≤ ea - eb + n) (ha : ma ≠ 0) (hb : mb ≠ 0) :
    f.RoundsOnce mode (sa != sb) false n (fun t => Ord.compare (t * mb) (2 * (ma * 2 ^ (ea - eb + n).toNat)))
      (f.div mode a b) := by
  have hb' : (0 : ℝ) < mb := by exact_mod_cast Nat.pos_of_ne_zero hb
  have hx := f.approx_quotient ha hb (ea - eb)
  rw [Fmt.div_fin hA hB, if_neg hb, if_neg ha]
  refine hx.rounds hf (hx.ne_zero ?_) hn (fun t => ?_) mode _ _
  · have : (0 : ℝ) < ma := by exact_mod_cast Nat.pos_of_ne_zero ha
    positivity
  · rw [← cmp_eq_compare, ← Nat.strictMono_cast.cmp_map_eq (β := ℝ), ← cmp_mul_pos_right hb' (t : ℝ)]
    push_cast
    rw [← zpow_natCast (2 : ℝ), Int.toNat_of_nonneg he, zpow_add₀ two_ne_zero]
    congr 1
    field_simp

end

end

end Sys2Proof.Machine
end

section
/-! SUPPORT. The floating-point operations (R35, R44, R45, R51 to R53, R113 to R116), special and finite operands settled together. -/

namespace Sys2Proof.Machine

section
variable {f : Fmt} {mode a : Nat} {s : Bool} {m : Nat} {e n : Int}

/-- The fields of a finite encoding (R33). -/
theorem Fmt.fields_of_fin (h : f.decode a = .fin s m e) :
    (bits a f.fb f.eb = 0 ∧ m = bits a 0 f.fb) ∨ (bits a f.fb f.eb ≠ 0 ∧ m = bits a 0 f.fb + 2 ^ f.fb) := by
  simp only [Fmt.decode] at h
  split at h
  · cases h
  split at h
  · split at h <;> cases h
  split at h
  · next hex => exact .inl ⟨hex, by cases h; rfl⟩
  · next hex => exact .inr ⟨hex, by cases h; rfl⟩

theorem Fmt.lt_of_fin (h : f.decode a = .fin s m e) : m < 2 ^ (f.fb + 1) := by
  have hfr : bits a 0 f.fb < 2 ^ f.fb := by
    rw [bits_zero]
    exact Nat.mod_lt _ (Nat.two_pow_pos _)
  rw [pow_succ]
  rcases f.fields_of_fin h with ⟨-, rfl⟩ | ⟨-, rfl⟩ <;> omega

theorem Fmt.isSub_of_fin (h : f.decode a = .fin s m e) (hm : m ≠ 0) : f.isSub a = decide (m < 2 ^ f.fb) := by
  have hfr : bits a 0 f.fb < 2 ^ f.fb := by
    rw [bits_zero]
    exact Nat.mod_lt _ (Nat.two_pow_pos _)
  rw [Fmt.isSub]
  rcases f.fields_of_fin h with ⟨hex, rfl⟩ | ⟨hex, rfl⟩
  · simp [hex, hm, hfr]
  · simp [hex]

theorem bitLen_le {k : Nat} (h : m < 2 ^ k) : bitLen m ≤ k := by
  unfold bitLen
  split
  · exact Nat.zero_le k
  · next h0 => exact (Nat.log2_lt h0).2 h

/-- The square root of a positive number is rounded once (R45). -/
theorem Fmt.sqrt_rounds (hf : f.Proper) (hfb : f.fb ≤ 52) (hA : f.decode a = .fin false m e) (hm : m ≠ 0)
    (hn : 1 ≤ f.qmin + n) (he : 0 ≤ e + 2 * n) :
    f.RoundsOnce mode false false n (fun t => Ord.compare (t * t) (4 * (m * 2 ^ (e + 2 * n).toNat))) (f.sqrt mode a) := by
  have hbits : bitLen m ≤ f.fb + 1 := bitLen_le (f.lt_of_fin hA)
  obtain ⟨up, hup⟩ : ∃ up, 2 * (f.fb + 4) - bitLen m = up := ⟨_, rfl⟩
  obtain ⟨k, hk⟩ : ∃ k, (if (e - up) % 2 = 0 then up else up + 1) = k := ⟨_, rfl⟩
  have hsqrt : f.sqrt mode a = f.roundTo mode false
      (sticky (isqrt (m * 2 ^ k)) (isqrt (m * 2 ^ k) * isqrt (m * 2 ^ k) = m * 2 ^ k)) ((e - k) / 2 - 1) := by
    have hprop : f.propagate [f.decode a] = none := Fmt.propagate_none (by rw [hA]; rfl)
    rw [Fmt.sqrt]
    simp only [hprop]
    simp only [hA, if_neg hm, Bool.false_eq_true, if_false, hup]
    rw [← hk]
    rfl
  have heven : (e - k) % 2 = 0 := by
    rw [← hk]
    split <;> omega
  have hx := Fmt.approx_sqrt hfb hm (by rw [← hk]; split <;> omega) (by rw [← hk]; split <;> omega) heven
  have hm' : (0 : ℝ) < m := by exact_mod_cast Nat.pos_of_ne_zero hm
  rw [hsqrt]
  refine hx.rounds hf (hx.ne_zero (Real.sqrt_pos.2 (by positivity))) hn (fun t => ?_) mode _ _
  have hsq : (2 * (Real.sqrt (m * 2 ^ e) * 2 ^ n)) ^ 2 = ((4 * (m * 2 ^ (e + 2 * n).toNat) : Nat) : ℝ) := by
    rw [mul_pow, mul_pow, Real.sq_sqrt (by positivity)]
    push_cast
    rw [← zpow_natCast (2 : ℝ) (e + 2 * n).toNat, Int.toNat_of_nonneg he, zpow_add₀ two_ne_zero, two_mul n, zpow_add₀ two_ne_zero]
    ring
  have hmono := (pow_left_strictMonoOn₀ (M₀ := ℝ) two_ne_zero).cmp_map_eq (x := (t : ℝ))
    (y := 2 * (Real.sqrt (m * 2 ^ e) * 2 ^ n)) (Set.mem_ofPred.2 (Nat.cast_nonneg t)) (Set.mem_ofPred.2 (by positivity))
  rw [← hmono, hsq, ← cmp_eq_compare, ← Nat.strictMono_cast.cmp_map_eq (β := ℝ)]
  congr 1
  push_cast
  ring

theorem Fmt.sqrt_nan {fr : Nat} {g : Bool} (hA : f.decode a = .nan s fr g) :
    f.sqrt mode a = ⟨f.quiet s fr, if g then 16 else 0, false⟩ := by
  have hprop : f.propagate [f.decode a] = some ⟨f.quiet s fr, sigFlag [f.decode a], false⟩ :=
    Fmt.propagate_some (g := g) (by rw [hA]; rfl)
  rw [Fmt.sqrt]
  simp only [hprop]
  simp [sigFlag, hA, xNV]

theorem Fmt.sqrt_inf_neg (hA : f.decode a = .inf true) : f.sqrt mode a = ⟨f.dnan, 16, false⟩ := by
  rw [Fmt.sqrt]
  simp only [hA]
  rfl

theorem Fmt.sqrt_neg (hA : f.decode a = .fin true m e) (hm : m ≠ 0) : f.sqrt mode a = ⟨f.dnan, 16, false⟩ := by
  have hprop : f.propagate [.fin true m e] = none := rfl
  rw [Fmt.sqrt]
  simp only [hA, hprop, if_neg hm]
  rfl

theorem Fmt.sqrt_zero (hA : f.decode a = .fin s 0 e) : f.sqrt mode a = ⟨a, 0, false⟩ := by
  rw [Fmt.sqrt]
  simp only [hA]
  rfl

end

/-! ### Comparison (R113, R114) -/

section
variable {A B : Val} {lt eq : Bool}

/-- The model's comparison, on values that are no NaNs. -/
theorem cmpVal_of_ordered (h : A.Ordered B lt eq) :
    A.isNan = false ∧ B.isNan = false ∧ (cmpVal A B < 0 ↔ lt = true) ∧ (cmpVal A B = 0 ↔ eq = true) := by
  cases A with
  | nan => exact h.elim
  | inf s =>
    cases B with
    | nan => exact h.elim
    | inf t =>
      obtain ⟨rfl, rfl⟩ := h
      cases s <;> cases t <;> decide
    | fin t k g =>
      obtain ⟨rfl, rfl⟩ := h
      cases lt <;> simp [cmpVal]
  | fin s m e =>
    cases B with
    | nan => exact h.elim
    | inf t =>
      obtain ⟨rfl, rfl⟩ := h
      cases t <;> simp [cmpVal]
    | fin t k g =>
      obtain ⟨h1, h2⟩ := h (-(if e < g then e else g)) (by split <;> omega) (by split <;> omega)
      refine ⟨rfl, rfl, ?_⟩
      rw [h1, h2]
      have hcmp : cmpVal (.fin s m e) (.fin t k g) =
          if scaled s m e (-if e < g then e else g) < scaled t k g (-if e < g then e else g) then -1
          else if scaled s m e (-if e < g then e else g) = scaled t k g (-if e < g then e else g) then 0 else 1 := rfl
      rw [hcmp]
      split
      · omega
      · split <;> omega

variable {f : Fmt} {a b : Nat}

theorem Fmt.compare_ordered (h : (f.decode a).Ordered (f.decode b) lt eq) :
    f.compare 0 a b = (eq, 0) ∧ f.compare 1 a b = (lt, 0) ∧ f.compare 2 a b = (lt || eq, 0) ∧ f.compare 3 a b = (false, 0) := by
  obtain ⟨hA, hB, hlt, heq⟩ := cmpVal_of_ordered h
  have hle : decide (cmpVal (f.decode a) (f.decode b) ≤ 0) = (lt || eq) := by
    rw [Bool.eq_iff_iff, decide_eq_true_eq, le_iff_lt_or_eq, hlt, heq, Bool.or_eq_true]
  have hlt' : decide (cmpVal (f.decode a) (f.decode b) < 0) = lt := by rw [Bool.eq_iff_iff, decide_eq_true_eq, hlt]
  have heq' : (cmpVal (f.decode a) (f.decode b) == 0) = eq := by rw [Bool.eq_iff_iff, beq_iff_eq, heq]
  have hsig : sigFlag [f.decode a, f.decode b] = 0 := by
    simp [sigFlag, Val.isSig_of_not_nan hA, Val.isSig_of_not_nan hB]
  simp only [Fmt.compare, hA, hB, hle, hlt', heq', hsig]
  exact ⟨rfl, rfl, rfl, rfl⟩

theorem Fmt.compare_nan (h : ((f.decode a).isNan || (f.decode b).isNan) = true) :
    let sig : BitVec 5 := if (f.decode a).isSig || (f.decode b).isSig then 16 else 0
    f.compare 0 a b = (false, sig) ∧ f.compare 1 a b = (false, 16) ∧ f.compare 2 a b = (false, 16) ∧
      f.compare 3 a b = (true, sig) := by
  simp [Fmt.compare, h, sigFlag, xNV]

theorem Fmt.minmax_ordered (h : (f.decode a).Ordered (f.decode b) lt eq) (prop : Bool) :
    f.minmax false prop a b = ⟨if lt || (eq && (f.decode a).sign) then a else b, 0, false⟩ ∧
    f.minmax true prop a b = ⟨if lt || (eq && (f.decode a).sign) then b else a, 0, false⟩ := by
  obtain ⟨hA, hB, hlt, heq⟩ := cmpVal_of_ordered h
  have hless : (cmpVal (f.decode a) (f.decode b) < 0 || (cmpVal (f.decode a) (f.decode b) = 0 && (f.decode a).sign)) =
      (lt || (eq && (f.decode a).sign)) := by
    rw [Bool.eq_iff_iff]
    simp [hlt, heq]
  simp only [Fmt.minmax, hA, hB, hless, Bool.or_self, Bool.and_self, Bool.and_false, Bool.false_eq_true, if_false]
  generalize (lt || (eq && (f.decode a).sign)) = w
  cases w <;> exact ⟨rfl, rfl⟩

/-- One NaN, and the other operand delivered (R113). -/
theorem Fmt.minmax_nan_left (isMax : Bool) (hA : (f.decode a).isNan = true) (hB : (f.decode b).isNan = false) :
    f.minmax isMax false a b = ⟨b, if (f.decode a).isSig || (f.decode b).isSig then 16 else 0, false⟩ := by
  simp [Fmt.minmax, hA, hB, sigFlag, xNV]

theorem Fmt.minmax_nan_right (isMax : Bool) (hA : (f.decode a).isNan = false) (hB : (f.decode b).isNan = true) :
    f.minmax isMax false a b = ⟨a, if (f.decode a).isSig || (f.decode b).isSig then 16 else 0, false⟩ := by
  simp [Fmt.minmax, hA, hB, sigFlag, xNV]

/-- The first NaN delivered: both are NaNs, or the operation propagates them (R113). -/
theorem Fmt.minmax_propagates (isMax prop : Bool) {s : Bool} {fr : Nat} {g : Bool}
    (h : [f.decode a, f.decode b].find? Val.isNan = some (.nan s fr g))
    (hp : ((f.decode a).isNan && (f.decode b).isNan || prop) = true) :
    f.minmax isMax prop a b = ⟨f.quiet s fr, if (f.decode a).isSig || (f.decode b).isSig then 16 else 0, false⟩ := by
  have hor : ((f.decode a).isNan || (f.decode b).isNan) = true := by
    rw [Bool.or_eq_true]
    have := List.find?_some h
    rcases List.mem_pair.1 (List.mem_of_find?_eq_some h) with h' | h' <;> rw [← h']
    · exact .inl rfl
    · exact .inr rfl
  have hcond : ((f.decode a).isNan && (f.decode b).isNan || (prop && ((f.decode a).isNan || (f.decode b).isNan))) = true := by
    rw [hor, Bool.and_true]
    exact hp
  simp only [Fmt.minmax]
  rw [if_pos hcond, Fmt.propagate_some h]
  simp [sigFlag, xNV]

/-! ### Classification and sign injection (Table 5.2, R116) -/

theorem Fmt.classify_eq (f : Fmt) (a : Nat) :
    (f.decode a = .inf true → f.classify a = 2 ^ 0) ∧ (f.decode a = .inf false → f.classify a = 2 ^ 7) ∧
    (∀ s fr, f.decode a = .nan s fr true → f.classify a = 2 ^ 8) ∧
    (∀ s fr, f.decode a = .nan s fr false → f.classify a = 2 ^ 9) ∧
    (∀ s m e, f.decode a = .fin s m e → f.classify a =
      2 ^ (if m = 0 then (if s then 3 else 4) else if m < 2 ^ f.fb then (if s then 2 else 5) else if s then 1 else 6)) := by
  refine ⟨fun h => ?_, fun h => ?_, fun s fr h => ?_, fun s fr h => ?_, fun s m e h => ?_⟩
  · simp only [Fmt.classify, h]
  · simp only [Fmt.classify, h]
  · simp only [Fmt.classify, h]
  · simp only [Fmt.classify, h]
  · simp only [Fmt.classify, h]
    by_cases hm : m = 0
    · rw [if_pos hm, if_pos hm]
    · rw [if_neg hm, if_neg hm, Fmt.isSub_of_fin h hm]
      simp only [decide_eq_true_eq]

theorem b2n_testBit (a i : Nat) : b2n (a.testBit i) = a / 2 ^ i % 2 := by
  rw [b2n, Nat.testBit_eq_decide_div_mod_eq]
  have := Nat.mod_lt (a / 2 ^ i) two_pos
  split <;> simp_all

theorem Fmt.signInject_eq (f : Fmt) (a b : Nat) :
    f.signInject 0 a b = a % 2 ^ (f.width - 1) + b / 2 ^ (f.width - 1) % 2 * 2 ^ (f.width - 1) ∧
    f.signInject 1 a b = a % 2 ^ (f.width - 1) + (1 - b / 2 ^ (f.width - 1) % 2) * 2 ^ (f.width - 1) ∧
    f.signInject 2 a b =
      a % 2 ^ (f.width - 1) + (a / 2 ^ (f.width - 1) + b / 2 ^ (f.width - 1)) % 2 * 2 ^ (f.width - 1) := by
  have hnot (t : Bool) : b2n (!t) = 1 - b2n t := by cases t <;> rfl
  have hxor (t u : Bool) : b2n (t != u) = (b2n t + b2n u) % 2 := by cases t <;> cases u <;> rfl
  simp only [Fmt.signInject, Fmt.signed, bits_zero, hnot, hxor, b2n_testBit, Nat.add_mod_mod, Nat.mod_add_mod, and_self]

end

/-! ### Fused operations on special operands (R45, R117) -/

theorem Val.not_nan_of_zeroInf {a b : Val} (h : a.zeroInf b = true) : a.isNan = false ∧ b.isNan = false := by
  cases a <;> cases b <;> simp_all [Val.zeroInf]

section
variable {f : Fmt} {mode a b c : Nat} {s : Bool} {fr : Nat} {g : Bool} (np nc : Bool)

theorem Fmt.fma_nan (h : [f.decode a, f.decode b, f.decode c].find? Val.isNan = some (.nan s fr g)) :
    f.fma mode np nc a b c = ⟨f.quiet s fr,
      if [f.decode a, f.decode b, f.decode c].any Val.isSig || (f.decode a).zeroInf (f.decode b) then 16 else 0, false⟩ := by
  refine (Fmt.fused_of_nan h).trans ?_
  simp only [List.any_cons, List.any_nil, Val.zeroInf_ite_neg, Bool.or_false]

theorem Fmt.fma_nan_first (hA : f.decode a = .nan s fr g) : f.fma mode np nc a b c =
    ⟨f.quiet s fr, if g || (f.decode b).isSig || (f.decode c).isSig then 16 else 0, false⟩ := by
  rw [Fmt.fma_nan (s := s) (fr := fr) (g := g) np nc (by rw [hA]; rfl), hA, Val.zeroInf_nan_left]
  simp [or_assoc]

theorem Fmt.fma_nan_second (hA : (f.decode a).isNan = false) (hB : f.decode b = .nan s fr g) : f.fma mode np nc a b c =
    ⟨f.quiet s fr, if g || (f.decode c).isSig then 16 else 0, false⟩ := by
  rw [Fmt.fma_nan (s := s) (fr := fr) (g := g) np nc (by simp [hA, hB]), hB, Val.zeroInf_nan_right]
  simp [Val.isSig_of_not_nan hA]

theorem Fmt.fma_nan_third (hA : (f.decode a).isNan = false) (hB : (f.decode b).isNan = false) (hC : f.decode c = .nan s fr g) :
    f.fma mode np nc a b c = ⟨f.quiet s fr, if g || (f.decode a).zeroInf (f.decode b) then 16 else 0, false⟩ := by
  rw [Fmt.fma_nan (s := s) (fr := fr) (g := g) np nc (by simp [hA, hB, hC]), hC]
  simp [Val.isSig_of_not_nan hA, Val.isSig_of_not_nan hB]

theorem Fmt.fma_zeroInf (hC : (f.decode c).isNan = false) (hz : (f.decode a).zeroInf (f.decode b) = true) :
    f.fma mode np nc a b c = ⟨f.dnan, 16, false⟩ := by
  obtain ⟨hA, hB⟩ := Val.not_nan_of_zeroInf hz
  exact Fmt.fused_invalid (by simp [hA, hB, hC]) (by simp [hz])

theorem Fmt.fma_inf {sa sb sc : Bool} {m : Nat} {e : Int} (hA : f.decode a = .inf sa) (hB : f.decode b = .fin sb m e)
    (hm : m ≠ 0) (hC : f.decode c = .inf sc) : f.fma mode np nc a b c =
      if ((sa != sb) != np) = (sc != nc) then ⟨f.inf (sc != nc), 0, false⟩ else ⟨f.dnan, 16, false⟩ := by
  have hnan : [f.decode a, f.decode b, f.decode c].find? Val.isNan = none := by rw [hA, hB, hC]; rfl
  have hp : (if np then (f.decode a).neg else f.decode a) = .inf (sa != np) := by
    rw [hA]
    cases np <;> simp [Val.neg]
  have hd : (if nc then (f.decode c).neg else f.decode c) = .inf (sc != nc) := by
    rw [hC]
    cases nc <;> simp [Val.neg]
  have hsign : ((sa != np) != sb) = ((sa != sb) != np) := by cases sa <;> cases sb <;> cases np <;> rfl
  have hterms : infTerms [(if np then (f.decode a).neg else f.decode a, f.decode b)]
      [if nc then (f.decode c).neg else f.decode c] = [(sa != sb) != np, sc != nc] := by
    rw [hp, hd, hB, ← hsign]
    simp [infTerms, mulInf, addInf, hm, Val.sign]
  split
  · next h =>
    rw [h] at hterms
    exact Fmt.fused_inf (l := [sc != nc]) hnan (by rw [hp, hB]; simp [Val.zeroInf, hm]) hterms (by simp)
  · next h =>
    refine Fmt.fused_invalid hnan ?_
    rw [hterms]
    generalize ((sa != sb) != np) = t at h
    generalize (sc != nc) = u at h
    cases t <;> cases u <;> simp_all

end

/-! ### Conversions (R51 to R53) -/

section
variable {f : Fmt} {mode : Nat} {sat s : Bool} {m : Nat} {e n : Int}

/-- The saturating formats are the two of eight bits (Table 2.5). -/
theorem sat_eq_of_mem (hf : f ∈ [f64, f32, f16, bf16, e4m3, e5m2]) :
    (sat && f.width == 8) = (sat && (f.e4m3 || f == e5m2)) := by
  simp only [List.mem_cons, List.not_mem_nil, or_false] at hf
  rcases hf with rfl | rfl | rfl | rfl | rfl | rfl <;> cases sat <;> decide

theorem convert_rounds (hf : f ∈ [f64, f32, f16, bf16, e4m3, e5m2]) (hn : 1 ≤ f.qmin + n) (he : 0 ≤ e + n) (hm : m ≠ 0) :
    f.RoundsOnce mode s (sat && (f.e4m3 || f == e5m2)) n (fun t => Ord.compare t (2 * (m * 2 ^ (e + n).toNat)))
      (f.convert mode sat (.fin s m e)) := by
  rw [← sat_eq_of_mem hf]
  exact Fmt.roundTo_roundsOnce (properFormat hf) hm he hn mode s _

theorem convert_int_rounds (hf : f ∈ [f64, f32, f16, bf16, e4m3, e5m2]) {i : Int} (hn : 1 ≤ f.qmin + n) (hn' : 0 ≤ n)
    (hi : i ≠ 0) :
    f.RoundsOnce mode (decide (i < 0)) (sat && (f.e4m3 || f == e5m2)) n
      (fun t => Ord.compare t (2 * (i.natAbs * 2 ^ n.toNat))) (f.convert mode sat (.ofInt i)) := by
  have h := convert_rounds (mode := mode) (sat := sat) (s := decide (i < 0)) (e := 0) hf hn (by omega)
    (Int.natAbs_ne_zero.2 hi)
  rwa [zero_add] at h

theorem convert_special {fr : Nat} {g : Bool} :
    f.convert mode sat (.fin s 0 e) = ⟨f.signed s 0, 0, false⟩ ∧ f.convert mode sat (.ofInt 0) = ⟨0, 0, false⟩ ∧
    f.convert mode sat (.nan s fr g) = ⟨f.quiet s fr, if g then 16 else 0, false⟩ ∧
    f.convert mode sat (.inf s) =
      if f.e4m3 then ⟨f.signed s (if sat then 0x7E else 0x7F), 16, false⟩ else ⟨f.inf s, 0, false⟩ := by
  refine ⟨rfl, ?_, rfl, ?_⟩
  · simp [Fmt.convert, Val.ofInt, Fmt.roundTo, Fmt.signed, b2n]
  · cases h : f.e4m3
    · simp [Fmt.convert, h]
    · cases sat <;> simp [Fmt.convert, h, Fmt.inf, Fmt.largest, xNV]

end

section
variable {m k : Nat} {e : Int}

/-- Rounding to an integer, in whole numbers (R40, R52). -/
theorem roundAt_zero (he : 0 ≤ e + k) {x : Nat} (hx : x = m * 2 ^ (e + k).toNat) (mode : Nat) (s : Bool) :
    roundAt mode s m e 0 = if x % 2 ^ k = 0 then (x / 2 ^ k, false)
      else (if roundsUp mode s (x / 2 ^ k % 2 == 1) (Ord.compare ((2 * (x / 2 ^ k) + 1) * 2 ^ k) (2 * x)) then x / 2 ^ k + 1
        else x / 2 ^ k, true) := by
  have hp : (0 : ℝ) < 2 ^ k := by positivity
  have hpn : 0 < 2 ^ k := Nat.two_pow_pos k
  have hy : (m : ℝ) * 2 ^ e / 2 ^ (0 : Int) = (x : ℝ) / 2 ^ k := by
    rw [zpow_zero, div_one, eq_div_iff hp.ne', hx, Nat.cast_mul, Nat.cast_pow, Nat.cast_ofNat, ← zpow_natCast (2 : ℝ) (e + k).toNat,
      Int.toNat_of_nonneg he, zpow_add₀ two_ne_zero, zpow_natCast, mul_assoc]
  have hlo : ((x / 2 ^ k : Nat) : ℝ) ≤ (x : ℝ) / 2 ^ k := by exact_mod_cast Nat.cast_div_le (α := ℝ) (m := x) (n := 2 ^ k)
  have hhi : (x : ℝ) / 2 ^ k < ((x / 2 ^ k : Nat) : ℝ) + 1 := by
    rw [div_lt_iff₀ hp, mul_comm _ ((2 : ℝ) ^ k)]
    exact_mod_cast Nat.lt_mul_div_succ x hpn
  have hexact : (x : ℝ) / 2 ^ k = ((x / 2 ^ k : Nat) : ℝ) ↔ x % 2 ^ k = 0 := by
    rw [div_eq_iff hp.ne', ← Nat.dvd_iff_mod_eq_zero]
    constructor
    · intro h
      have h' : x = x / 2 ^ k * 2 ^ k := by exact_mod_cast h
      exact ⟨x / 2 ^ k, by rwa [Nat.mul_comm (2 ^ k)]⟩
    · intro h
      exact_mod_cast (Nat.div_mul_cancel h).symm
  have hmid : cmp (((x / 2 ^ k : Nat) : ℝ) + 1 / 2) ((x : ℝ) / 2 ^ k) =
      Ord.compare ((2 * (x / 2 ^ k) + 1) * 2 ^ k) (2 * x) := by
    rw [← cmp_eq_compare, ← Nat.strictMono_cast.cmp_map_eq (β := ℝ), ← cmp_mul_pos_right (mul_pos two_pos hp)]
    congr 1
    · push_cast
      ring
    · rw [Nat.cast_mul, Nat.cast_ofNat]
      field_simp
  rw [roundAt_eq (x := m * 2 ^ e) (.inl rfl) mode s (by rw [hy]; exact hlo) (by rw [hy]; exact hhi), hy, roundedReal, hmid]
  exact if_congr hexact rfl rfl

/-- A conversion of a finite value to an integer: v is the value rounded (R52). -/
theorem toInt_fin (w : Nat) (sgn s : Bool) (mode : Nat) {v : Int} {p : Nat × Bool}
    (hp : roundAt mode s m e 0 = p) (hv : v = if s then -(p.1 : Int) else p.1) :
    let hi : Int := if sgn then 2 ^ (w - 1) - 1 else 2 ^ w - 1
    let lo : Int := if sgn then -2 ^ (w - 1) else 0
    (hi < v → toInt w sgn mode (.fin s m e) = (hi, 16)) ∧
    (v < lo → ¬ hi < v → toInt w sgn mode (.fin s m e) = (lo, 16)) ∧
    (lo ≤ v → v ≤ hi → toInt w sgn mode (.fin s m e) = (v, if p.2 then 1 else 0)) := by
  intro hi lo
  have h : toInt w sgn mode (.fin s m e) =
      if v > hi then (hi, xNV) else if v < lo then (lo, xNV) else (v, if p.2 then xNX else 0) := by
    rw [hv, ← hp]
    rfl
  rw [h]
  exact ⟨fun h1 => if_pos h1, fun h1 h2 => (if_neg h2).trans (if_pos h1),
    fun h1 h2 => (if_neg (not_lt.2 h2)).trans (if_neg (not_lt.2 h1))⟩

end

/-- Settles O20: the special operands by the NaN and infinity rules of a fused operation, of division and of the square root; the
finite ones by rounding the exact sum, product, quotient or root once. -/
theorem floatSpecialOperands : Obligations.FloatSpecialOperands := by
  have six {f : Fmt} (hf : f ∈ [f64, f32, f16, bf16]) : f ∈ [f64, f32, f16, bf16, e4m3, e5m2] := by
    simp only [List.mem_cons, List.not_mem_nil, or_false] at hf ⊢
    tauto
  have hfb {f : Fmt} (hf : f ∈ [f64, f32, f16, bf16]) : f.fb ≤ 52 := by
    simp only [List.mem_cons, List.not_mem_nil, or_false] at hf
    rcases hf with rfl | rfl | rfl | rfl <;> decide
  refine ⟨fun f hf mode a b sa sb ma ea eb => ?_, fun f hf mode a b c sa sb sc ma mb mc ea eb ec n _ hA hB hC hn => ?_,
    fun f hf a b lt eq => ?_, fun f hf mode sat s g m fr e n i _ => ?_, fun w sgn s mode m k fr g e _ he => ?_⟩
  · refine ⟨fun fr g => Fmt.binary_nan_left, fun fr g => Fmt.binary_nan_right, Fmt.binary_infinite, fun hA hB => ?_,
      fun hA hB => ?_, fun hA hB => Fmt.div_fin hA hB, fun hA hB hm => (Fmt.div_fin hA hB).trans (if_neg hm),
      Fmt.sqrt_neg, fun hA hB => ?_, fun fr g => Fmt.sqrt_nan,
      Fmt.sqrt_inf_neg, fun np nc c sc => ⟨fun fr g => Fmt.fma_nan_first np nc,
        fun fr g => Fmt.fma_nan_second np nc, fun fr g => Fmt.fma_nan_third np nc, Fmt.fma_zeroInf np nc, Fmt.fma_inf np nc⟩⟩
    · exact Fmt.mul_zeroInf (by rw [hA, hB]; rfl) (by rw [hA, hB]; rfl)
    · exact Fmt.mul_zeroInf (by rw [hA, hB]; rfl) (by rw [hA, hB]; rfl)
    · rw [Fmt.div_eq (by rw [hA, hB]; rfl), hA, hB]
  · have hp := properFormat (six hf)
    refine ⟨fun ha hb => ⟨(Fmt.add_fin hp hA hB hn ha hb).pair, (Fmt.sub_fin hp hA hB hn ha hb).pair⟩,
      fun he hm => (Fmt.mul_fin hp hA hB hn he).single.1 hm, Fmt.mul_zero hp hA hB,
      fun he hma hmb => Fmt.div_rounds hp hA hB hn he hma hmb, fun hma hmb => ?_, fun he hma hsa => ?_, fun hma => ?_,
      fun np nc he hc => (Fmt.fma_fin hp hA hB hC np nc hn he hc).pair⟩
    · rw [Fmt.div_fin hA hB, if_neg hmb, if_pos hma]
    · subst hsa
      exact Fmt.sqrt_rounds hp (hfb hf) hA hma hn he
    · subst hma
      exact Fmt.sqrt_zero hA
  · refine ⟨Fmt.compare_nan, fun h => ?_, fun isMax => ?_, ?_⟩
    · obtain ⟨h0, h1, h2, h3⟩ := Fmt.compare_ordered h
      exact ⟨h0, h1, h2, h3, Fmt.minmax_ordered h⟩
    · exact ⟨Fmt.minmax_nan_left isMax, Fmt.minmax_nan_right isMax,
        fun s fr g hA hB => Fmt.minmax_propagates isMax false (s := s) (fr := fr) (g := g) (by rw [hA]; rfl) (by rw [hA, hB]; rfl),
        fun s fr g hA => Fmt.minmax_propagates isMax true (s := s) (fr := fr) (g := g) (by rw [hA]; rfl) (Bool.or_true _),
        fun s fr g hA hB => Fmt.minmax_propagates isMax true (s := s) (fr := fr) (g := g) (by simp [hA, hB]) (Bool.or_true _)⟩
    · obtain ⟨h0, h1, h2, h3, h4⟩ := f.classify_eq a
      exact ⟨h0, h1, h2, h3, h4, f.signInject_eq a b⟩
  · exact ⟨convert_rounds hf, convert_int_rounds hf, convert_special⟩
  · refine ⟨fun v ⟨hup, hdown⟩ => ?_, rfl, rfl⟩
    have hround := roundAt_zero (m := m) he rfl mode s
    by_cases hx : m * 2 ^ (e + k).toNat % 2 ^ k = 0
    · rw [if_pos hx] at hround
      obtain ⟨h1, h2, h3⟩ := toInt_fin w sgn s mode hround (hdown fun h => h.1 hx)
      exact ⟨h1, h2, fun hl hh => ⟨fun _ => h3 hl hh, fun h => absurd hx h⟩⟩
    · rw [if_neg hx] at hround
      generalize roundsUp mode s _ _ = u at hround hup hdown
      obtain ⟨h1, h2, h3⟩ := toInt_fin w sgn s mode (v := v) hround (by
        cases u
        · exact hdown fun h => Bool.false_ne_true h.2
        · exact hup ⟨hx, rfl⟩)
      exact ⟨h1, h2, fun hl hh => ⟨fun h => absurd h hx, fun _ => h3 hl hh⟩⟩

end Sys2Proof.Machine
end

section
/-! SUPPORT. Vector reductions (R47, R55, R56, R127): how an operation with exceptions ends, the pairwise tree, the first level of the
dot product, and the integer reductions. -/

namespace Sys2Proof.Machine

/-! ### Operations and their exceptions (R46, R47) -/

section
variable {s : State} {o : Out} {k : State → State} {src dst vec : List Reg} {l : List W} {len lane turns : Nat}
  {g : List W → State → Res State} {f : BitVec 5}

theorem State.fpDone_ok (h : f &&& s.ctx.enables = 0) :
    s.fpDone f lane turns k = .ok (((k s).orFlags s.cur.core s.cur.ctx f).forfeits turns) :=
  if_neg fun hne => bne_iff_ne.1 hne h

theorem State.fpDone_trap (h : f &&& s.ctx.enables ≠ 0) : s.fpDone f lane turns k = .trap (fpTrap f lane turns) :=
  if_pos (bne_iff_ne.2 h)

/-- An issue that ends in `fpDone`: by the exceptions raised. -/
theorem State.issue_fpDone (h : s.operands src dst vec = .ok l) (hg : g l s = s.fpDone f lane turns k) :
    (f &&& s.ctx.enables = 0 → s.issue len src dst vec g =
      .next ((((k s).orFlags s.cur.core s.cur.ctx f).forfeits turns).done len src)) ∧
    (f &&& s.ctx.enables ≠ 0 → s.issue len src dst vec g = .next (s.trap (fpTrap f lane turns))) :=
  ⟨fun hf => State.issue_ok h (hg.trans (State.fpDone_ok hf)), fun hf => State.issue_trap h (hg.trans (State.fpDone_trap hf))⟩

end

/-- An enabled exception in a union is raised by a member. -/
theorem exists_of_foldl_or {α : Type} (l : List α) (g : α → BitVec 5) {e : BitVec 5}
    (h : l.foldl (fun f x => f ||| g x) 0 &&& e ≠ 0) : ∃ x, l.find? (fun x => g x &&& e != 0) = some x := by
  by_contra hn
  have hnone : l.find? (fun x => g x &&& e != 0) = none := by
    cases hx : l.find? (fun x => g x &&& e != 0) with
    | none => rfl
    | some x => exact absurd ⟨x, hx⟩ hn
  rw [List.find?_eq_none] at hnone
  have hfold (l : List α) (a : BitVec 5) (ha : a &&& e = 0) (hl : ∀ x ∈ l, g x &&& e = 0) :
      l.foldl (fun f x => f ||| g x) a &&& e = 0 := by
    induction l generalizing a with
    | nil => exact ha
    | cons x l ih =>
      refine ih _ ?_ fun y hy => hl y (by simp [hy])
      have hor : (a ||| g x) &&& e = (a &&& e) ||| (g x &&& e) := by
        ext i
        simp [Bool.and_or_distrib_right]
      rw [hor, ha, hl x (by simp)]
      rfl
  exact h (hfold l 0 (by simp) fun x hx => by simpa using hnone x hx)

/-- How a reduction to a scalar ends: v is the tree's value and `ops` its operations (R47, R127). -/
def State.ReductionEnds (s : State) (o : Out) (d : Reg) (v : Nat) (ops : List TreeOp) (slow : Bool) : Prop :=
  let f := ops.foldl (fun f o => f ||| o.f) 0
  let turns := if slow then 4 else 0
  (f &&& s.ctx.enables = 0 →
    o = .next ((((s.setG d (BitVec.ofNat 64 v)).orFlags s.cur.core s.cur.ctx f).forfeits turns).done 4 [])) ∧
  (f &&& s.ctx.enables ≠ 0 → ∃ q, ops.find? (fun q => q.f &&& s.ctx.enables != 0) = some q ∧
    o = .next (s.trap { cause := 0x07, lane := q.lane, exc := f, turns := turns }))

theorem State.redDone_ends {s : State} {d : Reg} {vec : List Reg} {g : List W → State → Res State} {v : Nat}
    {ops : List TreeOp} {slow : Bool} (h : s.operands [] [d] vec = .ok []) (hg : g [] s = s.redDone d v ops slow) :
    s.ReductionEnds (s.issue 4 [] [d] vec g) d v ops slow := by
  unfold State.ReductionEnds
  intro f turns
  have hf : orAll ((ops.map fun o => (o.lane, o.f)).map fun p => p.2) = f := by
    rw [orAll, List.map_map, List.foldl_map]
    rfl
  have hd : s.redDone d v ops slow = s.fpDone f ((((ops.map fun o => (o.lane, o.f)).find?
      fun p => p.2 &&& s.ctx.enables != 0).map fun p => p.1).getD 0) turns fun t => t.setG d (BitVec.ofNat 64 v) := by
    rw [State.redDone, State.vecDone, hf]
    rfl
  obtain ⟨hok, htrap⟩ := State.issue_fpDone (len := 4) h (hg.trans hd)
  refine ⟨hok, fun hne => ?_⟩
  obtain ⟨o, ho⟩ := exists_of_foldl_or ops (fun o => o.f) hne
  refine ⟨o, ho, (htrap hne).trans ?_⟩
  have hfind : (ops.map fun o => (o.lane, o.f)).find? (fun p => p.2 &&& s.ctx.enables != 0) = some (o.lane, o.f) := by
    rw [List.find?_map, Function.comp_def, ho]
    rfl
  rw [hfind]
  rfl

/-! ### Trees (R55, R56) -/

theorem range_two_mul_succ (k : Nat) : List.range (2 * (k + 1)) = 0 :: 1 :: (List.range (2 * k)).map (· + 2) := by
  rw [show 2 * (k + 1) = 2 * k + 1 + 1 by ring, List.range_succ_eq_map, List.range_succ_eq_map, List.map_cons, List.map_map]
  rfl

section
variable {op : Nat → Nat → FRes}

/-- The first pair of a level, and the rest. -/
theorem pairUp_cons_cons (x y : Leaf) (l : List Leaf) :
    pairUp op (x :: y :: l) =
      let r := pairUp op l
      match x, y with
      | some (i, a), some (_, b) =>
        (some (i, (op a b).v) :: r.1, ⟨i, (op a b).f⟩ :: r.2.1, (op a b).slow || r.2.2)
      | some t, none => (some t :: r.1, r.2.1, r.2.2)
      | none, u => (u :: r.1, r.2.1, r.2.2) := by
  have hlen : ((x :: y :: l).length + 1) / 2 = (l.length + 1) / 2 + 1 := by simp; omega
  have hget (j : Nat) : (x :: y :: l).getD (2 * (j + 1)) none = l.getD (2 * j) none := by
    rw [show 2 * (j + 1) = 2 * j + 1 + 1 by ring]
    simp
  have hget' (j : Nat) : (x :: y :: l).getD (2 * (j + 1) + 1) none = l.getD (2 * j + 1) none := by
    rw [show 2 * (j + 1) + 1 = 2 * j + 1 + 1 + 1 by ring]
    simp
  rw [pairUp, pairUp, hlen, List.range_succ_eq_map]
  simp only [List.map_cons, List.filterMap_cons, List.map_map, List.filterMap_map, Function.comp_def, hget, hget',
    Nat.succ_eq_add_one]
  rcases x with _ | ⟨i, a⟩ <;> rcases y with _ | ⟨j, b⟩ <;> simp

theorem pairUp_singleton (x : Leaf) : pairUp op [x] = ([x], [], false) := by
  rcases x with _ | ⟨i, a⟩ <;> simp [pairUp]

/-- The model's level is the level of the statement. -/
theorem treeLevel_eq : ∀ l : List Leaf, treeLevel op l = pairUp op l
  | [] => rfl
  | [x] => (pairUp_singleton x).symm
  | x :: y :: l => by
    rw [pairUp_cons_cons, ← treeLevel_eq l]
    rcases x with _ | ⟨i, a⟩ <;> rcases y with _ | ⟨j, b⟩ <;> rfl

theorem length_pairUp (l : List Leaf) : (pairUp op l).1.length = (l.length + 1) / 2 := by simp [pairUp]

/-- What a tree of one term gives. -/
def firstTerm : List Leaf → Option Nat
  | some (_, v) :: _ => some v
  | _ => none

theorem treeRun_zero (l : List Leaf) : treeRun op 0 l = (firstTerm l, [], false) := by
  rcases l with _ | ⟨_ | ⟨i, v⟩, l⟩ <;> rfl

theorem treeRun_of_le_one {n : Nat} {l : List Leaf} (h : l.length ≤ 1) : treeRun op (n + 1) l = (firstTerm l, [], false) :=
  (if_pos h).trans (treeRun_zero (op := op) l)

theorem treeRun_of_two_le {n : Nat} {l : List Leaf} (h2 : 2 ≤ l.length) :
    treeRun op (n + 1) l =
      ((treeRun op n (pairUp op l).1).1, (pairUp op l).2.1 ++ (treeRun op n (pairUp op l).1).2.1,
        (pairUp op l).2.2 || (treeRun op n (pairUp op l).1).2.2) := by
  rw [← treeLevel_eq]
  exact if_neg (by omega)

/-- Enough fuel: more changes nothing. -/
theorem treeRun_succ {n : Nat} {l : List Leaf} (h : l.length ≤ 2 ^ n) : treeRun op (n + 1) l = treeRun op n l := by
  induction n generalizing l with
  | zero => rw [treeRun_of_le_one h, treeRun_zero]
  | succ n ih =>
    by_cases h1 : l.length ≤ 1
    · rw [treeRun_of_le_one h1, treeRun_of_le_one h1]
    · have hlen : (pairUp op l).1.length ≤ 2 ^ n := by
        rw [length_pairUp]
        rw [pow_succ] at h
        omega
      rw [treeRun_of_two_le (n := n + 1) (l := l) (by omega), treeRun_of_two_le (n := n) (l := l) (by omega), ih hlen]

/-- A tree of two terms or more is its first level and the tree above it. -/
theorem tree_of_two_le {l : List Leaf} (h : l.length ≤ 2 ^ 16) (h2 : 2 ≤ l.length) :
    tree op l = ((tree op (pairUp op l).1).1, (pairUp op l).2.1 ++ (tree op (pairUp op l).1).2.1,
      (pairUp op l).2.2 || (tree op (pairUp op l).1).2.2) := by
  have hlen : (pairUp op l).1.length ≤ 2 ^ 15 := by
    rw [length_pairUp]
    omega
  rw [tree, tree, treeRun_of_two_le h2, ← treeRun_succ hlen]

end

/-! ### The first level of the dot product (R127) -/

/-- A pair of lanes, by which of them are present: two exact products added and rounded once, or the product of the one. -/
def Fmt.dotPair (f : Fmt) (mode : Nat) (p0 p1 : Bool) (a0 b0 a1 b1 : Nat) : FRes :=
  if p0 && p1 then
    f.fused mode [f.decode a0, f.decode a1, f.decode b0, f.decode b1]
      [(f.decode a0, f.decode b0), (f.decode a1, f.decode b1)] []
  else if p0 then f.mul mode a0 b0 else f.mul mode a1 b1

section
variable {f : Fmt} {mode : Nat}

/-- The pairs of lanes 2i and 2i+1, with lanes a and b, where `on` tells the lanes present. -/
def Fmt.dotAt (f : Fmt) (mode : Nat) (on : Nat → Bool) (a b : Nat → Nat) (i : Nat) : FRes :=
  f.dotPair mode (on (2 * i)) (on (2 * i + 1)) (a (2 * i)) (b (2 * i)) (a (2 * i + 1)) (b (2 * i + 1))

theorem dotLevel_cons_cons (q : W) (i a b j c e : Nat) (l : List (Nat × Nat × Nat)) :
    dotLevel f mode q ((i, a, b) :: (j, c, e) :: l) =
      let r := dotLevel f mode q l
      let v := f.dotPair mode (active q f.width i) (active q f.width j) a b c e
      (if active q f.width i then (some (i, v.v) :: r.1, ⟨i, v.f⟩ :: r.2.1, v.slow || r.2.2)
        else if active q f.width j then (some (j, v.v) :: r.1, ⟨j, v.f⟩ :: r.2.1, v.slow || r.2.2)
        else (none :: r.1, r.2.1, r.2.2)) := by
  rw [dotLevel]
  cases active q f.width i <;> cases active q f.width j <;> rfl

theorem dotLevel_eq (q : W) (k : Nat) (lane a b : Nat → Nat) :
    let on := fun i => active q f.width (lane i)
    let pair := f.dotAt mode on a b
    dotLevel f mode q ((List.range (2 * k)).map fun j => (lane j, a j, b j)) =
      ((List.range k).map fun i =>
          if on (2 * i) then some (lane (2 * i), (pair i).v)
          else if on (2 * i + 1) then some (lane (2 * i + 1), (pair i).v) else none,
        ((List.range k).filter fun i => on (2 * i) || on (2 * i + 1)).map fun i =>
          ⟨if on (2 * i) then lane (2 * i) else lane (2 * i + 1), (pair i).f⟩,
        (List.range k).any fun i => (on (2 * i) || on (2 * i + 1)) && (pair i).slow) := by
  induction k generalizing lane a b with
  | zero => rfl
  | succ k ih =>
    have ih' := ih (fun j => lane (j + 2)) (fun j => a (j + 2)) (fun j => b (j + 2))
    have h2 (i : Nat) : 2 * (i + 1) = 2 * i + 2 := by ring
    have h3 (i : Nat) : 2 * i + 2 + 1 = 2 * i + 1 + 2 := by ring
    rw [range_two_mul_succ, List.map_cons, List.map_cons, List.map_map, dotLevel_cons_cons]
    simp only [Function.comp_def, List.range_succ_eq_map, List.map_cons, List.map_map, List.filter_cons, List.filter_map,
      List.any_cons, List.any_map, Nat.succ_eq_add_one, h2, h3, Nat.mul_zero, Nat.zero_add, Fmt.dotAt] at ih' ⊢
    rw [ih']
    cases h0 : active q f.width (lane 0) <;> cases h1 : active q f.width (lane 1) <;> simp [Function.comp_def, h0, h1, h2, h3]

end

theorem mulInf_eq {a b : Val} (ha : a.isNan = false) (hb : b.isNan = false) (hz : a.zeroInf b = false) :
    mulInf a b = if a.isInf || b.isInf then some (a.sign != b.sign) else none := by
  cases a <;> cases b <;> simp_all [mulInf, Val.zeroInf]

section
variable {f : Fmt} {mode a0 b0 a1 b1 : Nat}

/-- The NaN and infinity rules of two products added (R44, R45). -/
theorem Fmt.dotPair_nan {s : Bool} {fr : Nat} {g : Bool}
    (h : [f.decode a0, f.decode a1, f.decode b0, f.decode b1].find? Val.isNan = some (.nan s fr g)) :
    f.dotPair mode true true a0 b0 a1 b1 = ⟨f.quiet s fr,
      if (f.decode a0).zeroInf (f.decode b0) || (f.decode a1).zeroInf (f.decode b1) ||
        [f.decode a0, f.decode a1, f.decode b0, f.decode b1].any Val.isSig then 16 else 0, false⟩ := by
  refine (Fmt.fused_of_nan h).trans ?_
  rw [Bool.or_comm]
  simp only [List.any_cons, List.any_nil, Bool.or_false]

section
variable (hn : [f.decode a0, f.decode a1, f.decode b0, f.decode b1].find? Val.isNan = none)
include hn

theorem Fmt.dotPair_zeroInf (hz : ((f.decode a0).zeroInf (f.decode b0) || (f.decode a1).zeroInf (f.decode b1)) = true) :
    f.dotPair mode true true a0 b0 a1 b1 = ⟨f.dnan, 16, false⟩ := by
  refine Fmt.fused_invalid hn ?_
  simp only [List.any_cons, List.any_nil, Bool.or_false, hz, Bool.true_or]

/-- The infinite products. -/
theorem Fmt.dotPair_infTerms (hz0 : (f.decode a0).zeroInf (f.decode b0) = false) (hz1 : (f.decode a1).zeroInf (f.decode b1) = false) :
    infTerms [(f.decode a0, f.decode b0), (f.decode a1, f.decode b1)] [] =
      (if (f.decode a0).isInf || (f.decode b0).isInf then [(f.decode a0).sign != (f.decode b0).sign] else []) ++
      (if (f.decode a1).isInf || (f.decode b1).isInf then [(f.decode a1).sign != (f.decode b1).sign] else []) := by
  simp only [List.find?_eq_none, List.mem_cons, List.not_mem_nil, or_false, forall_eq_or_imp, forall_eq, Bool.not_eq_true] at hn
  obtain ⟨ha0, ha1, hb0, hb1⟩ := hn
  rw [infTerms, List.filterMap_nil, List.append_nil, List.filterMap_cons, List.filterMap_cons, List.filterMap_nil]
  simp only [mulInf_eq ha0 hb0 hz0, mulInf_eq ha1 hb1 hz1]
  cases (f.decode a0).isInf || (f.decode b0).isInf <;> cases (f.decode a1).isInf || (f.decode b1).isInf <;> rfl

/-- Infinite products, none of them of zero and infinity. -/
theorem Fmt.dotPair_inf (hz : ((f.decode a0).zeroInf (f.decode b0) || (f.decode a1).zeroInf (f.decode b1)) = false) :
    let inf0 := (f.decode a0).isInf || (f.decode b0).isInf
    let inf1 := (f.decode a1).isInf || (f.decode b1).isInf
    let s0 := (f.decode a0).sign != (f.decode b0).sign
    let s1 := (f.decode a1).sign != (f.decode b1).sign
    (inf0 = true → inf1 = true → s0 ≠ s1 → f.dotPair mode true true a0 b0 a1 b1 = ⟨f.dnan, 16, false⟩) ∧
    (inf0 = true → (inf1 = true → s0 = s1) → f.dotPair mode true true a0 b0 a1 b1 = ⟨f.inf s0, 0, false⟩) ∧
    (inf0 = false → inf1 = true → f.dotPair mode true true a0 b0 a1 b1 = ⟨f.inf s1, 0, false⟩) := by
  intro inf0 inf1 s0 s1
  have hz' : [(f.decode a0, f.decode b0), (f.decode a1, f.decode b1)].any (fun p => p.1.zeroInf p.2) = false := by
    simpa using hz
  rw [Bool.or_eq_false_iff] at hz
  have hterms : infTerms [(f.decode a0, f.decode b0), (f.decode a1, f.decode b1)] [] =
      (if inf0 then [s0] else []) ++ (if inf1 then [s1] else []) := Fmt.dotPair_infTerms hn hz.1 hz.2
  refine ⟨fun h0 h1 hs => ?_, fun h0 h1 => ?_, fun h0 h1 => ?_⟩
  · refine Fmt.fused_invalid hn ?_
    rw [hterms, h0, h1]
    generalize s0 = t at hs
    generalize s1 = u at hs
    cases t <;> cases u <;> simp_all
  · refine Fmt.fused_inf (l := if inf1 then [s1] else []) hn hz' (by rw [hterms, h0]; rfl) fun t ht => ?_
    split at ht
    · next h => rw [List.mem_singleton.1 ht, h1 h]
    · simp at ht
  · exact Fmt.fused_inf (l := []) hn hz' (by rw [hterms, h0, h1]; rfl) (by simp)

end

/-- Finite lanes: the exact sum of two exact products, rounded once. -/
theorem Fmt.dotPair_fin (hf : f.Proper) {sa sb sc sd : Bool} {ma mb mc md : Nat} {ea eb ec ed n : Int}
    (h0 : f.decode a0 = .fin sa ma ea) (h1 : f.decode b0 = .fin sb mb eb) (h2 : f.decode a1 = .fin sc mc ec)
    (h3 : f.decode b1 = .fin sd md ed) (hn : 1 ≤ f.qmin + n) (he0 : 0 ≤ ea + eb + n) (he1 : 0 ≤ ec + ed + n) :
    f.SumRounds mode n [(sa != sb, scaled (sa != sb) (ma * mb) (ea + eb) n),
      (sc != sd, scaled (sc != sd) (mc * md) (ec + ed) n)] (f.dotPair mode true true a0 b0 a1 b1) := by
  have h : f.dotPair mode true true a0 b0 a1 b1 =
      f.roundTerm mode (exactSum mode [(sa != sb, ma * mb, ea + eb), (sc != sd, mc * md, ec + ed)]) := by
    refine (Fmt.fused_finite (by rw [h0, h1, h2, h3]; rfl) ?_ ?_).trans ?_
    · rw [h0, h1, h2, h3]
      simp [Val.zeroInf]
    · rw [h0, h1, h2, h3]
      rfl
    · rw [h0, h1, h2, h3]
      rfl
  exact Fmt.sumRounds_of_eq hf hn h (by simp) (by simp [he0, he1])

end

/-! ### Reductions of integer lanes (R127) -/

section
variable {s : State} {l m : BitVec 2} {d a : Reg}

/-- The present lanes, as signed numbers. -/
def State.present (s : State) (m : BitVec 2) (w : Nat) (a : Reg) : List Int :=
  ((List.range (1024 / w)).filter (s.laneOn m w)).map fun i =>
    if laneAt w (s.ctx.rv a) i < 2 ^ (w - 1) then (laneAt w (s.ctx.rv a) i : Int) else laneAt w (s.ctx.rv a) i - 2 ^ w

/-- The result of an integer reduction. -/
def reduceInt (op : Int → Int → Int) : List Int → Int
  | [] => 0
  | x :: l => l.foldl op x

theorem State.vecRedI_gives {o : Out} {op : Int → Int → Int} (ho : o = s.vecRedI l m d a op)
    (h : s.operands [] [d] [a] = .ok []) :
    o = .next (s.doneG 4 [] d (BitVec.ofInt 64 (sL (laneW l) (bitsOf (laneW l) (reduceInt op (s.present m (laneW l) a)))))) := by
  refine ho.trans (State.issue_ok h ?_)
  have hxs : ((indexed (lanesOf (laneW l) (s.ctx.rv a))).filterMap fun p =>
      if active (s.ctx.rq m) (laneW l) p.1 then some (intOf (laneW l) true p.2) else none) = s.present m (laneW l) a := by
    rw [lanesOf_eq, indexed_map_range, List.filterMap_map, State.present, ← filterMap_ite]
    refine List.filterMap_congr fun i hi => ?_
    rw [Function.comp_apply, active_rq s m (maskable_laneW l) (List.mem_range.1 hi)]
    exact if_congr Iff.rfl (congrArg some (sL_eq (laneAt_lt _ _ _))) rfl
  dsimp only
  rw [hxs]
  cases s.present m (laneW l) a <;> rfl

/-- A signed lane value comes back from its bits. -/
theorem sL_bitsOf {w : Nat} {x : Int} (hlo : -2 ^ (w - 1) ≤ x) (hhi : x < 2 ^ (w - 1)) (hw : 1 ≤ w) : sL w (bitsOf w x) = x := by
  have hp : (0 : Int) < 2 ^ w := by positivity
  have hlt : bitsOf w x < 2 ^ w := by
    have := Int.emod_lt_of_pos x hp
    rw [bitsOf]
    zify
    rwa [Int.toNat_of_nonneg (Int.emod_nonneg x hp.ne')]
  have hpow : (2 : Int) ^ w = 2 * 2 ^ (w - 1) := by rw [← pow_succ']; congr 1; omega
  rw [sL_eq hlt]
  by_cases hx : 0 ≤ x
  · have hb : bitsOf w x = x.toNat := by rw [bitsOf, Int.emod_eq_of_lt hx (by omega)]
    have : x.toNat < 2 ^ (w - 1) := by zify; omega
    rw [hb, if_pos this]
    omega
  · have hb : bitsOf w x = (x + 2 ^ w).toNat := by
      rw [bitsOf, ← Int.add_emod_right, Int.emod_eq_of_lt (by omega) (by omega)]
    have hge : ¬ (x + 2 ^ w).toNat < 2 ^ (w - 1) := by zify; omega
    rw [hb, if_neg hge]
    omega

theorem State.present_range {w : Nat} (hw : 1 ≤ w) : ∀ x ∈ s.present m w a, -2 ^ (w - 1) ≤ x ∧ x < 2 ^ (w - 1) := by
  intro x hx
  obtain ⟨i, -, rfl⟩ := List.mem_map.1 hx
  have hlt : (laneAt w (s.ctx.rv a) i : Int) < 2 ^ w := by exact_mod_cast laneAt_lt w (s.ctx.rv a) i
  have hpow : (2 : Int) ^ w = 2 * 2 ^ (w - 1) := by rw [← pow_succ']; congr 1; omega
  have hp : (0 : Int) < 2 ^ (w - 1) := by positivity
  split
  · next h =>
    have : (laneAt w (s.ctx.rv a) i : Int) < 2 ^ (w - 1) := by exact_mod_cast h
    omega
  · next h =>
    have : (2 : Int) ^ (w - 1) ≤ laneAt w (s.ctx.rv a) i := by exact_mod_cast not_lt.1 h
    omega

theorem reduceInt_sum (l : List Int) : reduceInt (fun x y => x + y) l = l.sum := by
  cases l with
  | nil => rfl
  | cons x l =>
    rw [reduceInt, List.sum_cons]
    induction l generalizing x with
    | nil => simp
    | cons y l ih => rw [List.foldl_cons, ih, List.sum_cons, add_assoc]

/-- A reduction by a choice between two delivers a member that every member relates to. -/
theorem reduceInt_choice {op : Int → Int → Int} {le : Int → Int → Prop} (hrefl : ∀ x, le x x)
    (htrans : ∀ x y z, le x y → le y z → le x z) (hop : ∀ x y, (op x y = x ∨ op x y = y) ∧ le (op x y) x ∧ le (op x y) y)
    {l : List Int} (h : l ≠ []) : reduceInt op l ∈ l ∧ ∀ x ∈ l, le (reduceInt op l) x := by
  cases l with
  | nil => exact absurd rfl h
  | cons x l =>
    rw [reduceInt]
    clear h
    induction l generalizing x with
    | nil => simp [hrefl]
    | cons y l ih =>
      obtain ⟨hmem, hle⟩ := ih (op x y)
      obtain ⟨hxy, hx, hy⟩ := hop x y
      rw [List.foldl_cons]
      refine ⟨?_, fun z hz => ?_⟩
      · rcases List.mem_cons.1 hmem with h | h
        · rw [h]
          rcases hxy with h' | h' <;> rw [h'] <;> simp
        · exact List.mem_cons_of_mem _ (List.mem_cons_of_mem _ h)
      · have htop := hle (op x y) (by simp)
        rcases List.mem_cons.1 hz with rfl | hz
        · exact htrans _ _ _ htop hx
        rcases List.mem_cons.1 hz with rfl | hz
        · exact htrans _ _ _ htop hy
        · exact hle z (by simp [hz])

end

/-! ### Reductions of floating-point lanes -/

theorem leaves_lanesOf (s : State) (m : BitVec 2) {w : Nat} (hw : maskable w) (x : V) :
    leaves (s.ctx.rq m) w (lanesOf w x) =
      (List.range (1024 / w)).map fun j => if s.laneOn m w j then some (j, laneAt w x j) else none := by
  rw [leaves, lanesOf_eq, indexed_map_range, List.map_map]
  exact range_map_congr fun i hi => by rw [Function.comp_apply, active_rq s m hw hi]

section
variable {s : State} {l m : BitVec 2} {d a b : Reg}

theorem State.vecRedF_ends {o : Out} {op : Fmt → Nat → Nat → Nat → FRes} {F : Fmt} {on : Nat → Bool} {A : Nat → Nat}
    {r : Nat × List TreeOp × Bool} (ho : o = s.vecRedF l m d a op) (h : s.operands [] [d] [a] = .ok [])
    (hFe : fpFmt l.toNat = F) (hon : s.laneOn m F.width = on) (hA : laneAt F.width (s.ctx.rv a) = A)
    (hr : tree (op F (s.ctx.fst.extractLsb' 5 3).toNat)
      ((List.range (1024 / F.width)).map fun j => if on j then some (j, A j) else none) = r) :
    s.ReductionEnds o d r.1 r.2.1 (r.2.2 || (List.range (1024 / F.width)).any fun j => on j && F.isSub (A j)) := by
  have hF := maskable_fpFmt l
  rw [hFe] at hF
  have hsub : ((indexed (lanesOf F.width (s.ctx.rv a))).any fun p => active (s.ctx.rq m) F.width p.1 && F.isSub p.2) =
      (List.range (1024 / F.width)).any fun j => on j && F.isSub (A j) := by
    rw [lanesOf_eq, indexed_map_range, List.any_map]
    exact range_any_congr fun i hi => by rw [Function.comp_apply, active_rq s m hF hi, hon, hA]
  rw [ho]
  refine State.redDone_ends h ?_
  dsimp only
  rw [hFe, leaves_lanesOf s m hF, hsub, hon, hA]
  have hr' : tree (op F (rmOf s.ctx.fst 7))
    ((List.range (1024 / F.width)).map fun j => if on j then some (j, A j) else none) = r := hr
  rw [hr']

theorem State.vdot_ends {F : Fmt} {mode : Nat} {on : Nat → Bool} {A B : Nat → Nat} {first : List Leaf × List TreeOp × Bool}
    {r : Nat × List TreeOp × Bool} (h : s.operands [] [d] [a, b] = .ok [])
    (hFe : fpFmt l.toNat = F) (hmode : (s.ctx.fst.extractLsb' 5 3).toNat = mode) (hon : s.laneOn m F.width = on)
    (hA : laneAt F.width (s.ctx.rv a) = A) (hB : laneAt F.width (s.ctx.rv b) = B)
    (hfirst : dotLevel F mode (s.ctx.rq m) ((List.range (1024 / F.width)).map fun j => (j, A j, B j)) = first)
    (hr : tree (F.add mode) first.1 = r) :
    s.ReductionEnds (execVdot d a b m l s) d r.1 (first.2.1 ++ r.2.1) (first.2.2 || r.2.2 ||
      (List.range (1024 / F.width)).any fun j => on j && (F.isSub (A j) || F.isSub (B j))) := by
  have hF := maskable_fpFmt l
  rw [hFe] at hF
  have hrows : indexed ((lanesOf F.width (s.ctx.rv a)).zip (lanesOf F.width (s.ctx.rv b))) =
      (List.range (1024 / F.width)).map fun j => (j, A j, B j) := by
    rw [lanesOf_eq, lanesOf_eq, List.zip_map', indexed_map_range, hA, hB]
  have hsub : (((List.range (1024 / F.width)).map fun j => (j, A j, B j)).any fun p =>
      active (s.ctx.rq m) F.width p.1 && (F.isSub p.2.1 || F.isSub p.2.2)) =
      (List.range (1024 / F.width)).any fun j => on j && (F.isSub (A j) || F.isSub (B j)) := by
    rw [List.any_map]
    exact range_any_congr fun i hi => by rw [Function.comp_apply, active_rq s m hF hi, hon]
  have hmode' : rmOf s.ctx.fst 7 = mode := hmode
  refine State.redDone_ends h ?_
  dsimp only
  rw [hFe, hrows, hsub, hmode', hfirst, hr]

/-- The first level of the dot product over the lanes of a register. -/
theorem dotLevel_lanes (s : State) (m : BitVec 2) (F : Fmt) (mode : Nat) (hw : maskable F.width)
    (heven : 1024 / F.width = 2 * (512 / F.width)) (A B : Nat → Nat) :
    let on := s.laneOn m F.width
    let pair := F.dotAt mode on A B
    let first := dotLevel F mode (s.ctx.rq m) ((List.range (1024 / F.width)).map fun j => (j, A j, B j))
    first.1 = (List.range (512 / F.width)).map (fun i =>
      if on (2 * i) then some (2 * i, (pair i).v) else if on (2 * i + 1) then some (2 * i + 1, (pair i).v) else none) ∧
    first.2.1 = ((List.range (512 / F.width)).filter fun i => on (2 * i) || on (2 * i + 1)).map (fun i =>
      ⟨if on (2 * i) then 2 * i else 2 * i + 1, (pair i).f⟩) ∧
    (first.2.2 = true ↔ ∃ i < 512 / F.width, (on (2 * i) || on (2 * i + 1)) = true ∧ (pair i).slow = true) := by
  intro on pair first
  have hon0 {i : Nat} (hi : i < 512 / F.width) : active (s.ctx.rq m) F.width (2 * i) = on (2 * i) :=
    active_rq s m hw (by omega)
  have hon1 {i : Nat} (hi : i < 512 / F.width) : active (s.ctx.rq m) F.width (2 * i + 1) = on (2 * i + 1) :=
    active_rq s m hw (by omega)
  have hpair {i : Nat} (hi : i < 512 / F.width) :
      F.dotAt mode (fun i => active (s.ctx.rq m) F.width i) A B i = pair i := by
    simp only [pair, Fmt.dotAt, hon0 hi, hon1 hi]
  have hfirst := dotLevel_eq (f := F) (mode := mode) (s.ctx.rq m) (512 / F.width) (fun j => j) A B
  rw [← heven] at hfirst
  refine ⟨(congrArg Prod.fst hfirst).trans ?_, (congrArg (fun p => p.2.1) hfirst).trans ?_, ?_⟩
  · exact range_map_congr fun i hi => by simp only [hon0 hi, hon1 hi, hpair hi]
  · have hfilter : ((List.range (512 / F.width)).filter fun i =>
        active (s.ctx.rq m) F.width (2 * i) || active (s.ctx.rq m) F.width (2 * i + 1)) =
        (List.range (512 / F.width)).filter fun i => on (2 * i) || on (2 * i + 1) :=
      List.filter_congr fun i hi => by rw [hon0 (List.mem_range.1 hi), hon1 (List.mem_range.1 hi)]
    dsimp only
    rw [hfilter]
    refine List.map_congr_left fun i hi => ?_
    have hi' := List.mem_range.1 (List.mem_filter.1 hi).1
    simp only [hon0 hi', hpair hi']
  · have hslow : first.2.2 = (List.range (512 / F.width)).any fun i => (on (2 * i) || on (2 * i + 1)) && (pair i).slow :=
      (congrArg (fun p => p.2.2) hfirst).trans (range_any_congr fun i hi => by simp only [hon0 hi, hon1 hi, hpair hi])
    rw [hslow]
    simp

end

/-- Settles O25: the present lanes reduced in order; the tree level by level; the pairs of the dot product. -/
theorem vectorReductions : Obligations.VectorReductions := by
  unfold Obligations.VectorReductions
  intro s d a b m l ha hab w sgn here F mode enabled on A B lanes ends reduces integer
  have hw1 : 1 ≤ w := by
    have : ∀ l : BitVec 2, 1 ≤ laneW l := by decide
    exact this l
  have heven : 1024 / F.width = 2 * (512 / F.width) := by
    have : ∀ l : BitVec 2, 1024 / (fpFmt l.toNat).width = 2 * (512 / (fpFmt l.toNat).width) := by decide
    exact this l
  have hproper : F.Proper := by
    have : ∀ l : BitVec 2, fpFmt l.toNat ∈ [f64, f32, f16, bf16, e4m3, e5m2] := by decide
    exact properFormat (this l)
  have hrange := s.present_range (m := m) (a := a) hw1
  have hmin {o : Out} {op : Int → Int → Int} (ho : o = s.vecRedI l m d a op) {x : Int} (hx : reduceInt op here = x)
      (hmem : x ∈ here) : o = .next (s.doneG 4 [] d (BitVec.ofInt 64 x)) := by
    have h := State.vecRedI_gives ho ha
    obtain ⟨hlo, hhi⟩ := hrange x hmem
    rw [show s.present m (laneW l) a = here from rfl, hx] at h
    exact h.trans (by rw [sL_bitsOf (w := laneW l) hlo hhi hw1])
  have hnone {o : Out} {op : Int → Int → Int} (ho : o = s.vecRedI l m d a op) (h0 : here = []) :
      o = .next (s.doneG 4 [] d (BitVec.ofInt 64 0)) := by
    have h := State.vecRedI_gives ho ha
    rw [show s.present m (laneW l) a = here from rfl, h0] at h
    exact h.trans (by rw [reduceInt, sL_bitsOf (w := laneW l) (by simp) (by positivity) hw1])
  refine ⟨?_, fun h => ?_, fun h => ?_, fun h => ⟨hnone exec_vredminInt h, hnone exec_vredmaxInt h⟩,
    State.vecRedF_ends exec_vredsumFp ha rfl rfl rfl rfl, State.vecRedF_ends exec_vredminFp ha rfl rfl rfl rfl,
    State.vecRedF_ends exec_vredmaxFp ha rfl rfl rfl rfl, State.vdot_ends hab rfl rfl rfl rfl rfl rfl rfl, fun op terms hlen => ⟨rfl, rfl, fun _ _ => rfl, tree_of_two_le hlen⟩, ?_⟩
  · have hlt : (here.sum % 2 ^ w).toNat < 2 ^ w := by
      have hp : (0 : Int) < 2 ^ w := by positivity
      have := Int.emod_lt_of_pos here.sum hp
      zify
      rwa [Int.toNat_of_nonneg (Int.emod_nonneg _ hp.ne')]
    have h := State.vecRedI_gives (exec_vredsumInt (m := m) (l := l)) ha
    rw [reduceInt_sum, sL_eq (show bitsOf (laneW l) (s.present m (laneW l) a).sum < 2 ^ laneW l from hlt)] at h
    exact h
  · obtain ⟨hmem, hle⟩ := reduceInt_choice (op := fun x y => if x ≤ y then x else y) (le := (· ≤ ·)) le_refl
      (fun _ _ _ => le_trans) (fun x y => by split <;> omega) h
    exact ⟨_, hmem, hle, hmin exec_vredminInt rfl hmem⟩
  · obtain ⟨hmem, hle⟩ := reduceInt_choice (op := fun x y => if x ≤ y then y else x) (le := (· ≥ ·)) le_refl
      (fun _ _ _ => ge_trans) (fun x y => by split <;> omega) h
    exact ⟨_, hmem, hle, hmin exec_vredmaxInt rfl hmem⟩
  · obtain ⟨h1, h2, h3⟩ := dotLevel_lanes s m F mode (maskable_fpFmt l) heven A B
    refine ⟨F.dotAt mode on A B, h1, h2, h3, fun i _ => ⟨fun h0 h1 => ?_, fun h0 h1 => ?_, fun h0 h1 => ?_⟩⟩
    · rw [Fmt.dotAt, h0, h1]
      rfl
    · rw [Fmt.dotAt, h0, h1]
      rfl
    · rw [Fmt.dotAt, h0, h1]
      exact ⟨fun sn fr g => Fmt.dotPair_nan, fun hn => ⟨Fmt.dotPair_zeroInf hn, Fmt.dotPair_inf hn⟩,
        fun sa sb sc sd ma mb mc md ea eb ec ed n e0 e1 e2 e3 hn he0 he1 _ =>
          Fmt.dotPair_fin hproper e0 e1 e2 e3 hn he0 he1⟩

end Sys2Proof.Machine
end

section
/-! SUPPORT. Scalar floating-point instructions (R46, R49, R50, R110, R112): how each ends by the exceptions that it raises. -/

namespace Sys2Proof.Machine

theorem rmOf_toNat (fst : BitVec 13) (rm : BitVec 3) :
    rmOf fst rm.toNat = if rm = 7 then (fst.extractLsb' 5 3).toNat else rm.toNat :=
  if_congr (by rw [← BitVec.toNat_inj]; rfl) rfl rfl

/-- How a scalar floating-point instruction ends, by the exceptions f that it raises; `written` is the state with its result (R46, R49). -/
def State.FpEnds (s : State) (o : Out) (src : List Reg) (turns : Nat) (f : BitVec 5) (written : State) : Prop :=
  (f &&& s.ctx.enables = 0 → o = .next (((written.orFlags s.cur.core s.cur.ctx f).forfeits turns).done 4 src)) ∧
  (f &&& s.ctx.enables ≠ 0 → o = .next (s.trap { cause := 0x07, exc := f, turns := turns }))

section
variable {s : State} {o : Out} {F : Fmt} {src : List Reg} {l : List W} {args : List Nat}

theorem State.fpDone_ends {g : List W → State → Res State} {dst : List Reg} {f : BitVec 5} {turns : Nat} {k : State → State}
    (ho : o = s.issue 4 src dst [] g) (h : s.operands src dst [] = .ok l) (hg : g l s = s.fpDone f 0 turns k) :
    s.FpEnds o src turns f (k s) := by
  rw [ho]
  exact State.issue_fpDone h hg

theorem State.fpG_ends {d : Reg} {turns : Nat} {op : List Nat → FRes} {r : FRes} (ho : o = s.fpG F d src turns op)
    (h : s.operands src [d] [] = .ok l) (hr : op (l.map F.arg) = r) :
    s.FpEnds o src (turns + if r.slow || (l.map F.arg).any F.isSub then 2 else 0) r.f (s.setG d (BitVec.ofNat 64 r.v)) := by
  refine State.fpDone_ends (k := fun t => t.setG d (BitVec.ofNat 64 r.v)) ho h ?_
  dsimp only
  rw [hr]
  rfl

theorem State.fpP_ends {p : BitVec 3} {a b : Reg} {op : Nat} {x y : W} {r : Bool × BitVec 5} (ho : o = s.fpP F op p a b)
    (h : s.operands [a, b] [] [] = .ok [x, y]) (hr : F.compare op (F.arg x) (F.arg y) = r) :
    s.FpEnds o [a, b] (if [F.arg x, F.arg y].any F.isSub then 2 else 0) r.2 (s.setP p r.1) := by
  refine State.fpDone_ends (k := fun t => t.setP p r.1) ho h ?_
  have hr' : F.compare op (nthD 0 ([x, y].map F.arg) 0) (nthD 0 ([x, y].map F.arg) 1) = r := hr
  dsimp only
  rw [hr']
  rfl

theorem execFcvt_ends {d a : Reg} {t u : BitVec 4} {sat : BitVec 1} {rm : BitVec 3} {x : W} {c : W × BitVec 5 × Bool}
    (h : s.operands [a] [d] [] = .ok [x]) (hc : fcvtOp (rmOf s.ctx.fst rm.toNat) (sat == 1) t.toNat u.toNat x = c) :
    s.FpEnds (execFcvt d a t u sat rm s) [a] (if c.2.2 then 2 else 0) c.2.1 (s.setG d c.1) := by
  refine State.fpDone_ends (k := fun v => v.setG d c.1) rfl h ?_
  have hc' : fcvtOp (rmOf s.ctx.fst rm.toNat) (sat == 1) t.toNat u.toNat (nthD 0 [x] 0) = c := hc
  dsimp only
  rw [hc']
  rfl

end

/-- Settles O21: each instruction is `State.fpG` or `State.fpP` on its operation (fcvt writes a word of its own), and ends as they do. -/
theorem scalarFloatResults : Obligations.ScalarFloatResults := by
  unfold Obligations.ScalarFloatResults
  intro s d a b p rm fc t u sat x y z mode enabled ends gives F X Y Z G
  have hm : rmOf s.ctx.fst rm.toNat = mode := rmOf_toNat _ _
  have plain {i : Instr} {src : List Reg} {F : Fmt} {turns : Nat} {l : List W} {op : List Nat → FRes}
      (ho : exec i s = s.fpG F d src turns op) (h : s.operands src [d] [] = .ok l) :
      gives i src F turns (l.map F.arg) (op (l.map F.arg)) := State.fpG_ends ho h rfl
  have rounded {i : Instr} {src : List Reg} {F : Fmt} {turns : Nat} {l : List W} (op : Nat → List Nat → FRes)
      (ho : exec i s = s.fpG F d src turns (op (rmOf s.ctx.fst rm.toNat))) (h : s.operands src [d] [] = .ok l) :
      gives i src F turns (l.map F.arg) (op mode (l.map F.arg)) := by
    rw [hm] at ho
    exact plain ho h
  clear_value gives
  refine ⟨fun h => ⟨?_, ?_, ?_, ?_, ?_, ?_, ?_, ?_, ?_, ?_, ?_⟩, fun h => ⟨?_, ?_, ?_, ?_⟩,
    fun h => ⟨?_, ?_, ?_, ?_⟩, fun h => ⟨?_, ?_, ?_, ?_⟩⟩
  · exact rounded (fun m l => F.add m (nthD 0 l 0) (nthD 0 l 1)) exec_fadd h
  · exact rounded (fun m l => F.sub m (nthD 0 l 0) (nthD 0 l 1)) exec_fsub h
  · exact rounded (fun m l => F.mul m (nthD 0 l 0) (nthD 0 l 1)) exec_fmul h
  · exact rounded (fun m l => F.div m (nthD 0 l 0) (nthD 0 l 1)) exec_fdiv h
  · exact plain exec_fmin h
  · exact plain exec_fmax h
  · exact plain exec_fminp h
  · exact plain exec_fmaxp h
  · exact plain exec_fsgnj h
  · exact plain exec_fsgnjn h
  · exact plain exec_fsgnjx h
  · exact rounded (fun m l => F.sqrt m (nthD 0 l 0)) exec_fsqrt h
  · exact plain exec_fclass h
  · exact rounded (fun m l => G.roundInt m (nthD 0 l 0)) exec_fround h
  · exact execFcvt_ends h (congrArg (fcvtOp · (sat == 1) t.toNat u.toNat x) hm)
  · exact rounded (fun m l => F.fma m false false (nthD 0 l 0) (nthD 0 l 1) (nthD 0 l 2)) exec_fmadd h
  · exact rounded (fun m l => F.fma m false true (nthD 0 l 0) (nthD 0 l 1) (nthD 0 l 2)) exec_fmsub h
  · exact rounded (fun m l => F.fma m true false (nthD 0 l 0) (nthD 0 l 1) (nthD 0 l 2)) exec_fnmadd h
  · exact rounded (fun m l => F.fma m true true (nthD 0 l 0) (nthD 0 l 1) (nthD 0 l 2)) exec_fnmsub h
  · exact State.fpP_ends exec_feq h rfl
  · exact State.fpP_ends exec_flt h rfl
  · exact State.fpP_ends exec_fle h rfl
  · exact State.fpP_ends exec_funord h rfl

end Sys2Proof.Machine
end

section
/-! SUPPORT. Words of the encoding tables (R66, R67, R71). -/

namespace Sys2Proof.Machine

/-- Settles O56: the decoder, run on each word. -/
theorem wordsFromTheEncodingTables : Obligations.WordsFromTheEncodingTables := by
  unfold Obligations.WordsFromTheEncodingTables
  decide +kernel

end Sys2Proof.Machine
end

section
/-! SUPPORT. Copies (R38, R39, R251 to R265) and the instructions that wait for them (R152, R260, R278). -/

namespace Sys2Proof.Machine

/-! ### The shadow set and the launch (R251 to R254, R265) -/

section
variable {s : State} {d a n : Reg} {x : W}

/-- The numbers of the shadow set that name no register (Table 11.1). -/
theorem noShadow_iff : (n = 6 || n = 7 || n.toNat ≥ 24) = true ↔ ¬ (n ≠ 6 ∧ n ≠ 7 ∧ n.toNat < 24) := by
  simp only [ge_iff_le, Bool.or_eq_true, decide_eq_true_eq, ← not_lt]
  tauto

theorem execCpwr_ok (h : s.operands [a] [] [] = .ok [x]) (hn : n ≠ 6 ∧ n ≠ 7 ∧ n.toNat < 24) :
    execCpwr a n s = .next ((s.mapCtx fun c => { c with shadow := c.shadow.set n.toNat x }).done 4 [a]) := by
  refine State.issue_ok h ?_
  rw [if_neg fun hi => noShadow_iff.1 hi hn]
  rfl

theorem execCpwr_illegal (h : s.operands [a] [] [] = .ok [x]) (hn : ¬ (n ≠ 6 ∧ n ≠ 7 ∧ n.toNat < 24)) :
    execCpwr a n s = .next (s.trap illOpnd) := by
  refine State.issue_trap h ?_
  rw [if_pos (noShadow_iff.2 hn)]

theorem execCprd_ok (h : s.operands [] [d] [] = .ok []) (hn : n ≠ 6 ∧ n ≠ 7 ∧ n.toNat < 24) :
    execCprd d n s = .next (s.doneG 4 [] d s.ctx.shadow[n.toNat]) := by
  refine State.issue_ok h ?_
  rw [if_neg (by rintro rfl; simp at hn), if_neg fun hi => noShadow_iff.1 hi hn]

theorem execCprd_cbm (h : s.operands [] [d] [] = .ok []) : execCprd d 31 s = .next (s.doneG 4 [] d s.me.cbm) :=
  State.issue_ok h (if_pos rfl)

theorem execCprd_illegal (h : s.operands [] [d] [] = .ok []) (hn : ¬ (n ≠ 6 ∧ n ≠ 7 ∧ n.toNat < 24)) (h31 : n ≠ 31) :
    execCprd d n s = .next (s.trap illOpnd) := by
  refine State.issue_trap h ?_
  rw [if_neg h31, if_pos (noShadow_iff.2 hn)]

end

/-- The descriptor of a copy that the issuing context launches now. -/
def State.copyDesc (s : State) : CopyDesc :=
  let l := s.ctx.shadow.toList
  ⟨s.cur.core, s.cur.ctx, s.ctx.nextOp, s.me.xid + 1, shTag l, s.ctx.pc, s.cur.insn, rmOf s.ctx.fst (wf (shCtl l) 50 3), l⟩

/-- What a launch records at the owner's core: the XID, the tag's bits and the copy owned (R253, R259). -/
def Core.takesCopy (x : Core) (d : CopyDesc) (ep : Option EpId) : Core :=
  { x with
    xid := d.xid, cbm := x.cbm &&& ~~~(1#64 <<< d.tag.toNat), chunks := x.chunks.set d.tag.toNat (emptyChunks d.shadow)
    owned := x.owned ++ [⟨d.tag, d.xid, d.ctx, d.op, if shAdd d.shadow then some ((shadowReg d.shadow 3).truncate 32) else none, ep⟩] }

/-- The state after the issuing context has launched a copy: its core's record, and the operation. -/
def State.copyLaunched (s : State) (ep : Option EpId) : State :=
  (s.mapMe fun x => x.takesCopy s.copyDesc ep).mapCtx fun c => c.launch .copy false ep

section
variable {s : State} {d : Reg} {ep : Option EpId} {k : CopyDesc → State → State}

theorem State.launchCopy_illegal (h : launchOk s.ctx.shadow.toList = false) : s.launchCopy d ep k = .trap illOpnd := by
  simp [State.launchCopy, h]

theorem State.launchCopy_tagInUse (h : launchOk s.ctx.shadow.toList = true)
    (hf : ¬ ∀ o ∈ s.me.owned, o.tag ≠ shTag s.ctx.shadow.toList) :
    s.launchCopy d ep k = .trap { illOpnd with detail := (shTag s.ctx.shadow.toList).toNat } := by
  have hany : (s.me.owned.any fun o => o.tag == shTag s.ctx.shadow.toList) = true := by simpa using hf
  simp [State.launchCopy, h, hany]

theorem State.launchCopy_ok (h : launchOk s.ctx.shadow.toList = true)
    (hf : ∀ o ∈ s.me.owned, o.tag ≠ shTag s.ctx.shadow.toList) (hr : s.ctx.count .copy < 65535) :
    s.launchCopy d ep k = .ok ((k s.copyDesc (s.copyLaunched ep)).setG d ((s.me.xid + 1).zeroExtend 64)) := by
  have hany : (s.me.owned.any fun o => o.tag == shTag s.ctx.shadow.toList) = false := by simpa using hf
  simp only [State.launchCopy, h, hany, (State.roomFor_some hr).classRoom, Res.bind]
  rfl

@[simp] theorem State.copyLaunched_me :
    (s.copyLaunched ep).me = (s.me.takesCopy s.copyDesc ep).mapCtx s.cur.ctx fun c => c.launch .copy false ep := by
  rw [State.copyLaunched, State.mapCtx_me, State.mapMe_me]
  rfl

theorem State.copyLaunched_ctx : (s.copyLaunched ep).ctx = s.ctx.launch .copy false ep := by
  show (s.copyLaunched ep).me.ctx s.cur.ctx = _
  rw [State.copyLaunched_me, Core.mapCtx_ctx]
  rfl

theorem execCpgo_ok (hops : s.operands [] [d] [] = .ok []) (h : launchOk s.ctx.shadow.toList = true)
    (hf : ∀ o ∈ s.me.owned, o.tag ≠ shTag s.ctx.shadow.toList) (hr : s.ctx.count .copy < 65535) :
    execCpgo d s = .next (((s.copyLaunched none).mapMe fun x =>
      { x with copies := x.copies ++ [newCopy s.copyDesc none] }).doneG 4 [] d ((s.me.xid + 1).zeroExtend 64)) :=
  State.issue_ok hops (State.launchCopy_ok h hf hr)

/-- The request for a copy of a remote engine, sent on COPY endpoint e. -/
def State.copyAsked (s : State) (e : EpId) : State :=
  let t := s.copyLaunched (some e)
  (t.mapEp e Endpoint.addReq).sendCore t.cur.core (peerDest (t.ep e).phw (t.ep e).paddr) false 256
    (.copyReq e (t.ep e).gen s.copyDesc)

theorem execCpgoRemote_ok {e : EpId} (hops : s.operands [] [d] [] = .ok []) (hu : s.Usable e 3 0)
    (h : launchOk s.ctx.shadow.toList = true) (hf : ∀ o ∈ s.me.owned, o.tag ≠ shTag s.ctx.shadow.toList)
    (hr : s.ctx.count .copy < 65535) :
    execCpgoRemote d e s = .next ((s.copyAsked e).doneG 4 [] d ((s.me.xid + 1).zeroExtend 64)) := by
  refine (State.onEp_holds hops rfl hu.holds).trans (State.issue_ok hops ?_)
  simp only [hu.mayUse, hu.underBound, Res.bind]
  exact State.launchCopy_ok h hf hr

theorem State.copyLaunched_ep (e : EpId) : (s.copyLaunched ep).ep e = s.ep e := by
  rw [State.ep, State.copyLaunched_me]
  rfl

theorem State.copyAsked_spec (s : State) (e : EpId) :
    let t := s.copyAsked e
    t.mem = s.mem ∧ t.me.copies = s.me.copies ∧ (t.ep e).state = (s.ep e).state + 1 ∧
      (∃ q ∈ t.net, q.body = .copyReq e (s.ep e).gen s.copyDesc) ∧ t.ctx.g = s.ctx.g ∧ t.ctx.v = s.ctx.v := by
  intro t
  have hme : t.me = ((s.copyLaunched (some e)).me).mapEp e Endpoint.addReq := by
    show ((s.copyLaunched (some e)).mapMe fun x => x.mapEp e Endpoint.addReq).me = _
    rw [State.mapMe_me]
  have hctx : t.ctx = (s.copyLaunched (some e)).ctx := by
    show t.me.ctx s.cur.ctx = (s.copyLaunched (some e)).me.ctx s.cur.ctx
    rw [hme]
    rfl
  have hep : t.ep e = ((s.copyLaunched (some e)).ep e).addReq := (congrArg (fun x : Core => x.ep e) hme).trans (Core.mapEp_ep _ _ _)
  refine ⟨rfl, ?_, ?_, ⟨_, List.mem_append_right _ (List.mem_singleton_self _), ?_⟩, ?_, ?_⟩
  · rw [hme, State.copyLaunched_me]
    rfl
  · rw [hep, State.copyLaunched_ep]
    rfl
  · show Body.copyReq e ((s.copyLaunched (some e)).ep e).gen s.copyDesc = _
    rw [State.copyLaunched_ep]
  · rw [hctx, State.copyLaunched_ctx]
    rfl
  · rw [hctx, State.copyLaunched_ctx]
    rfl

end

/-! ### Elements (R38, R39, R255 to R258) -/

theorem State.sgSource_within {s : State} {c : CoreId} {l : List W} {n : Nat} {g : SgPos} (h : g.left ≠ 0) :
    s.sgSource c l (n + 1) g = .ok g s := by
  rw [State.sgSource, if_pos (by simpa using h)]

section
variable {s t : State} {c : CoreId} {d : CopyDesc} {j b : Nat} {g : SgPos} {f : CopyFail}

theorem State.copyValue_plain (hf : shSrcFmt d.shadow ≠ 15) (hs : shSgs d.shadow = false)
    (hr : s.engRead c (shSrcAddr d.shadow j) (shSrcSize d.shadow) (shSrcFmt d.shadow) = .ok b t) :
    s.copyValue c d j g = .ok ((convertElem d.shadow d.rm b).1, (convertElem d.shadow d.rm b).2, g) t := by
  rw [State.copyValue, if_neg hf, if_neg (by simp [hs]), hr]
  rfl

theorem State.copyValue_plain_bad (hf : shSrcFmt d.shadow ≠ 15) (hs : shSgs d.shadow = false)
    (hr : s.engRead c (shSrcAddr d.shadow j) (shSrcSize d.shadow) (shSrcFmt d.shadow) = .bad f t) :
    s.copyValue c d j g = .bad f t := by
  rw [State.copyValue, if_neg hf, if_neg (by simp [hs]), hr]
  rfl

/-- What the chain supplies: the source position g' from which an element is read. -/
theorem State.copyValue_chain {g' : SgPos} {u : State} (hf : shSrcFmt d.shadow ≠ 15) (hs : shSgs d.shadow = true)
    (hg : s.sgSource c d.shadow 65538 g = .ok g' u)
    (hr : u.engRead c g'.addr (shSrcSize d.shadow) (shSrcFmt d.shadow) = .ok b t) :
    s.copyValue c d j g = .ok ((convertElem d.shadow d.rm b).1, (convertElem d.shadow d.rm b).2,
      { g' with addr := g'.addr + BitVec.ofNat 64 (shSrcSize d.shadow), left := g'.left - shSrcSize d.shadow }) t := by
  rw [State.copyValue, if_neg hf, if_pos hs, hg]
  show ((u.engRead c g'.addr (shSrcSize d.shadow) (shSrcFmt d.shadow)).bind _) = _
  rw [hr]
  rfl

theorem State.copyValue_chain_over (hf : shSrcFmt d.shadow ≠ 15) (hs : shSgs d.shadow = true) (hl : g.left = 0) (hn : g.next = 0) :
    s.copyValue c d j g = .bad ⟨0x13, 0, 0⟩ s := by
  have hg : s.sgSource c d.shadow (65537 + 1) g = .bad (copyErr 0 0) s := by
    rw [State.sgSource, if_neg (by simp [hl]), if_pos (by simp [hn]), hn]
  rw [State.copyValue, if_neg hf, if_pos hs, show (65538 : Nat) = 65537 + 1 from rfl, hg]
  rfl

/-- The next descriptor of a chain: plain, with bytes (R256). -/
theorem State.sgSource_next {v n : Nat} (hl : g.left = 0) (hn0 : g.next ≠ 0) (hn : g.next.toNat % 32 = 0) (hc : g.count < 65536)
    (hr : s.engRead c g.next 32 0 = .ok v t) (hres : (BitVec.ofNat 64 (v / 2 ^ 64)).extractLsb' 40 24 = 0)
    (hcond : (BitVec.ofNat 64 (v / 2 ^ 64)).getLsbD 38 = false) (h3 : BitVec.ofNat 64 (v / 2 ^ 192) = 0#64)
    (hlen : ((BitVec.ofNat 64 (v / 2 ^ 64)).extractLsb' 0 32).toNat ≠ 0)
    (hlen' : ((BitVec.ofNat 64 (v / 2 ^ 64)).extractLsb' 0 32).toNat % shSrcSize d.shadow = 0)
    (haddr : (BitVec.ofNat 64 v).toNat % shSrcSize d.shadow = 0) :
    s.sgSource c d.shadow (n + 2) g = .ok ⟨BitVec.ofNat 64 (v / 2 ^ 128), g.count + 1, BitVec.ofNat 64 v,
      ((BitVec.ofNat 64 (v / 2 ^ 64)).extractLsb' 0 32).toNat⟩ t := by
  have hok : (g.next = 0 || g.next.toNat % 32 != 0 || g.count ≥ 65536) = false := by
    rw [decide_eq_false hn0, hn, decide_eq_false (not_le.2 hc)]
    rfl
  rw [State.sgSource, if_neg (by simp [hl]), if_neg (ne_true_of_eq_false hok), hr]
  simp only [EngOf.bind]
  rw [← wf_eq_toNat] at hlen hlen' ⊢
  have hgood : (wf (BitVec.ofNat 64 (v / 2 ^ 64)) 40 24 != 0 || BitVec.ofNat 64 (v / 2 ^ 192) != 0 ||
      wf (BitVec.ofNat 64 (v / 2 ^ 64)) 0 32 % shSrcSize d.shadow != 0 || (BitVec.ofNat 64 v).toNat % shSrcSize d.shadow != 0) =
      false := by
    rw [wf_ne_zero, hres, h3, hlen', haddr]
    rfl
  rw [if_neg (ne_true_of_eq_false hgood), if_pos (by rw [wb, hcond]; rfl), if_neg Bool.false_ne_true]
  exact State.sgSource_within hlen

theorem bitPlane_sum {read : State → W → Nat → Eng Nat} {a : W} {geo row col sc : Nat} {plane : Nat → Nat} (k : Nat) :
    ∀ j w, (∀ m < k, read s (a + BitVec.ofNat 64 ((j + m) * (geo * geo / 8) + (row * geo + col) / 8)) 1 = .ok (plane (j + m)) s) →
      read s (a + BitVec.ofNat 64 (geo * geo)) 2 = .ok sc s →
      s.bitPlane read a geo row col k j w = .ok (intOf 8 true (w +
        ((List.range k).map fun m => b2n ((plane (j + m)).testBit ((row * geo + col) % 8)) * 2 ^ (7 - (j + m))).sum), sc) s := by
  induction k with
  | zero =>
    intro j w _ hsc
    rw [State.bitPlane, hsc]
    rfl
  | succ k ih =>
    intro j w hp hsc
    rw [State.bitPlane]
    rw [show a + BitVec.ofNat 64 (j * (geo * geo / 8) + (row * geo + col) / 8) =
      a + BitVec.ofNat 64 ((j + 0) * (geo * geo / 8) + (row * geo + col) / 8) by rw [Nat.add_zero], hp 0 (by omega)]
    have hih := ih (j + 1) (w + b2n ((plane (j + 0)).testBit ((row * geo + col) % 8)) * 2 ^ (7 - j))
      (fun m hm => by rw [show j + 1 + m = j + (m + 1) by ring]; exact hp (m + 1) (by omega)) hsc
    refine hih.trans ?_
    rw [List.range_succ_eq_map, List.map_cons, List.sum_cons, List.map_map]
    simp only [Function.comp_def, Nat.succ_eq_add_one, Nat.add_zero, Nat.add_assoc, Nat.add_comm 1]

end

/-! ### Chunks (R253, R255, R259) -/

section
variable {s t u : State} {c : CoreId} {d : CopyDesc}

/-- A value written plainly. -/
theorem CopyWork.write_ok {w : CopyWork} {j v : Nat} (ha : shAdd d.shadow = false)
    (hw : w.s.engWrite c (shDstAddr d.shadow j) (leBytes (shDstSize d.shadow) v) (shDstFmt d.shadow) = .ok () u) :
    w.write c d j v = { w with s := u } := by
  rw [CopyWork.write, if_neg (by simp [ha]), hw]

/-- One element: it is read, converted and written. -/
theorem CopyWork.chunk_one {g g' : SgPos} {fl f : BitVec 5} {j v : Nat} (ha : shAdd d.shadow = false)
    (hv : s.copyValue c d j g = .ok (v, f, g') t)
    (hw : t.engWrite c (shDstAddr d.shadow j) (leBytes (shDstSize d.shadow) v) (shDstFmt d.shadow) = .ok () u) :
    CopyWork.chunk ⟨s, g, fl, [], none, none⟩ c d j 1 = ⟨u, g', fl ||| f, [], none, none⟩ := by
  have hwrite := CopyWork.write_ok (w := ⟨t, g', fl ||| f, [], none, none⟩) ha hw
  cases hs : shSgs d.shadow
  · simp [CopyWork.chunk, hs, freeOrder, insertFree, CopyWork.elems, CopyWork.read, hv, hwrite]
  · simp [CopyWork.chunk, hs, freeOrder, insertFree, CopyWork.gather, hv, hwrite]

/-- One element that cannot be read: the work fails. -/
theorem CopyWork.chunk_one_bad {g : SgPos} {fl : BitVec 5} {j : Nat} {f : CopyFail} (hv : s.copyValue c d j g = .bad f t) :
    CopyWork.chunk ⟨s, g, fl, [], none, none⟩ c d j 1 = ⟨t, g, fl, [], none, some f⟩ := by
  cases hs : shSgs d.shadow
  · simp [CopyWork.chunk, hs, freeOrder, insertFree, CopyWork.elems, CopyWork.read, hv]
  · simp [CopyWork.chunk, hs, freeOrder, insertFree, CopyWork.gather, hv]

/-! #### Several elements that stand at their addresses -/

/-- Element i of a copy without a chain: the state and the exceptions so far, or none where the access waits or fails. -/
def copyMove (c : CoreId) (d : CopyDesc) (g : SgPos) (w : Option (State × BitVec 5)) (i : Nat) : Option (State × BitVec 5) :=
  w.bind fun q => match q.1.copyValue c d i g with
    | .ok (v, f, _) t => match t.engWrite c (shDstAddr d.shadow i) (leBytes (shDstSize d.shadow) v) (shDstFmt d.shadow) with
      | .ok _ u => some (u, q.2 ||| f)
      | _ => none
    | _ => none

theorem foldl_none {α β : Type} {f : Option β → α → Option β} (hf : ∀ a, f none a = none) (l : List α) :
    l.foldl f none = none := by
  induction l with
  | nil => rfl
  | cons a l ih => rw [List.foldl_cons, hf, ih]

theorem copyMove_some {g : SgPos} {f f' : BitVec 5} {i : Nat} (h : copyMove c d g (some (s, f)) i = some (u, f')) :
    ∃ v k g' t, s.copyValue c d i g = .ok (v, k, g') t ∧
      t.engWrite c (shDstAddr d.shadow i) (leBytes (shDstSize d.shadow) v) (shDstFmt d.shadow) = .ok () u ∧ f' = f ||| k := by
  simp only [copyMove, Option.bind_some] at h
  split at h
  · next v k g' t hv =>
    split at h
    · next hw =>
      cases h
      exact ⟨v, k, g', t, hv, hw, rfl⟩
    · cases h
  · cases h

/-- Without a chain the position in it stays. -/
theorem State.copyValue_pos {g g' : SgPos} {i v : Nat} {k : BitVec 5} (hs : shSgs d.shadow = false)
    (h : s.copyValue c d i g = .ok (v, k, g') t) : g' = g := by
  have hb {α : Type} {r : Eng α} {f : α → State → Eng (Nat × BitVec 5 × SgPos)} (h : r.bind f = .ok (v, k, g') t) :
      ∃ a u, f a u = .ok (v, k, g') t := by
    cases r with
    | ok a u => exact ⟨a, u, h⟩
    | held m => cases h
    | bad e u => cases h
  rw [State.copyValue] at h
  dsimp only at h
  split at h
  · obtain ⟨_, _, h⟩ := hb h
    obtain ⟨⟨i, sc⟩, _, h⟩ := hb h
    dsimp only at h
    split at h
    · cases h
      rfl
    · cases h
      rfl
  · rw [if_neg (by simp [hs])] at h
    obtain ⟨_, _, h⟩ := hb h
    cases h
    rfl

theorem CopyWork.elems_of_copyMove {g : SgPos} (ha : shAdd d.shadow = false) (hs : shSgs d.shadow = false) (l : List Nat)
    {s : State} {fl f : BitVec 5} (h : l.foldl (copyMove c d g) (some (s, fl)) = some (u, f)) :
    CopyWork.elems c d l ⟨s, g, fl, [], none, none⟩ = ⟨u, g, f, [], none, none⟩ := by
  induction l generalizing s fl with
  | nil =>
    cases h
    rfl
  | cons i l ih =>
    rw [List.foldl_cons] at h
    cases hm : copyMove c d g (some (s, fl)) i with
    | none => rw [hm, foldl_none fun _ => rfl] at h; cases h
    | some q =>
      obtain ⟨s1, f1⟩ := q
      rw [hm] at h
      obtain ⟨v, k, g', t, hv, hw, rfl⟩ := copyMove_some hm
      obtain rfl := State.copyValue_pos hs hv
      have hwrite := CopyWork.write_ok (w := ⟨t, g', fl ||| k, [], none, none⟩) ha hw
      rw [CopyWork.elems]
      simp only [CopyWork.read, hv, hwrite, Option.isSome_none, Bool.or_self, Bool.false_eq_true, if_false]
      exact ih h

theorem CopyWork.chunk_plain {g : SgPos} {fl f : BitVec 5} {i k : Nat} (ha : shAdd d.shadow = false) (hs : shSgs d.shadow = false)
    (hk : 2 ≤ k)
    (h : ((freeOrder s.free k).map fun m => i + m).foldl (copyMove c d g) (some ({ s with free := s.free + k }, fl)) = some (u, f)) :
    CopyWork.chunk ⟨s, g, fl, [], none, none⟩ c d i k = ⟨u, g, f, [], none, none⟩ := by
  rw [CopyWork.chunk, if_neg (show ¬ k ≤ 1 by omega), if_neg (by simp [hs])]
  exact CopyWork.elems_of_copyMove ha hs _ h

/-! #### Several elements of a chain -/

/-- n elements of a chain from element m on, read in order from states t: their values, and where the chain then stands. -/
theorem CopyWork.gather_chain {g : SgPos} {i k : Nat} {b : Nat → Nat} {t : Nat → State} {fl : Nat → BitVec 5}
    (hf : shSrcFmt d.shadow ≠ 15) (hs : shSgs d.shadow = true) (hz : 0 < shSrcSize d.shadow) (hk : k * shSrcSize d.shadow ≤ g.left)
    (hr : ∀ m < k, (t m).engRead c (g.addr + BitVec.ofNat 64 (m * shSrcSize d.shadow)) (shSrcSize d.shadow) (shSrcFmt d.shadow) =
      .ok (b m) (t (m + 1)))
    (hfl : ∀ m, fl (m + 1) = fl m ||| (convertElem d.shadow d.rm (b m)).2) (n : Nat) :
    ∀ m vs, m + n = k →
      CopyWork.gather c d ((List.range' m n).map fun m => i + m) ⟨t m, { g with
        addr := g.addr + BitVec.ofNat 64 (m * shSrcSize d.shadow), left := g.left - m * shSrcSize d.shadow }, fl m, [], none, none⟩ vs =
      (⟨t k, { g with addr := g.addr + BitVec.ofNat 64 (k * shSrcSize d.shadow), left := g.left - k * shSrcSize d.shadow }, fl k,
          [], none, none⟩, vs ++ (List.range' m n).map fun m => (i + m, (convertElem d.shadow d.rm (b m)).1)) := by
  induction n with
  | zero =>
    rintro m vs rfl
    simp [CopyWork.gather]
  | succ n ih =>
    intro m vs hm
    have hmul : (m + 1) * shSrcSize d.shadow ≤ k * shSrcSize d.shadow := Nat.mul_le_mul_right _ (by omega)
    have hsucc : (m + 1) * shSrcSize d.shadow = m * shSrcSize d.shadow + shSrcSize d.shadow := by ring
    have hv := State.copyValue_chain (s := t m) (c := c) (d := d) (j := i + m)
      (g := { g with addr := g.addr + BitVec.ofNat 64 (m * shSrcSize d.shadow), left := g.left - m * shSrcSize d.shadow })
      hf hs (State.sgSource_within (by dsimp only; omega)) (hr m (by omega))
    rw [List.range'_succ, List.map_cons, CopyWork.gather, hv]
    have hnext := ih (m + 1) (vs ++ [(i + m, (convertElem d.shadow d.rm (b m)).1)]) (by omega)
    rw [hfl m, hsucc, BitVec.ofNat_add, ← BitVec.add_assoc, ← Nat.sub_sub] at hnext
    refine hnext.trans ?_
    rw [List.map_cons, List.append_assoc]
    rfl

/-- Indices in a free order are those below n. -/
theorem insertFree_perm (base i : Nat) (l : List Nat) : (insertFree base i l).Perm (i :: l) := by
  induction l with
  | nil => exact .refl _
  | cons j l ih =>
    rw [insertFree]
    split
    · exact .refl _
    · exact (ih.cons j).trans (.swap i j l)

theorem freeOrder_perm (base n : Nat) : (freeOrder base n).Perm (List.range n) := by
  rw [freeOrder]
  induction List.range n with
  | nil => exact .refl _
  | cons i l ih => exact (insertFree_perm base i _).trans (ih.cons i)

/-- The value of index i of a chain's elements is written, as `CopyWork.chunk` does once they are all read. -/
def CopyWork.put (c : CoreId) (d : CopyDesc) (vs : List (Nat × Nat)) (u : CopyWork) (i : Nat) : CopyWork :=
  match vs[i]? with
  | some (e, v) =>
    if u.held.isSome || (u.fail.isSome && true) then u
    else
      let u1 := ({ u with fail := none } : CopyWork).write c d e v
      { u1 with fail := u1.fail.orElse fun _ => none }
  | none => u

/-- Values written in some order, from state s on. -/
def putAll (c : CoreId) (d : CopyDesc) (i : Nat) (v : Nat → Nat) (l : List Nat) (s : State) : Option State :=
  l.foldl (fun w m => w.bind fun q =>
    match q.engWrite c (shDstAddr d.shadow (i + m)) (leBytes (shDstSize d.shadow) (v m)) (shDstFmt d.shadow) with
    | .ok _ u => some u
    | _ => none) (some s)

theorem CopyWork.foldl_put {g : SgPos} {fl : BitVec 5} {i k : Nat} {v : Nat → Nat} (ha : shAdd d.shadow = false) (l : List Nat)
    (hl : ∀ m ∈ l, m < k) {s : State} (hw : putAll c d i v l s = some u) :
    l.foldl (CopyWork.put c d ((List.range k).map fun m => (i + m, v m))) ⟨s, g, fl, [], none, none⟩ =
      ⟨u, g, fl, [], none, none⟩ := by
  induction l generalizing s with
  | nil =>
    cases hw
    rfl
  | cons m l ih =>
    rw [putAll, List.foldl_cons] at hw
    simp only [Option.bind_some] at hw
    split at hw
    · next s1 hv =>
      have hwrite := CopyWork.write_ok (w := ⟨s, g, fl, [], none, none⟩) ha hv
      have hput : CopyWork.put c d ((List.range k).map fun m => (i + m, v m)) ⟨s, g, fl, [], none, none⟩ m =
          ⟨s1, g, fl, [], none, none⟩ := by
        rw [CopyWork.put, List.getElem?_map, List.getElem?_range (hl m (by simp))]
        dsimp only [Option.map_some]
        rw [if_neg (by simp), hwrite]
        rfl
      rw [List.foldl_cons, hput]
      exact ih (fun j hj => hl j (by simp [hj])) hw
    · rw [foldl_none fun _ => rfl] at hw
      cases hw

theorem CopyWork.chunk_chain {g : SgPos} {i k : Nat} {b : Nat → Nat} {t : Nat → State} {fl : BitVec 5}
    (ha : shAdd d.shadow = false) (hf : shSrcFmt d.shadow ≠ 15) (hs : shSgs d.shadow = true) (hk2 : 2 ≤ k)
    (hz : 0 < shSrcSize d.shadow) (hk : k * shSrcSize d.shadow ≤ g.left) (h0 : t 0 = { s with free := s.free + k })
    (hr : ∀ m < k, (t m).engRead c (g.addr + BitVec.ofNat 64 (m * shSrcSize d.shadow)) (shSrcSize d.shadow) (shSrcFmt d.shadow) =
      .ok (b m) (t (m + 1)))
    (hw : putAll c d i (fun m => (convertElem d.shadow d.rm (b m)).1) (freeOrder s.free k) (t k) = some u) :
    CopyWork.chunk ⟨s, g, fl, [], none, none⟩ c d i k =
      ⟨u, { g with addr := g.addr + BitVec.ofNat 64 (k * shSrcSize d.shadow), left := g.left - k * shSrcSize d.shadow },
        ((List.range k).map fun m => (convertElem d.shadow d.rm (b m)).2).foldl (· ||| ·) fl, [], none, none⟩ := by
  let flags := fun m => ((List.range m).map fun m => (convertElem d.shadow d.rm (b m)).2).foldl (· ||| ·) fl
  have hg := CopyWork.gather_chain (i := i) (fl := flags) hf hs hz hk hr (fun m => by simp [flags, List.range_succ]) k 0 [] (by omega)
  rw [h0, ← List.range_eq_range', Nat.zero_mul, BitVec.add_zero, Nat.sub_zero, List.nil_append] at hg
  have hlt : ∀ m ∈ freeOrder s.free k, m < k := fun m hm => List.mem_range.1 ((freeOrder_perm _ _).mem_iff.1 hm)
  rw [CopyWork.chunk, if_neg (show ¬ k ≤ 1 by omega), if_pos hs]
  dsimp only
  rw [show fl = flags 0 from rfl, hg]
  dsimp only
  rw [if_neg (by simp)]
  exact CopyWork.foldl_put (fl := flags k) ha _ hlt hw

end

/-! ### The engine's events (R259, R264, R265) -/

section
variable {s u : State} {c e : CoreId} {tag ch : BitVec 6} {r : CopyRun}

theorem execCopyChunkDone_runs (hfind : s.findCopy c tag = some (e, r)) (hans : s.chunkAnswer c tag ch = none)
    (hfail : r.fail = none) : execCopyChunkDone c tag ch s = .next (s.runChunk e r ch) := by
  rw [execCopyChunkDone, hfind, hans]
  dsimp only
  rw [if_neg (by simp [hfail])]

theorem State.runChunk_dropped (h : s.lives r = false) : s.runChunk e r ch = s.dropCopy e r.d := by
  simp [State.runChunk, h]

/-- What must hold before a chunk is worked on, for a copy without ACQ: it lives, and its turn has come. -/
structure State.ChunkDue (s : State) (r : CopyRun) (ch : BitVec 6) : Prop where
  lives : s.lives r = true
  fresh : (r.done ||| r.sent).getLsbD ch.toNat = false
  plain : shAdd r.d.shadow = false
  noAcq : (shCtl r.d.shadow).getLsbD 63 = false
  inTurn : shSgs r.d.shadow = true → r.reached ch = true

/-- How work on a due chunk is recorded. -/
def State.recordWork (e : CoreId) (r : CopyRun) (ch : BitVec 6) (w : CopyWork) : State :=
  match w.held with
  | some m => s.waitFor m
  | none =>
    if w.fail.isSome then w.s.setCopy e { r with sg := w.sg, flags := w.flags, fail := w.fail }
    else w.s.chunkSet e { r with sg := w.sg, flags := w.flags, fail := w.fail } ch

theorem State.runChunk_due {j n : Nat} {w : CopyWork} (hd : s.ChunkDue r ch) (hspan : chunkSpan r.d.shadow ch.toNat = (j, n))
    (hw : CopyWork.chunk ⟨s, r.sg, r.flags, [], none, none⟩ e r.d j n = w) :
    s.runChunk e r ch = State.recordWork (s := s) e r ch w := by
  obtain ⟨hl, hf, hp, ha, ht⟩ := hd
  have hguard : ((r.done ||| r.sent).getLsbD ch.toNat || (shSgs r.d.shadow && !r.reached ch) ||
      !s.acquired (copyOrigin r.d) (wb (shCtl r.d.shadow) 63) (shScope r.d.shadow)) = false := by
    rw [hf, wb, ha]
    cases hs : shSgs r.d.shadow
    · rfl
    · rw [ht hs]
      rfl
  rw [State.runChunk, hspan]
  dsimp only
  rw [if_neg (by simp [hl]), if_neg (ne_true_of_eq_false hguard), hw]
  simp only [hp, Bool.false_eq_true, if_false]
  rfl

/-- A chunk whose elements are written: its bit is set. -/
theorem execCopyChunkDone_ends {j n : Nat} {g : SgPos} {fl : BitVec 5} (hfind : s.findCopy c tag = some (e, r))
    (hans : s.chunkAnswer c tag ch = none) (hfail : r.fail = none) (hd : s.ChunkDue r ch)
    (hspan : chunkSpan r.d.shadow ch.toNat = (j, n))
    (hw : CopyWork.chunk ⟨s, r.sg, r.flags, [], none, none⟩ e r.d j n = ⟨u, g, fl, [], none, none⟩) :
    execCopyChunkDone c tag ch s = .next (u.chunkSet e { r with sg := g, flags := fl } ch) := by
  rw [execCopyChunkDone_runs hfind hans hfail, State.runChunk_due hd hspan hw]
  cases r
  dsimp only at hfail
  subst hfail
  rfl

theorem execCopyChunkDone_fails {j n : Nat} {f : CopyFail} (hfind : s.findCopy c tag = some (e, r))
    (hans : s.chunkAnswer c tag ch = none) (hfail : r.fail = none) (hd : s.ChunkDue r ch)
    (hspan : chunkSpan r.d.shadow ch.toNat = (j, n))
    (hw : CopyWork.chunk ⟨s, r.sg, r.flags, [], none, none⟩ e r.d j n = ⟨u, r.sg, r.flags, [], none, some f⟩) :
    execCopyChunkDone c tag ch s = .next (u.setCopy e { r with fail := some f }) := by
  rw [execCopyChunkDone_runs hfind hans hfail, State.runChunk_due hd hspan hw]
  rfl

/-- The copy found is of the owner and has the tag. -/
theorem State.findCopy_d (h : s.findCopy c tag = some (e, r)) : r.d.owner = c ∧ r.d.tag = tag := by
  obtain ⟨x, -, hx⟩ := List.exists_of_findSome?_eq_some h
  obtain ⟨q, hq, hqr⟩ := Option.map_eq_some_iff.1 hx
  cases hqr
  simpa using List.find?_some hq

/-- A copy of this module's own core lives. -/
theorem State.lives_of_local (h : r.ep = none) : s.lives r = true := by
  rw [State.lives, h]
  rfl

/-! #### The end of a copy at its owner -/

section
variable {d : CopyDesc} {fail : Option CopyFail} {fl : BitVec 5}

theorem State.dropCopy_core (d' : CopyDesc) (c : CoreId) :
    ∃ l, (s.dropCopy e d').core c = { s.core c with copies := l } := by
  by_cases h : e = c
  · subst h
    exact ⟨_, State.mapCore_core _ _ _⟩
  · exact ⟨(s.core c).copies, State.mapCore_core_other _ _ _ _ h⟩

/-- What an ended copy leaves at its owner's core, contexts apart (R253, R259). -/
def Core.copyEnded (x : Core) (d : CopyDesc) : Core :=
  { x with
    owned := x.owned.filter fun o => o.tag != d.tag
    cbm := x.cbm ||| (1#64 <<< d.tag.toNat), chunks := x.chunks.set d.tag.toNat (BitVec.allOnes 64) }

theorem State.mapCtxAt_ctxs {s : State} {c : CoreId} {k : CtxId} {f : Ctx → Ctx} {x : Core} (h : ∃ l, s.core c = { x with ctxs := l }) :
    ∃ l, (s.mapCtxAt c k f).core c = { x with ctxs := l } := by
  obtain ⟨l, hl⟩ := h
  rw [State.mapCtxAt_core, hl]
  exact ⟨_, rfl⟩

theorem State.settleCopy_core :
    ∃ l, (s.settleCopy d fail fl).core d.owner = { (s.core d.owner).copyEnded d with ctxs := l } := by
  have h : ∃ l, (s.mapCore d.owner fun x => x.copyEnded d).core d.owner = { (s.core d.owner).copyEnded d with ctxs := l } :=
    ⟨_, State.mapCore_core _ _ _⟩
  cases fail with
  | none => exact State.mapCtxAt_ctxs (State.mapCtxAt_ctxs h)
  | some f => exact State.mapCtxAt_ctxs (State.mapCtxAt_ctxs (State.mapCtxAt_ctxs h))

/-- The fault of a failed copy is pending at its context (R151, R264). -/
theorem State.settleCopy_pend {f : CopyFail} (h : (s.ctxAt d.owner d.ctx).pend.length < 4) :
    ∃ g ∈ ((s.settleCopy d (some f) fl).ctxAt d.owner d.ctx).pend,
      g.cause = f.cause ∧ g.addr = f.addr ∧ g.detail = d.tag.toNat + f.detail ∧ g.xid = d.xid := by
  have hctx : (s.mapCore d.owner fun x => x.copyEnded d).ctxAt d.owner d.ctx = s.ctxAt d.owner d.ctx := by
    rw [State.ctxAt, State.mapCore_core]
    rfl
  show ∃ g ∈ ((((((s.mapCore d.owner fun x => x.copyEnded d).orFlags d.owner d.ctx fl).deferFault (copyOrigin d)
    (f.cause, d.tag.toNat + f.detail, f.addr) (some d.tag) d.xid).mapCtxAt d.owner d.ctx fun c => c.finishOp d.op)).ctxAt
      d.owner d.ctx).pend, _
  rw [State.mapCtxAt_ctxAt, State.deferFault]
  dsimp only [copyOrigin]
  rw [State.mapCtxAt_ctxAt, State.orFlags, State.mapCtxAt_ctxAt, hctx, Ctx.defer, if_pos h]
  exact ⟨_, List.mem_append_right _ (List.mem_singleton_self _), rfl, rfl, rfl, rfl⟩

/-- A local copy is over: what holds at its owner (R253, R257, R259). -/
theorem State.endCopy_settled (hfind : s.findCopy c tag = some (e, r)) (hloc : r.ep = none) :
    let t := s.endCopy e r fail
    t.mem = s.mem ∧ (t.core c).cbm = (s.core c).cbm ||| (1#64 <<< tag.toNat) ∧
      (t.core c).chunks[tag.toNat] = BitVec.allOnes 64 ∧ ∀ o ∈ (t.core c).owned, o.tag ≠ tag := by
  obtain ⟨rfl, rfl⟩ := State.findCopy_d hfind
  intro t
  have ht : t = (s.dropCopy e r.d).settleCopy r.d fail r.flags := by
    show s.endCopy e r fail = _
    rw [State.endCopy, hloc]
  obtain ⟨l, hl⟩ := State.settleCopy_core (s := s.dropCopy e r.d) (d := r.d) (fail := fail) (fl := r.flags)
  obtain ⟨k, hk⟩ := State.dropCopy_core (s := s) (e := e) r.d r.d.owner
  rw [ht, hl, hk, State.settleCopy_mem]
  refine ⟨rfl, rfl, Vector.getElem_set_self _, fun o ho => ?_⟩
  simpa using (List.mem_filter.1 ho).2

theorem State.endCopy_pend {f : CopyFail} (hfind : s.findCopy c tag = some (e, r)) (hloc : r.ep = none)
    (hp : (s.ctxAt c r.d.ctx).pend.length < 4) :
    ∃ g ∈ ((s.endCopy e r (some f)).ctxAt c r.d.ctx).pend,
      g.cause = f.cause ∧ g.addr = f.addr ∧ g.detail = tag.toNat + f.detail ∧ g.xid = r.d.xid := by
  obtain ⟨rfl, rfl⟩ := State.findCopy_d hfind
  obtain ⟨k, hk⟩ := State.dropCopy_core (s := s) (e := e) r.d r.d.owner
  have hctx : (s.dropCopy e r.d).ctxAt r.d.owner r.d.ctx = s.ctxAt r.d.owner r.d.ctx := by
    rw [State.ctxAt, hk]
    rfl
  rw [State.endCopy, hloc]
  exact State.settleCopy_pend (by rw [hctx]; exact hp)

end

theorem execCopyComplete_dropped (hfind : s.findCopy c tag = some (e, r)) (h : s.lives r = false) :
    execCopyComplete c tag s = .next (s.dropCopy e r.d) := by
  simp [execCopyComplete, hfind, h]

theorem execCopyComplete_ends (hfind : s.findCopy c tag = some (e, r)) (hl : s.lives r = true) (hd : r.done = BitVec.allOnes 64)
    (hf : r.fail = none) (hn : (shCtl r.d.shadow).getLsbD 58 = false) :
    execCopyComplete c tag s = .next (s.endCopy e r none) := by
  rw [execCopyComplete, hfind]
  dsimp only
  rw [if_neg (by simp [hl]), if_neg (by simp [hd, hf]), if_neg (by rw [wb, hn]; simp)]

theorem execCopyFailure_ends {f : CopyFail} (hfind : s.findCopy c tag = some (e, r)) (hf : r.fail = some f) (hs : r.sent = 0) :
    execCopyFailure c tag s = .next (s.endCopy e r (some f)) := by
  rw [execCopyFailure, hfind]
  dsimp only
  rw [if_pos (by simp [hf, hs]), hf]

end

/-! #### Requests and answers of a remote engine -/

section
variable {s : State} {p : Nat} {pk : Packet}

theorem State.bears_iff {c : CoreId} {e : EpId} {g : BitVec 16} :
    s.bears c e g = true ↔ (s.epAt c e).st ≠ .unbound ∧ (s.epAt c e).st ≠ .connecting ∧ (s.epAt c e).gen = g := by
  simp [State.bears, and_assoc]

theorem execCopyRequestArrival_eq {c : CoreId} {e : EpId} {g : BitVec 16} {d : CopyDesc}
    (h : s.atUnit p = some (.port c, .copyReq e g d)) :
    let u := (s.takePacket p).hwTakes d.owner e g
    let carried := s.hwFind d.owner e g ≠ none ∧ s.bears d.owner e g = true
    (carried → execCopyRequestArrival p s = .next (u.mapCore c fun x => { x with copies := x.copies ++ [newCopy d (some (e, g))] })) ∧
    (¬ carried → execCopyRequestArrival p s = .next u) := by
  intro u carried
  rw [execCopyRequestArrival, h]
  dsimp only
  have hiff : ((s.hwFind d.owner e g).isNone || !s.bears d.owner e g) = true ↔ ¬ carried := by
    simp only [carried, Bool.or_eq_true, Option.isNone_iff_eq_none, Bool.not_eq_true', not_and_or, not_not, Bool.not_eq_true]
  exact ⟨fun hc => congrArg _ (if_neg fun h => hiff.1 h hc), fun hc => congrArg _ (if_pos (hiff.2 hc))⟩

section
variable {c : CoreId} {e : EpId} {gen q : BitVec 16} {d : CopyDesc} {fail : Option CopyFail} {fl : BitVec 5}
  (ha : s.arrived p = some pk) (hdst : pk.dst = .core c) (hb : pk.body = .reply e gen (some q) (.copyAns d fail fl))
include ha hdst hb

/-- An endpoint of another generation, or one that takes no answers, discards it (R190, R211). -/
theorem execCopyAnswerArrival_discards
    (h : (s.epAt c e).gen ≠ gen ∨ ((s.epAt c e).st ≠ .open ∧ (s.epAt c e).st ≠ .delegating)) :
    execCopyAnswerArrival p s = .next (s.takePacket p) := by
  have hno : ((s.epAt c e).gen != gen || !((s.epAt c e).st == .open || (s.epAt c e).st == .delegating)) = true := by simpa using h
  simp only [execCopyAnswerArrival, State.replyArrival, ha, hdst, hb, hno, Bool.not_true, Bool.false_eq_true, if_false, if_true]
  rfl

/-- An answer placed in its slot is taken in its turn (R207). -/
theorem execCopyAnswerArrival_placed {u : State} (hg : (s.epAt c e).gen = gen) (ho : (s.epAt c e).st = .open)
    (hu : (if pk.placed then some s else s.placeReply p c e q (.copyAns d fail fl)) = some u) :
    (q ≠ (u.epAt c e).rseq → execCopyAnswerArrival p s = .next u) ∧
    (q = (u.epAt c e).rseq → execCopyAnswerArrival p s = .next (((u.takePacket p).takeReply c e).settleCopy d fail fl)) := by
  have hyes : ((s.epAt c e).gen != gen || !((s.epAt c e).st == .open || (s.epAt c e).st == .delegating)) = false := by simp [hg, ho]
  have hopen : ((s.epAt c e).st == .delegating) = false := by simp [ho]
  have hans : execCopyAnswerArrival p s = .next (if q != (u.epAt c e).rseq then u
      else ((u.takePacket p).takeReply c e).settleCopy d fail fl) := by
    simp only [execCopyAnswerArrival, State.replyArrival, ha, hdst, hb]
    rw [if_neg (by simp), if_neg (ne_true_of_eq_false hyes), if_neg (ne_true_of_eq_false hopen), State.replyOpen]
    dsimp only
    rw [hu]
    rfl
  exact ⟨fun h => hans.trans (congrArg _ (if_pos (bne_iff_ne.2 h))), fun h => hans.trans (congrArg _ (if_neg (by simp [h])))⟩

end

end

/-! ### Reducing copies at the destination (R261 to R263) -/

theorem State.badIn_of_bad_nil {s : State} (h : s.bad = []) (k n : Nat) : s.badIn k n = none := by
  simp [State.badIn, h]

/-- The one item of a chunk of one element. -/
theorem findSome?_one {β : Type} (f : Nat × Nat × W → Option β) (o : Nat) (v : W) :
    ((List.range [(o, v)].length).zip [(o, v)]).findSome? f = f (0, o, v) := by
  show [(0, o, v)].findSome? f = f (0, o, v)
  rw [List.findSome?_cons, List.findSome?_nil]
  cases f (0, o, v) <;> rfl

/-- One addition where memory is sound. -/
theorem State.applyAdds_one {s : State} {c : CoreId} {op o : Nat} {v : W} (hw : s.weak = []) :
    let new := portNew op (BitVec.ofNat 64 (s.rd (poolKey c o) (portSize op))) v 0
    s.applyAdds c op [(o, v)] 0 = (s.wrN (poolKey c o) (portSize op) new.1.toNat, new.2) := by
  intro new
  rw [State.applyAdds]
  dsimp only
  rw [State.correct_of_weak_nil hw, State.applyAdds, show (0 : BitVec 5) ||| new.2 = new.2 from BitVec.zero_or]

/-- A reducing chunk of one element for core c's pool. -/
structure State.ChunkAt (s : State) (p : Nat) (pk : Packet) (c : CoreId) (d : CopyDesc) (ch : BitVec 6) (eng : CoreId)
    (op o : Nat) (v : W) : Prop where
  arrived : s.arrived p = some pk
  dst : pk.dst = .port c
  body : pk.body = .chunk d ch eng op [(o, v)]

/-- Its copy is still performed. -/
def State.chunkLive (s : State) (d : CopyDesc) (eng : CoreId) : Bool := (s.core eng).copies.any fun r => r.d == d && s.lives r

/-- The key under which a reducing copy's chunks are known (R262). -/
def chunkKey (d : CopyDesc) : BitVec 32 := (shadowReg d.shadow 3).truncate 32

/-- The record of a key at the destination that a copy's chunks are known by (R262). -/
def keyedBy (d : CopyDesc) (q : CoreId × BitVec 32 × W) : Bool := q.1 == d.owner && q.2.1 == chunkKey d

theorem unkeyed_iff {d : CopyDesc} {l : List (CoreId × BitVec 32 × W)} :
    l.find? (keyedBy d) = none ↔ ∀ q ∈ l, ¬ (q.1 = d.owner ∧ q.2.1 = chunkKey d) := by
  simp [List.find?_eq_none, keyedBy]

/-- The address of a chunk's first element. -/
def chunkAddr (d : CopyDesc) (ch : BitVec 6) : W := shDstAddr d.shadow (chunkSpan d.shadow ch.toNat).1

/-- A chunk granted, now or when it was parked. -/
def State.chunkGranted (s : State) (pk : Packet) (c eng : CoreId) (d : CopyDesc) (ch : BitVec 6) (op o : Nat) : Prop :=
  pk.parked = true ∨ s.engGrant eng c 60 o (portSize op) (chunkAddr d ch) = none

section
variable {s : State} {p : Nat} {pk : Packet} {c eng : CoreId} {d : CopyDesc} {ch : BitVec 6} {op o : Nat} {v : W}

theorem State.chunkGranted.not_refused (hg : s.chunkGranted pk c eng d ch op o) :
    (if pk.parked then none else ((List.range [(o, v)].length).zip [(o, v)]).findSome? fun i =>
      s.engGrant eng c 60 i.2.1 (portSize op) (shDstAddr d.shadow ((chunkSpan d.shadow ch.toNat).1 + i.1))) = none := by
  rcases hg with hp | hg
  · rw [if_pos hp]
  · split
    · rfl
    · rw [findSome?_one]
      exact hg

section
variable (h : s.ChunkAt p pk c d ch eng op o v)
include h

theorem State.ChunkAt.dead (hl : s.chunkLive d eng = false) : execReduceChunkArrival p s = .next (s.takePacket p) := by
  rw [execReduceChunkArrival, h.arrived]
  dsimp only
  rw [h.dst, h.body]
  dsimp only
  rw [if_pos (by rw [← State.chunkLive, hl]; rfl)]

section
variable (hl : s.chunkLive d eng = true)
include hl

theorem State.ChunkAt.refused {f : CopyFail} {u : State} (hp : pk.parked = false)
    (hg : s.engGrant eng c 60 o (portSize op) (chunkAddr d ch) = some (f, u)) :
    execReduceChunkArrival p s = .next ((u.takePacket p).sendCore c (.port eng) false 8 (.chunkAns d ch (some f) 0)) := by
  rw [execReduceChunkArrival, h.arrived]
  dsimp only
  rw [h.dst, h.body]
  dsimp only
  rw [if_neg (by rw [← State.chunkLive, hl]; simp), hp]
  have hone : (((List.range [(o, v)].length).zip [(o, v)]).findSome? fun i =>
      s.engGrant eng c 60 i.2.1 (portSize op) (shDstAddr d.shadow ((chunkSpan d.shadow ch.toNat).1 + i.1))) = some (f, u) := by
    rw [findSome?_one]
    exact hg
  rw [if_neg Bool.false_ne_true, hone]

section
variable (hg : s.chunkGranted pk c eng d ch op o)
include hg

theorem State.ChunkAt.held (hh : s.held c o (portSize op) true = true) : execReduceChunkArrival p s = .next (s.park p) := by
  rw [execReduceChunkArrival, h.arrived]
  dsimp only
  rw [h.dst, h.body]
  dsimp only
  rw [if_neg (by rw [← State.chunkLive, hl]; simp), hg.not_refused (v := v)]
  dsimp only
  rw [if_pos (by simpa using hh)]

/-- A chunk that is free to be applied, in sound memory: by what its key has seen (R262). -/
theorem State.ChunkAt.takes (hh : s.held c o (portSize op) true = false) (hb : s.bad = []) (hw : s.weak = []) :
    let t := s.takePacket p
    let k := poolKey c o
    let new := portNew op (BitVec.ofNat 64 (s.rd k (portSize op))) v 0
    let bit : W := 1#64 <<< ch.toNat
    let answer := fun (t : State) (f : BitVec 5) => t.sendCore c (.port eng) false 8 (.chunkAns d ch none f)
    execReduceChunkArrival p s = .next (match (s.core c).redKeys.find? (keyedBy d) with
      | some (_, _, bm) => if bm &&& bit != 0 then answer t 0 else
        answer ((t.wrN k (portSize op) new.1.toNat).mapCore c fun x => { x with
          redKeys := x.redKeys.map fun q => if keyedBy d q then (q.1, q.2.1, q.2.2 ||| bit) else q }) new.2
      | none => if (s.core c).redKeys.length ≥ 32 then
          t.sendCore c (.port eng) false 8 (.chunkAns d ch (some (copyErr (chunkAddr d ch) 0)) 0) else
        answer ((t.wrN k (portSize op) new.1.toNat).mapCore c fun x => { x with
          redKeys := x.redKeys ++ [(d.owner, chunkKey d, bit)] }) new.2) := by
  intro t k new bit answer
  have happ : t.applyAdds c op [(o, v)] 0 = (t.wrN k (portSize op) new.1.toNat, new.2) := State.applyAdds_one (s := t) hw
  have hbad : (((List.range [(o, v)].length).zip [(o, v)]).find? fun i => (s.badIn (poolKey c i.2.1) (portSize op)).isSome) = none := by
    simp [State.badIn_of_bad_nil hb]
  rw [execReduceChunkArrival, h.arrived]
  dsimp only
  rw [h.dst, h.body]
  dsimp only
  rw [if_neg (by rw [← State.chunkLive, hl]; simp), hg.not_refused (v := v)]
  dsimp only
  rw [if_neg (by simp [hh]), hbad, happ]
  show Host.Outcome.next (match (s.core c).redKeys.find? (keyedBy d), (none : Option (Nat × Nat × W)) with
    | some (_, _, bm), bad => _
    | none, bad => _) = _
  generalize (s.core c).redKeys.find? (keyedBy d) = q
  cases q <;> rfl

end

end

end

end

/-! ### Keys retired (R263) -/

section
variable {s : State} {a b : Reg} {x y : W} (hops : s.operands [a, b] [] [] = .ok [x, y])
include hops

theorem execCpret_illegal (h : 2 ^ 32 ≤ x.toNat) : execCpret a b s = .next (s.trap illOpnd) := by
  refine State.issue_trap hops ?_
  have hx : (wf x 32 32 != 0) = true := by
    have hlt := x.isLt
    rw [bne_iff_ne, wf, bits]
    omega
  exact if_pos hx

theorem execCpret_sends {te : TlbEnt} {c : CoreId} {o : Nat} (h : x.toNat < 2 ^ 32) (hx : s.xlate y cXLATE = .ok te)
    (hh : te.home y.toNat = .pool c o) (hk : ∀ q ∈ s.me.owned, q.key ≠ some (x.truncate 32)) (hr : s.ctx.count .copy < 65535) :
    execCpret a b s = .next (((s.mapCtx fun x => x.launch .copy false none).sendCore s.cur.core (.port c) false 8
      (.keyRetire s.origin (x.truncate 32))).done 4 [a, b]) := by
  refine State.issue_ok hops ?_
  have hx32 : ¬ (wf x 32 32 != 0) = true := by
    rw [bne_iff_ne, not_not, wf, bits, Nat.div_eq_of_lt h]
    rfl
  have hkey : (s.me.owned.any fun o => o.key == some (x.truncate 32)) = false := by simpa using hk
  show (if wf x 32 32 != 0 then _ else (s.xlate y cXLATE).bind _) = _
  rw [if_neg hx32, hx]
  show (match te.home y.toNat with | .backing _ _ => _ | .pool c _ => _) = _
  rw [hh]
  show (if (s.me.owned.any fun o => o.key == some (x.truncate 32)) = true then _ else (s.classRoom .copy).bind _) = _
  rw [if_neg (ne_true_of_eq_false hkey), (State.roomFor_some hr).classRoom]
  rfl

end

section
variable {s : State} {p : Nat} {o : Origin}

theorem execKeyRetirementArrival_of {c : CoreId} {key : BitVec 32} (h : s.atUnit p = some (.port c, .keyRetire o key)) :
    execKeyRetirementArrival p s = .next (((s.takePacket p).mapCore c fun x =>
      { x with redKeys := x.redKeys.filter fun q => !(q.1 == o.core && q.2.1 == key) }).sendCore c (.core o.core) false 0
        (.keyRetired o)) := by
  rw [execKeyRetirementArrival, h]

theorem execKeyRetirementAcknowledgement_of {c : CoreId} (h : s.atUnit p = some (.core c, .keyRetired o)) :
    execKeyRetirementAcknowledgement p s = .next ((s.takePacket p).finishOp o none) := by
  rw [execKeyRetirementAcknowledgement, h]

end

/-! ### Waiting instructions (R152, R260, R278) -/

/-- No bit is set exactly when the search finds none. -/
theorem lowestBit_eq_64 (m : W) : lowestBit m 64 = 64 ↔ m = 0 := by
  rw [lowestBit]
  cases h : (List.range 64).find? fun i => m.getLsbD i with
  | none =>
    refine ⟨fun _ => BitVec.eq_of_getLsbD_eq fun i hi => ?_, fun _ => rfl⟩
    rw [List.find?_eq_none] at h
    simpa using h i (List.mem_range.2 hi)
  | some i =>
    have hi := List.mem_range.1 (List.mem_of_find?_eq_some h)
    have hb := List.find?_some h
    refine ⟨fun he => ?_, fun he => ?_⟩
    · simp only [Option.getD_some] at he
      omega
    · rw [he] at hb
      simp at hb

section
variable {s : State} {src dst : List Reg} {l : List W} {cov : Deferred → Bool} {o : Out}

theorem State.peek_ok (h : s.operands src dst [] = .ok l) (i : Nat) : s.peek src dst i = nthD 0 l i := by
  rw [State.peek, h]

/-- The first pending fault is covered: it is taken (R152). -/
theorem State.covering_head {f : Deferred} {rest : List Deferred} (hp : s.ctx.pend = f :: rest) (hc : cov f = true) :
    s.covering cov o = .next ((s.mapCtx fun c => { c with pend := rest }).trap f.asTrap) := by
  rw [State.covering, Ctx.covered, hp, List.find?_cons_of_pos hc]
  simp

end

section
variable {s : State} {n0 n1 n2 n3 : BitVec 5}

theorem waits_within (lim : Cls → Nat) :
    ([Cls.gload, .gstore, .copy, .tile].all fun k => s.ctx.count k ≤ lim k) = true ↔ ∀ k, s.ctx.count k ≤ lim k := by
  simp only [List.all_cons, List.all_nil, Bool.and_true, Bool.and_eq_true, decide_eq_true_eq]
  exact ⟨fun ⟨h0, h1, h2, h3⟩ k => by cases k <;> assumption, fun h => ⟨h _, h _, h _, h _⟩⟩

section
variable (hp : s.ctx.pend = []) (hops : s.operands [] [] [] = .ok [])
include hp hops

theorem execWaitc_within (h : ∀ k, s.ctx.count k ≤ waitLimit n0 n1 n2 n3 k) : execWaitc n3 n2 n1 n0 s = .next (s.done 4 []) :=
  (State.covering_of_no_pend hp _).trans (State.issue_ok hops (if_pos ((waits_within _).2 h)))

theorem execWaitc_waits (h : ∃ k, waitLimit n0 n1 n2 n3 k < s.ctx.count k) :
    execWaitc n3 n2 n1 n0 s = .next (s.block { kind := 5 }) := by
  refine (State.covering_of_no_pend hp _).trans (State.issue_block hops (if_neg fun hall => ?_))
  obtain ⟨k, hk⟩ := h
  exact absurd ((waits_within _).1 hall k) (by omega)

end

theorem execWaitc_covers {f : Deferred} {rest : List Deferred} {k : Cls} {n : Nat} (hp : s.ctx.pend = f :: rest)
    (hf : f.op = some (k, n)) (h : n + waitLimit n0 n1 n2 n3 k ≤ s.ctx.issued[k.idx]) :
    execWaitc n3 n2 n1 n0 s = .next ((s.mapCtx fun c => { c with pend := rest }).trap f.asTrap) := by
  refine State.covering_head hp ?_
  rw [hf]
  simpa using h

end

section
variable {s : State} {d a b : Reg} {x y : W}

section
variable (hp : s.ctx.pend = [])
include hp

section
variable (hops : s.operands [a] [d] [] = .ok [x])
include hops

theorem execWaitany_illegal (h : x = 0) : execWaitany d a s = .next (s.trap illOpnd) :=
  (State.covering_of_no_pend hp _).trans (State.issue_trap hops (if_pos h))

theorem execWaitany_waits (h : x ≠ 0) (hm : s.me.cbm &&& x = 0) : execWaitany d a s = .next (s.block { kind := 5 }) :=
  (State.covering_of_no_pend hp _).trans (State.issue_block hops ((if_neg h).trans (if_pos hm)))

theorem execWaitany_ok (hm : s.me.cbm &&& x ≠ 0) : execWaitany d a s = .next (s.doneG 4 [a] d (s.me.cbm &&& x)) := by
  have hx : x ≠ 0 := by
    rintro rfl
    exact hm BitVec.and_zero
  exact (State.covering_of_no_pend hp _).trans (State.issue_ok hops ((if_neg hx).trans (if_neg hm)))

theorem execFfr_ok : execFfr d a s = .next (s.doneG 4 [a] d (BitVec.ofNat 64 (lowestBit (s.me.cbm &&& x) 64))) :=
  (State.covering_of_no_pend hp _).trans (State.issue_ok hops rfl)

theorem execFfrClr_ok : execFfrClr d a s = .next ((s.mapMe fun z => { z with
    cbm := if s.me.cbm &&& x = 0 then z.cbm else z.cbm &&& ~~~(1#64 <<< lowestBit (s.me.cbm &&& x) 64) }).doneG 4 [a] d
      (BitVec.ofNat 64 (lowestBit (s.me.cbm &&& x) 64))) := by
  have hclear : (fun z : Core => { z with cbm := if lowestBit (s.me.cbm &&& x) 64 = 64 then z.cbm else
      z.cbm &&& ~~~(1#64 <<< lowestBit (s.me.cbm &&& x) 64) }) = fun z => { z with
        cbm := if s.me.cbm &&& x = 0 then z.cbm else z.cbm &&& ~~~(1#64 <<< lowestBit (s.me.cbm &&& x) 64) } :=
    funext fun z => by rw [if_congr (lowestBit_eq_64 _) rfl rfl]
  exact (State.covering_of_no_pend hp _).trans
    (State.issue_ok hops (congrArg (fun f => Res.ok ((s.mapMe f).setG d _)) hclear))

end

section
variable (hops : s.operands [a] [] [] = .ok [x])
include hops

theorem execWaitall_ok (h : s.me.cbm &&& x = x) : execWaitall a s = .next (s.done 4 [a]) :=
  (State.covering_of_no_pend hp _).trans (State.issue_ok hops (if_pos h))

theorem execWaitall_waits (h : s.me.cbm &&& x ≠ x) : execWaitall a s = .next (s.block { kind := 5 }) :=
  (State.covering_of_no_pend hp _).trans (State.issue_block hops (if_neg h))

end

end

theorem execWaitall_covers {f : Deferred} {rest : List Deferred} {tag : BitVec 6} (hops : s.operands [a] [] [] = .ok [x])
    (hp : s.ctx.pend = f :: rest) (hf : f.tag = some tag) (h : x.getLsbD tag.toNat = true) :
    execWaitall a s = .next ((s.mapCtx fun c => { c with pend := rest }).trap f.asTrap) := by
  refine State.covering_head hp ?_
  rw [State.peek_ok hops, tagIn, hf]
  exact h

section
variable (hp : s.ctx.pend = []) (hops : s.operands [a, b] [d] [] = .ok [x, y])
include hp hops

theorem State.waitch_illegal (all : Bool) (h : 64 ≤ x.toNat ∨ y = 0) : s.waitch d a b all = .next (s.trap illOpnd) := by
  refine (State.covering_of_no_pend hp _).trans (State.issue_trap hops (if_pos ?_))
  show (wf x 6 58 != 0 || decide (y = 0)) = true
  have hlt := x.isLt
  rcases h with h | h
  · rw [Bool.or_eq_true, bne_iff_ne, wf, bits]
    omega
  · rw [decide_eq_true h, Bool.or_true]

/-- The chunk bits of the copy that the mask asks for (R260). -/
theorem State.waitch_legal (all : Bool) (hx : x.toNat < 64) (hy : y ≠ 0) :
    let hit := s.me.chunks[(x.extractLsb' 0 6).toNat] &&& y
    ((if all then hit == y else hit != 0) = true → s.waitch d a b all = .next (s.doneG 4 [a, b] d hit)) ∧
    ((if all then hit == y else hit != 0) = false → s.waitch d a b all = .next (s.block { kind := 5 })) := by
  intro hit
  have hok : ¬ (wf x 6 58 != 0 || decide (y = 0)) = true := by
    rw [Bool.or_eq_true, bne_iff_ne, wf, bits, decide_eq_true_eq]
    rintro (h | h)
    · omega
    · exact hy h
  exact ⟨fun h => (State.covering_of_no_pend hp _).trans (State.issue_ok hops ((if_neg hok).trans (if_pos h))),
    fun h => (State.covering_of_no_pend hp _).trans (State.issue_block hops ((if_neg hok).trans (if_neg (ne_true_of_eq_false h))))⟩

end

end

/-- The bit-plane element at address a of a block (R38, R39, R258). -/
theorem State.copyValue_planes {w : State} {c : CoreId} {d : CopyDesc} {i sc : Nat} {g : SgPos} {plane : Nat → Nat}
    (hf : shSrcFmt d.shadow = 15) :
    let sh := d.shadow
    let a := shSrcAddr sh i
    let geo := nthD 0 (shCounts sh) 0
    let idx := indices (shCounts sh) i
    let at_ := nthD 0 idx 1 * geo + nthD 0 idx 0
    let planes := wf (shCtl sh) 45 4
    w.planeFault c sh a = .ok () w →
    (∀ m < planes, w.engRead c (a + BitVec.ofNat 64 (m * (geo * geo / 8) + at_ / 8)) 1 15 = .ok (plane m) w) →
    w.engRead c (a + BitVec.ofNat 64 (geo * geo)) 2 15 = .ok sc w →
    let v := intOf 8 true ((List.range planes).map fun m => b2n ((plane m).testBit (at_ % 8)) * 2 ^ (7 - m)).sum
    let made := if shDstFmt sh = 7 then (bitsOf 8 v, 0) else
      let b := bitPlaneValue v sc
      let q := codeConvert d.rm false b.1 (shDstFmt sh)
      (q.1, b.2 ||| q.2)
    w.copyValue c d i g = .ok (made.1, made.2, g) w := by
  intro sh a geo idx at_ planes hfault hplane hscale v made
  have hsum := bitPlane_sum (s := w) (read := fun t va n => t.engRead c va n 15) (a := a) (geo := geo) (row := nthD 0 idx 1)
    (col := nthD 0 idx 0) (sc := sc) (plane := plane) planes 0 0 (fun m hm => by simpa using hplane m hm) hscale
  simp only [Nat.zero_add] at hsum
  rw [State.copyValue, if_pos hf]
  dsimp only
  rw [show w.planeFault c d.shadow (shSrcAddr d.shadow i) = .ok () w from hfault]
  show ((w.bitPlane _ a geo (nthD 0 idx 1) (nthD 0 idx 0) planes 0 0).bind _) = _
  rw [hsum]
  dsimp only [made, EngOf.bind, sh]
  split
  · rfl
  · rfl

/-- The conversion of one stored element (R120, R257). -/
theorem convertElem_spec (l : List W) (rm b : Nat) :
    let sf := shSrcFmt l
    let df := shDstFmt l
    let sat := (shCtl l).getLsbD 49
    (sf = df → convertElem l rm b = (b, 0)) ∧
    (sf ≠ df → (codeIsFloat sf || codeIsFloat df) = true → convertElem l rm b = codeConvert rm sat (codeVal sf b) df) ∧
    (sf ≠ df → codeIsFloat sf = false → codeIsFloat df = false →
      let v := intOf (codeInt sf).1 (codeInt sf).2 b
      convertElem l rm b = (bitsOf (codeInt df).1 (if sat then clampInt (codeInt df).1 (codeInt df).2 v else v), 0)) := by
  intro sf df sat
  refine ⟨fun h => if_pos h, fun h hc => ?_, fun h hs hd => ?_⟩
  · rw [convertElem, if_neg h, convCode, if_neg (by
      show ¬ (!codeIsFloat sf && !codeIsFloat df) = true
      rw [← Bool.not_or, hc]
      simp)]
    rfl
  · rw [convertElem, if_neg h, convCode, if_pos (by
      show (!codeIsFloat sf && !codeIsFloat df) = true
      rw [hs, hd]
      rfl)]
    rfl

/-- A value given to an element code (R51 to R53). -/
theorem codeConvert_spec (rm code : Nat) (sat : Bool) (v : Val) :
    (codeIsFloat code = true → codeConvert rm sat v code =
      (((codeFmt code).convert rm sat v).v, ((codeFmt code).convert rm sat v).f)) ∧
    (codeIsFloat code = false → codeConvert rm sat v code =
      let q := toInt (codeInt code).1 (codeInt code).2 rm v
      (bitsOf (codeInt code).1 q.1, q.2)) :=
  ⟨fun h => if_pos h, fun h => if_neg (ne_true_of_eq_false h)⟩

theorem bitPlaneValue_fin {i e : Int} {sc m : Nat} {sg : Bool} (h : f16.decode sc = .fin sg m e) :
    bitPlaneValue i sc = (.fin (sg != decide (i < 0)) (m * i.natAbs) e, 0) := by
  rw [bitPlaneValue, h]

/-- The conditions of a due chunk as the copy's fields give them. -/
theorem State.chunkDue_of {s : State} {r : CopyRun} {ch : BitVec 6} (hl : s.lives r = true) (ha : shAdd r.d.shadow = false)
    (hq : (shCtl r.d.shadow).getLsbD 63 = false) (hf : (r.done ||| r.sent).getLsbD ch.toNat = false)
    (ht : shSgs r.d.shadow = true → r.reached ch = true) : s.ChunkDue r ch := ⟨hl, hf, ha, hq, ht⟩

/-- The state after a local launch of a copy. -/
theorem State.copyStarted_spec (s : State) :
    let l := s.ctx.shadow.toList
    let t := (s.copyLaunched none).mapMe fun x => { x with copies := x.copies ++ [newCopy s.copyDesc none] }
    t.mem = s.mem ∧ t.me.xid = s.me.xid + 1 ∧ t.me.copies = s.me.copies ++ [newCopy s.copyDesc none] ∧
      t.me.cbm = s.me.cbm &&& ~~~(1#64 <<< (shTag l).toNat) ∧ t.me.chunks[(shTag l).toNat] = emptyChunks l ∧
      t.ctx.g = s.ctx.g ∧ t.ctx.v = s.ctx.v := by
  intro l t
  have hme : t.me = { (s.copyLaunched none).me with copies := (s.copyLaunched none).me.copies ++ [newCopy s.copyDesc none] } :=
    State.mapMe_me _ _
  have hctx : t.ctx = s.ctx.launch .copy false none := by
    show t.me.ctx s.cur.ctx = _
    rw [hme, ← State.copyLaunched_ctx]
    rfl
  rw [hme, hctx, State.copyLaunched_me]
  exact ⟨rfl, rfl, rfl, rfl, Vector.getElem_set_self _, rfl, rfl⟩

/-- Settles O44: each clause is the lemma of its instruction or event above; a chunk is the work on its elements. -/
theorem copiesAndWaits : Obligations.CopiesAndWaits := by
  unfold Obligations.CopiesAndWaits
  refine ⟨?_, ?_⟩
  · intro s d a n x e c tag ch p pk eng r l legal free room xid desc bit
    have hdesc : s.copyDesc = desc := by
      simp only [State.copyDesc, wf_eq_toNat]
      rfl
    refine ⟨fun h => ⟨?_, ?_⟩, fun h => ⟨?_, ?_, ?_, ?_, ?_, ?_, ?_⟩, ?_, ?_, ?_, ?_, freeOrder_perm, codeConvert_spec,
      fun i sc m sg e => bitPlaneValue_fin, ?_, ?_⟩
    · exact fun hn => exec_cpwr.trans (execCpwr_ok h hn)
    · exact fun hn => exec_cpwr.trans (execCpwr_illegal h hn)
    · exact fun hn => exec_cprd.trans (execCprd_ok h hn)
    · exact exec_cprd.trans (execCprd_cbm h)
    · exact fun hn h31 => exec_cprd.trans (execCprd_illegal h hn h31)
    · exact fun hl => exec_cpgo.trans (State.issue_trap h (State.launchCopy_illegal hl))
    · exact fun hl hf => exec_cpgo.trans (State.issue_trap h (State.launchCopy_tagInUse hl hf))
    · intro hl hf hr
      have hspec := s.copyStarted_spec
      rw [hdesc] at hspec
      refine ⟨_, exec_cpgo.trans (execCpgo_ok h hl hf hr), ?_⟩
      rw [hdesc]
      exact hspec
    · intro hl hf hr hp ho hst hpr hs hb
      have hu : s.Usable e 3 0 := ⟨⟨by rw [hp]; rfl, ho⟩, hst, hpr, by omega, hb⟩
      obtain ⟨h1, h2, h3, h4, h5, h6⟩ := s.copyAsked_spec e
      rw [hdesc] at h4
      exact ⟨_, exec_cpgoRemote.trans (execCpgoRemote_ok h hu hl hf hr), h1, h2, h3, h4, h5, h6⟩
    · intro harr hdst gen dsc hb u carried
      obtain ⟨hyes, hno⟩ := execCopyRequestArrival_eq (State.atUnit_of ⟨harr, hdst, hb⟩)
      rw [State.bears_iff] at hyes hno
      exact ⟨fun h => exec_copyRequestArrival.trans (hyes h), fun h => exec_copyRequestArrival.trans (hno h)⟩
    · intro hfind hl
      exact ⟨exec_copyComplete.trans (execCopyComplete_dropped hfind hl), fun hans hfail =>
        exec_copyChunkDone.trans ((execCopyChunkDone_runs hfind hans hfail).trans (congrArg _ (State.runChunk_dropped hl)))⟩
    · intro hfind hans hfail hl sh plain j hspan hplain hfresh
      obtain ⟨hs, ha, hfmt, h15, hq⟩ := hplain
      have hd : s.ChunkDue r ch := State.chunkDue_of hl ha hq hfresh fun ht => absurd (hs.symm.trans ht) Bool.false_ne_true
      have hconv (b : Nat) : convertElem r.d.shadow r.d.rm b = (b, 0) := (convertElem_spec _ _ b).1 hfmt
      refine ⟨fun w t u hread hwrite => ?_, fun f t hread => ?_⟩
      · have hv := State.copyValue_plain (d := r.d) (g := r.sg) h15 hs hread
        have hw := CopyWork.chunk_one (fl := r.flags) ha hv (by rw [hconv]; exact hwrite)
        rw [hconv, show r.flags ||| ((w, 0) : Nat × BitVec 5).2 = r.flags from BitVec.or_zero] at hw
        exact exec_copyChunkDone.trans (execCopyChunkDone_ends hfind hans hfail hd hspan hw)
      · have hv := State.copyValue_plain_bad (d := r.d) (g := r.sg) h15 hs hread
        exact exec_copyChunkDone.trans (execCopyChunkDone_fails hfind hans hfail hd hspan (CopyWork.chunk_one_bad hv))
    · intro hfind hans hfail hl sh ha hq hfresh
      have hd (ht : shSgs r.d.shadow = true → r.reached ch = true) : s.ChunkDue r ch := State.chunkDue_of hl ha hq hfresh ht
      have hd0 (hs : shSgs r.d.shadow = false) : s.ChunkDue r ch :=
        hd fun ht => absurd (hs.symm.trans ht) Bool.false_ne_true
      dsimp only
      refine ⟨fun i k hs hk hspan u f hmove => ?_, fun i h15 hs hspan b t u hread hwrite => ?_,
        fun i h15 hs hreach hspan => ⟨fun b t u hleft hread hwrite => ?_, fun hleft hnext => ?_, ?_⟩, ?_, ?_, ?_, convertElem_spec _ _⟩
      · exact exec_copyChunkDone.trans
          (execCopyChunkDone_ends hfind hans hfail (hd0 hs) hspan (CopyWork.chunk_plain ha hs hk hmove))
      · exact exec_copyChunkDone.trans (execCopyChunkDone_ends hfind hans hfail (hd0 hs) hspan
          (CopyWork.chunk_one ha (State.copyValue_plain h15 hs hread) hwrite))
      · exact exec_copyChunkDone.trans (execCopyChunkDone_ends hfind hans hfail (hd fun _ => hreach) hspan
          (CopyWork.chunk_one ha (State.copyValue_chain h15 hs (State.sgSource_within hleft) hread) hwrite))
      · exact exec_copyChunkDone.trans (execCopyChunkDone_fails hfind hans hfail (hd fun _ => hreach) hspan
          (CopyWork.chunk_one_bad (State.copyValue_chain_over h15 hs hleft hnext)))
      · intro v b t t1 u hleft hnext hal hcount hdesc hres hcond h3 hlen hlen' haddr hread hwrite
        exact exec_copyChunkDone.trans (execCopyChunkDone_ends hfind hans hfail (hd fun _ => hreach) hspan
          (CopyWork.chunk_one ha (State.copyValue_chain h15 hs
            (State.sgSource_next hleft hnext hal hcount hdesc hres hcond h3 hlen hlen' haddr) hread) hwrite))
      · intro i k h15 hs hreach hk hspan hz hleft b t u h0 hread hwrite
        exact exec_copyChunkDone.trans (execCopyChunkDone_ends hfind hans hfail (hd fun _ => hreach) hspan
          (CopyWork.chunk_chain ha h15 hs hk hz hleft h0 hread hwrite))
      · exact fun w t i b h15 hs hread => State.copyValue_plain h15 hs hread
      · intro w i h15 plane sc hfault hplane hscale
        have hv := State.copyValue_planes (w := w) (c := eng) (i := i) (g := r.sg) (plane := plane) (sc := sc) h15
        simp only [wf_eq_toNat] at hv
        exact hv hfault hplane hscale
    · intro hfind hloc
      refine ⟨fun hdone hfail hntf => ?_, fun f hfail hsent hpend => ?_⟩
      · exact ⟨_, exec_copyComplete.trans (execCopyComplete_ends hfind (State.lives_of_local hloc) hdone hfail hntf),
          State.endCopy_settled hfind hloc⟩
      · obtain ⟨h1, h2, h3, -⟩ := State.endCopy_settled (fail := some f) hfind hloc
        exact ⟨_, exec_copyFailure.trans (execCopyFailure_ends hfind hfail hsent), h1, h2, h3, State.endCopy_pend hfind hloc hpend⟩
    · intro harr hdst gen q dsc fail flags u hb
      refine ⟨fun h => exec_copyAnswerArrival.trans (execCopyAnswerArrival_discards harr hdst hb h), fun hg ho hplaced => ?_⟩
      have hu : (if pk.placed then some s else s.placeReply p c e q (.copyAns dsc fail flags)) = some u := by
        rcases hplaced with ⟨hp, rfl⟩ | ⟨hp, hu⟩
        · rw [if_pos hp]
        · rw [if_neg (ne_true_of_eq_false hp), hu]
      obtain ⟨hwaits, htakes⟩ := execCopyAnswerArrival_placed harr hdst hb hg ho hu
      exact ⟨fun h => exec_copyAnswerArrival.trans (hwaits h), fun h => exec_copyAnswerArrival.trans (htakes h)⟩
  · intro s d a b x y c p pk n0 n1 n2 n3 t m low waits illegal lim
    have hlim : waitLimit n0 n1 n2 n3 = lim := by
      funext k
      cases k <;> rfl
    refine ⟨?_, fun h => ⟨?_, ?_⟩, ?_, ?_, fun hp h => ⟨?_, ?_⟩, ?_, fun hp h => ⟨?_, ?_, ?_, ?_, ?_⟩, fun h => ⟨?_, ?_, ?_⟩,
      fun hp h => ?_⟩
    · intro dsc ch eng op o v harr hdst hb live va granted
      have hc : s.ChunkAt p pk c dsc ch eng op o v := ⟨harr, hdst, hb⟩
      refine ⟨fun hl => exec_reduceChunkArrival.trans (hc.dead hl), fun f u hl hp hg =>
        exec_reduceChunkArrival.trans (hc.refused hl hp hg), fun hl hg hh => exec_reduceChunkArrival.trans (hc.held hl hg hh),
        fun hl hg hh hbad hweak => ?_⟩
      have htakes := exec_reduceChunkArrival.trans (hc.takes hl hg hh hbad hweak)
      refine ⟨fun hnew hroom => ?_, fun hnew hfull => ?_, fun bm hfound => ⟨fun hseen => ?_, fun hseen => ?_⟩⟩
      · rw [unkeyed_iff.2 hnew] at htakes
        exact htakes.trans (congrArg _ (if_neg (by omega)))
      · rw [unkeyed_iff.2 hnew] at htakes
        exact htakes.trans (congrArg _ (if_pos hfull))
      · rw [show (s.core c).redKeys.find? (keyedBy dsc) = some _ from hfound] at htakes
        exact htakes.trans (congrArg _ (if_pos (bne_iff_ne.2 hseen)))
      · rw [show (s.core c).redKeys.find? (keyedBy dsc) = some _ from hfound] at htakes
        refine (htakes.trans (congrArg _ (if_neg (by simpa using hseen)))).trans ?_
        simp only [keyedBy, Bool.and_eq_true, beq_iff_eq]
        rfl
    · exact fun hlt te o hx hh hk hr => exec_cpret.trans (execCpret_sends h hlt hx hh hk hr)
    · exact fun hge => exec_cpret.trans (execCpret_illegal h hge)
    · exact fun o key harr hdst hb => exec_keyRetirementArrival.trans (execKeyRetirementArrival_of (State.atUnit_of ⟨harr, hdst, hb⟩))
    · exact fun o harr hdst hb =>
        exec_keyRetirementAcknowledgement.trans (execKeyRetirementAcknowledgement_of (State.atUnit_of ⟨harr, hdst, hb⟩))
    · exact fun hk => exec_waitc.trans (execWaitc_within hp h (hlim ▸ hk))
    · exact fun hk => exec_waitc.trans (execWaitc_waits hp h (hlim ▸ hk))
    · exact fun f rest k n hp hf hn => exec_waitc.trans (execWaitc_covers hp hf (hlim ▸ hn))
    · exact fun hx => exec_waitany.trans (execWaitany_illegal hp h hx)
    · exact fun hx hm => exec_waitany.trans (execWaitany_waits hp h hx hm)
    · exact fun hm => exec_waitany.trans (execWaitany_ok hp h hm)
    · exact exec_ffr.trans (execFfr_ok hp h)
    · exact exec_ffrClr.trans (execFfrClr_ok hp h)
    · exact fun hp hm => exec_waitall.trans (execWaitall_ok hp h hm)
    · exact fun hp hm => exec_waitall.trans (execWaitall_waits hp h hm)
    · exact fun f rest tag hp hf hb => exec_waitall.trans (execWaitall_covers h hp hf hb)
    · intro bits
      refine ⟨fun hz => ⟨exec_waitchAny.trans (State.waitch_illegal hp h false hz),
        exec_waitchAll.trans (State.waitch_illegal hp h true hz)⟩, fun hx hy => ?_⟩
      obtain ⟨hany, hnone⟩ := State.waitch_legal hp h false hx hy
      obtain ⟨hall, hpart⟩ := State.waitch_legal hp h true hx hy
      exact ⟨fun hb => exec_waitchAny.trans (hany (bne_iff_ne.2 hb)), fun hb => exec_waitchAny.trans (hnone (bne_eq_false_iff_eq.2 hb)),
        fun hb => exec_waitchAll.trans (hall (beq_iff_eq.2 hb)), fun hb => exec_waitchAll.trans (hpart (beq_eq_false_iff_ne.2 hb))⟩

end Sys2Proof.Machine
end

section
/-! SUPPORT. Deadline reductions (R62, R63, R363 to R380). -/

namespace Sys2Proof.Machine

/-! ### What memory writes leave -/

/-- From s to t memory has been written: of the cores only watches have changed (R175). -/
structure State.Written (s t : State) : Prop where
  cur : t.cur = s.cur
  core : ∀ c, ∃ l, t.core c = { s.core c with ctxs := l }
  ctx : ∀ c k, ∃ w, t.ctxAt c k = { s.ctxAt c k with watch := w }

section
variable {s t u : State}

theorem State.Written.of_cores (hc : t.cores = s.cores) (hcur : t.cur = s.cur) : s.Written t := by
  have h (c : CoreId) : t.core c = s.core c := by rw [State.core, State.core, hc]
  refine ⟨hcur, fun c => ⟨(s.core c).ctxs, h c⟩, fun c k => ⟨(s.ctxAt c k).watch, ?_⟩⟩
  rw [State.ctxAt, h]
  rfl

theorem State.Written.trans (h : s.Written t) (h' : t.Written u) : s.Written u := by
  refine ⟨h'.cur.trans h.cur, fun c => ?_, fun c k => ?_⟩
  · obtain ⟨l, hl⟩ := h.core c
    obtain ⟨l', hl'⟩ := h'.core c
    exact ⟨l', by rw [hl', hl]⟩
  · obtain ⟨w, hw⟩ := h.ctx c k
    obtain ⟨w', hw'⟩ := h'.ctx c k
    exact ⟨w', by rw [hw', hw]⟩

theorem State.Written.refl : s.Written s := .of_cores rfl rfl

theorem State.wake_written (s : State) (k n : Nat) : s.Written (s.wake k n) := by
  cases hk : poolOwner k with
  | none =>
    rw [State.wake, hk]
    exact .refl
  | some c =>
    have hcore := s.wake_core (n := n) hk
    refine ⟨by rw [State.wake, hk], fun j => ?_, fun j i => ?_⟩
    · rw [hcore]
      split
      · next h => exact ⟨_, by rw [h]⟩
      · exact ⟨(s.core j).ctxs, rfl⟩
    · rw [State.ctxAt, hcore]
      split
      · next h =>
        rw [h]
        exact ⟨_, Tab.look_map (f := fun _ (x : Ctx) => x.watching k n s.rd8) (d := Ctx.init) (k := i.toNat) rfl _⟩
      · exact ⟨(s.ctxAt j i).watch, rfl⟩

theorem State.wr_written (s : State) (k : Nat) (l : List Byte) : s.Written (s.wr k l) := by
  refine State.Written.trans (t := { s with
    mem := memWrites s.mem k l
    bad := s.bad.filter fun d => !decide (k ≤ d ∧ d + 8 ≤ k + l.length)
    weak := s.weak.filter fun d => !decide (k ≤ d ∧ d + 8 ≤ k + l.length) }) (.of_cores rfl rfl) (State.wake_written _ k l.length)

theorem State.wr8_written (s : State) (k : Nat) (v : W) : s.Written (s.wr8 k v) := s.wr_written k _

theorem State.wrWords_written (s : State) (k : Nat) (l : List W) : s.Written (s.wrWords k l) := by
  rw [State.wrWords]
  exact s.wr_written k _

theorem State.Written.foldl {α : Type} {f : State → α → State} (hf : ∀ (t : State) (a : α), t.Written (f t a)) (l : List α)
    (s : State) : s.Written (l.foldl f s) := by
  induction l generalizing s with
  | nil => exact .refl
  | cons a l ih => exact (hf s a).trans (ih _)

theorem State.clearSlots_written (s : State) (c : CoreId) (e : EpId) : s.Written (s.clearSlots c e) :=
  State.Written.foldl (fun _ _ => State.wr8_written _ _ _) _ s

theorem State.fillSlot_written (s : State) (c : CoreId) (e : EpId) (i cls typ : Nat) (seq : BitVec 16) (l : List Byte) :
    s.Written (s.fillSlot c e i cls typ seq l) := (s.wr_written _ l).trans (State.wrWords_written _ _ _)

theorem State.Written.epAt (h : s.Written t) (c : CoreId) (e : EpId) : t.epAt c e = s.epAt c e := by
  obtain ⟨l, hl⟩ := h.core c
  rw [State.epAt, hl]
  rfl

theorem State.Written.ep (h : s.Written t) (e : EpId) : t.ep e = s.ep e := by
  rw [State.ep, State.me, h.cur]
  exact h.epAt _ e

theorem State.Written.g (h : s.Written t) : t.ctx.g = s.ctx.g := by
  obtain ⟨w, hw⟩ := h.ctx s.cur.core s.cur.ctx
  rw [State.ctx, h.cur, hw]
  rfl

end

/-! ### Endpoints of a reduction (R376 to R380) -/

@[simp] theorem State.mapEp_ep (s : State) (e : EpId) (f : Endpoint → Endpoint) : (s.mapEp e f).ep e = f (s.ep e) :=
  s.mapEpAt_epAt s.cur.core e f

theorem State.mapEp_ctx (s : State) (e : EpId) (f : Endpoint → Endpoint) : (s.mapEp e f).ctx = s.ctx := by
  show (State.me (s.mapMe fun x => x.mapEp e f)).ctx s.cur.ctx = s.me.ctx s.cur.ctx
  rw [State.mapMe_me]
  rfl

/-- An OPEN endpoint of protocol RED that the issuing context holds. -/
structure State.RedUsable (s : State) (e : EpId) : Prop where
  holds : s.holds e
  isOpen : (s.ep e).st = .open
  proto : (s.ep e).proto.toNat = 7
  fits : 1 ≤ (s.ep e).slotu.toNat

theorem State.holds_of {s : State} {e : EpId} (hp : s.ctx.pend = []) (ho : (s.ep e).owner = s.cur.ctx) : s.holds e :=
  ⟨by rw [hp]; rfl, ho⟩

section
variable {s : State} {e : EpId}

theorem State.RedUsable.mayUse (h : s.RedUsable e) : s.mayUse e 7 0 = .ok () := by
  have hfit : ¬ (s.ep e).slotu.toNat * 16 < 16 := by
    have := h.fits
    omega
  simp [State.mayUse, State.mustOpen_open h.isOpen, Res.bind, Res.refuseIf, h.proto, hfit]

theorem Res.refuseIf_false {α : Type} {b : Bool} {n : Nat} {k : Res α} (h : b = false) : Res.refuseIf b e n k = k :=
  if_neg (ne_true_of_eq_false h)

theorem Res.refuseIf_true {α : Type} {b : Bool} {n : Nat} {k : Res α} (h : b = true) :
    Res.refuseIf b e n k = .trap (refuse e n) := if_pos h

/-! #### Contributions (R377, R379, R380) -/

/-- A slot is free for the result of a contribution, and no engine holds the slots (R267, R378). -/
structure State.RedRoom (s : State) (e : EpId) : Prop where
  free : s.slotsHeld s.cur.core e false = false
  epochs : (s.ep e).state.toNat < Nat.min 4 (s.ep e).slots
  slots : s.usedSlots s.cur.core e + (s.ep e).reservedSlots < (s.ep e).slots

/-- What `advanced` says of a contribution: the endpoint's epoch advances, registers and memory stay. -/
def State.RedAdvanced (s t : State) (e : EpId) : Prop :=
  (t.ep e).sseq = (s.ep e).sseq + 1 ∧ (t.ep e).state = (s.ep e).state + 1 ∧ t.mem = s.mem ∧ t.ctx.g = s.ctx.g

/-- A packet of the endpoint's stream is on its way. -/
def State.RedSent (s t : State) (e : EpId) (ptype : Nat) (epoch : BitVec 16) (v : RedVal) : Prop :=
  ∃ q ∈ t.net, ∃ k, q.body = .red k ∧ k.stream = (s.ep e).redStream ∧ k.ptype = ptype ∧ k.epoch = epoch ∧ k.val = v

theorem State.mapEp_redAdvanced {u : State} (hep : u.ep e = s.ep e) (hm : u.mem = s.mem) (hc : u.ctx = s.ctx) :
    s.RedAdvanced (u.mapEp e fun ep => { ep with sseq := ep.sseq + 1, state := ep.state + 1, lacnt := ep.lacnt + 1 }) e := by
  rw [State.RedAdvanced, State.mapEp_ep, State.mapEp_ctx, State.mapEp_mem, hep, hm, hc]
  exact ⟨rfl, rfl, rfl, rfl⟩

theorem State.putRed_ok {v : RedVal} (h : s.RedRoom e) :
    ∃ t, s.putRed e v = .ok t ∧ s.RedAdvanced t e ∧ s.RedSent t e 0 (s.ep e).sseq v := by
  have hfull : (decide ((s.ep e).state.toNat ≥ Nat.min 4 (s.ep e).slots) ||
      decide (s.usedSlots s.cur.core e + (s.ep e).reservedSlots ≥ (s.ep e).slots)) = false := by
    rw [decide_eq_false (not_le.2 h.epochs), decide_eq_false (not_le.2 h.slots)]
    rfl
  rw [State.putRed]
  dsimp only
  rw [if_neg (ne_true_of_eq_false h.free), if_neg (ne_true_of_eq_false hfull)]
  refine ⟨_, rfl, ?_⟩
  split
  · exact ⟨State.mapEp_redAdvanced rfl rfl rfl,
      _, List.mem_append_left _ (List.mem_append_right _ (List.mem_singleton_self _)), _, rfl, rfl, rfl, rfl, rfl⟩
  · exact ⟨State.mapEp_redAdvanced rfl rfl rfl,
      _, List.mem_append_right _ (List.mem_singleton_self _), _, rfl, rfl, rfl, rfl, rfl⟩

theorem State.putRed_full {v : RedVal} (hf : s.slotsHeld s.cur.core e false = false)
    (h : Nat.min 4 (s.ep e).slots ≤ (s.ep e).state.toNat ∨
      (s.ep e).slots ≤ s.usedSlots s.cur.core e + (s.ep e).reservedSlots) :
    s.putRed e v = .block { kind := 2, ep := e.toNat } s := by
  rw [State.putRed]
  dsimp only
  rw [if_neg (ne_true_of_eq_false hf), if_pos (by simpa using h)]

theorem State.putRed_held {v : RedVal} (h : s.slotsHeld s.cur.core e false = true) : s.putRed e v = .block { kind := 5 } s :=
  if_pos h

section
variable {a b : Reg} {x y : W}

/-- Scalars are contributed as `putRed` does. -/
theorem execRput_puts (hu : s.RedUsable e) (hops : s.operands [a] [] [] = .ok [x]) :
    execRput a e s = s.issue 4 [a] [] [] fun l t => (t.mayUse e 7 0).bind fun _ =>
      Res.refuseIf ((t.ep e).redFmt = 3) e 0 <| t.putRed e ((t.ep e).redScalar (nthD 0 l 0)) :=
  State.onEp_holds hops rfl hu.holds

section
variable (hu : s.RedUsable e) (hf : (s.ep e).redFmt ≠ 3)
include hu hf

theorem State.rput_effect {r : Res State} (hr : s.putRed e ((s.ep e).redScalar x) = r) :
    ((s.mayUse e 7 0).bind fun _ => Res.refuseIf (decide ((s.ep e).redFmt = 3)) e 0 <|
      s.putRed e ((s.ep e).redScalar (nthD 0 [x] 0))) = r := by
  rw [hu.mayUse]
  exact (Res.refuseIf_false (decide_eq_false hf)).trans hr

theorem execRput_ok (hops : s.operands [a] [] [] = .ok [x]) (hr : s.RedRoom e) :
    ∃ t, execRput a e s = .next (t.done 4 [a]) ∧ s.RedAdvanced t e ∧ s.RedSent t e 0 (s.ep e).sseq ((s.ep e).redScalar x) := by
  obtain ⟨t, ht, hrest⟩ := State.putRed_ok (v := (s.ep e).redScalar x) hr
  exact ⟨t, (execRput_puts hu hops).trans (State.issue_ok hops (State.rput_effect hu hf ht)), hrest⟩

theorem execRput_waits {w : Wait} (hops : s.operands [a] [] [] = .ok [x])
    (hw : s.putRed e ((s.ep e).redScalar x) = .block w s) : execRput a e s = .next (s.block w) :=
  (execRput_puts hu hops).trans (State.issue_block hops (State.rput_effect hu hf hw))

theorem execRcorr_ok (hops : s.operands [a, b] [] [] = .ok [x, y]) (hy : y.extractLsb' 12 36 = 0) :
    ∃ t, execRcorr a b e s = .next (t.done 4 [a, b]) ∧ t.cores = s.cores ∧ t.mem = s.mem ∧
      s.RedSent t e 1 (y.extractLsb' 48 16) ((s.ep e).redScalar x) := by
  refine ⟨_, (State.onEp_holds hops rfl hu.holds).trans (State.issue_ok hops
    (t := s.sendRed (s.contribution e 1 (y.extractLsb' 48 16) (wf y 0 12) ((s.ep e).redScalar x))) ?_), rfl, rfl,
    ⟨_, List.mem_append_right _ (List.mem_singleton_self _), _, rfl, rfl, rfl, rfl, rfl⟩⟩
  rw [hu.mayUse]
  refine (Res.refuseIf_false (decide_eq_false hf)).trans (if_neg ?_)
  rw [show nthD 0 [x, y] 1 = y from rfl, wf_ne_zero, hy]
  simp

end

end

end

/-! #### Top-k lists (R380): corrected errors are counted as the list is read -/

/-- From s to t only corrected errors have been counted (R137, R184). -/
structure State.Counted (s t : State) : Prop where
  cur : t.cur = s.cur
  mem : t.mem = s.mem
  floes : t.floes = s.floes
  core : ∀ c, ∃ n l m k, t.core c = { s.core c with ecnt := n, events := l, newEvents := m, lost := k }

section
variable {s t u : State}

theorem State.Counted.refl : s.Counted s :=
  ⟨rfl, rfl, rfl, fun c => ⟨(s.core c).ecnt, (s.core c).events, (s.core c).newEvents, (s.core c).lost, rfl⟩⟩

theorem State.Counted.trans (h : s.Counted t) (h' : t.Counted u) : s.Counted u := by
  refine ⟨h'.cur.trans h.cur, h'.mem.trans h.mem, h'.floes.trans h.floes, fun c => ?_⟩
  obtain ⟨n, l, m, k, hc⟩ := h.core c
  obtain ⟨n', l', m', k', hc'⟩ := h'.core c
  exact ⟨n', l', m', k', by rw [hc', hc]⟩

theorem Core.countEcc_counts (x : Core) :
    ∃ n l m k, x.countEcc = { x with ecnt := n, events := l, newEvents := m, lost := k } := by
  have hpost (y : Core) (w : W) : ∃ l m k, y.post w = { y with events := l, newEvents := m, lost := k } := by
    unfold Core.post
    dsimp only
    split
    · exact ⟨y.events, y.newEvents, y.lost, rfl⟩
    · split
      · exact ⟨_, _, y.lost, rfl⟩
      · exact ⟨_, y.newEvents, _, rfl⟩
  unfold Core.countEcc
  dsimp only
  split
  · obtain ⟨l, m, k, h⟩ := hpost { x with ecnt := setField x.ecnt 0 32 (satAdd (wf x.ecnt 0 32) 1 32) }
      (eventWord 0 6 0 0 (satAdd (wf x.ecnt 0 32) 1 32))
    exact ⟨_, l, m, k, h⟩
  · exact ⟨_, x.events, x.newEvents, x.lost, rfl⟩

theorem State.Counted.foldl {α : Type} {f : State → α → State} (hf : ∀ (t : State) (a : α), t.Counted (f t a)) (l : List α)
    (s : State) : s.Counted (l.foldl f s) := by
  induction l generalizing s with
  | nil => exact .refl
  | cons a l ih => exact (hf s a).trans (ih _)

theorem State.correct_counted (s : State) (c : CoreId) (k n : Nat) : s.Counted (s.correct c k n) := by
  unfold State.correct
  dsimp only
  split
  · exact .refl
  · refine State.Counted.trans (t := { s with weak := s.weak.filter fun d => !decide (d < k + n ∧ k < d + 8) })
      ⟨rfl, rfl, rfl, fun c => ⟨(s.core c).ecnt, (s.core c).events, (s.core c).newEvents, (s.core c).lost, rfl⟩⟩
      (State.Counted.foldl (fun t _ => ?_) _ _)
    refine ⟨rfl, rfl, rfl, fun j => ?_⟩
    by_cases h : c = j
    · subst h
      rw [State.mapCore_core]
      exact Core.countEcc_counts _
    · rw [State.mapCore_core_other _ _ _ _ h]
      exact ⟨(t.core j).ecnt, (t.core j).events, (t.core j).newEvents, (t.core j).lost, rfl⟩

variable (h : s.Counted t)
include h

theorem State.Counted.epAt (c : CoreId) (e : EpId) : t.epAt c e = s.epAt c e := by
  obtain ⟨n, l, m, k, hc⟩ := h.core c
  rw [State.epAt, hc]
  rfl

theorem State.Counted.ep (e : EpId) : t.ep e = s.ep e := by
  rw [State.ep, State.me, h.cur]
  exact h.epAt _ e

theorem State.Counted.ctx : t.ctx = s.ctx := by
  obtain ⟨n, l, m, k, hc⟩ := h.core s.cur.core
  rw [State.ctx, h.cur, State.ctxAt, hc]
  rfl

theorem State.Counted.slotsHeld (c : CoreId) (e : EpId) (w : Bool) : t.slotsHeld c e w = s.slotsHeld c e w := by
  obtain ⟨n, l, m, k, hc⟩ := h.core c
  rw [State.slotsHeld, h.epAt, State.heldAt, State.held, hc]
  rfl

theorem State.Counted.usedSlots (c : CoreId) (e : EpId) : t.usedSlots c e = s.usedSlots c e := by
  have hh (i : Nat) : t.slotHeader c e i = s.slotHeader c e i := by
    rw [State.slotHeader, h.epAt, State.rd8, State.rd, h.mem]
    rfl
  simp only [State.usedSlots, h.epAt, hh]

theorem State.Counted.redRoom {e : EpId} (hr : s.RedRoom e) : t.RedRoom e := by
  obtain ⟨hf, he, hs⟩ := hr
  refine ⟨?_, ?_, ?_⟩
  · rwa [h.cur, h.slotsHeld]
  · rwa [h.ep]
  · rwa [h.cur, h.usedSlots, h.ep]

end

section
variable {s : State} {e : EpId} {a b : Reg} {x y : W} (hu : s.RedUsable e) (hf : (s.ep e).redFmt = 3)
  (hops : s.operands [a, b] [] [] = .ok [x, y])
include hu hf hops

theorem execRtopk_ok {ks : List Nat} (h0 : y.toNat ≠ 0) (hk : y.toNat ≤ entKm1 (s.entry s.myFloe (s.ep e).redStream) + 1)
    (hks : s.accessAll 8 { r := true } (dwordsAt x y.toNat) = .ok ks) (ht : topOk (ks.map s.rd8) = true) (hr : s.RedRoom e) :
    ∃ t, execRtopk a b e s = .next (t.done 4 [a, b]) ∧ s.RedAdvanced t e ∧
      s.RedSent t e 0 (s.ep e).sseq (.top (ks.map s.rd8)) := by
  have hc : s.Counted (ks.foldl (fun t k => t.correct t.cur.core k 8) s) :=
    State.Counted.foldl (fun t k => t.correct_counted _ _ _) ks s
  obtain ⟨t, hput, hadv, hsent⟩ := State.putRed_ok (v := .top (ks.map s.rd8)) (hc.redRoom hr)
  refine ⟨t, (State.onEp_holds hops rfl hu.holds).trans (State.issue_ok hops ?_), ?_, ?_⟩
  · have hn : ¬ (decide (y.toNat = 0) || decide (y.toNat > entKm1 (s.entry s.myFloe (s.ep e).redStream) + 1)) = true := by
      simp only [Bool.or_eq_true, decide_eq_true_eq]
      omega
    rw [hu.mayUse]
    refine (Res.refuseIf_false (by simp [hf])).trans ((if_neg hn).trans ?_)
    show (s.accessAll 8 { r := true } (dwordsAt x y.toNat)).bind _ = _
    rw [hks]
    show (if !topOk (ks.map s.rd8) then _ else _) = _
    rw [ht]
    exact hput
  · simpa only [State.RedAdvanced, hc.ep, hc.mem, hc.ctx] using hadv
  · simpa only [State.RedSent, hc.ep] using hsent

theorem execRtopk_empty (hy : y = 0) : execRtopk a b e s = .next (s.trap illOpnd) := by
  refine (State.onEp_holds hops rfl hu.holds).trans (State.issue_trap hops ?_)
  rw [hu.mayUse]
  refine (Res.refuseIf_false (by simp [hf])).trans (if_pos ?_)
  subst hy
  rfl

end

/-! #### Results (R378) -/

theorem State.mapCtx_ep (s : State) (f : Ctx → Ctx) (e : EpId) : (s.mapCtx f).ep e = s.ep e := by
  rw [State.ep, State.mapCtx_me]
  rfl

theorem State.complete_ep (s : State) (len : Nat) (e : EpId) : (s.complete len).ep e = s.ep e := s.mapCtx_ep _ e

theorem State.complete_rg (s : State) (len : Nat) (r : Reg) : (s.complete len).ctx.rg r = s.ctx.rg r := by
  rw [State.complete, State.mapCtx_ctx]
  exact ((Ctx.advance_kept (ds := []) len).trans (Ctx.honour_kept _)).g r (by simp)

theorem State.mapCtx_rg (s : State) {f : Ctx → Ctx} (hf : (f s.ctx).g = s.ctx.g) (r : Reg) :
    (s.mapCtx f).ctx.rg r = s.ctx.rg r := by
  rw [State.mapCtx_ctx, Ctx.rg, Ctx.rg, hf]

section
variable {s : State} {e : EpId} {d : Reg} {x : W}

/-- The record in the head slot. -/
def State.redSlot (s : State) (e : EpId) : Nat := (s.ep e).slotKey s.cur.core (s.ep e).head.toNat

/-- What taking it leaves of the endpoint. -/
def Endpoint.tookResult (ep : Endpoint) (pt : Nat) (epoch : BitVec 16) (counted : Bool) : Endpoint :=
  { ep with
    owed := 0, inSlots := if pt = 4 then ep.inSlots.erase epoch else ep.inSlots
    state := if counted then ep.state - 1 else ep.state, lacnt := if counted then ep.lacnt - 1 else ep.lacnt }

theorem Endpoint.proto_ne {ep : Endpoint} {q : BitVec 5} (hp : ep.proto.toNat = 7) (hq : q.toNat ≠ 7) :
    (ep.proto == q) = false :=
  beq_eq_false_iff_ne.2 fun h => hq (h ▸ hp)

theorem Endpoint.next_head_lt (ep : Endpoint) : (ep.head.toNat + 1) % ep.slots < 64 :=
  lt_of_lt_of_le (Nat.mod_lt _ (Nat.succ_pos _)) ep.depth.isLt

/-- What freeing the head slot does to an endpoint that returns no credits. -/
def Endpoint.freedHead (ep : Endpoint) : Endpoint :=
  { ep with head := BitVec.ofNat 6 ((ep.head.toNat + 1) % ep.slots), rseq := ep.rseq + 1, owed := ep.owed + 1 }

theorem Endpoint.freedHead_head (ep : Endpoint) : ep.freedHead.head.toNat = (ep.head.toNat + 1) % ep.slots :=
  (BitVec.toNat_ofNat _ _).trans (Nat.mod_eq_of_lt ep.next_head_lt)

/-- A slot of a RED endpoint is freed: no credit is returned. -/
theorem State.freeSlot_red {t : State} (hp : (t.ep e).proto.toNat = 7) :
    ∃ u : State, t.Written u ∧ t.freeSlot t.cur.core e = u.mapEp e Endpoint.freedHead := by
  have h10 : ((t.ep e).proto == 10) = false := Endpoint.proto_ne hp (by decide)
  have hno : (t.ep e).creditPackets = false := by
    rw [Endpoint.creditPackets, Endpoint.proto_ne hp (by decide), Endpoint.proto_ne hp (by decide)]
    rfl
  have hw := t.wr8_written ((t.ep e).slotKey t.cur.core (t.ep e).head.toNat)
    (t.rd8 ((t.ep e).slotKey t.cur.core (t.ep e).head.toNat) &&& ~~~(1#64 <<< 63))
  refine ⟨_, hw, ?_⟩
  rw [State.mapEp, hw.cur]
  exact (if_neg (ne_true_of_eq_false h10)).trans (if_neg (ne_true_of_eq_false hno))

theorem State.freeSlot_red_kept {t : State} (hp : (t.ep e).proto.toNat = 7) :
    (t.freeSlot t.cur.core e).ctx.g = t.ctx.g ∧
      ((t.freeSlot t.cur.core e).ep e).head.toNat = ((t.ep e).head.toNat + 1) % (t.ep e).slots ∧
      (t.freeSlot t.cur.core e).cur = t.cur := by
  obtain ⟨u, hw, hu⟩ := State.freeSlot_red hp
  rw [hu]
  refine ⟨?_, ?_, hw.cur⟩
  · rw [State.mapEp_ctx, hw.g]
  · rw [State.mapEp_ep, hw.ep, Endpoint.freedHead_head]

variable (hu : s.RedUsable e) (hops : s.operands [0] [d] [] = .ok [x])
include hu hops

theorem execRget_busy (h : s.heldAt s.cur.core (s.redSlot e) 16 true = true) :
    execRget d 0 e s = .next (s.block { kind := 5 }) := by
  refine (State.onEp_holds hops rfl hu.holds).trans (State.issue_block hops ?_)
  rw [hu.mayUse]
  exact if_pos h

section
variable (hfree : s.heldAt s.cur.core (s.redSlot e) 16 true = false)
include hfree

theorem execRget_empty (h : hdrF (s.slotHeader s.cur.core e 0) = false) :
    execRget d 0 e s = .next (s.block { kind := 1, ep := e.toNat }) := by
  refine (State.onEp_holds hops rfl hu.holds).trans (State.issue_block hops ?_)
  rw [hu.mayUse]
  refine (State.unheld_free hfree).trans (if_pos ?_)
  rw [h]
  rfl

section
variable (hF : hdrF (s.slotHeader s.cur.core e 0) = true)
include hF

theorem execRget_held (h : s.heldAt s.cur.core (s.redSlot e + 16) (hdrLen (s.slotHeader s.cur.core e 0)) false = true) :
    execRget d 0 e s = .next (s.block { kind := 5 }) := by
  refine (State.onEp_holds hops rfl hu.holds).trans (State.issue_block hops ?_)
  rw [hu.mayUse]
  refine (State.unheld_free hfree).trans ((if_neg ?_).trans (if_pos h))
  rw [hF]
  simp

/-- The value of a result without exceptions is delivered, and its slot freed. -/
theorem execRget_ok (h : s.heldAt s.cur.core (s.redSlot e + 16) (hdrLen (s.slotHeader s.cur.core e 0)) false = false)
    (hexc : (s.rd8 (s.redSlot e + 16)).extractLsb' 24 5 = 0) :
    let r := s.rd8 (s.redSlot e + 16)
    execRget d 0 e s = .next ((((((s.setG d (s.rd8 (s.redSlot e + 16 + 8))).freeSlot s.cur.core e).mapEp e fun ep =>
      ep.tookResult (wf r 29 3) (r.extractLsb' 48 16) (wf r 29 3 == 4 && (s.ep e).outEpochs.contains (r.extractLsb' 48 16))).orFlags
        s.cur.core s.cur.ctx 0).forfeits 0).done 4 [0]) := by
  intro r
  refine (State.onEp_holds hops rfl hu.holds).trans (State.issue_ok hops ?_)
  rw [hu.mayUse]
  refine (State.unheld_free hfree).trans ((if_neg (by rw [hF]; simp)).trans ((State.unheld_free h).trans ?_))
  dsimp only
  rw [if_pos rfl]
  dsimp only [Res.bind]
  rw [show s.rd8 ((s.ep e).slotKey s.cur.core (s.ep e).head.toNat + 16) = r from rfl, show r.extractLsb' 24 5 = 0 from hexc, ite_self]
  exact State.fpDone_ok (by simp)

end

end

end

/-! #### What taking a result leaves (R378) -/

theorem State.done_zero (s : State) (len : Nat) : s.done len [0] = s.complete len := by
  rw [State.done, State.takeWords_of_popCount]
  cases s.aliasOf 1 <;> rfl

theorem State.orFlags_here (s : State) (f : BitVec 5) :
    s.orFlags s.cur.core s.cur.ctx f = s.mapCtx fun c => { c with fst := c.fst ||| f.zeroExtend 13 } := rfl

section
variable {s : State} {e : EpId} {d : Reg}

/-- What `rget` leaves of the registers and of the endpoint, on a destination below the cap that no endpoint binds. -/
theorem State.tookResult_effect (hp : (s.ep e).proto.toNat = 7) (hd : s.plain [d]) (w : W) {f : Endpoint → Endpoint}
    (hf : ∀ ep : Endpoint, (f ep).head = ep.head) :
    let t := (((((s.setG d w).freeSlot s.cur.core e).mapEp e f).orFlags s.cur.core s.cur.ctx 0).forfeits 0).done 4 [0]
    t.ctx.rg d = (if d = 0 then 0 else w) ∧ (∀ r, r ≠ d → t.ctx.rg r = s.ctx.rg r) ∧
      (t.ep e).head.toNat = ((s.ep e).head.toNat + 1) % (s.ep e).slots := by
  have hset := State.setG_plain hd w
  have hep : (s.setG d w).ep e = s.ep e := by rw [hset, State.mapCtx_ep]
  have hg : (s.setG d w).ctx.g = (s.ctx.wg d w).g := by rw [hset, State.mapCtx_ctx]
  have hcur : (s.setG d w).cur = s.cur := by rw [hset]; rfl
  generalize s.setG d w = t at hep hg hcur
  obtain ⟨kg, khead, kcur⟩ := State.freeSlot_red_kept (t := t) (e := e) (hep ▸ hp)
  rw [hcur] at kg khead kcur
  rw [hep] at khead
  generalize t.freeSlot s.cur.core e = u at kg khead kcur
  have hrg (r : Reg) : ((((u.mapEp e f).orFlags s.cur.core s.cur.ctx 0).forfeits 0).done 4 [0]).ctx.rg r =
      (s.ctx.wg d w).rg r := by
    rw [State.done_zero, State.complete_rg, State.forfeits, State.mapCtx_rg _ rfl, ← kcur, ← State.mapEp_cur u e f,
      State.orFlags_here, State.mapCtx_rg _ rfl, Ctx.rg, State.mapEp_ctx, kg, hg, ← Ctx.rg]
  refine ⟨?_, fun r hr => (hrg r).trans (Ctx.rg_wg_other _ hr _), ?_⟩
  · rw [hrg]
    split
    · next h0 => subst h0; rfl
    · next h0 => exact Ctx.rg_wg_same _ h0 _
  · rw [State.done_zero, State.complete_ep, State.forfeits, State.mapCtx_ep, ← kcur, ← State.mapEp_cur u e f,
      State.orFlags_here, State.mapCtx_ep, State.mapEp_ep, hf, khead]

end

/-! #### Markers and joins (R375, R376) -/

section
variable {s : State} {a : Reg} {x : W} {e : EpId}

theorem execSmark_ok (hops : s.operands [a] [] [] = .ok [x]) (hx : x.toNat < 4096) :
    execSmark a s =
      .next (({ s with net := s.net ++ [streamPacket s.myFloe 1 1 (.marker (x.truncate 12)) s.cur.core] } : State).done 4 [a]) := by
  have h0 : wf x 12 52 = 0 := by
    rw [wf_eq_toNat, BitVec.extractLsb'_toNat, Nat.shiftRight_eq_div_pow, Nat.div_eq_of_lt hx, Nat.zero_mod]
  refine State.issue_ok hops (if_neg ?_)
  show ¬ (wf x 12 52 != 0) = true
  rw [h0]
  simp

theorem execSmark_illegal (hops : s.operands [a] [] [] = .ok [x]) (hx : 4096 ≤ x.toNat) :
    execSmark a s = .next (s.trap illOpnd) := by
  have h0 : wf x 12 52 ≠ 0 := by
    have := x.isLt
    rw [wf_eq_toNat, BitVec.extractLsb'_toNat, Nat.shiftRight_eq_div_pow, Nat.mod_eq_of_lt (by omega)]
    exact (Nat.div_pos hx (by decide)).ne'
  exact State.issue_trap hops (if_pos (bne_iff_ne.2 h0))

theorem joinWordsOk_iff (x1 x2 : W) : joinWordsOk x1 x2 = true ↔
    wf x1 37 27 = 0 ∧ 1 ≤ wf x1 28 9 ∧ wf x1 28 9 ≤ 257 ∧ wf x2 0 12 = 0 := by
  simp only [joinWordsOk, Bool.and_eq_true, beq_iff_eq, decide_eq_true_eq, and_assoc]

theorem State.answer_written (s : State) (c : CoreId) (r : ConnReq) (ok : Bool) (peer : W) (depth : Nat) :
    s.Written (s.answer c r ok peer depth) := .of_cores rfl rfl

/-- A request held at the endpoint is answered: nothing of the endpoint but that, and no register changes. -/
theorem State.refuseAsked_kept (s : State) (e : EpId) :
    let t := s.refuseAsked s.cur.core e
    t.cur = s.cur ∧ t.ctx.g = s.ctx.g ∧ (t.ep e).gen = (s.ep e).gen ∧ (t.ep e).owner = (s.ep e).owner := by
  intro t
  cases h : (s.epAt s.cur.core e).asked with
  | none =>
    have ht : t = s := by
      show s.refuseAsked s.cur.core e = s
      rw [State.refuseAsked, h]
    rw [ht]
    exact ⟨rfl, rfl, rfl, rfl⟩
  | some r =>
    have ht : t = (s.answer s.cur.core r false 0 0).mapEp e fun ep => { ep with asked := none } := by
      show s.refuseAsked s.cur.core e = _
      rw [State.refuseAsked, h]
      rfl
    have hw := s.answer_written s.cur.core r false 0 0
    generalize s.answer s.cur.core r false 0 0 = u at ht hw
    rw [ht]
    rw [State.mapEp_ctx, hw.g, State.mapEp_ep, hw.ep]
    exact ⟨hw.cur, rfl, rfl, rfl⟩

/-- The endpoint that opens: OPEN with its next generation. -/
theorem State.openEp_kept (s : State) (e : EpId) (peer : W) (n : Nat) (recov : W) (ini : Bool) :
    let t := s.openEp s.cur.core e peer n recov ini
    t.cur = s.cur ∧ t.ctx.g = s.ctx.g ∧ (t.ep e).st = .open ∧ (t.ep e).proto = (s.ep e).proto ∧
      (t.ep e).gen = (s.ep e).gen + 1 ∧ (t.ep e).owner = (s.ep e).owner := by
  intro t
  obtain ⟨f, ht, hst, hproto, hgen, howner⟩ : ∃ f : Endpoint → Endpoint, t = (s.mapEp e f).clearSlots s.cur.core e ∧
      (f (s.ep e)).st = .open ∧ (f (s.ep e)).proto = (s.ep e).proto ∧ (f (s.ep e)).gen = (s.ep e).gen + 1 ∧
      (f (s.ep e)).owner = (s.ep e).owner := ⟨_, rfl, rfl, rfl, rfl, rfl⟩
  have hw := (s.mapEp e f).clearSlots_written s.cur.core e
  rw [← ht] at hw
  clear_value t
  rw [hw.ep, State.mapEp_ep, hw.g, State.mapEp_ctx]
  exact ⟨hw.cur, rfl, hst, hproto, hgen, howner⟩

end

/-- The binding that the words of a join ask for (R376). -/
def State.joinBinding (s : State) : Binding := ⟨7, 0, wf (s.ctx.rx 1) 0 22, wf (s.ctx.rx 1) 28 9, wf (s.ctx.rx 1) 22 6⟩

/-- The entry of a stream admits a join (R376): it takes the stream in at port L, and a reducing one has the index and format. -/
def StreamEnt.Admits (ent : StreamEnt) (x : W) : Prop :=
  entV ent.d0 = true ∧ (entIn ent.d0).testBit 0 = true ∧
    (entRed ent = true → entLo ent ≤ wf x 40 12 ∧ wf x 40 12 ≤ entHi ent ∧ entFmt ent = wf x 38 2)

theorem StreamEnt.Admits.refuses {ent : StreamEnt} {x : W} (h : ent.Admits x) :
    (!entV ent.d0 || !(entIn ent.d0).testBit 0 ||
      (entRed ent && (decide (wf x 40 12 < entLo ent) || decide (entHi ent < wf x 40 12) || entFmt ent != wf x 38 2))) = false := by
  obtain ⟨hv, hin, hred⟩ := h
  cases hr : entRed ent with
  | false => simp [hv, hin]
  | true =>
    obtain ⟨hlo, hhi, hfmt⟩ := hred hr
    simp [hv, hin, hfmt, hlo, hhi]

/-- The endpoint that has joined: bound and OPEN under its next generation, at the epoch of the join. -/
def State.joinOpened (s : State) (e : EpId) (x peer recov : W) : State :=
  (((s.refuseAsked s.cur.core e).mapEp e fun q => q.bindTo s.joinBinding .open).openEp s.cur.core e peer 0 recov false).mapEp e
    fun q => { q with sseq := x.extractLsb' 22 16, inSlots := [] }

theorem State.joinOpened_kept (s : State) (e : EpId) (x peer recov : W) :
    let t := s.joinOpened e x peer recov
    (t.ep e).st = .open ∧ (t.ep e).proto = 7 ∧ (t.ep e).gen = (s.ep e).gen + 1 ∧ (t.ep e).sseq = x.extractLsb' 22 16 ∧
      (t.ep e).owner = (s.ep e).owner ∧ t.ctx.g = s.ctx.g := by
  intro t
  obtain ⟨hcur, hg, hgen, howner⟩ := s.refuseAsked_kept e
  have ht : t = s.joinOpened e x peer recov := rfl
  rw [State.joinOpened] at ht
  clear_value t
  generalize s.refuseAsked s.cur.core e = u at hcur hg hgen howner ht
  generalize hv : u.mapEp e (fun q => q.bindTo s.joinBinding .open) = v at ht
  have hvc : v.cur = s.cur := hv ▸ hcur
  obtain ⟨-, og, ost, oproto, ogen, oowner⟩ := v.openEp_kept e peer 0 recov false
  rw [hvc] at og ost oproto ogen oowner
  generalize v.openEp s.cur.core e peer 0 recov false = w at og ost oproto ogen oowner ht
  rw [ht, State.mapEp_ep, State.mapEp_ctx]
  rw [← hv, State.mapEp_ep] at oproto ogen oowner
  rw [← hv, State.mapEp_ctx] at og
  exact ⟨ost, oproto, ogen.trans (congrArg (· + 1) hgen), rfl, oowner.trans howner, og.trans hg⟩

section
variable {s : State} {a : Reg} {x : W} {e : EpId} (hops : s.operands [a] [] [] = .ok [x])
include hops

theorem execRjoin_illegal (h : joinWordsOk (s.ctx.rx 1) (s.ctx.rx 2) = false) :
    execRjoin a e s = .next (s.trap illOpnd) := by
  refine State.checked_trap hops ?_
  rw [h]
  rfl

section
variable (hwords : joinWordsOk (s.ctx.rx 1) (s.ctx.rx 2) = true) (hh : s.holds e) (hx : wf x 0 22 = 0)
include hwords hh hx

theorem execRjoin_lost (h : (s.ep e).st = .lost) : execRjoin a e s = .next (s.trap (peerLost e)) := by
  refine (State.onEp_holds hops (by rw [hwords]; rfl) hh).trans (State.issue_trap hops ?_)
  refine (if_neg ?_).trans (if_pos (beq_iff_eq.2 h))
  rw [show nthD 0 [x] 0 = x from rfl, hx]
  simp

theorem execRjoin_bound (hu : (s.ep e).st ≠ .unbound) (hl : (s.ep e).st ≠ .lost) :
    execRjoin a e s = .next (s.trap (refuse e 11)) := by
  refine (State.onEp_holds hops (by rw [hwords]; rfl) hh).trans (State.issue_trap hops ?_)
  refine (if_neg ?_).trans ((if_neg ?_).trans (Res.refuseIf_true (bne_iff_ne.2 hu)))
  · rw [show nthD 0 [x] 0 = x from rfl, hx]
    simp
  · rw [beq_iff_eq]
    exact hl

section
variable (hu : (s.ep e).st = .unbound)
include hu

theorem execRjoin_small (h : wf (s.ctx.rx 1) 28 9 < 34 ∨ 3 < wf (s.ctx.rx 1) 22 6) :
    execRjoin a e s = .next (s.trap (refuse e 10)) := by
  refine (State.onEp_holds hops (by rw [hwords]; rfl) hh).trans (State.issue_trap hops ?_)
  refine (if_neg ?_).trans ((if_neg ?_).trans ((Res.refuseIf_false ?_).trans (Res.refuseIf_true ?_)))
  · rw [show nthD 0 [x] 0 = x from rfl, hx]
    simp
  · rw [hu]
    decide
  · rw [hu]
    rfl
  · simp only [Bool.or_eq_true, decide_eq_true_eq]
    exact .inl h

variable (hs : 34 ≤ wf (s.ctx.rx 1) 28 9) (hd : wf (s.ctx.rx 1) 22 6 ≤ 3) (hb : s.me.bufferFits s.joinBinding = true)
  (ha : (s.entry s.myFloe (x.extractLsb' 52 12)).Admits x)
include hs hd hb ha

theorem execRjoin_admitted : ∃ k peer recov, execRjoin a e s = s.issue 4 [a] [] [] k ∧
    k [x] s = if (s.mapEp e fun q => q.bindTo s.joinBinding .open).slotsHeld s.cur.core e true then .block { kind := 5 } s
      else .ok (s.joinOpened e x peer recov) := by
  refine ⟨_, _, _, State.onEp_holds hops (by rw [hwords]; rfl) hh, (if_neg ?_).trans ((if_neg ?_).trans
    ((Res.refuseIf_false ?_).trans ((Res.refuseIf_false ?_).trans (Res.refuseIf_false ha.refuses))))⟩
  · rw [show nthD 0 [x] 0 = x from rfl, hx]
    simp
  · rw [hu]
    decide
  · rw [hu]
    rfl
  · rw [Bool.or_eq_false_iff, Bool.or_eq_false_iff]
    exact ⟨⟨decide_eq_false (Nat.not_lt.2 hs), decide_eq_false (Nat.not_lt.2 hd)⟩, congrArg not hb⟩

theorem execRjoin_held (h : (s.mapEp e fun q => q.bindTo s.joinBinding .open).slotsHeld s.cur.core e true = true) :
    execRjoin a e s = .next (s.block { kind := 5 }) := by
  obtain ⟨k, _, _, hk, hr⟩ := execRjoin_admitted hops hwords hh hx hu hs hd hb ha
  exact hk.trans (State.issue_block hops (hr.trans (if_pos h)))

theorem execRjoin_ok (h : (s.mapEp e fun q => q.bindTo s.joinBinding .open).slotsHeld s.cur.core e true = false) :
    ∃ t : State, execRjoin a e s = .next (t.done 4 [a]) ∧ (t.ep e).st = .open ∧ (t.ep e).proto = 7 ∧
      (t.ep e).gen = (s.ep e).gen + 1 ∧ (t.ep e).sseq = x.extractLsb' 22 16 ∧ (t.ep e).owner = (s.ep e).owner ∧
      t.ctx.g = s.ctx.g := by
  obtain ⟨k, peer, recov, hk, hr⟩ := execRjoin_admitted hops hwords hh hx hu hs hd hb ha
  refine ⟨_, hk.trans (State.issue_ok hops (hr.trans (if_neg (ne_true_of_eq_false h)))), ?_⟩
  exact s.joinOpened_kept e x peer recov

end

end

end

/-! #### Arrivals at a router (R363, R364, R369) -/

section
variable {s : State} {p port : Nat} {f : FloeId} {pk : Packet} {k : RedPkt}

/-- What REDUCTION_PACKET_ARRIVAL makes of a reduction packet, by the entry found for its stream. -/
def State.redArrival (s : State) (p : Nat) (f : FloeId) (port : Nat) (pk : Packet) (k : RedPkt) (ent : StreamEnt) : State :=
  if !entV ent.d0 then (s.takePacket p).rdropOne f
  else if k.ptype = 4 || k.ptype = 5 then
    if (entOut ent.d0).testBit port then s.direct p f port pk (entIn ent.d0) else (s.takePacket p).rdropOne f
  else if k.ptype ≥ 6 || !(entIn ent.d0).testBit port then (s.takePacket p).rdropOne f
  else if ent.marks.getLsbD port then s
  else if entRed ent then (s.takePacket p).nodeArrive f k.stream ent pk port k
  else s.direct p f port { pk with body := .red (redThrough k ent) } (entOut ent.d0)

theorem execReductionPacketArrival_red (h : s.streamHead p = some (f, port, pk)) (hk : pk.body = .red k) :
    execReductionPacketArrival p s = .next (s.redArrival p f port pk k (s.entryFor f k.stream pk)) := by
  rw [execReductionPacketArrival, h]
  dsimp only
  rw [hk]
  rfl

variable {ent : StreamEnt}

theorem State.redArrival_invalid (h : entV ent.d0 = false) :
    s.redArrival p f port pk k ent = (s.takePacket p).rdropOne f := if_pos (congrArg not h)

section
variable (hv : entV ent.d0 = true)
include hv

theorem State.redArrival_result (h : k.ptype = 4 ∨ k.ptype = 5) : s.redArrival p f port pk k ent =
    if (entOut ent.d0).testBit port then s.direct p f port pk (entIn ent.d0) else (s.takePacket p).rdropOne f := by
  simp [State.redArrival, hv, h]

section
variable (h4 : k.ptype < 4) (hin : (entIn ent.d0).testBit port = true)
include h4 hin

theorem State.redArrival_marked (hm : ent.marks.getLsbD port = true) : s.redArrival p f port pk k ent = s := by
  have h45 : ¬ (k.ptype = 4 ∨ k.ptype = 5) := by omega
  simp [State.redArrival, hv, h45, hin, hm, show ¬ 6 ≤ k.ptype by omega]

theorem State.redArrival_onward (hm : ent.marks.getLsbD port = false) : s.redArrival p f port pk k ent =
    if entRed ent then (s.takePacket p).nodeArrive f k.stream ent pk port k
    else s.direct p f port { pk with body := .red (redThrough k ent) } (entOut ent.d0) := by
  have h45 : ¬ (k.ptype = 4 ∨ k.ptype = 5) := by omega
  simp [State.redArrival, hv, h45, hin, hm, show ¬ 6 ≤ k.ptype by omega]

end

end

/-- A packet of another type, and a contribution by a port outside IN, are dropped whatever the entry. -/
theorem State.redArrival_outside
    (h : 6 ≤ k.ptype ∨ (¬ (k.ptype = 4 ∨ k.ptype = 5) ∧ ¬ (entIn ent.d0).testBit port = true)) :
    s.redArrival p f port pk k ent = (s.takePacket p).rdropOne f := by
  have h45 : ¬ (k.ptype = 4 ∨ k.ptype = 5) := by
    rcases h with h | h
    · omega
    · exact h.1
  have hdrop : (decide (k.ptype ≥ 6) || !(entIn ent.d0).testBit port) = true := by
    rcases h with h | ⟨-, h⟩
    · simp [h]
    · simp [eq_false_of_ne_true h]
  cases hv : entV ent.d0 with
  | false => exact State.redArrival_invalid hv
  | true => simp [State.redArrival, hv, h45, hdrop]

end

/-! #### Arrivals at a node (R368, R369) -/

section
variable {s : State} {f : FloeId} {n : BitVec 12} {ent : StreamEnt} {pk : Packet} {port : Nat} {k : RedPkt}

/-- A node opened anew for the epoch of an arrival takes it. -/
def State.nodeFresh (s : State) (f : FloeId) (n : BitVec 12) (ent : StreamEnt) (pk : Packet) (port : Nat) (k : RedPkt) : State :=
  (s.setNode f n { fwd := some false, epoch := k.epoch }).nodeTake f n ent pk port k

theorem State.nodeArrive_idle (h : (s.node f n).fwd = none) :
    s.nodeArrive f n ent pk port k = s.nodeFresh f n ent pk port k := by
  rw [State.nodeArrive]
  dsimp only
  rw [h]
  rfl

/-- An arrival at a node that is in use, by how far the arrival's epoch is ahead. -/
theorem State.nodeArrive_used {fwd : Bool} (h : (s.node f n).fwd = some fwd) : s.nodeArrive f n ent pk port k =
    if (k.epoch - (s.node f n).epoch).toNat = 0 then s.nodeTake f n ent pk port k
    else if (k.epoch - (s.node f n).epoch).toNat ≥ 32768 then
      s.mapFloe f fun z => { z with rstale := BitVec.ofNat 32 (satAdd z.rstale.toNat 1 32) }
    else if fwd then s.nodeFresh f n ent pk port k
    else (s.nodeForward f n ent true).nodeFresh f n ent pk port k := by
  rw [State.nodeArrive]
  dsimp only
  rw [h]
  rfl

theorem State.nodeArrive_current (h : (s.node f n).fwd ≠ none) (h0 : (k.epoch - (s.node f n).epoch).toNat = 0) :
    s.nodeArrive f n ent pk port k = s.nodeTake f n ent pk port k := by
  obtain ⟨fwd, hf⟩ := Option.ne_none_iff_exists'.1 h
  rw [State.nodeArrive_used hf, if_pos h0]

theorem State.nodeArrive_stale (h : (s.node f n).fwd ≠ none) (h0 : 32768 ≤ (k.epoch - (s.node f n).epoch).toNat) :
    s.nodeArrive f n ent pk port k =
      s.mapFloe f fun z => { z with rstale := BitVec.ofNat 32 (satAdd z.rstale.toNat 1 32) } := by
  obtain ⟨fwd, hf⟩ := Option.ne_none_iff_exists'.1 h
  rw [State.nodeArrive_used hf, if_neg (by omega), if_pos h0]

theorem State.nodeArrive_newer {fwd : Bool} (hf : (s.node f n).fwd = some fwd) (h1 : 1 ≤ (k.epoch - (s.node f n).epoch).toNat)
    (h2 : (k.epoch - (s.node f n).epoch).toNat < 32768) : s.nodeArrive f n ent pk port k =
      if fwd then s.nodeFresh f n ent pk port k else (s.nodeForward f n ent true).nodeFresh f n ent pk port k := by
  rw [State.nodeArrive_used hf, if_neg (by omega), if_neg (by omega)]

theorem execReductionDeadline_open (h : entV (s.entry f n).d0 = true ∧ entRed (s.entry f n) = true ∧
    entDl (s.entry f n) ≠ 0 ∧ (s.node f n).fwd = some false) :
    execReductionDeadline f n s = .next (s.nodeForward f n (s.entry f n) true) := by
  obtain ⟨hv, hr, hd, hf⟩ := h
  simp [execReductionDeadline, hv, hr, hd, hf]

theorem execReductionDeadline_shut (h : ¬ (entV (s.entry f n).d0 = true ∧ entRed (s.entry f n) = true ∧
    entDl (s.entry f n) ≠ 0 ∧ (s.node f n).fwd = some false)) : execReductionDeadline f n s = .next s :=
  congrArg _ (if_neg fun hc => h (by simpa [and_assoc] using hc))

end

/-! #### Results at the endpoints of a floe (R378) -/

theorem foldl_stays {α β : Type} {f : β → α → β} {b : β} {l : List α} (h : ∀ x ∈ l, f b x = b) : l.foldl f b = b := by
  induction l with
  | nil => rfl
  | cons a l ih =>
    rw [List.foldl_cons, h a (List.mem_cons_self ..)]
    exact ih fun x hx => h x (List.mem_cons_of_mem _ hx)

theorem foldl_once {α β : Type} {f : β → α → β} {a : α} {b : β} {l : List α} (hn : l.Nodup) (ha : a ∈ l)
    (h0 : ∀ x ∈ l, x ≠ a → f b x = b) (h1 : ∀ x ∈ l, x ≠ a → f (f b a) x = f b a) : l.foldl f b = f b a := by
  obtain ⟨l₁, l₂, rfl⟩ := List.append_of_mem ha
  obtain ⟨-, -, hd⟩ := List.nodup_append.1 hn
  have hn2 : a ∉ l₂ := (List.nodup_cons.1 (List.nodup_append.1 hn).2.1).1
  rw [List.foldl_append, List.foldl_cons,
    foldl_stays (fun x hx => h0 x (List.mem_append_left _ hx) (hd x hx a (List.mem_cons_self ..))),
    foldl_stays (fun x hx => h1 x (List.mem_append_right _ (List.mem_cons_of_mem _ hx)) fun h => hn2 (h ▸ hx))]

theorem nodup_allEps : allEps.Nodup := by decide

theorem mem_allEps (e : EpId) : e ∈ allEps := by
  rw [allEps, List.mem_map]
  exact ⟨e.toNat, List.mem_range.2 e.isLt, BitVec.eq_of_toNat_eq (by simp)⟩

theorem nodup_coresOf (f : FloeId) : (coresOf f).Nodup := by
  refine List.nodup_range.map_on fun i hi j hj h => ?_
  have hij := congrArg BitVec.toNat h
  rw [coreAt_toNat f (List.mem_range.1 hi), coreAt_toNat f (List.mem_range.1 hj)] at hij
  omega

/-- Whether an endpoint has joined a stream (R376). -/
def State.joins (s : State) (c : CoreId) (e : EpId) (stream : BitVec 12) : Bool :=
  (s.epAt c e).isRed && (s.epAt c e).redStream == stream

theorem State.joins_iff {s : State} {c : CoreId} {e : EpId} {n : BitVec 12} :
    s.joins c e n = true ↔ (s.epAt c e).isRed = true ∧ (s.epAt c e).redStream = n := by
  rw [State.joins, Bool.and_eq_true, beq_iff_eq]

section
variable {s t u : State}

/-- From s to t no endpoint has changed what it joined. -/
def State.SameJoins (s t : State) : Prop := ∀ c e n, t.joins c e n = s.joins c e n

theorem State.SameJoins.of_epAt (h : ∀ c e, t.epAt c e = s.epAt c e) : s.SameJoins t := fun c e n => by
  rw [State.joins, State.joins, h]

theorem State.SameJoins.trans (h : s.SameJoins t) (h' : t.SameJoins u) : s.SameJoins u := fun c e n =>
  (h' c e n).trans (h c e n)

theorem State.mapEpAt_epAt_other (s : State) {c c' : CoreId} {e e' : EpId} (h : ¬ (c = c' ∧ e = e')) (f : Endpoint → Endpoint) :
    (s.mapEpAt c e f).epAt c' e' = s.epAt c' e' := by
  by_cases hc : c = c'
  · subst hc
    rw [State.epAt, State.mapEpAt, State.mapCore_core, Core.mapEp_ep_other _ _ _ _ fun he => h ⟨rfl, he⟩]
    rfl
  · rw [State.epAt, State.mapEpAt, State.mapCore_core_other _ _ _ _ hc]
    rfl

theorem State.mapEpAt_sameJoins (s : State) (c : CoreId) (e : EpId) {f : Endpoint → Endpoint}
    (hf : ∀ ep : Endpoint, (f ep).isRed = ep.isRed ∧ (f ep).redStream = ep.redStream) : s.SameJoins (s.mapEpAt c e f) := by
  intro c' e' n
  by_cases h : c = c' ∧ e = e'
  · obtain ⟨rfl, rfl⟩ := h
    rw [State.joins, State.mapEpAt_epAt, (hf _).1, (hf _).2]
    rfl
  · rw [State.joins, State.mapEpAt_epAt_other _ h]
    rfl

theorem Core.post_ep (x : Core) (w : W) (e : EpId) : (x.post w).ep e = x.ep e := by
  rw [Core.post]
  split
  · rfl
  · split <;> rfl

theorem State.msgEvent_epAt (s : State) (c : CoreId) (e : EpId) (always : Bool) (c' : CoreId) (e' : EpId) :
    (s.msgEvent c e always).epAt c' e' = s.epAt c' e' := by
  rw [State.msgEvent]
  split
  · by_cases h : c = c'
    · subst h
      rw [State.epAt, State.mapCore_core, Core.post_ep]
      rfl
    · rw [State.epAt, State.mapCore_core_other _ _ _ _ h]
      rfl
  · rfl

theorem State.placeRed_sameJoins (s : State) (c : CoreId) (e : EpId) (k : RedPkt) : s.SameJoins (s.placeRed c e k) := by
  rw [State.placeRed]
  dsimp only
  split
  · exact .of_epAt fun _ _ => rfl
  · refine (State.SameJoins.of_epAt ?_).trans ((State.mapEpAt_sameJoins _ c e ?_).trans (.of_epAt (State.msgEvent_epAt _ c e true)))
    · exact (s.fillSlot_written c e _ _ _ _ _).epAt
    · intro ep
      split <;> exact ⟨rfl, rfl⟩

end

/-- A result given to every endpoint of a floe that has joined its stream. -/
def State.placeAll (s : State) (f : FloeId) (k : RedPkt) : State :=
  (coresOf f).foldl (fun s c => allEps.foldl (fun s e => if s.joins c e k.stream then s.placeRed c e k else s) s) s

section
variable {s : State} {f : FloeId} {k : RedPkt}

theorem State.placeAll_none (h : ∀ c ∈ coresOf f, ∀ e, s.joins c e k.stream = false) : s.placeAll f k = s :=
  foldl_stays fun c hc => foldl_stays fun e _ => if_neg (ne_true_of_eq_false (h c hc e))

/-- The one endpoint of the floe that has joined takes the result. -/
theorem State.placeAll_one {c : CoreId} {e : EpId} (hc : c ∈ coresOf f) (hj : s.joins c e k.stream = true)
    (ho : ∀ c' ∈ coresOf f, ∀ e', s.joins c' e' k.stream = true → c' = c ∧ e' = e) :
    s.placeAll f k = s.placeRed c e k := by
  have hsame := s.placeRed_sameJoins c e k
  have hin : allEps.foldl (fun t e' => if t.joins c e' k.stream then t.placeRed c e' k else t) s = s.placeRed c e k := by
    refine (foldl_once nodup_allEps (mem_allEps e) (fun e' _ he => if_neg fun h => he (ho c hc e' h).2) ?_).trans
      (if_pos hj)
    intro e' _ he
    rw [if_pos hj, hsame]
    exact if_neg fun h => he (ho c hc e' h).2
  refine (foldl_once (nodup_coresOf f) hc (fun c' hc' hne => ?_) (fun c' hc' hne => ?_)).trans hin
  · exact foldl_stays fun e' _ => if_neg fun h => hne (ho c' hc' e' h).1
  · rw [hin]
    refine foldl_stays fun e' _ => if_neg ?_
    rw [hsame]
    exact fun h => hne (ho c' hc' e' h).1

end

section
variable {s : State} {p : Nat} {f : FloeId} {c : CoreId} {e : EpId} {k : RedPkt} {gen : BitVec 16}

theorem execReductionResultArrival_buddy (h : s.atUnit p = some (.core c, .buddy e gen k)) :
    execReductionResultArrival p s = .next (
      if (s.epAt c e).gen == gen && (s.epAt c e).isRed && s.slotsHeld c e true then s.park p
      else if (s.epAt c e).gen == gen && (s.epAt c e).isRed then (s.takePacket p).placeRed c e { k with ptype := 6 }
      else s.takePacket p) := by
  rw [execReductionResultArrival]
  dsimp only
  rw [h]

theorem execReductionResultArrival_floe (h : s.atUnit p = some (.floe f, .redResult k)) :
    execReductionResultArrival p s = .next (
      if (coresOf f).any (fun c => allEps.any fun e => s.joins c e k.stream && s.slotsHeld c e true) then s.park p
      else (s.takePacket p).placeAll f k) := by
  rw [execReductionResultArrival]
  dsimp only
  rw [h]
  rfl

theorem State.any_joins_iff : ((coresOf f).any fun c => allEps.any fun e => s.joins c e k.stream && s.slotsHeld c e true) = true ↔
    ∃ c ∈ coresOf f, ∃ e, s.joins c e k.stream = true ∧ s.slotsHeld c e true = true := by
  simp only [List.any_eq_true, Bool.and_eq_true, mem_allEps, true_and]

theorem execReductionResultArrival_held (h : s.atUnit p = some (.floe f, .redResult k)) (hc : c ∈ coresOf f)
    (hj : s.joins c e k.stream = true) (hh : s.slotsHeld c e true = true) :
    execReductionResultArrival p s = .next (s.park p) :=
  (execReductionResultArrival_floe h).trans (congrArg _ (if_pos (State.any_joins_iff.2 ⟨c, hc, e, hj, hh⟩)))

theorem execReductionResultArrival_none (h : s.atUnit p = some (.floe f, .redResult k))
    (hn : ∀ c ∈ coresOf f, ∀ e, s.joins c e k.stream = false) :
    execReductionResultArrival p s = .next (s.takePacket p) := by
  refine (execReductionResultArrival_floe h).trans (congrArg _ ((if_neg fun ha => ?_).trans (State.placeAll_none hn)))
  obtain ⟨c, hc, e, hj, -⟩ := State.any_joins_iff.1 ha
  exact ne_true_of_eq_false (hn c hc e) hj

theorem execReductionResultArrival_one (h : s.atUnit p = some (.floe f, .redResult k)) (hc : c ∈ coresOf f)
    (hj : s.joins c e k.stream = true) (hh : s.slotsHeld c e true = false)
    (ho : ∀ c' ∈ coresOf f, ∀ e', s.joins c' e' k.stream = true → c' = c ∧ e' = e) :
    execReductionResultArrival p s = .next ((s.takePacket p).placeRed c e k) := by
  refine (execReductionResultArrival_floe h).trans
    (congrArg _ ((if_neg fun ha => ?_).trans (State.placeAll_one hc hj ho)))
  obtain ⟨c', hc', e', hj', hh'⟩ := State.any_joins_iff.1 ha
  obtain ⟨rfl, rfl⟩ := ho c' hc' e' hj'
  exact ne_true_of_eq_false hh hh'

/-- A first result of an outstanding epoch, for which a slot is reserved (R378). -/
def Endpoint.isFirst (ep : Endpoint) (k : RedPkt) : Prop := k.ptype = 4 ∧ k.epoch ∈ ep.outEpochs ∧ k.epoch ∉ ep.inSlots

/-- No slot for a record (R378): none is free, or those free are reserved for first results. -/
def State.redFull (s : State) (c : CoreId) (e : EpId) (k : RedPkt) : Prop :=
  (s.epAt c e).slots ≤ s.usedSlots c e ∨
    (¬ (s.epAt c e).isFirst k ∧ (s.epAt c e).slots ≤ s.usedSlots c e + (s.epAt c e).reservedSlots)

theorem State.redFull_iff : s.redFull c e k ↔
    (decide (s.usedSlots c e ≥ (s.epAt c e).slots) ||
      (!(k.ptype == 4 && (s.epAt c e).outEpochs.contains k.epoch && !(s.epAt c e).inSlots.contains k.epoch) &&
        decide (s.usedSlots c e + (s.epAt c e).reservedSlots ≥ (s.epAt c e).slots))) = true := by
  simp only [State.redFull, Endpoint.isFirst, Bool.or_eq_true, Bool.and_eq_true, decide_eq_true_eq, Bool.not_eq_true',
    List.contains_iff_mem, ← Bool.not_eq_true, ge_iff_le, beq_iff_eq, and_assoc]

theorem State.placeRed_full (h : s.redFull c e k) : s.placeRed c e k = s.rdropOne (floeOf c) :=
  if_pos (State.redFull_iff.1 h)

theorem State.placeRed_fills (h : ¬ s.redFull c e k) : s.placeRed c e k =
    ((s.fillSlot c e ((s.epAt c e).slotOf (s.usedSlots c e)) 4 k.ptype ((s.epAt c e).rseq + BitVec.ofNat 16 (s.usedSlots c e))
      ((redRecord k).take ((s.epAt c e).slotu.toNat * 16 - 16))).mapEpAt c e fun q =>
        if k.ptype = 4 then { q with inSlots := k.epoch :: q.inSlots } else q).msgEvent c e true := by
  refine (if_neg fun hc => h (State.redFull_iff.2 hc)).trans ?_
  simp only [beq_iff_eq]

end

/-! #### What a node takes (R367, R368) -/

theorem nodeBits_testBit (terms : List Term) (i : Nat) :
    (nodeBits terms).testBit i = true ↔ ∃ t ∈ terms, t.bits.testBit i = true := by
  have h : ∀ (l : List Term) (b : Nat), (l.foldl (fun n t => n ||| t.bits) b).testBit i = true ↔
      b.testBit i = true ∨ ∃ t ∈ l, t.bits.testBit i = true := by
    intro l
    induction l with
    | nil => simp
    | cons a l ih =>
      intro b
      rw [List.foldl_cons, ih, Nat.testBit_or, Bool.or_eq_true, List.exists_mem_cons_iff, or_assoc]
  rw [nodeBits, h, Nat.zero_testBit]
  simp

theorem nodeFull_iff (ent : StreamEnt) (terms : List Term) : nodeFull ent terms = true ↔
    ∀ i, entLo ent ≤ i → i ≤ entHi ent → ∃ t ∈ terms, t.bits.testBit i = true := by
  simp only [nodeFull, List.all_eq_true, List.mem_range, nodeBits_testBit]
  constructor
  · intro h i hlo hhi
    have hi := h (i - entLo ent) (by omega)
    rwa [Nat.add_sub_cancel' hlo] at hi
  · intro h i hi
    exact h _ (Nat.le_add_right _ _) (by omega)

section
variable {ent : StreamEnt} {terms : List Term} {k : RedPkt} {foreign : Bool}

section
variable (h2 : k.ptype < 2)
include h2

theorem takeIn_counted (h : ∃ t ∈ terms, t.bits.testBit k.idx = true) : takeIn ent terms k foreign = .dup := by
  rw [takeIn, if_pos h2, if_pos ((nodeBits_testBit _ _).2 h)]

theorem takeIn_contribution (h : ∀ t ∈ terms, t.bits.testBit k.idx = false) : takeIn ent terms k foreign =
    if terms.length ≥ 64 then .up
    else .ok (terms ++ [⟨k.idx, 2 ^ k.idx, termVal ent k, k.exc, k.rsh, k.set, foreign, false⟩]) := by
  refine (if_pos h2).trans (if_neg fun hb => ?_)
  obtain ⟨t, ht, hbit⟩ := (nodeBits_testBit _ _).1 hb
  exact ne_true_of_eq_false (h t ht) hbit

end

section
variable (h2 : 2 ≤ k.ptype)
include h2

/-- The bits of a child's packet, over contributor indices. -/
def childBits (k : RedPkt) : Nat := k.bits * 2 ^ k.idx

/-- The term that a child's packet makes. -/
def childTerm (k : RedPkt) : Term := ⟨k.idx, childBits k, k.val, k.exc, k.rsh, k.set, false, true⟩

/-- A child's term that shares the position or bits with a child's packet. -/
def Term.meets (t : Term) (k : RedPkt) : Bool := t.child && (t.bits &&& childBits k != 0 || t.pos == k.idx)

theorem takeIn_child : takeIn ent terms k foreign =
    if !(terms.filter fun t => t.meets k).all fun t => t.bits &&& childBits k == t.bits && t.bits != childBits k then .dup
    else
      let kept := terms.filter fun t => !(terms.filter fun t => t.meets k).contains t && t.bits &&& childBits k == 0
      if kept.length ≥ 64 then .up else .ok (kept ++ [childTerm k]) := if_neg (by omega)

/-- No child's term in the way. -/
theorem takeIn_child_apart (h : ∀ t ∈ terms, t.meets k = false) :
    takeIn ent terms k foreign =
      let kept := terms.filter fun t => t.bits &&& childBits k == 0
      if kept.length ≥ 64 then .up else .ok (kept ++ [childTerm k]) := by
  have hmet : (terms.filter fun t => t.meets k) = [] := List.filter_eq_nil_iff.2 fun t ht => ne_true_of_eq_false (h t ht)
  rw [takeIn_child h2, hmet]
  rfl

/-- Some child's term in the way is no proper part of the packet's. -/
theorem takeIn_child_dup {t : Term} (ht : t ∈ terms) (hm : t.meets k = true)
    (h : t.bits = childBits k ∨ ∃ i, t.bits.testBit i = true ∧ (childBits k).testBit i = false) :
    takeIn ent terms k foreign = .dup := by
  rw [takeIn_child h2]
  refine if_pos ?_
  rw [Bool.not_eq_true', ← Bool.not_eq_true, List.all_eq_true]
  intro hall
  have hpart := hall t (List.mem_filter.2 ⟨ht, hm⟩)
  rw [Bool.and_eq_true, beq_iff_eq, bne_iff_ne] at hpart
  obtain ⟨hsub, hne⟩ := hpart
  rcases h with h | ⟨i, hi, hn⟩
  · exact hne h
  · rw [← hsub, Nat.testBit_and, hn, Bool.and_false] at hi
    exact Bool.false_ne_true hi

/-- The only child's term in the way is a proper part of the packet's, which takes its place. -/
theorem takeIn_child_replaces {t : Term} (ht : t ∈ terms) (hm : t.meets k = true) (hne : t.bits ≠ childBits k)
    (hsub : ∀ i, t.bits.testBit i = true → (childBits k).testBit i = true)
    (hone : ∀ t' ∈ terms, t' = t ∨ t'.meets k = false) :
    takeIn ent terms k foreign =
      let kept := terms.filter fun t' => t' != t && t'.bits &&& childBits k == 0
      if kept.length ≥ 64 then .up else .ok (kept ++ [childTerm k]) := by
  have hmem : ∀ t' ∈ terms, (terms.filter fun t => t.meets k).contains t' = (t' == t) := by
    intro t' ht'
    rw [Bool.eq_iff_iff, List.contains_iff_mem, List.mem_filter, beq_iff_eq]
    constructor
    · rintro ⟨-, hm'⟩
      exact (hone t' ht').resolve_right (ne_of_eq_of_ne hm' (by decide))
    · rintro rfl
      exact ⟨ht', hm⟩
  have hand : t.bits &&& childBits k = t.bits := by
    refine Nat.eq_of_testBit_eq fun i => ?_
    rw [Nat.testBit_and]
    cases hi : t.bits.testBit i with
    | false => rfl
    | true => exact hsub i hi
  have hall : (terms.filter fun t => t.meets k).all (fun t => t.bits &&& childBits k == t.bits && t.bits != childBits k) = true := by
    refine List.all_eq_true.2 fun t' ht' => ?_
    obtain ⟨ht', hm'⟩ := List.mem_filter.1 ht'
    obtain rfl := (hone t' ht').resolve_right (ne_of_eq_of_ne hm' (by decide))
    simp [hand, hne]
  have hkept : (terms.filter fun t' => !(terms.filter fun t => t.meets k).contains t' && t'.bits &&& childBits k == 0) =
      terms.filter fun t' => t' != t && t'.bits &&& childBits k == 0 :=
    List.filter_congr fun t' ht' => by rw [hmem t' ht']; rfl
  rw [takeIn_child h2, hall, hkept]
  rfl

end

end

section
variable {u : State} {f : FloeId} {n : BitVec 12} {ent : StreamEnt} {pk : Packet} {port : Nat} {k : RedPkt}

/-- Whether an arrival's contribution comes from another node (R367, R379). -/
def State.comesForeign (u : State) (f : FloeId) (n : BitVec 12) (pk : Packet) (port : Nat) (k : RedPkt) : Bool :=
  k.ptype = 1 || (k.ptype = 0 && !u.belongs f n k.idx port pk)

theorem State.comesForeign_iff : u.comesForeign f n pk port k = true ↔
    k.ptype = 1 ∨ (k.ptype = 0 ∧ u.belongs f n k.idx port pk = false) := by
  simp [State.comesForeign]

theorem State.nodeTake_outside (h : ¬ (entLo ent ≤ k.idx ∧ k.idx ≤ entHi ent)) :
    u.nodeTake f n ent pk port k = u.passUp f ent pk k := by
  rw [not_and_or, Nat.not_le, Nat.not_le] at h
  exact if_pos (by simpa using h)

/-- What becomes of a node that keeps an arrival (R369). -/
def State.nodeKept (u : State) (f : FloeId) (n : BitVec 12) (ent : StreamEnt) (terms : List Term) : State :=
  if (u.node f n).fwd == some true then (u.setNode f n { u.node f n with terms := terms }).nodeForward f n ent false
  else if nodeFull ent terms then (u.setNode f n { u.node f n with terms := terms }).nodeForward f n ent true
  else u.setNode f n { u.node f n with terms := terms }

/-- The kept arrival as the statement gives it. -/
theorem State.nodeKept_cases (terms : List Term) :
    let v := u.setNode f n { u.node f n with terms := terms }
    ((u.node f n).fwd = some true → u.nodeKept f n ent terms = v.nodeForward f n ent false) ∧
    ((u.node f n).fwd ≠ some true → nodeFull ent terms = true → u.nodeKept f n ent terms = v.nodeForward f n ent true) ∧
    ((u.node f n).fwd ≠ some true → nodeFull ent terms = false → u.nodeKept f n ent terms = v) := by
  refine ⟨fun h => if_pos (beq_iff_eq.2 h), fun h hf => ?_, fun h hf => ?_⟩
  · exact (if_neg fun hb => h (beq_iff_eq.1 hb)).trans (if_pos hf)
  · exact (if_neg fun hb => h (beq_iff_eq.1 hb)).trans (if_neg (ne_true_of_eq_false hf))

section
variable (h : entLo ent ≤ k.idx ∧ k.idx ≤ entHi ent)
include h

/-- An arrival within the node's range, by what is made of it. -/
theorem State.nodeTake_inside : u.nodeTake f n ent pk port k =
    match takeIn ent (u.node f n).terms k (u.comesForeign f n pk port k) with
    | .dup => u.mapFloe f fun z => { z with rdup := BitVec.ofNat 32 (satAdd z.rdup.toNat 1 32) }
    | .up => u.passUp f ent pk k
    | .ok terms => u.nodeKept f n ent terms :=
  (if_neg (by simpa using h)).trans rfl

theorem State.nodeTake_dup (ht : takeIn ent (u.node f n).terms k (u.comesForeign f n pk port k) = .dup) :
    u.nodeTake f n ent pk port k = u.mapFloe f fun z => { z with rdup := BitVec.ofNat 32 (satAdd z.rdup.toNat 1 32) } := by
  rw [State.nodeTake_inside h, ht]

/-- An arrival that is taken with new terms unless the limit of 64 is reached. -/
theorem State.nodeTake_limited {l l' : List Term} (ht : takeIn ent (u.node f n).terms k (u.comesForeign f n pk port k) =
    if l.length ≥ 64 then .up else .ok l') :
    (64 ≤ l.length → u.nodeTake f n ent pk port k = u.passUp f ent pk k) ∧
    (l.length < 64 → u.nodeTake f n ent pk port k = u.nodeKept f n ent l') := by
  rw [State.nodeTake_inside h, ht]
  constructor <;> intro hl
  · rw [if_pos hl]
  · rw [if_neg (by omega)]

end

end

/-! #### What a node forwards (R365, R369, R371) -/

theorem foldl_max_bounds (l : List Nat) (a : Nat) : a ≤ l.foldl Nat.max a ∧ (∀ x ∈ l, x ≤ l.foldl Nat.max a) ∧
    (l.foldl Nat.max a = a ∨ l.foldl Nat.max a ∈ l) := by
  induction l generalizing a with
  | nil => simp
  | cons b l ih =>
    obtain ⟨hle, hall, hmem⟩ := ih (Nat.max a b)
    rw [List.foldl_cons]
    refine ⟨(Nat.le_max_left a b).trans hle, fun x hx => ?_, ?_⟩
    · rcases List.mem_cons.1 hx with rfl | hx
      · exact (Nat.le_max_right a x).trans hle
      · exact hall x hx
    · rcases hmem with hmem | hmem
      · rcases Nat.le_total a b with hab | hab
        · exact .inr (List.mem_cons.2 (.inl (hmem.trans (Nat.max_eq_right hab))))
        · exact .inl (hmem.trans (Nat.max_eq_left hab))
      · exact .inr (List.mem_cons_of_mem _ hmem)

section
variable (n : BitVec 12) (ent : StreamEnt) (x : Node) (first : Bool)

theorem nodePacket_set : let q := nodePacket n ent x first
    entCur ent.d0 ≤ q.set ∧ x.used ≤ q.set ∧ (∀ t ∈ x.terms, t.set ≤ q.set) ∧
      (q.set = entCur ent.d0 ∨ q.set = x.used ∨ ∃ t ∈ x.terms, q.set = t.set) := by
  intro q
  obtain ⟨hle, hall, hmem⟩ := foldl_max_bounds (x.terms.map fun t => t.set) (Nat.max x.used (entCur ent.d0))
  have hq : q.set = (x.terms.map fun t => t.set).foldl Nat.max (Nat.max x.used (entCur ent.d0)) := rfl
  rw [← hq] at hle hall hmem
  refine ⟨(Nat.le_max_right _ _).trans hle, (Nat.le_max_left _ _).trans hle,
    fun t ht => hall _ (List.mem_map_of_mem ht), ?_⟩
  rcases hmem with hmem | hmem
  · rcases Nat.le_total x.used (entCur ent.d0) with h | h
    · exact .inl (hmem.trans (Nat.max_eq_right h))
    · exact .inr (.inl (hmem.trans (Nat.max_eq_left h)))
  · obtain ⟨t, ht, he⟩ := List.mem_map.1 hmem
    exact .inr (.inr ⟨t, ht, he.symm⟩)

theorem nodePacket_rsh : (nodePacket n ent x first).rsh = true ↔
    entCur ent.d0 ≠ 0 ∨ x.used ≠ 0 ∨ ∃ t ∈ x.terms, t.foreign = true ∨ t.rsh = true := by
  show (entCur ent.d0 != 0 || x.used != 0 || x.terms.any fun t => t.foreign || t.rsh) = true ↔ _
  simp only [Bool.or_eq_true, bne_iff_ne, List.any_eq_true, or_assoc]

theorem nodePacket_bits (j : Nat) : (nodePacket n ent x first).bits.testBit j = true ↔
    ∃ t ∈ x.terms, t.bits.testBit (entLo ent + j) = true := by
  show (nodeBits x.terms / 2 ^ entLo ent).testBit j = true ↔ _
  rw [Nat.testBit_div_two_pow, Nat.add_comm, nodeBits_testBit]

theorem nodePacket_ptype : (nodePacket n ent x first).ptype =
    (if entOut ent.d0 = 0 then 4 else 2) + (if first then 0 else 1) := by
  show (if (entOut ent.d0 == 0) = true then 4 else 2) + _ = _
  simp only [beq_iff_eq]

theorem nodePacket_seq : (nodePacket n ent x first).seq =
    if entOut ent.d0 = 0 ∧ first = false then x.seq + 1 else 0 := by
  show (if (entOut ent.d0 == 0 && !first) = true then x.seq + 1 else 0) = _
  simp only [Bool.and_eq_true, beq_iff_eq, Bool.not_eq_true']

/-- At the root an exact sum is rounded (R366). -/
theorem nodePacket_rounded (h : entOut ent.d0 = 0 ∧ entOp ent = 1 ∧ entFmt ent ≠ 3) :
    let r := accRound (fpFmt (entFmt ent)) (!x.terms.isEmpty) (nodeValue ent x.terms).1
    (nodePacket n ent x first).val = .scalar (BitVec.ofNat 64 r.1) ∧
      (nodePacket n ent x first).exc = (nodeValue ent x.terms).2 ||| r.2 := by
  obtain ⟨hroot, hop, hfmt⟩ := h
  simp [nodePacket, hroot, hop, hfmt]

theorem nodePacket_unrounded (h : ¬ (entOut ent.d0 = 0 ∧ entOp ent = 1 ∧ entFmt ent ≠ 3)) :
    (nodePacket n ent x first).val = (nodeValue ent x.terms).1 ∧
      (nodePacket n ent x first).exc = (nodeValue ent x.terms).2 := by
  have hr : (entOut ent.d0 == 0 && entOp ent == 1 && entFmt ent != 3) = false := by
    rw [← Bool.not_eq_true]
    simpa [and_assoc] using h
  simp [nodePacket, hr]

end

/-! #### The value of a node (R367) -/

theorem orAll_eq (terms : List Term) : orAll (terms.map fun t => t.exc) = terms.foldl (fun x t => x ||| t.exc) 0 :=
  List.foldl_map ..

theorem orAll_zero {l : List (BitVec 5)} (h : ∀ x ∈ l, x = 0) : orAll l = 0 := by
  refine foldl_stays fun x hx => ?_
  rw [h x hx]
  rfl

section
variable {ent : StreamEnt} {terms : List Term}

theorem filter_pos_eq_find {i : Nat} (h : (terms.map fun t => t.pos).Nodup) :
    (terms.filter fun t => t.pos == i) = (terms.find? fun t => t.pos == i).toList := by
  induction terms with
  | nil => rfl
  | cons a l ih =>
    rw [List.map_cons, List.nodup_cons] at h
    obtain ⟨hni, hn⟩ := h
    cases ha : a.pos == i with
    | false => rw [List.filter_cons_of_neg (by simp [ha]), List.find?_cons_of_neg (by simp [ha]), ih hn]
    | true =>
      rw [List.filter_cons_of_pos (by simp [ha]), List.find?_cons_of_pos (by simp [ha])]
      refine congrArg (a :: ·) (List.filter_eq_nil_iff.2 fun t ht htp => hni ?_)
      rw [beq_iff_eq] at ha htp
      rw [ha, ← htp]
      exact List.mem_map_of_mem ht

/-- A position with at most one term. -/
theorem atPosition_toList (o : Option Term) : atPosition ent o.toList = (o.map fun t => scalarOf t.val, 0) := by
  cases o with
  | none => rfl
  | some t =>
    rw [atPosition]
    cases h : t.foreign <;> simp [h]

theorem nodeValue_tree (hf : entFmt ent ≠ 3) (ho : entOp ent ≠ 1) (hn : (terms.map fun t => t.pos).Nodup) :
    let r := tree (redOp ent) ((List.range (entHi ent + 1 - entLo ent)).map fun i =>
      (terms.find? fun t => t.pos == entLo ent + i).map fun t => (i, scalarOf t.val))
    nodeValue ent terms = (.scalar (BitVec.ofNat 64 r.1),
      terms.foldl (fun x t => x ||| t.exc) 0 ||| r.2.1.foldl (fun x o => x ||| o.f) 0) := by
  have hpos (i : Nat) : atPosition ent (terms.filter fun t => t.pos == entLo ent + i) =
      ((terms.find? fun t => t.pos == entLo ent + i).map fun t => scalarOf t.val, 0) := by
    rw [filter_pos_eq_find hn, atPosition_toList]
  have hzero : orAll ((List.range (entHi ent + 1 - entLo ent)).map fun _ => (0 : BitVec 5)) = 0#5 :=
    orAll_zero fun x hx => by
      obtain ⟨_, _, rfl⟩ := List.mem_map.1 hx
      rfl
  intro r
  rw [nodeValue, if_neg hf, if_neg ho]
  simp only [hpos, List.map_map, Function.comp_def, Option.map_map, orAll_eq]
  rw [hzero, BitVec.or_zero, orAll, List.foldl_map]

/-- An exact sum: the values added, the flags united (R62, R367). -/
theorem foldl_accMerge {x : Term → Int} {nz snan nan ninf pinf : Term → Bool}
    (h : ∀ t ∈ terms, t.val = .exact (x t) (nz t) (snan t) (nan t) (ninf t) (pinf t)) (v : Int) (a b c d e : Bool) :
    terms.foldl (fun v t => accMerge v t.val) (.exact v a b c d e) =
      .exact (v + (terms.map x).sum) (a || terms.any nz) (b || terms.any snan) (c || terms.any nan) (d || terms.any ninf)
        (e || terms.any pinf) := by
  induction terms generalizing v a b c d e with
  | nil => simp
  | cons t l ih =>
    rw [List.foldl_cons, h t (List.mem_cons_self ..), accMerge, ih fun t ht => h t (List.mem_cons_of_mem _ ht)]
    simp only [List.map_cons, List.sum_cons, List.any_cons, Bool.or_assoc, add_assoc]

theorem nodeValue_sum {x : Term → Int} {nz snan nan ninf pinf : Term → Bool} (hf : entFmt ent ≠ 3) (ho : entOp ent = 1)
    (h : ∀ t ∈ terms, t.val = .exact (x t) (nz t) (snan t) (nan t) (ninf t) (pinf t)) :
    nodeValue ent terms = (.exact (terms.map x).sum (terms.any nz) (terms.any snan) (terms.any nan) (terms.any ninf)
      (terms.any pinf), terms.foldl (fun x t => x ||| t.exc) 0) := by
  rw [nodeValue, if_neg hf, if_pos ho, foldl_accMerge h, orAll_eq]
  simp only [zero_add, Bool.false_or]

end

/-! #### The operation of the tree (R367) -/

theorem intOf_eq_toInt (a : Nat) : intOf 64 true a = (BitVec.ofNat 64 a).toInt := by
  rw [intOf, BitVec.toInt_eq_toNat_cond, BitVec.toNat_ofNat]
  simp only [Bool.true_and, decide_eq_true_eq]
  split <;> split <;> omega

section
variable {ent : StreamEnt} {a b : Nat} (ha : a < 2 ^ 64) (hb : b < 2 ^ 64)

/-- Of two integers the lower one first: equal ones are one encoding. -/
theorem intOf_le_cases (ha : a < 2 ^ 64) (hb : b < 2 ^ 64) : (intOf 64 true a ≤ intOf 64 true b ∧
      ((BitVec.ofNat 64 a).slt (BitVec.ofNat 64 b) = true ∨ a = b)) ∨
    (¬ intOf 64 true a ≤ intOf 64 true b ∧ (BitVec.ofNat 64 a).slt (BitVec.ofNat 64 b) = false) := by
  rw [intOf_eq_toInt, intOf_eq_toInt, BitVec.slt, decide_eq_true_eq, decide_eq_false_iff_not, not_le, not_lt]
  rcases lt_trichotomy (BitVec.ofNat 64 a).toInt (BitVec.ofNat 64 b).toInt with h | h | h
  · exact .inl ⟨h.le, .inl h⟩
  · refine .inl ⟨h.le, .inr ?_⟩
    have hab := congrArg BitVec.toNat (BitVec.eq_of_toInt_eq h)
    rwa [BitVec.toNat_ofNat, BitVec.toNat_ofNat, Nat.mod_eq_of_lt ha, Nat.mod_eq_of_lt hb] at hab
  · exact .inr ⟨h, h.le⟩

theorem redOp_int_sum (hf : entFmt ent = 2) (ho : entOp ent = 0) : redOp ent a b = ⟨(a + b) % 2 ^ 64, 0, false⟩ := by
  rw [redOp, if_pos hf, ho]
  rfl

include ha hb

theorem redOp_int_min (hf : entFmt ent = 2) (ho : entOp ent = 2) :
    redOp ent a b = ⟨if (BitVec.ofNat 64 a).slt (BitVec.ofNat 64 b) then a else b, 0, false⟩ := by
  rw [redOp, if_pos hf, ho]
  rcases intOf_le_cases ha hb with ⟨hle, hlt | rfl⟩ | ⟨hnle, hlt⟩
  · simp only [hle, hlt, if_true]
  · simp only [ite_self]
  · simp only [hnle, hlt, if_false, Bool.false_eq_true]

theorem redOp_int_max (hf : entFmt ent = 2) (ho : entOp ent = 3) :
    redOp ent a b = ⟨if (BitVec.ofNat 64 a).slt (BitVec.ofNat 64 b) then b else a, 0, false⟩ := by
  rw [redOp, if_pos hf, ho]
  rcases intOf_le_cases ha hb with ⟨hle, hlt | rfl⟩ | ⟨hnle, hlt⟩
  · simp only [hle, hlt, if_true]
  · simp only [ite_self]
  · simp only [hnle, hlt, if_false, Bool.false_eq_true]

end

section
variable {ent : StreamEnt} {a b : Nat} (hf : entFmt ent < 2)
include hf

theorem redOp_float_sum (ho : entOp ent = 0) : redOp ent a b = (fpFmt (entFmt ent)).add 0 a b := by
  rw [redOp, if_neg (by omega), ho]
  rfl

theorem redOp_float_min (ho : entOp ent = 2) : redOp ent a b = (fpFmt (entFmt ent)).minmax false false a b := by
  rw [redOp, if_neg (by omega), ho]
  rfl

theorem redOp_float_max (ho : entOp ent = 3) : redOp ent a b = (fpFmt (entFmt ent)).minmax true false a b := by
  rw [redOp, if_neg (by omega), ho]
  rfl

end

/-! #### Exact sums (R62, R63) -/

section
variable {ent : StreamEnt} {k : RedPkt}

theorem termVal_exact (h2 : k.ptype < 2) (ho : entOp ent = 1) (hf : entFmt ent ≠ 3) {w : W} (hw : k.val = .scalar w) :
    termVal ent k = accOf (fpFmt (entFmt ent)) w.toNat := by
  rw [termVal, hw]
  simp [h2, ho, hf, scalarOf]

theorem accOf_fin {F : Fmt} {b m : Nat} {sg : Bool} {g : Int} (h : F.decode b = .fin sg m g) :
    accOf F b = .exact (scaled sg m g 1074) (m != 0 || !sg) false false false false := by
  rw [accOf, h, scaled]
  cases sg <;> simp

theorem accOf_inf {F : Fmt} {b : Nat} {sg : Bool} (h : F.decode b = .inf sg) :
    accOf F b = .exact 0 true false false sg (!sg) := by
  rw [accOf, h]

theorem accOf_nan {F : Fmt} {b fr : Nat} {sg g : Bool} (h : F.decode b = .nan sg fr g) :
    accOf F b = .exact 0 true (Val.nan sg fr g).isSig true false false := by
  rw [accOf, h]

/-- R63: an exact sum without infinities or NaNs is rounded once. -/
theorem accRound_rounds {F : Fmt} (hF : F.Proper) (hq : -1074 ≤ F.qmin) (any nz snan : Bool) {x : Int} (hx : x ≠ 0) :
    let r := accRound F any (.exact x nz snan false false false)
    ∃ slow, F.RoundsOnce 0 (decide (x < 0)) false 1075 (fun t => Ord.compare t (4 * x.natAbs)) ⟨r.1, r.2, slow⟩ := by
  have hr := Fmt.roundTo_roundsOnce hF (Int.natAbs_ne_zero.2 hx) (e := -1074) (n := 1075) (by decide) (by omega) 0
    (decide (x < 0)) false
  rw [show (fun t => Ord.compare t (4 * x.natAbs)) = fun t => Ord.compare t (2 * (x.natAbs * 2 ^ ((-1074 : Int) + 1075).toNat)) from
    funext fun t => congrArg _ (by norm_num; ring)]
  intro r
  have hval : r = ((F.roundTo 0 (decide (x < 0)) x.natAbs (-1074)).v, (F.roundTo 0 (decide (x < 0)) x.natAbs (-1074)).f) :=
    if_pos hx
  rw [hval]
  exact ⟨_, hr⟩

theorem accRound_zero (F : Fmt) (any nz snan : Bool) :
    accRound F any (.exact 0 nz snan false false false) = (F.signed (any && !nz) 0, 0) := rfl

end

/-! #### Top-k lists (R373) -/

/-- The score of an entry. -/
def topScore (w : W) : Val := f32.decode (w.extractLsb' 0 32).toNat

/-- R373: the greater score first, then the lower index, then +0 before -0. -/
theorem topBefore_of_ordered {a b : W} {lt eq : Bool} (h : (topScore a).Ordered (topScore b) lt eq) :
    topBefore a b = ((!lt && !eq) || (eq && (decide ((a.extractLsb' 32 32).toNat < (b.extractLsb' 32 32).toNat) ||
      ((a.extractLsb' 32 32).toNat == (b.extractLsb' 32 32).toNat && !(topScore a).sign && (topScore b).sign)))) := by
  obtain ⟨-, -, hlt, heq⟩ := cmpVal_of_ordered h
  have hdef : topBefore a b = if cmpVal (topScore a) (topScore b) ≠ 0 then decide (cmpVal (topScore a) (topScore b) > 0)
      else if (a.extractLsb' 32 32).toNat ≠ (b.extractLsb' 32 32).toNat
        then decide ((a.extractLsb' 32 32).toNat < (b.extractLsb' 32 32).toNat)
        else !(topScore a).sign && (topScore b).sign := by
    simp only [topBefore, wf_eq_toNat]
    rfl
  generalize cmpVal (topScore a) (topScore b) = c at hlt heq hdef
  rw [hdef]
  generalize (a.extractLsb' 32 32).toNat = i, (b.extractLsb' 32 32).toNat = j
  cases eq with
  | false =>
    have hc : c ≠ 0 := fun h => Bool.false_ne_true (heq.1 h)
    rw [if_pos hc]
    cases lt with
    | false => simpa using by have := hlt.not.2 (by decide); omega
    | true => simpa using by have := hlt.2 rfl; omega
  | true =>
    rw [if_neg (not_not.2 (heq.2 rfl))]
    by_cases hid : i = j
    · simp [hid]
    · simp [hid]

/-- A value on the extended real line; a NaN has none of its own. -/
noncomputable def Val.toEReal : Val → EReal
  | .inf s => if s then ⊥ else ⊤
  | .fin s m e => (realTerm (s, m, e) : ℝ)
  | .nan _ _ _ => 0

theorem Val.ordered_toEReal {A B : Val} (hA : A.isNan = false) (hB : B.isNan = false) :
    A.Ordered B (decide (A.toEReal < B.toEReal)) (decide (A.toEReal = B.toEReal)) := by
  cases A with
  | nan => cases hA
  | inf s =>
    cases B with
    | nan => cases hB
    | inf t => cases s <;> cases t <;> simp [Val.Ordered, Val.toEReal]
    | fin t k g => cases s <;> simp [Val.Ordered, Val.toEReal]
  | fin s m e =>
    cases B with
    | nan => cases hB
    | inf t => cases t <;> simp [Val.Ordered, Val.toEReal]
    | fin t k g =>
      intro n he hg
      have h2 : (0 : ℝ) < 2 ^ n := by positivity
      rw [decide_eq_true_eq, decide_eq_true_eq, Val.toEReal, Val.toEReal, EReal.coe_lt_coe_iff, EReal.coe_eq_coe_iff,
        ← mul_lt_mul_iff_left₀ h2, ← mul_left_inj' h2.ne', ← cast_scaled he, ← cast_scaled hg, Int.cast_lt, Int.cast_inj]
      exact ⟨Iff.rfl, Iff.rfl⟩

/-- The place of an entry in the order of R373. -/
noncomputable def topRank (w : W) : ERealᵒᵈ ×ₗ ℕ ×ₗ Bool :=
  toLex (OrderDual.toDual (topScore w).toEReal, toLex ((w.extractLsb' 32 32).toNat, (topScore w).sign))

section
variable {a b : W} (ha : (topScore a).isNan = false) (hb : (topScore b).isNan = false)
include ha hb

theorem topBefore_iff_rank : topBefore a b = true ↔ topRank a < topRank b := by
  rw [topBefore_of_ordered (Val.ordered_toEReal ha hb), topRank, topRank, Prod.Lex.toLex_lt_toLex, Prod.Lex.toLex_lt_toLex]
  generalize (topScore a).toEReal = x, (topScore b).toEReal = y
  rcases lt_trichotomy x y with h | rfl | h
  · simp [h, h.ne, h.le]
  · cases (topScore a).sign <;> cases (topScore b).sign <;> simp
  · simp [h, h.ne', h.not_gt]

theorem topBefore_eq_false : topBefore b a = false ↔ topRank a ≤ topRank b := by
  rw [← Bool.not_eq_true, topBefore_iff_rank hb ha, not_lt]

end

theorem topInsert_eq (a : W) (l : List W) : topInsert a l = l.orderedInsert (fun a b => topBefore a b = true) a := by
  induction l with
  | nil => rfl
  | cons b l ih => rw [topInsert, List.orderedInsert_cons, ih]

theorem topInsert_perm (a : W) (l : List W) : (topInsert a l).Perm (a :: l) := by
  rw [topInsert_eq]
  exact List.perm_orderedInsert _ a l

/-- An entry takes its place in a list that is in order. -/
theorem topInsert_sorted {a : W} {l : List W} (ha : (topScore a).isNan = false) (hl : ∀ b ∈ l, (topScore b).isNan = false)
    (hs : l.Pairwise fun b c => topRank b ≤ topRank c) : (topInsert a l).Pairwise fun b c => topRank b ≤ topRank c := by
  induction l with
  | nil => exact List.pairwise_singleton _ _
  | cons b l ih =>
    have hb := hl b (List.mem_cons_self ..)
    obtain ⟨hbl, hsl⟩ := List.pairwise_cons.1 hs
    rw [topInsert]
    split
    · next hab =>
      have hlt := (topBefore_iff_rank ha hb).1 hab
      refine List.pairwise_cons.2 ⟨fun c hc => ?_, hs⟩
      rcases List.mem_cons.1 hc with rfl | hc
      · exact hlt.le
      · exact hlt.le.trans (hbl c hc)
    · next hab =>
      have hle := (topBefore_eq_false hb ha).1 (eq_false_of_ne_true hab)
      refine List.pairwise_cons.2 ⟨fun c hc => ?_, ih (fun c hc => hl c (List.mem_cons_of_mem _ hc)) hsl⟩
      rcases List.mem_cons.1 ((topInsert_perm a l).mem_iff.1 hc) with rfl | hc
      · exact hle
      · exact hbl c hc

/-- Entries put in their places one by one. -/
def topSort (l acc : List W) : List W := l.foldl (fun acc a => topInsert a acc) acc

theorem topSort_perm (l acc : List W) : (topSort l acc).Perm (l ++ acc) := by
  induction l generalizing acc with
  | nil => exact .refl _
  | cons a l ih => exact (ih _).trans (((topInsert_perm a acc).append_left l).trans List.perm_middle)

theorem topSort_sorted {l acc : List W} (hl : ∀ b ∈ l, (topScore b).isNan = false) (hacc : ∀ b ∈ acc, (topScore b).isNan = false)
    (hs : acc.Pairwise fun b c => topRank b ≤ topRank c) : (topSort l acc).Pairwise fun b c => topRank b ≤ topRank c := by
  induction l generalizing acc with
  | nil => exact hs
  | cons a l ih =>
    have ha := hl a (List.mem_cons_self ..)
    refine ih (fun b hb => hl b (List.mem_cons_of_mem _ hb)) (fun b hb => ?_) (topInsert_sorted ha hacc hs)
    rcases List.mem_cons.1 ((topInsert_perm a acc).mem_iff.1 hb) with rfl | hb
    · exact ha
    · exact hacc b hb

section
variable {ent : StreamEnt} {terms : List Term}

theorem nodeValue_top (hf : entFmt ent = 3) : nodeValue ent terms =
    (.top ((topSort (terms.flatMap fun t => topEntries t.val) []).take (entKm1 ent + 1)),
      terms.foldl (fun x t => x ||| t.exc) 0) := by
  rw [nodeValue, if_pos hf, orAll_eq, topSort, List.foldl_flatMap]

/-- The value of a top-k node is the beginning of the entries of its terms in order. -/
theorem nodeValue_topk (hf : entFmt ent = 3)
    (hn : ∀ t ∈ terms, ∀ w ∈ topEntries t.val, (f32.decode (w.extractLsb' 0 32).toNat).isNan = false) :
    ∃ l rest, nodeValue ent terms = (.top l, terms.foldl (fun x t => x ||| t.exc) 0) ∧
      (l ++ rest).Perm (terms.flatMap fun t => topEntries t.val) ∧
      (l ++ rest).Pairwise (fun a b => topBefore b a = false) ∧
      l.length = Nat.min (entKm1 ent + 1) (terms.flatMap fun t => topEntries t.val).length := by
  have hnan : ∀ w ∈ terms.flatMap fun t => topEntries t.val, (topScore w).isNan = false := fun w hw => by
    obtain ⟨t, ht, hwt⟩ := List.mem_flatMap.1 hw
    exact hn t ht w hwt
  have hperm := topSort_perm (terms.flatMap fun t => topEntries t.val) []
  rw [List.append_nil] at hperm
  have hsorted := topSort_sorted (acc := []) hnan (by simp) List.Pairwise.nil
  rw [nodeValue_top hf]
  generalize topSort (terms.flatMap fun t => topEntries t.val) [] = all at hperm hsorted
  refine ⟨_, all.drop (entKm1 ent + 1), rfl, ?_, ?_, ?_⟩
  · rw [List.take_append_drop]
    exact hperm
  · rw [List.take_append_drop]
    exact hsorted.imp_of_mem fun ha hb h =>
      (topBefore_eq_false (hnan _ (hperm.mem_iff.1 ha)) (hnan _ (hperm.mem_iff.1 hb))).2 h
  · rw [List.length_take, hperm.length_eq]

end

theorem State.RedUsable.of_use {s : State} {e : EpId} (h : s.ctx.pend = [] ∧ (s.ep e).owner = s.cur.ctx ∧ (s.ep e).st = .open ∧
    (s.ep e).proto.toNat = 7 ∧ 1 ≤ (s.ep e).slotu.toNat) : s.RedUsable e := by
  obtain ⟨hp, ho, hst, hproto, hfit⟩ := h
  exact ⟨State.holds_of hp ho, hst, hproto, hfit⟩

/-- The scalar formats of an exact sum are proper, and finer than the accumulator's unit. -/
theorem fpFmt_proper {i : Nat} (h : i < 2) : (fpFmt i).Proper ∧ -1074 ≤ (fpFmt i).qmin := by
  obtain rfl | rfl : i = 0 ∨ i = 1 := by omega
  · exact ⟨properFormat (by simp [fpFmt]), by decide⟩
  · exact ⟨properFormat (by simp [fpFmt]), by decide⟩

section
variable {t : Term} {k : RedPkt}

theorem meets_eq_true : t.meets k = true ↔ t.child = true ∧ (t.pos = k.idx ∨ ¬ t.bits &&& childBits k = 0) := by
  rw [Term.meets, Bool.and_eq_true, Bool.or_eq_true, bne_iff_ne, beq_iff_eq, or_comm]

theorem meets_eq_false : t.meets k = false ↔ (t.child = true → t.pos ≠ k.idx ∧ t.bits &&& childBits k = 0) := by
  rw [← Bool.not_eq_true, meets_eq_true, not_and, not_or, not_not]

theorem meets_eq_false_of (h : t.child = false ∨ (t.pos ≠ k.idx ∧ t.bits &&& childBits k = 0)) : t.meets k = false :=
  meets_eq_false.2 fun hc => h.resolve_left (ne_of_eq_of_ne hc (by decide))

end

/-- Settles O49: each instruction and event by the rules above; a node's value is the tree's, the exact sum or the sorted
list. -/
theorem reductions : Obligations.Reductions := by
  unfold Obligations.Reductions
  intro s d a b x y e p pk f c n ep me illegal use free room advanced sends
  have hroom (h : room) : s.RedRoom e := by
    obtain ⟨hfree, hepochs, hslots⟩ := h
    exact ⟨hfree, hepochs, hslots⟩
  refine ⟨fun hops => ⟨fun hx => exec_smark.trans (execSmark_ok hops hx), fun hx => exec_smark.trans (execSmark_illegal hops hx),
    ?_, ?_, ?_, ?_⟩, ?_, ?_, ?_, ?_, ?_, ?_, ?_⟩
  · intro hu hf hr
    obtain ⟨t, ht, hrest⟩ := execRput_ok (State.RedUsable.of_use hu) hf hops (hroom hr)
    exact ⟨t, exec_rput.trans ht, hrest⟩
  · exact fun hu hf hfree h =>
      exec_rput.trans (execRput_waits (State.RedUsable.of_use hu) hf hops (State.putRed_full hfree h))
  · exact fun hu hf hheld => exec_rput.trans
      (execRput_waits (State.RedUsable.of_use hu) hf hops (State.putRed_held (eq_true_of_ne_false hheld)))
  · intro x1 field
    have hfield : field = wf := by
      funext w lo n
      exact (wf_eq_toNat w lo n).symm
    clear_value field
    subst hfield
    intro ent index words
    have hwords : words ↔ joinWordsOk (s.ctx.rx 1) (s.ctx.rx 2) = true := (joinWordsOk_iff _ _).symm
    refine ⟨fun hw => exec_rjoin.trans (execRjoin_illegal hops (eq_false_of_ne_true fun h => hw (hwords.2 h))),
      fun hw hp ho hx => ⟨?_, ?_, ?_⟩, ?_⟩
    · exact fun hl => exec_rjoin.trans (execRjoin_lost hops (hwords.1 hw) (State.holds_of hp ho) hx hl)
    · exact fun hu hl => exec_rjoin.trans (execRjoin_bound hops (hwords.1 hw) (State.holds_of hp ho) hx hu hl)
    · exact fun hu hs => exec_rjoin.trans (execRjoin_small hops (hwords.1 hw) (State.holds_of hp ho) hx hu hs)
    · intro hp ho hx h1 h2 hu h34 h257 h3 hb hv hin hred held
      have hw := hwords.1 ⟨h1, (by omega : 1 ≤ 34).trans h34, h257, h2⟩
      have hadm : ent.Admits x := ⟨hv, hin, hred⟩
      refine ⟨fun hh => exec_rjoin.trans (execRjoin_held hops hw (State.holds_of hp ho) hx hu h34 h3 hb hadm hh), fun hh => ?_⟩
      obtain ⟨t, ht, hrest⟩ := execRjoin_ok hops hw (State.holds_of hp ho) hx hu h34 h3 hb hadm hh
      exact ⟨t, exec_rjoin.trans ht, hrest⟩
  · refine fun hops => ⟨fun hu hf hy => ?_, fun hu hf h0 hk ks hks ht hr => ?_, fun hu hf hy =>
      exec_rtopk.trans (execRtopk_empty (State.RedUsable.of_use hu) hf hops hy)⟩
    · obtain ⟨t, ht, hrest⟩ := execRcorr_ok (State.RedUsable.of_use hu) hf hops hy
      exact ⟨t, exec_rcorr.trans ht, hrest⟩
    · obtain ⟨t, ht', hadv, hsent⟩ := execRtopk_ok (State.RedUsable.of_use hu) hf hops h0 hk hks ht (hroom hr)
      exact ⟨t, exec_rtopk.trans ht', hadv, hsent⟩
  · intro hops hu h k
    have hru := State.RedUsable.of_use hu
    have hk : k - 16 = s.redSlot e := Nat.add_sub_cancel ..
    rw [hk]
    refine ⟨fun hh => exec_rget.trans (execRget_busy hru hops hh), fun hh =>
      ⟨fun hF => exec_rget.trans (execRget_empty hru hops hh hF),
      fun hF hheld => exec_rget.trans (execRget_held hru hops hh hF hheld), fun hF hheld hexc hd => ?_⟩⟩
    exact ⟨_, exec_rget.trans (execRget_ok hru hops hh hF hheld hexc), State.tookResult_effect hru.proto hd _ fun _ => rfl⟩
  · intro port hhead k hk ent t dropped isRes into node fresh ahead
    have heq := exec_reductionPacketArrival.trans (execReductionPacketArrival_red hhead hk)
    rw [heq]
    have hnode (g : FloeId) (m : BitVec 12) : t.node g m = s.node g m := rfl
    refine ⟨fun hv => congrArg _ (State.redArrival_invalid hv), fun hv hr => ⟨fun ho => ?_, fun ho => ?_⟩,
      fun h => congrArg _ (State.redArrival_outside h), fun hv h4 hin hm => congrArg _ (State.redArrival_marked hv h4 hin hm),
      fun hv h4 hin hm => ?_⟩
    · exact congrArg _ ((State.redArrival_result hv hr).trans (if_neg (ne_true_of_eq_false ho)))
    · exact congrArg _ ((State.redArrival_result hv hr).trans (if_pos ho))
    · rw [State.redArrival_onward hv h4 hin hm]
      refine ⟨fun hr => congrArg _ (if_neg (ne_true_of_eq_false hr)), fun hr => ?_⟩
      rw [if_pos hr]
      refine ⟨fun h => congrArg _ (State.nodeArrive_idle h), fun h h0 => congrArg _ (State.nodeArrive_current h h0),
        fun h h0 => congrArg _ (State.nodeArrive_stale h h0), fun h h1 h2 => ?_, fun h h1 h2 => ?_⟩
      · exact congrArg _ (State.nodeArrive_newer (s := t) h h1 h2)
      · exact congrArg _ (State.nodeArrive_newer (s := t) h h1 h2)
  · exact ⟨fun h => exec_reductionDeadline.trans (execReductionDeadline_open h),
      fun h => exec_reductionDeadline.trans (execReductionDeadline_shut h)⟩
  · intro harr k gen t joined
    refine ⟨fun hd hb => ?_, fun hd hb => ?_⟩
    · have heq := exec_reductionResultArrival.trans (execReductionResultArrival_buddy (State.atUnit_of ⟨harr, hd, hb⟩))
      rw [heq]
      refine ⟨fun hg hr hh => ?_, fun hg hr hh => ?_, fun h => ?_⟩
      · rw [hg, hr, hh]
        simp
      · rw [hg, hr, hh]
        simp [t]
      · rcases h with h | h
        · simp [h, t]
        · simp [h, t]
    · have hat := State.atUnit_of ⟨harr, hd, hb⟩
      have hjoin (c : CoreId) (e : EpId) : joined c e ↔ s.joins c e k.stream = true := State.joins_iff.symm
      refine ⟨fun hn => ?_, fun hc hj hh => ?_, fun hc hj hh ho => ?_⟩
      · exact exec_reductionResultArrival.trans (execReductionResultArrival_none hat fun c hc e =>
          eq_false_of_ne_true fun h => hn c hc e ((hjoin c e).2 h))
      · exact exec_reductionResultArrival.trans (execReductionResultArrival_held hat hc ((hjoin c e).1 hj) hh)
      · intro ep used first full
        have hone := exec_reductionResultArrival.trans (execReductionResultArrival_one hat hc ((hjoin c e).1 hj) hh
          fun c' hc' e' hj' => ho c' hc' e' ((hjoin c' e').2 hj'))
        exact ⟨fun hf => hone.trans (congrArg _ (State.placeRed_full (s := t) hf)),
          fun hf => hone.trans (congrArg _ (State.placeRed_fills (s := t) hf))⟩
  · intro u ent port k x inside foreign up took dup keeps bits disjoint
    have hkeeps {l : List Term} (h : took = u.nodeKept f n ent l) : keeps l := by
      obtain ⟨h1, h2, h3⟩ := State.nodeKept_cases (u := u) (f := f) (n := n) (ent := ent) l
      exact ⟨fun hf => h.trans (h1 hf), fun hf hl => h.trans (h2 hf hl), fun hf hl => h.trans (h3 hf hl)⟩
    refine ⟨State.nodeTake_outside, fun hin h2 => ⟨fun ht => State.nodeTake_dup hin (takeIn_counted h2 ht), fun ht => ?_⟩,
      fun hin h2 h4 => ⟨fun ht => ?_, ?_, ?_⟩, nodeFull_iff ent x.terms, ?_⟩
    · obtain ⟨hup, hok⟩ := State.nodeTake_limited hin (takeIn_contribution (foreign := u.comesForeign f n pk port k) h2 ht)
      refine ⟨hup, fun hl => ⟨fun hfor => ?_, fun hfor => ?_⟩⟩
      · have hk := hok hl
        rw [State.comesForeign_iff.2 hfor] at hk
        exact hkeeps hk
      · have hk := hok hl
        rw [eq_false_of_ne_true fun h => hfor (State.comesForeign_iff.1 h)] at hk
        exact hkeeps hk
    · have hapart : ∀ t ∈ x.terms, t.meets k = false := fun t hm => meets_eq_false.2 (ht t hm)
      obtain ⟨hup, hok⟩ := State.nodeTake_limited hin (takeIn_child_apart (foreign := u.comesForeign f n pk port k) h2 hapart)
      exact ⟨hup, fun hl => hkeeps (hok hl)⟩
    · rintro ⟨t, hm, hc, hmeets, hpart⟩
      refine State.nodeTake_dup hin (takeIn_child_dup h2 hm ?_ hpart)
      exact meets_eq_true.2 ⟨hc, hmeets⟩
    · intro t hm hc hpos hne hsub hone
      have hothers : ∀ t' ∈ x.terms, t' = t ∨ t'.meets k = false := fun t' hm' =>
        (hone t' hm').imp_right meets_eq_false_of
      obtain ⟨hup, hok⟩ := State.nodeTake_limited hin (takeIn_child_replaces (foreign := u.comesForeign f n pk port k) h2 hm
        (meets_eq_true.2 ⟨hc, .inl hpos⟩) hne hsub hothers)
      exact ⟨hup, fun hl => hkeeps (hok hl)⟩
    · intro first root q v F rounds rounded
      refine ⟨rfl, rfl, rfl, rfl, rfl, rfl, rfl, fun hr => ?_, fun hr => ?_, fun hr hf => ?_, fun h => ?_,
        nodePacket_rsh n ent x first, nodePacket_set n ent x first, nodePacket_bits n ent x first, rfl, nodePacket_rounded n ent x first,
        nodePacket_unrounded n ent x first⟩
      · refine (nodePacket_ptype n ent x first).trans ?_
        rw [if_pos hr]
        cases first <;> rfl
      · refine (nodePacket_ptype n ent x first).trans ?_
        rw [if_neg hr]
        cases first <;> rfl
      · exact (nodePacket_seq n ent x first).trans (if_pos ⟨hr, hf⟩)
      · refine (nodePacket_seq n ent x first).trans (if_neg ?_)
        rintro ⟨hr, hf⟩
        rcases h with h | h
        · exact h hr
        · exact Bool.false_ne_true (hf.symm.trans h)
  · intro ent terms F lo m v raised
    refine ⟨?_, fun a b ha hb => ⟨redOp_int_sum, redOp_int_min ha hb, redOp_int_max ha hb, redOp_float_sum, redOp_float_min,
        redOp_float_max⟩, fun _ _ _ _ _ _ => nodeValue_sum, fun k h2 ho hf w hw => ?_, ?_, nodeValue_topk,
      fun _ _ _ _ => topBefore_of_ordered⟩
    · dsimp only [lo, m, v, raised]
      exact nodeValue_tree
    · rw [termVal_exact h2 ho hf hw]
      exact ⟨fun _ _ _ => accOf_fin, fun _ => accOf_inf, fun _ _ _ => accOf_nan⟩
    · intro any nz snan nan ninf pinf x hf r
      obtain ⟨hF, hq⟩ := fpFmt_proper hf
      refine ⟨fun h => if_pos h, ?_, ?_, ?_, ?_⟩
      · rintro rfl rfl rfl
        rfl
      · rintro rfl rfl rfl
        rfl
      · rintro rfl rfl rfl
        rfl
      · rintro rfl rfl rfl
        refine ⟨accRound_rounds hF hq any nz snan, ?_, ?_⟩
        · rintro rfl rfl rfl
          rfl
        · rintro rfl h
          refine (accRound_zero F any nz snan).trans ?_
          rcases h with rfl | rfl
          · simp [Fmt.signed, b2n]
          · simp [Fmt.signed, b2n]

end Sys2Proof.Machine
end
